-- ==== Sys2Proof/Word.lean ====
section
/-! DEFINITION. The words of the device: bytes, 32-bit registers, 64-bit Zyn words, 4 096-byte blocks. -/
namespace Sys2Proof

/-- One byte. -/
abbrev Byte := BitVec 8
/-- A BAR2 register (Register conventions: every register is 32 bits wide). -/
abbrev Word := BitVec 32
/-- A Zyn working register, a table word, device time. -/
abbrev Word64 := BitVec 64
/-- The 4 096 data bytes of one logical block, byte 0 in bits [7:0]. -/
abbrev Block := BitVec 32768
/-- The 4 128 bytes of a codeword that outer parity covers (R257): 4 096 B of ciphertext, then 32 B of OOB. -/
abbrev Payload := BitVec 33024
/-- A 48-byte digest (SHA-384, SHA3-384). -/
abbrev Digest := BitVec 384
/-- An AES-256-XTS key: two 256-bit keys. -/
abbrev XtsKey := BitVec 512

end Sys2Proof
end

