-- ==== Sys2Proof/Syntax.lean ====
section
/-! DEFINITION. The commands the block takes: one constructor per row of spec/opcode_table.json, with the operand types.
The table gives no bits, so the operands are the model's own, read from the rule of each row (notes/assumptions/2.md). -/
namespace Sys2Proof

/-! ### Operand types -/

/-- The four engine classes of R70. -/
inductive EngClass | cmd | map | seq | pol
deriving DecidableEq, Repr

/-- A hardware context: class, engine, context number (R70, R74). -/
structure CtxId where
  cls : EngClass
  eng : Nat
  ctx : Nat
deriving DecidableEq, Repr

/-- Types of SGL descriptors (R149). -/
inductive SglKind | dataBlock | bitBucket | segment | lastSegment | keyed | transport
deriving DecidableEq, Repr

/-- A submission queue entry as the HIU reads it from host memory, with what its data pointer names when
the device must read that to act (ranges of Dataset Management and Copy, Create and set-up data). -/
structure Sqe where
  opc : BitVec 8 := 0
  fuse : BitVec 2 := 0
  cid : BitVec 16 := 0
  nsid : BitVec 32 := 0
  cdw10 : BitVec 32 := 0
  cdw11 : BitVec 32 := 0
  cdw12 : BitVec 32 := 0
  cdw13 : BitVec 32 := 0
  cdw14 : BitVec 32 := 0
  cdw15 : BitVec 32 := 0
  /-- Key tag of the command (Key Per I/O), 0 if none (R201). -/
  keyTag : BitVec 16 := 0
  /-- Source ranges: (first LBA, 0-based count) of Dataset Management or Copy. -/
  ranges : List (Nat × Nat) := []
  /-- SGL descriptors the data pointer names; none: PRPs (R149). -/
  sgl : List SglKind := []
deriving DecidableEq, Repr

/-- An SGL Bit Bucket descriptor is used (R222). -/
def Sqe.bitBucket (q : Sqe) : Bool := q.sgl.contains .bitBucket
/-- A descriptor the device does not support: Keyed, Transport, or a Bit Bucket elsewhere than on reads (R149). -/
def Sqe.badSgl (q : Sqe) : Bool :=
  q.sgl.contains .keyed || q.sgl.contains .transport || (q.bitBucket && q.opc.getLsbD 0 && !q.opc.getLsbD 1)

/-- Conditions of CMP (R113). -/
inductive Cond | eq | ne | ltu | geu | lt | ge | tst
deriving DecidableEq, Repr

/-- How CMP combines its result with the predicate (R113). -/
inductive Combine | set | and | or
deriving DecidableEq, Repr

/-- A record of an Install Entries action (R206). -/
structure ScRec where
  value : BitVec 160 := 0
  care : BitVec 160 := 0
  width : BitVec 8 := 1
  prio : BitVec 8 := 0
  result : BitVec 64 := 0
  index : BitVec 32 := 0
  /-- Bytes 42 to 43, and 56 to 63. -/
  zero42 : BitVec 16 := 0
  zero56 : BitVec 64 := 0
deriving DecidableEq, Repr

namespace Machine

/-- Sparse data by key: strictly rising keys, no entry equal to what an unlisted key reads as. -/
abbrev Sparse (α : Type) := List (Nat × α)

/-- An entry of an entry table, 16 bytes (R94): BEV_OFFSET of 0xFFFF_FFFF is no bus-error vector. -/
structure Entry where
  kind : BitVec 8
  flags : BitVec 8 := 0
  codeOffset : Word
  budget : Word
  bev : Word := 0xFFFFFFFF
deriving DecidableEq, Repr

/-- The bus-error vector an entry names (R94). -/
def Entry.vector (e : Entry) : Option Nat := if e.bev = 0xFFFFFFFF then none else some e.bev.toNat

/-- The running bundle as loaded (R93 to R96): code words, entry tables, PARAM image and maxima. -/
structure Bundle where
  id : Word := 0
  svn : Word := 0
  flags : BitVec 16 := 0
  /-- LAROC_VERSION: major, minor, patch and build, 16 bits each from the low end. -/
  laroc : Word64 := 0
  /-- Code words of CMD, MAP, SEQ, POL (the instruction stores of R75). -/
  code0 : List Word := []
  code1 : List Word := []
  code2 : List Word := []
  code3 : List Word := []
  entries0 : List Entry := []
  entries1 : List Entry := []
  entries2 : List Entry := []
  entries3 : List Entry := []
  param : List Word64 := []
  /-- Declared maxima of PARAM entries, from the attestation (R81). -/
  paramMax : Sparse Nat := []
  /-- Default Seating Chart records: 64 bytes each, bits little-endian (R209). -/
  defaults : List (BitVec 512) := []
deriving DecidableEq, Repr

/-- xSPI NOR device as the ROM and Firmware Commit see it (R434), kept through resets. -/
structure Selector where
  gen : Nat := 0
  next : Bool := false
  ok : Bool := false
deriving DecidableEq, Repr

/-- A signature block (R389), integers little-endian; the keys stand as their hash, the signatures as what verifying them over bytes
0x0000 to 0x0AC3 answers. -/
structure SigBlock where
  magic : Word := 0
  format : BitVec 16 := 0
  flags : BitVec 16 := 0
  svn : Word := 0
  payloadLen : Word := 0
  payloadDigest : Digest := 0
  /-- SHA-384(ECDSA_PUB ‖ MLDSA_PUB) (R390). -/
  keyHash : Digest := 0
  ecdsaOk : Bool := false
  mldsaOk : Bool := false
deriving DecidableEq, Repr

/-- A directory entry (R93). -/
structure DirEntry where
  type : BitVec 16
  flags : BitVec 16 := 0
  offset : Word
  length : Word
deriving DecidableEq, Repr

/-- What the verifier attestation carries (section 0x0040, R95, R97). -/
structure Attest where
  bundleId : Word := 0
  /-- Digest carried for each code section, by section type. -/
  code : Sparse Digest := []
  /-- Properties of R97 attested of each entry point, in the rule's order from bit 0: key class × 256 + kind. -/
  props : Sparse (BitVec 7) := []
  /-- Attested worst case of each entry point (R95 check 6): key class × 256 + kind. -/
  worst : Sparse Nat := []
deriving DecidableEq, Repr

/-- The image of a slot: signature block, bundle header and directory, the hashes of what the digests cover, and the sections (R93, R94,
R389). -/
structure Image where
  block : SigBlock := {}
  /-- SHA-384 of the payload that follows the block. -/
  payloadHash : Digest := 0
  /-- The block section 0x0030 begins with, and the SHA-384 of that section's payload. -/
  vendor : SigBlock := {}
  vendorHash : Digest := 0
  /-- SHA-384 of image bytes 0x0000 to 0x0AC3 (R395). -/
  digest : Digest := 0
  sec30 : Digest := 0
  /-- Bundle header fields (R93) that `bundle` does not carry. -/
  magic : Word := 0
  bformat : BitVec 16 := 0
  totalLen : Word := 0
  sections : BitVec 16 := 0
  contentDigest : Digest := 0
  attestDigest : Digest := 0
  minRom : Word := 0
  /-- DIRECTORY: the entries from the first. -/
  dir : List DirEntry := []
  /-- SHA-384 of bytes 0x200 to TOTAL_LEN − 1, of the attestation section, and of each code section by its type. -/
  contentHash : Digest := 0
  attestHash : Digest := 0
  codeHash : Sparse Digest := []
  attest : Attest := {}
  bundle : Bundle := {}
deriving DecidableEq, Repr

/-- SVN of an image (R389). -/
def Image.svn (i : Image) : Nat := i.block.svn.toNat
/-- Hash of the owner's keys in an image (R390). -/
def Image.keyHash (i : Image) : Digest := i.block.keyHash

/-- Content of the xSPI NOR device (R434). -/
structure Nor where
  sel0 : Selector := {}
  sel1 : Selector := {}
  slotA : Image := {}
  slotB : Image := {}
deriving DecidableEq, Repr

/-- What a boot meets outside the device (R430, R432, R256): strap levels at the edge, the outcome of each step, and the media. -/
structure BootIn where
  gpio0 : Bool := false
  gpio1 : Bool := false
  gpio2 : Bool := false
  bootSlot : Bool := false
  roleHint : Bool := false
  /-- B1: fuse parity holds. -/
  fusesOk : Bool := true
  /-- B2: CASTs pass; the entropy source starts. -/
  castOk : Bool := true
  entropyOk : Bool := true
  /-- B4: the xSPI device answers. -/
  xspiOk : Bool := true
  /-- The board has rewritten the NOR device since the last boot (R433): its new content. -/
  nor : Option Nor := none
  /-- B9: DRAM training passes. -/
  trainOk : Bool := true
  /-- The saved set verifies, so that the fast path is taken (R365); time of training in ms, and the step it ended in. -/
  fastOk : Bool := true
  trainMs : BitVec 16 := 0
  trainStep : BitVec 4 := 0
  /-- Time from the strap-sampling edge to the end of the ROM steps, in ms. -/
  ms : BitVec 16 := 0
  romRev : BitVec 16 := 0
  /-- Populated channels (8, 16 or 32), targets per channel and LUNs per target (R256); dies whose LUN reports another geometry;
  factory bad-block marks: die × 2^15 + block. -/
  channels : Nat := 8
  targets : Nat := 1
  luns : Nat := 1
  oddDies : List Nat := []
  badBlocks : List Nat := []
  /-- Geometry of the first LUN of channel 0: pages per block, planes, codewords per page, blocks. -/
  ppb : Nat := 64
  planes : Nat := 1
  cpp : Nat := 1
  blocks : Nat := 64
  /-- Interface type and rate reached per channel (SEQ_IFCFG): channel, IFTYPE, RATE. -/
  iface : List (Nat × Nat × Nat) := []
deriving DecidableEq, Repr

end Machine

/-- What a scrubber visits (R330 to R332). -/
inductive StoreLoc
  /-- An SRAM word: store code 0 to 4, 6 or 7, and its address; scratch words by participant × 65 536 + address. -/
  | sram (store : BitVec 4) (addr : BitVec 32)
  /-- An instruction-store word of a participant's engine. -/
  | istore (part : BitVec 6) (word : BitVec 18)
  | buffer (h : BitVec 21)
  | pending (h : BitVec 21)
  /-- The DRAM line or page word of a table entry: MAP, ZDESC, BLOCK, TENANT, NSREC. -/
  | line (tbl : BitVec 4) (index : BitVec 40)
  | heap (die : BitVec 10)
  | dieWord (die : BitVec 10) (word : BitVec 2)
  /-- Another word of DRAM table space. -/
  | table (addr : BitVec 37)
  /-- A triplicated critical word: 0 JNL_HEAD, 1 JNL_TAIL, 2 SHUTDOWN, 3 flush number, 4 checkpoint-set pointer, 5 power-cycle count
  and operating seconds, 6 lifecycle, 7 key-hierarchy root pointers, 8 ledger head, 9 Gradebook head; `bad`: the copies that fail. -/
  | critical (word : BitVec 4) (bad : BitVec 3)
  | batch (slot : BitVec 14)
  /-- A shadow: 0 TENANT, 1 NSREC, 2 Seating Chart, 3 threshold offsets; `live`: its live copy is readable. -/
  | shadow (which : BitVec 2) (live : Bool)
  /-- A word of the Gradebook or the ledger region. -/
  | region (ledger : Bool) (addr : BitVec 23)
deriving DecidableEq, Repr

/-- What the code says of a word (R323 to R325). -/
inductive EccRes
  | clean
  /-- Corrected, with the syndrome, failing device or bit count. -/
  | corrected (synd : BitVec 8)
  | uncorrectable
deriving DecidableEq, Repr

/-- What a Tether frame's header says beside its type (R456): the link it came on (false West), the ring IDs of its source and
destination, and the message tag. -/
structure TetherHdr where
  link : Bool := false
  src : BitVec 2 := 0
  dst : BitVec 2 := 0
  tag : BitVec 32 := 0
deriving DecidableEq, Repr

/-- A DRAM request at its port (R347, R350): address, port, a write (masked or not) or a read, and how long it has waited there in ns. -/
structure DramReq where
  addr : BitVec 37
  port : BitVec 3
  write : Bool := false
  masked : Bool := false
  ageNs : BitVec 24 := 0
deriving DecidableEq, Repr

/-- Second word of NSUS and NRES: the activity kind and the record address (R130, R131). -/
structure SusWord where
  kind : BitVec 4
  crec : BitVec 16
deriving DecidableEq, Repr

/-- An untagged device operation: the issuing context and the record address (R129, R130). -/
structure Untagged where
  ctx : CtxId
  crec : BitVec 16
deriving DecidableEq, Repr

/-- What a Roll Call frame says of its call: the mask, the kind of R127, whether the sender has arrived, and its cut or value (R472). -/
structure CallBody where
  mask : Word64
  kind : BitVec 2
  arrived : Bool
  v : Word64
deriving DecidableEq, Repr

/-- An entry to link sleep: the port, and L1 (0), L1.1 (1) or L1.2 (R144, R413). -/
structure LinkSleep where
  port : Bool
  sub : BitVec 2
deriving DecidableEq, Repr

/-- A command of the block. -/
inductive Instr
  /-- COLD_RESET (R9): Power-on or brown-out of VDD_AON resets everything except MRAM contents. -/
  | coldReset (brownOut : Bool)
  /-- COLD_RESET_RELEASE (R430): The AON power-on detector releases cold reset 1 ms after VDD_AON is in range; the boot starts if PERST# is already high. -/
  | coldResetRelease (b : Machine.BootIn)
  /-- PERST_ASSERT (R500): PERST# falls; the flush path runs first if any buffer holds a step-1 record, and the warm reset then takes effect. -/
  | perstAssert
  /-- PERST_RELEASE (R430): PERST# rises; straps are sampled and the ROM boot starts. -/
  | perstRelease (b : Machine.BootIn)
  /-- CC_EN_SET (R438): CC.EN 0 to 1 latches configuration at the first enable of PF0 and starts recovery, or sets RDY after a controller reset. -/
  | ccEnSet (f asqs acqs : BitVec 12)
  /-- RECOVERY_PHASE (R315): A recovery phase starts once the previous one has ended, dispatching RECOVER; phase 4 ends with a MARK and CSTS.RDY. -/
  | recoveryPhase (bad : List Nat)
  /-- CONTROLLER_RESET (R171): CC.EN 1 to 0 of one function stops its fetch, squashes or drains its commands and deletes its queues. -/
  | controllerReset (f : BitVec 12) (trainOk : Bool)
  /-- NORMAL_SHUTDOWN (R172): CC.SHN 01b completes commands, programs dirty data, seals the journal and sets SHST. -/
  | normalShutdown (f : BitVec 12)
  /-- ABRUPT_SHUTDOWN (R172): CC.SHN 10b acts as a controller reset and then sets SHST. -/
  | abruptShutdown (f : BitVec 12)
  /-- HOT_RESET (R147): A Hot Reset, Link Down or DPC containment acts as a controller reset of every function of the port. -/
  | hotReset (port trainOk : Bool)
  /-- FUNCTION_LEVEL_RESET (R194): An FLR stops the function's fetch, squashes or drains its commands and sets STATE to RESETTING. -/
  | functionLevelReset (f : BitVec 12) (late : List (BitVec 17 × List Block))
  /-- FLR_COMPLETE (R194): Once the function's context count reaches 0, its registers and queues reset and STATE returns to OFFLINE or ONLINE. -/
  | flrComplete (f : BitVec 12)
  /-- VF_ENABLE_CLEAR (R198): Clearing VF Enable or lowering NumVFs runs an FLR of each removed VF in parallel. -/
  | vfEnableClear (pf : Bool) (n : BitVec 12) (late : List (BitVec 17 × List Block))
  /-- BELL_EDGE (R40): An active BELL edge is checked and taken as a phase sample, or rejected as a glitch. -/
  | bellEdge
  /-- BELL_EDGE_TIMEOUT (R40): No BELL edge within 1.5 times the interval makes the BELL source invalid. -/
  | bellEdgeTimeout
  /-- PTM_DIALOG (R38): A completed PTM dialog supplies phase and absolute time. -/
  | ptmDialog (root : Word64)
  /-- PTM_INTERVAL_MISS (R40): Three consecutive PTM intervals without a completed dialog make the PTM source invalid. -/
  | ptmIntervalMiss
  /-- HOLDOVER_TIMEOUT (R44): The holdover timer reaches its limit and the state enters FREERUN unless a source became valid in that cycle. -/
  | holdoverTimeout
  /-- PERIOD_BOUNDARY (R46): Device time reaches a Period boundary; the type changes and Period-start activations are dispatched. -/
  | periodBoundary
  /-- TT_SRC_WRITE (R42): A write of TT_SRC reconfigures the Bell sources and may move the reference state. -/
  | ttSrcWrite (v : Word)
  /-- TT_CTRL_EN_WRITE (R49): A write of 1 to EN while it is 0 requests the install of the staged Timetable. -/
  | ttCtrlEnWrite (v : Word)
  /-- TT_SET_SEC_WRITE (R39): Sets the whole-second count, applied at the next BELL edge. -/
  | ttSetSecWrite (sec : Word)
  /-- TT_GC_CTRL_REQ (R64): Queues a Timetable commit of the staged set. -/
  | ttGcCtrlReq
  /-- COMMIT_REQUEST_SERVICE (R64): The TTU takes the next queued commit, validates it and broadcasts Prepare with kind and B. -/
  | commitRequestService
  /-- COMMIT_DEADLINE (R65): At D the commit is armed if every member has acked, and otherwise rolled back. -/
  | commitDeadline
  /-- COMMIT_APPLY (R64): At B the latched staged mode takes effect on every member in one clock. -/
  | commitApply
  /-- TT_NAMED_CTRL_ARM (R56): Arms a named Assembly at Period P, or refuses it as late. -/
  | ttNamedCtrlArm
  /-- TIMETABLE_COMMAND (R56): The vendor admin command arms a named Assembly or sets the time. -/
  | timetableCommand (f : BitVec 12) (cid : BitVec 16) (setTime : Bool) (v : Word64)
  /-- ROLL_CALL_RELEASE (R60): After the last member arrives, every member is released with the result of its kind. -/
  | rollCallRelease
  /-- ROLL_CALL_TIMEOUT (R62): Not all members arrived within TT_RC_TIMEOUT, and the arrived members are released with failure. -/
  | rollCallTimeout
  /-- ACTIVATION_DISPATCH (R73): A queued activation request is dispatched to an idle context, loading its entry PC and arguments. -/
  | activationDispatch (part : BitVec 6)
  /-- WAIT_LIMIT (R88): A blocked context's wait timer reaches the class limit and it traps. -/
  | waitLimit (i : CtxId)
  /-- BUDGET_TRAP (R98): The budget counter reaches BUDGET outside the final RET and the context traps. -/
  | budgetTrap (i : CtxId) (extra : BitVec 32)
  /-- TABLE_DATA_RETURN (R80): Data of a table operation that went to DRAM returns and the context becomes READY. -/
  | tableDataReturn (i : CtxId) (err : Bool)
  /-- ADD (R112): d := a + b. -/
  | add (i : CtxId) (d a b : BitVec 5)
  /-- SUB (R112): d := a - b. -/
  | sub (i : CtxId) (d a b : BitVec 5)
  /-- AND (R112): Bitwise and. -/
  | and (i : CtxId) (d a b : BitVec 5)
  /-- OR (R112): Bitwise or. -/
  | or (i : CtxId) (d a b : BitVec 5)
  /-- XOR (R112): Bitwise xor. -/
  | xor (i : CtxId) (d a b : BitVec 5)
  /-- ANDN (R112): d := a and not b. -/
  | andn (i : CtxId) (d a b : BitVec 5)
  /-- SHL (R112): Shift left by b[5:0]. -/
  | shl (i : CtxId) (d a b : BitVec 5)
  /-- SHR (R112): Logical shift right by b[5:0]. -/
  | shr (i : CtxId) (d a b : BitVec 5)
  /-- SAR (R112): Arithmetic shift right by b[5:0]. -/
  | sar (i : CtxId) (d a b : BitVec 5)
  /-- SHLI (R112): Shift left by an immediate amount. -/
  | shli (i : CtxId) (d a : BitVec 5) (n : BitVec 6)
  /-- SHRI (R112): Logical shift right by an immediate amount. -/
  | shri (i : CtxId) (d a : BitVec 5) (n : BitVec 6)
  /-- SARI (R112): Arithmetic shift right by an immediate amount. -/
  | sari (i : CtxId) (d a : BitVec 5) (n : BitVec 6)
  /-- MULLO (R112): Low 64 bits of the product. -/
  | mullo (i : CtxId) (d a b : BitVec 5)
  /-- MULHU (R112): High 64 bits of the unsigned product. -/
  | mulhu (i : CtxId) (d a b : BitVec 5)
  /-- MINU (R112): Unsigned minimum. -/
  | minu (i : CtxId) (d a b : BitVec 5)
  /-- MAXU (R112): Unsigned maximum. -/
  | maxu (i : CtxId) (d a b : BitVec 5)
  /-- CLZ (R112): Count of leading zero bits. -/
  | clz (i : CtxId) (d a : BitVec 5)
  /-- POPC (R112): Count of one bits. -/
  | popc (i : CtxId) (d a : BitVec 5)
  /-- MOV (R112): d := a. -/
  | mov (i : CtxId) (d a : BitVec 5)
  /-- SEL (R112): Select a or b by a predicate. -/
  | sel (i : CtxId) (d a b : BitVec 5) (p : BitVec 3)
  /-- CMP (R113): Compares two registers and combines the result into a predicate. -/
  | cmp (i : CtxId) (p : BitVec 3) (a b : BitVec 5) (cond : Cond) (comb : Combine)
  /-- CMPI (R113): Compares a register with an immediate into a predicate. -/
  | cmpi (i : CtxId) (p : BitVec 3) (cond : BitVec 2) (a : BitVec 5) (imm : BitVec 16)
  /-- PAND (R114): Predicate and. -/
  | pand (i : CtxId) (d a b : BitVec 3)
  /-- POR (R114): Predicate or. -/
  | por (i : CtxId) (d a b : BitVec 3)
  /-- PXOR (R114): Predicate xor. -/
  | pxor (i : CtxId) (d a b : BitVec 3)
  /-- PNOT (R114): Predicate not. -/
  | pnot (i : CtxId) (d a : BitVec 3)
  /-- PSET (R114): Sets a predicate. -/
  | pset (i : CtxId) (d : BitVec 3)
  /-- PCLR (R114): Clears a predicate. -/
  | pclr (i : CtxId) (d : BitVec 3)
  /-- ADDI (R115): Adds a sign-extended immediate. -/
  | addi (i : CtxId) (d a : BitVec 5) (imm : BitVec 16)
  /-- ANDI (R115): Ands with a zero-extended immediate. -/
  | andi (i : CtxId) (d a : BitVec 5) (imm : BitVec 16)
  /-- ORI (R115): Ors with a zero-extended immediate. -/
  | ori (i : CtxId) (d a : BitVec 5) (imm : BitVec 16)
  /-- XORI (R115): Xors with a zero-extended immediate. -/
  | xori (i : CtxId) (d a : BitVec 5) (imm : BitVec 16)
  /-- MOVI (R115): Loads a sign-extended immediate. -/
  | movi (i : CtxId) (d : BitVec 5) (imm : BitVec 16)
  /-- MOVSH (R115): Shifts d left by 16 and inserts an immediate. -/
  | movsh (i : CtxId) (d : BitVec 5) (imm : BitVec 16)
  /-- SVR (R116): Reads a special value. -/
  | svr (i : CtxId) (d : BitVec 5) (name : BitVec 12)
  /-- SVW (R116): Writes a special value. -/
  | svw (i : CtxId) (name : BitVec 12) (a : BitVec 5)
  /-- LD8 (R117): Loads 1 byte from scratch. -/
  | ld8 (i : CtxId) (d a : BitVec 5) (imm : BitVec 16)
  /-- LD16 (R117): Loads 2 bytes from scratch. -/
  | ld16 (i : CtxId) (d a : BitVec 5) (imm : BitVec 16)
  /-- LD32 (R117): Loads 4 bytes from scratch. -/
  | ld32 (i : CtxId) (d a : BitVec 5) (imm : BitVec 16)
  /-- LD64 (R117): Loads 8 bytes from scratch. -/
  | ld64 (i : CtxId) (d a : BitVec 5) (imm : BitVec 16)
  /-- ST8 (R117): Stores 1 byte to scratch. -/
  | st8 (i : CtxId) (d a : BitVec 5) (imm : BitVec 16)
  /-- ST16 (R117): Stores 2 bytes to scratch. -/
  | st16 (i : CtxId) (d a : BitVec 5) (imm : BitVec 16)
  /-- ST32 (R117): Stores 4 bytes to scratch. -/
  | st32 (i : CtxId) (d a : BitVec 5) (imm : BitVec 16)
  /-- ST64 (R117): Stores 8 bytes to scratch. -/
  | st64 (i : CtxId) (d a : BitVec 5) (imm : BitVec 16)
  /-- TGET (R119): Reads a table word. -/
  | tget (i : CtxId) (d a : BitVec 5) (tbl : BitVec 8)
  /-- TPUT (R119): Writes a word of a non-journaled table. -/
  | tput (i : CtxId) (a b : BitVec 5) (tbl : BitVec 8)
  /-- TCAS (R119): Compares a table word and swaps it on a match, journaled on journaled tables. -/
  | tcas (i : CtxId) (d a b : BitVec 5) (tbl : BitVec 8) (p : BitVec 3)
  /-- TJRN (R119): Writes a journaled table word and enters a record in the open batch. -/
  | tjrn (i : CtxId) (d a b : BitVec 5) (tbl : BitVec 8)
  /-- QPOP (R122): Pops a mailbox entry if one is present. -/
  | qpop (i : CtxId) (d : BitVec 5) (h : BitVec 8) (p : BitVec 3)
  /-- QPEEK (R122): Reads the head of a mailbox without removing it. -/
  | qpeek (i : CtxId) (d : BitVec 5) (h : BitVec 8) (p : BitVec 3)
  /-- QPUSH (R122): Pushes to a mailbox or a dispatch queue unless it is full. -/
  | qpush (i : CtxId) (d a b : BitVec 5) (h : BitVec 8) (p : BitVec 3)
  /-- WEV (R124): Blocks until an event of the mask is set and consumes the lowest one. -/
  | wev (i : CtxId) (d a : BitVec 5)
  /-- SEV (R124): Sets a software event on a named context. -/
  | sev (i : CtxId) (a : BitVec 5) (n : BitVec 4)
  /-- TNOW (R125): Returns device time in µs. -/
  | tnow (i : CtxId) (d : BitVec 5)
  /-- PTYPE (R125): Returns the type of the current Period. -/
  | ptype (i : CtxId) (d : BitVec 5)
  /-- WPER (R125): Blocks until the next Period boundary. -/
  | wper (i : CtxId)
  /-- PWAIT (R417): Puts the context ASLEEP in the selected power mode, possibly stopping engine clocks. -/
  | pwait (i : CtxId)
  /-- RCALL_BARRIER (R127): Joins or opens a barrier Roll Call. -/
  | rcallBarrier (i : CtxId) (d a b : BitVec 5) (ring : Bool) (p : BitVec 3)
  /-- RCALL_BROADCAST (R127): Joins or opens a broadcast Roll Call. -/
  | rcallBroadcast (i : CtxId) (d a b : BitVec 5) (ring : Bool) (p : BitVec 3)
  /-- RCALL_SNAPSHOT (R63): Joins or opens a snapshot Roll Call that stalls sequence allocation and fixes a cut. -/
  | rcallSnapshot (i : CtxId) (d a b : BitVec 5) (ring : Bool) (p : BitVec 3)
  /-- RCALL_COMMIT_VOTE (R127): A PREPARE activation records its ack or nack for the pending commit. -/
  | rcallCommitVote (i : CtxId) (b : BitVec 5) (p : BitVec 3)
  /-- TRAP (R128): Traps with SOFTWARE, storing the immediate. -/
  | trap (i : CtxId) (imm : BitVec 16)
  /-- NRD (R131): Issues a NAND read of a run of codewords into staging. -/
  | nrd (i : CtxId) (d a : BitVec 5) (soft : BitVec 2) (set kind : BitVec 4) (crec : BitVec 16)
  /-- NPG (R515): Loads codewords into a LUN's latches, and the last NPG starts the program. -/
  | npg (i : CtxId) (d a b : BitVec 5) (kind : BitVec 4) (qlc last : Bool) (crec : BitVec 16)
  /-- NER (R283): Issues an erase of a closed block with VALID 0, or refuses it. -/
  | ner (i : CtxId) (d a : BitVec 5) (kind : BitVec 4) (crec : BitVec 16)
  /-- NSUS (R132): Suspends a LUN's running program or erase. -/
  | nsus (i : CtxId) (d a : BitVec 5) (w : SusWord)
  /-- NRES (R132): Resumes an operation suspended by NSUS. -/
  | nres (i : CtxId) (d a : BitVec 5) (w : SusWord)
  /-- XFER (R133): Moves data between host, pool and staging with crypto applied by direction. -/
  | xfer (i : CtxId) (d a b : BitVec 5) (count : BitVec 8) (pau : Bool) (crec : BitVec 16)
  /-- LOOKUP (R134): Searches the Seating Chart with a key from scratch. -/
  | lookup (i : CtxId) (d a : BitVec 5) (width : BitVec 2) (crec : BitVec 16)
  /-- RANGE_LOCK (R161): Arms the command's range-lock request for grant. -/
  | rangeLock (u : Untagged)
  /-- RANGE_UNLOCK (R134): Releases the command's range lock. -/
  | rangeUnlock (u : Untagged)
  /-- ZONE_LOCK (R134): Requests the zone lock of a zone. -/
  | zoneLock (i : CtxId) (d a : BitVec 5) (crec : BitVec 16)
  /-- ZONE_UNLOCK (R134): Releases a held zone lock. -/
  | zoneUnlock (u : Untagged) (a : BitVec 5)
  /-- CQPOST (R134): Requests the reservation and posting of the command's CQE. -/
  | cqpost (i : CtxId) (d a : BitVec 5) (crec : BitVec 16)
  /-- SPEC (R135): Issues a speculative NAND read and records the predicting entry. -/
  | spec (i : CtxId) (d a b : BitVec 5) (zdesc : Bool) (crec : BitVec 16)
  /-- CONF (R136): Confirms a speculation against the entry's sequence number, or squashes it. -/
  | conf (i : CtxId) (a : BitVec 5) (p : BitVec 3)
  /-- SQSH (R136): Discards a speculative operation. -/
  | sqsh (i : CtxId) (a : BitVec 5)
  /-- BR (R139): Unconditional branch. -/
  | br (i : CtxId) (off : BitVec 23)
  /-- BR_V (R141): Branch that ends the bus-error vector state. -/
  | brV (i : CtxId) (off : BitVec 23)
  /-- BRP (R139): Branch if the predicate is true. -/
  | brp (i : CtxId) (p : BitVec 3) (off : BitVec 23)
  /-- BRP_FALSE (R139): Branch if the predicate is false. -/
  | brpFalse (i : CtxId) (p : BitVec 3) (off : BitVec 23)
  /-- CALL (R139): Pushes the return address and branches. -/
  | call (i : CtxId) (off : BitVec 23)
  /-- RET (R139): Returns, or ends the activation at depth 0. -/
  | ret (i : CtxId)
  /-- LOOPN (R140): Decrements a bounded loop counter and branches. -/
  | loopn (i : CtxId) (r e : BitVec 5) (off : BitVec 16)
  /-- NAND_OPERATION_COMPLETE (R131): A NAND operation reports ready, and its status and completion record are written. -/
  | nandOperationComplete (die : BitVec 10) (fail : Bool)
  /-- READY_TIMEOUT (R262): An operation reaches its ready timeout, completes READY_TIMEOUT and the LUN is reset. -/
  | readyTimeout (die : BitVec 10)
  /-- DECODE_COMPLETE (R270): LDPC decode of a codeword ends with success or failure. -/
  | decodeComplete (chan : BitVec 5) (ok : Bool) (corrected up : BitVec 16) (outerOk : Bool)
  /-- XFER_COMPLETE (R133): A transfer ends and its completion record and tag event are written. -/
  | xferComplete (i : CtxId) (tag : BitVec 4) (err : Bool) (data : List Block)
  /-- ZONE_LOCK_GRANT (R134): A zone lock is granted in arrival order. -/
  | zoneLockGrant (z : BitVec 22)
  /-- RANGE_LOCK_GRANT (R162): An armed lock request with no conflicting lower FSN is granted and a STEP is dispatched. -/
  | rangeLockGrant (c : BitVec 17)
  /-- COMMIT_POINT (R166): A CQ entry frees for a waiting CQPOST, the entry is reserved and the CQE is posted. -/
  | commitPoint (c : BitVec 17)
  /-- READ_PREEMPT_SUSPEND (R264): A waiting host read suspends a running program or erase once the conditions hold. -/
  | readPreemptSuspend (die : BitVec 10)
  /-- SUSPEND_RESUME (R265): The suspended operation resumes when reads run out, the read limit is met or the hold time passes. -/
  | suspendResume (die : BitVec 10)
  /-- ENVELOPE_ADMISSION (R291): A waiting program or erase is admitted when its LUN is free and it fits the budget. -/
  | envelopeAdmission
  /-- STAGING_SLOT_RECLAIM (R516): An unconsumed staging slot is freed after the SEQ wait limit. -/
  | stagingSlotReclaim (chan : BitVec 5) (slot : BitVec 7)
  /-- STRIPE_CLOSE (R274): A stripe closes by member count, timer, flush or LUN repeat, and its parity is programmed. -/
  | stripeClose (chan : BitVec 5)
  /-- PATROL_OVERDUE_CHECK (R286): Once per second the oldest patrol pass is compared with device time. -/
  | patrolOverdueCheck
  /-- THRESHOLD_SAVE (R269): Threshold offsets are saved to the MRAM shadow once per hour. -/
  | thresholdSave
  /-- BATCH_SEAL (R294): The open batch is sealed on a count, timer or other trigger, making its records durable. -/
  | batchSeal
  /-- PFAIL (R501): Twenty-five consecutive low samples of PFAIL# start the flush path. -/
  | pfail
  /-- FLUSH_PROGRAM_ABANDON (R311): At 5.003 ms a program still running is abandoned by LUN reset. -/
  | flushProgramAbandon (die : BitVec 10)
  /-- TIER_1_END (R311): Tier 1 ends; the FLUSH record is sealed and SHUTDOWN becomes FLUSHED. -/
  | tier1End
  /-- TIER_2_END (R311): Tier 2 ends and, once all LUNs are idle, the MRAM write-inhibit is set. -/
  | tier2End
  /-- THERMTRIP (R424): The analog trip at 125 °C asserts THERMTRIP# and enters the flush path. -/
  | thermtrip
  /-- SCRUB (R331): A scrubber reads, corrects and conditionally rewrites one word, or handles an uncorrectable one. -/
  | scrub (loc : StoreLoc) (res : EccRes) (pct : BitVec 7) (last : Bool)
  /-- TABLE_REBUILD_COMPLETE (R333): Image and journal scan are applied, queued writes are applied and the line is written. -/
  | tableRebuildComplete (ok : Bool)
  /-- REFRESH (R353): A same-bank refresh is issued when due. -/
  | refresh (bank : BitVec 9) (postpone fullCycle : Bool)
  /-- MR4_READ (R353): The refresh rate is read every 16 ms and tREFI is adjusted. -/
  | mr4Read (refi : BitVec 14)
  /-- ROW_PROTECTION_MITIGATION (R354): A row's activation count reaches THRESH and its neighbours are refreshed. -/
  | rowProtectionMitigation (addr : BitVec 37) (n : BitVec 14) (rfm : Bool)
  /-- WRITE_BATCH (R349): A subchannel begins a write batch on watermark, lack of reads or age. -/
  | writeBatch (sub : BitVec 2) (reqs : List DramReq) (slots : BitVec 8) (late : List DramReq) (more : BitVec 8)
  /-- POWER_DOWN_ENTRY (R356): An idle rank enters power-down after PD_IDLE_NS. -/
  | powerDownEntry (ch rank : Bool) (idleNs : BitVec 16) (due : Bool)
  /-- SELF_REFRESH_ENTRY (R357): Vote withdrawal or the idle timer starts self-refresh entry. -/
  | selfRefreshEntry (timer request : Bool)
  /-- SELF_REFRESH_EXIT (R357): tXS elapses after exit and waiting requests are served. -/
  | selfRefreshExit
  /-- DRAM_CAPTURE (R361): An uncorrectable read on request halts issue, writes a diagnostic record and returns a bus error. -/
  | dramCapture (addr : BitVec 37) (loc : StoreLoc) (poison : Bool) (ctx : Option CtxId) (cmd : Option (BitVec 17)) (second : Bool)
  /-- ALERT_N (R363): A write CRC alert reissues recent writes, or freezes the DMC on a second alert. -/
  | alertN (sub : BitVec 2)
  /-- ZQ_CALIBRATION (R366): ZQ calibration runs every 128 ms. -/
  | zqCalibration
  /-- DQS_OSCILLATOR_MEASUREMENT (R366): An interval-oscillator measurement and delay update runs every 64 ms per rank. -/
  | dqsOscillatorMeasurement (sub : BitVec 2) (rank : Bool)
  /-- CO_SESSION_TIMEOUT (R370): A CO session ends after 600 s without a Fjargohus message. -/
  | coSessionTimeout
  /-- PERIODIC_CAST (R387): The periodic known-answer tests run every ST_PERIOD_H hours. -/
  | periodicCast (pass : Bool) (alg : BitVec 4)
  /-- LEDGER_CHECKPOINT (R396): An ML-DSA-signed checkpoint is written after every 256th record or on request. -/
  | ledgerCheckpoint
  /-- LEDGER_COMPACTION (R401): 4 096 acknowledged records are replaced by a summary record. -/
  | ledgerCompaction
  /-- SLOT_ZEROIZE (R378): A cleared or unbound key slot is zeroized once its command count reaches 0. -/
  | slotZeroize (slot : BitVec 16) (late : Bool)
  /-- POWER_STATE_STEP (R410): A PS3 or PS4 entry or exit step completes, and at its abort point the PMU continues, redirects or reverses. -/
  | powerStateStep
  /-- PS4_ADMIN_IDLE_RETURN (R412): 10 ms without an outstanding admin command returns the device to the PS4 configuration. -/
  | ps4AdminIdleReturn
  /-- APST_TRANSITION (R409): Autonomous power state transition to PS3 or PS4 after idle time. -/
  | apstTransition (ps4 : Bool)
  /-- S3_ENTRY (R413): After S3_DWELL_S in PS4, with the conditions met, VDD_CORE is switched off. -/
  | s3Entry
  /-- S3_EXIT (R413): CLKREQ#, PERST#, PFAIL# or an SMBus message restores VDD_CORE and the domains, and keys are re-derived. -/
  | s3Exit (bad : List Nat)
  /-- DOMAIN_ENTRY (R416): The last vote withdrawn starts a domain's entry to S2 or OFF, abandoned at an abort point if a vote returns. -/
  | domainEntry (d : BitVec 4) (off request : Bool)
  /-- DOMAIN_RESTORE (R419): A request to a gated domain closes the switches, checks and loads its bank and dispatches RESTORE. -/
  | domainRestore (d : BitVec 4) (bad : List Nat)
  /-- AVSBUS_STATUS_READ (R408): A Status read every 10 µs acknowledges a voltage request on VDone. -/
  | avsbusStatusRead (vdone : Bool)
  /-- AVSBUS_TIMEOUT (R408): A voltage request is not acknowledged within 200 µs. -/
  | avsbusTimeout
  /-- PMU_PL_CAP_WRITE (R406): The manager's cap changes the target level. -/
  | pmuPlCapWrite (v : Word)
  /-- PMU_VOTE_HOST_WRITE (R414): The manager's vote on a vote domain is set or withdrawn. -/
  | pmuVoteHostWrite (v : BitVec 4) (w : Word)
  /-- THERMAL_MODEL_UPDATE (R422): Every 20 µs the RC model advances and thresholds are evaluated. -/
  | thermalModelUpdate (cnt : List (List (BitVec 32)))
  /-- SINK_UPDATE (R422): Every 1 ms t_s is corrected from the good diodes' residuals. -/
  | sinkUpdate
  /-- GAIN_UPDATE (R422): Every 100 ms the model gain is corrected from PMBus power readings. -/
  | gainUpdate (reads : Option (BitVec 32)) (model : BitVec 32)
  /-- DIODE_READING (R423): Each diode is read every 1 ms and judged plausible or bad. -/
  | diodeReading (j : BitVec 3) (fault : Bool) (v : BitVec 12)
  /-- THROTTLE_STEP (R425): The throttle level rises or falls by 1 after UP_MS or DOWN_MS. -/
  | throttleStep
  /-- TMU_THRESH_WRITE (R424): New thresholds are accepted only if ordered and within the variant's limit. -/
  | tmuThreshWrite (v : Word)
  /-- INTERVAL_CLOSE (R447): The open Gradebook interval closes at the hour and a summary write starts. -/
  | intervalClose
  /-- GB_CTRL_CLOSE (R447): The manager requests the close of the open interval. -/
  | gbCtrlClose
  /-- SUMMARY_WRITE_COMPLETE (R449): A summary and the head word are committed, and a deferred close is taken. -/
  | summaryWriteComplete
  /-- SQ_TAIL_DOORBELL (R155): An SQ tail doorbell write is stamped with device time and may wake the device. -/
  | sqTailDoorbell (f : BitVec 12) (qid : BitVec 16) (tail : BitVec 32) (sqes : List Sqe)
  /-- CQ_HEAD_DOORBELL (R154): A CQ head doorbell write frees entries, or is ignored as invalid. -/
  | cqHeadDoorbell (f : BitVec 12) (qid : BitVec 16) (head : BitVec 32)
  /-- ARBITER_DECISION (R157): Every 4 network clocks the arbiter picks a function and admits up to a burst of SQEs. -/
  | arbiterDecision
  /-- CLASSIFICATION (R205): The Seating Chart search result classifies an admitted I/O command and INTAKE is dispatched. -/
  | classification (c : BitVec 17)
  /-- COMMAND_TIMEOUT (R174): A command's deadline passes before its commit point and TIMEOUT is dispatched. -/
  | commandTimeout (c : BitVec 17)
  /-- DMA_ERROR (R148): A DMA request ends in error and the command or function is handled accordingly. -/
  | dmaError (f : BitVec 12) (kind : BitVec 2) (c : BitVec 17)
  /-- DELETE_IO_SQ (R153): Deletes an I/O SQ, aborting its uncommitted commands. -/
  | deleteIoSq (f : BitVec 12) (cid qid : BitVec 16)
  /-- DELETE_IO_CQ (R151): Deletes an I/O CQ. -/
  | deleteIoCq (f : BitVec 12) (cid qid : BitVec 16)
  /-- CREATE_IO_SQ (R151): Creates an I/O SQ within the assigned resources. -/
  | createIoSq (f : BitVec 12) (cid qid size cq : BitVec 16) (contig : Bool)
  /-- CREATE_IO_CQ (R151): Creates an I/O CQ within the assigned resources. -/
  | createIoCq (f : BitVec 12) (cid qid size vector : BitVec 16) (irq contig : Bool)
  /-- GET_LOG_PAGE (R151): Returns a log page, limited for VFs. -/
  | getLogPage (f : BitVec 12) (cid : BitVec 16) (lid : BitVec 8) (rae : Bool) (off len : BitVec 32)
  /-- IDENTIFY (R151): Returns identify data. -/
  | identify (f : BitVec 12) (cid : BitVec 16) (cns : BitVec 8) (nsid : Word) (csi : BitVec 8)
  /-- ABORT (R168): Aborts a named command if it has not reached its commit point. -/
  | abort (f : BitVec 12) (cid sqid tcid : BitVec 16)
  /-- SET_FEATURES (R151): Sets a standard feature. -/
  | setFeatures (f : BitVec 12) (cid : BitVec 16) (fid : BitVec 8) (v : Word)
  /-- GET_FEATURES (R151): Returns a feature value. -/
  | getFeatures (f : BitVec 12) (cid : BitVec 16) (fid : BitVec 8) (v : Word)
  /-- ORDERED_SUBMISSION (R160): Feature 0xC2 sets or clears ORDERED for one SQ. -/
  | orderedSubmission (f : BitVec 12) (cid : BitVec 16) (v : Word)
  /-- POWER_MANAGEMENT (R411): Set Features Power Management records the target state and starts or redirects a transition. -/
  | powerManagement (f : BitVec 12) (cid : BitVec 16) (v : Word)
  /-- HOST_CONTROLLED_THERMAL_MANAGEMENT (R425): Sets TMT1 and TMT2 for throttle floors. -/
  | hostControlledThermalManagement (f : BitVec 12) (cid : BitVec 16) (v : Word)
  /-- TEMPERATURE_THRESHOLD (R423): Sets the composite temperature threshold. -/
  | temperatureThreshold (f : BitVec 12) (cid : BitVec 16) (v : Word)
  /-- ASYNCHRONOUS_EVENT_REQUEST (R151): Queues a request for asynchronous events. -/
  | asynchronousEventRequest (f : BitVec 12) (cid : BitVec 16)
  /-- NAMESPACE_CREATE (R228): Creates a namespace if map space, capacity, key slots and MAR allow. -/
  | namespaceCreate (f : BitVec 12) (cid : BitVec 16) (size : BitVec 64) (lbaf logZsze logW k fdp : BitVec 8) (mar : BitVec 16)
  /-- NAMESPACE_DELETE (R235): Deletes a namespace, clears its map range and zeroizes its MEK. -/
  | namespaceDelete (f : BitVec 12) (cid : BitVec 16) (nsid : Word)
  /-- NAMESPACE_ATTACHMENT (R151): Attaches or detaches a namespace to controllers. -/
  | namespaceAttachment (f : BitVec 12) (cid : BitVec 16) (nsid : Word) (attach : Bool) (ctrls : List (BitVec 12))
  /-- FIRMWARE_IMAGE_DOWNLOAD (R434): Writes image data to the slot not in use. -/
  | firmwareImageDownload (f : BitVec 12) (cid : BitVec 16) (slot : Bool) (img : Machine.Image)
  /-- FIRMWARE_COMMIT_NEXT_RESET (R173): Commit actions 000b to 010b record the image for the next warm reset via the selector. -/
  | firmwareCommitNextReset (f : BitVec 12) (cid : BitVec 16) (action : BitVec 3) (slot : BitVec 3)
  /-- ACTIVATION_WITHOUT_RESET (R173): Commit action 011b verifies, drains, records and switches the bundle at the next Assembly. -/
  | activationWithoutReset (f : BitVec 12) (cid : BitVec 16) (slot : BitVec 3)
  /-- DEVICE_SELF_TEST_SHORT (R484): Runs segments 1 to 6. -/
  | deviceSelfTestShort (f : BitVec 12) (cid : BitVec 16) (nsid : Word) (seg : Option (Bool × Option Nat))
  /-- DEVICE_SELF_TEST_EXTENDED (R484): Runs segments 1 to 9. -/
  | deviceSelfTestExtended (f : BitVec 12) (cid : BitVec 16) (nsid : Word) (seg : Option (Bool × Option Nat))
  /-- DEVICE_SELF_TEST_ABORT (R485): Self-test code 0xF ends the running test. -/
  | deviceSelfTestAbort (f : BitVec 12) (cid : BitVec 16)
  /-- SECONDARY_ONLINE (R179): Moves a VF's tenant record to ONLINE. -/
  | secondaryOnline (f : BitVec 12) (cid : BitVec 16) (fn : BitVec 12)
  /-- SECONDARY_OFFLINE (R179): Moves an ONLINE record to OFFLINE. -/
  | secondaryOffline (f : BitVec 12) (cid : BitVec 16) (fn : BitVec 12)
  /-- PRIMARY_FLEXIBLE_ALLOCATION (R178): Allocates flexible resources to the primary. -/
  | primaryFlexibleAllocation (f : BitVec 12) (cid : BitVec 16) (vi : Bool) (n : BitVec 16)
  /-- SECONDARY_ASSIGN (R178): Assigns VQ and VI resources to a secondary within limits. -/
  | secondaryAssign (f : BitVec 12) (cid : BitVec 16) (fn : BitVec 12) (vi : Bool) (n : BitVec 16)
  /-- NVME_MI_SEND (R151): NVMe-MI Send admin command. -/
  | nvmeMiSend (f : BitVec 12) (cid : BitVec 16) (msg : List Byte)
  /-- NVME_MI_RECEIVE (R151): NVMe-MI Receive admin command. -/
  | nvmeMiReceive (f : BitVec 12) (cid : BitVec 16) (msg : List Byte)
  /-- FORMAT_NVM (R235): Clears the namespace's map and replaces its MEK. -/
  | formatNvm (f : BitVec 12) (cid : BitVec 16) (nsid : Word) (lbaf : BitVec 4) (ses : BitVec 3)
  /-- SANITIZE_CRYPTO_ERASE (R386): Replaces every MEK and clears all KPIO slots and tag KEKs. -/
  | sanitizeCryptoErase (f : BitVec 12) (cid : BitVec 16)
  /-- SANITIZE_BLOCK_ERASE (R386): Replaces every key and erases the media. -/
  | sanitizeBlockErase (f : BitVec 12) (cid : BitVec 16)
  /-- CREATE_TENANT (R183): Tenant Set-up action 0x01 creates a tenant record with class and share. -/
  | createTenant (f : BitVec 12) (cid : BitVec 16) (fn : BitVec 12) (share : BitVec 32) (cls : BitVec 8) (reserved : Bool)
  /-- SET_QOS_CLASS (R186): Tenant Set-up action 0x02 sets the function's QoS class. -/
  | setQosClass (f : BitVec 12) (cid : BitVec 16) (fn : BitVec 12) (cls : BitVec 8) (reserved : Bool)
  /-- SET_SHARE (R192): Tenant Set-up action 0x03 sets the share of the record's buffer account. -/
  | setShare (f : BitVec 12) (cid : BitVec 16) (fn : BitVec 12) (share : BitVec 32) (reserved : Bool)
  /-- BIND_KEY_TAGS (R382): Tenant Set-up action 0x04 replaces the key-tag binding ranges. -/
  | bindKeyTags (f : BitVec 12) (cid : BitVec 16) (fn : BitVec 12) (word2 word3 : BitVec 64) (reserved : Bool)
  /-- INSTALL_ENTRIES_REPLACE (R210): Mode 0 replaces the function's manager entries with an epoch flip. -/
  | installEntriesReplace (f : BitVec 12) (cid : BitVec 16) (fn : BitVec 12) (recs : List ScRec) (reserved badHeader : Bool)
  /-- INSTALL_ENTRIES_ADD (R210): Mode 1 adds Seating Chart entries with an epoch flip. -/
  | installEntriesAdd (f : BitVec 12) (cid : BitVec 16) (fn : BitVec 12) (recs : List ScRec) (reserved badHeader : Bool)
  /-- INSTALL_ENTRIES_REMOVE (R207): Mode 2 removes the listed entries with an epoch flip. -/
  | installEntriesRemove (f : BitVec 12) (cid : BitVec 16) (fn : BitVec 12) (recs : List ScRec) (reserved badHeader : Bool)
  /-- INSTALL_FILTER (R220): Tenant Set-up action 0x06 assembles a filter image by chunks and stores it at LAST. -/
  | installFilter (f : BitVec 12) (cid : BitVec 16) (fn : BitVec 12) (chunk : BitVec 10) (last : Bool) (bytes : List Byte) (reserved : Bool)
  /-- REMOVE_TENANT (R184): Tenant Set-up action 0x07 unbinds keys, removes entries and filter, and sets STATE NONE. -/
  | removeTenant (f : BitVec 12) (cid : BitVec 16) (fn : BitVec 12) (reserved : Bool)
  /-- READ_RECORD (R183): Tenant Set-up action 0x08 returns the 64-byte tenant record. -/
  | readRecord (f : BitVec 12) (cid : BitVec 16) (fn : BitVec 12) (reserved : Bool)
  /-- LEDGER_READ_RECORDS (R398): Returns ledger records. -/
  | ledgerReadRecords (f : BitVec 12) (cid : BitVec 16) (first : BitVec 64) (count : BitVec 13)
  /-- LEDGER_READ_CHECKPOINTS (R398): Returns ledger checkpoints. -/
  | ledgerReadCheckpoints (f : BitVec 12) (cid : BitVec 16) (slot : BitVec 64) (count : BitVec 13)
  /-- LEDGER_READ_OVERFLOW (R398): Returns the overflow record. -/
  | ledgerReadOverflow (f : BitVec 12) (cid : BitVec 16)
  /-- LEDGER_READ_STATUS (R398): Returns ledger HEAD, TAIL, ACK and state. -/
  | ledgerReadStatus (f : BitVec 12) (cid : BitVec 16)
  /-- LEDGER_ACKNOWLEDGE (R399): Advances ACK after checking the record number and hash. -/
  | ledgerAcknowledge (f : BitVec 12) (cid : BitVec 16) (no : BitVec 64) (hash : Digest)
  /-- LEDGER_CHECKPOINT_REQUEST (R399): Requests a ledger checkpoint and completes when it is written. -/
  | ledgerCheckpointRequest (f : BitVec 12) (cid : BitVec 16)
  /-- GRADEBOOK_READ_DIRECTORY (R452): Returns the slot directory. -/
  | gradebookReadDirectory (mi : Bool) (f : BitVec 12) (cid : BitVec 16) (index : BitVec 8) (off len : BitVec 6)
  /-- GRADEBOOK_READ_SUMMARY (R452): Returns a stored summary. -/
  | gradebookReadSummary (mi : Bool) (f : BitVec 12) (cid : BitVec 16) (index : BitVec 8) (off len : BitVec 6)
  /-- GRADEBOOK_READ_OPEN_INTERVAL (R452): Returns a copy of the live accumulators. -/
  | gradebookReadOpenInterval (mi : Bool) (f : BitVec 12) (cid : BitVec 16) (index : BitVec 8) (off len : BitVec 6)
  /-- GRADEBOOK_READ_DIAGNOSTIC (R452): Returns a diagnostic record. -/
  | gradebookReadDiagnostic (mi : Bool) (f : BitVec 12) (cid : BitVec 16) (index : BitVec 8) (off len : BitVec 6)
  /-- GRADEBOOK_READ_STATUS (R452): Returns NEXT_NO, LOST and status. -/
  | gradebookReadStatus (mi : Bool) (f : BitVec 12) (cid : BitVec 16) (index : BitVec 8) (off len : BitVec 6)
  /-- FLUSH (R170): Completes when every covered earlier write has reached R23 step 6. -/
  | flush (c : BitVec 17)
  /-- WRITE (R23): Buffers, encrypts and journals write data, commits within the Dirty Ceiling and programs later. -/
  | write (c : BitVec 17) (data : List Block)
  /-- READ (R20): Looks up, speculatively reads, confirms, decrypts and returns data. -/
  | read (c : BitVec 17) (bad : List Nat)
  /-- WRITE_UNCORRECTABLE (R235): Marks whole IUs SPECIAL 2. -/
  | writeUncorrectable (c : BitVec 17)
  /-- COMPARE (R152): Reads and compares data under an S lock. -/
  | compare (c : BitVec 17) (data : List Block) (bad : List Nat) (far : List (BitVec 40 × Option Block))
  /-- FUSED_COMPARE_AND_WRITE (R159): A fused pair takes one X lock; the Write runs only if the Compare succeeds. -/
  | fusedCompareAndWrite (c : BitVec 17) (old new : List Block) (bad : List Nat)
  /-- WRITE_ZEROES (R235): Deallocates entries under an X lock. -/
  | writeZeroes (c : BitVec 17)
  /-- DATASET_MANAGEMENT (R235): Deallocate sets entries to unwritten. -/
  | datasetManagement (c : BitVec 17)
  /-- VERIFY (R152): Checks data without transfer. -/
  | verify (c : BitVec 17) (bad : List Nat) (far : List (BitVec 40 × Option Block))
  /-- IO_MANAGEMENT_RECEIVE (R152): Returns FDP reclaim unit handle status. -/
  | ioManagementReceive (c : BitVec 17)
  /-- RECLAIM_UNIT_HANDLE_UPDATE (R246): Closes the handle's open reclaim unit at the commit point. -/
  | reclaimUnitHandleUpdate (c : BitVec 17) (handles : List (BitVec 16))
  /-- COPY (R235): Writes the destination with source data under S and X locks. -/
  | copy (c : BitVec 17) (bad : List Nat)
  /-- ZONE_OPEN (R239): Opens a zone explicitly. -/
  | zoneOpen (c : BitVec 17)
  /-- ZONE_CLOSE (R239): Closes an open zone. -/
  | zoneClose (c : BitVec 17)
  /-- ZONE_FINISH (R239): Moves a zone to ZSF with padding. -/
  | zoneFinish (c : BitVec 17)
  /-- ZONE_RESET (R239): Resets a zone once MWP reaches RWP, raising LGEN. -/
  | zoneReset (c : BitVec 17)
  /-- ZONE_OFFLINE (R239): Moves a ZSRO zone to ZSO. -/
  | zoneOffline (c : BitVec 17)
  /-- REPORT_ZONES (R239): Zone Management Receive returns zone descriptors. -/
  | reportZones (c : BitVec 17)
  /-- ZONE_APPEND (R27): Reserves at the write pointer under the zone lock and returns the assigned LBA. -/
  | zoneAppend (c : BitVec 17) (data : List Block)
  /-- FILTERED_READ (R223): Decrypted blocks are scanned by a PAU engine and only matches are returned. -/
  | filteredRead (c : BitVec 17) (bad : List Nat) (far : List (BitVec 40 × Option Block))
  /-- SECURITY_RECEIVE (R376): Returns security protocol data. -/
  | securityReceive (f : BitVec 12) (cid : BitVec 16) (protocol : BitVec 8) (spsp : BitVec 16)
  /-- AUTHENTICATE (R370): Checks the CO credential and opens a session, with lockout after 5 failures. -/
  | authenticate (f : BitVec 12) (cid : BitVec 16) (cred : BitVec 256)
  /-- CHANGE_CO_CREDENTIAL (R379): Sets a new CO verifier. -/
  | changeCoCredential (f : BitVec 12) (cid : BitVec 16) (cred : BitVec 256)
  /-- PROVISION (R385): Generates and fuses the UDS and owner key hash and moves to Provisioned. -/
  | provision (f : BitVec 12) (cid : BitVec 16) (owner : Digest) (cred : BitVec 256)
  /-- ENTER_MISSION (R385): Regenerates MEKs and moves to Mission. -/
  | enterMission (f : BitVec 12) (cid : BitVec 16)
  /-- ENTER_RMA (R385): With a signed token, zeroizes and moves to RMA. -/
  | enterRma (f : BitVec 12) (cid : BitVec 16) (tokenOk : Bool)
  /-- DECOMMISSION (R385): Zeroizes, blows the UDS kill fuse and moves to Decommissioned. -/
  | decommission (f : BitVec 12) (cid : BitVec 16)
  /-- ZEROIZE_ALL (R386): Zeroizes every key and verifier and advances the KHRK epoch. -/
  | zeroizeAll (f : BitVec 12) (cid : BitVec 16)
  /-- ESTABLISH_TAG_KEK (R383): Derives a tag KEK by ECDH with the User's ephemeral key. -/
  | establishTagKek (f : BitVec 12) (cid : BitVec 16) (fn : BitVec 12) (tag : BitVec 16) (pub : BitVec 776) (keyOk : Bool)
  /-- SET_LEDGER_POLICY (R403): Sets the full-ledger policy. -/
  | setLedgerPolicy (f : BitVec 12) (cid : BitVec 16) (run : Bool)
  /-- COMMIT_SVN (R391): Advances the SVN fuse counter if the other slot verifies. -/
  | commitSvn (f : BitVec 12) (cid : BitVec 16)
  /-- RUN_SELF_TESTS (R387): Runs the CASTs on request. -/
  | runSelfTests (f : BitVec 12) (cid : BitVec 16) (pass : Bool) (alg : BitVec 4)
  /-- READ_CERTIFICATES (R379): Returns the certificate chain and public keys. -/
  | readCertificates (f : BitVec 12) (cid : BitVec 16)
  /-- KEY_INJECTION (R383): Unwraps a KPIO key under the tag KEK into its slot, or refuses it. -/
  | keyInjection (f : BitVec 12) (cid : BitVec 16) (fn : BitVec 12) (tag : BitVec 16) (key : XtsKey) (unwraps : Bool)
  /-- CLEAR_KEY (R378): Marks a KPIO slot for clearing once its command count reaches 0. -/
  | clearKey (f : BitVec 12) (cid : BitVec 16) (fn : BitVec 12) (tag : BitVec 16)
  /-- OPAL_AUTHENTICATE (R369): Authenticates an Opal authority by password. -/
  | opalAuthenticate (f : BitVec 12) (cid : BitVec 16) (auth : BitVec 8) (pin : BitVec 256) (newPin : Option (BitVec 256))
  /-- LOCKING_RANGE_SET (R377): Changes ReadLocked or WriteLocked of an Opal range. -/
  | lockingRangeSet (f : BitVec 12) (cid : BitVec 16) (range : BitVec 6) (nsid : BitVec 15) (start len : BitVec 40) (readLock writeLock lockOnReset : Bool)
  /-- GENKEY (R386): Replaces an Opal range MEK. -/
  | genkey (f : BitVec 12) (cid : BitVec 16) (range : BitVec 6) (nsid : BitVec 15)
  /-- REVERTSP (R386): Reverts an Opal SP and zeroizes its keys and verifiers. -/
  | revertsp (f : BitVec 12) (cid : BitVec 16) (admin : Bool)
  /-- PSID_REVERT (R386): Reverts Opal with the PSID. -/
  | psidRevert (f : BitVec 12) (cid : BitVec 16) (psid : BitVec 256)
  /-- GET_VERSION (R393): SPDM version request. -/
  | getVersion (b : BitVec 2)
  /-- GET_CAPABILITIES (R393): SPDM capabilities request. -/
  | getCapabilities (b : BitVec 2) (version : BitVec 8)
  /-- NEGOTIATE_ALGORITHMS (R393): SPDM algorithm negotiation. -/
  | negotiateAlgorithms (b : BitVec 2) (offered : Bool)
  /-- GET_DIGESTS (R393): SPDM certificate digests. -/
  | getDigests (b : BitVec 2)
  /-- GET_CERTIFICATE (R393): SPDM certificate chain of slot 0. -/
  | getCertificate (b : BitVec 2) (slot : BitVec 8) (off len : BitVec 16)
  /-- CHALLENGE (R393): SPDM challenge signed with the Alias key. -/
  | challenge (b : BitVec 2) (slot : BitVec 8) (nonce : BitVec 256)
  /-- GET_MEASUREMENTS (R393): SPDM signed measurements. -/
  | getMeasurements (b : BitVec 2) (index : BitVec 8) (sign : Bool) (nonce : BitVec 256)
  /-- MCTP_ECHO (R475): A Fjargohus vendor-defined MCTP message is returned with its payload. -/
  | mctpEcho (smbus : Bool) (payload : List Byte)
  /-- HEARTBEAT_SEND (R459): A heartbeat frame is sent on every link every 100 µs. -/
  | heartbeatSend
  /-- HEARTBEAT (R459): A received heartbeat frame marks its origin present and is forwarded. -/
  | heartbeat (h : TetherHdr) (sole : BitVec 64)
  /-- PEER_LOSS (R459): Three intervals without a peer's heartbeat declare it lost. -/
  | peerLoss (k : BitVec 2)
  /-- HELLO (R458): A HELLO frame carries ring identity and may complete ring formation. -/
  | hello (h : TetherHdr) (id sizeM1 : BitVec 2) (bundle : Word) (nscfg : List Word)
  /-- LOCK_REQUEST (R462): A front asks the lock home for an X range or zone lock. -/
  | lockRequest (h : TetherHdr) (op : BitVec 8) (ns : BitVec 15) (lba : BitVec 40) (n : BitVec 17)
  /-- LOCK_GRANT (R462): The lock home grants a lock to the front. -/
  | lockGrant (out : Bool) (h : TetherHdr) (sct sc : BitVec 8) (assigned : BitVec 40)
  /-- WRITE_DATA (R463): Write data frames are buffered and journaled at the peer or owner. -/
  | writeData (h : TetherHdr) (piece : Bool) (op : BitVec 8) (ns : BitVec 15) (lba : BitVec 40) (n : BitVec 17) (blocks : List (BitVec 40 × BitVec 8 × Block))
  /-- WRITE_ACK (R463): The peer's ack lets the front journal and commit the mirrored write. -/
  | writeAck (h : TetherHdr)
  /-- COMMIT_NOTICE (R463): The front's commit notice releases the lock-home lock. -/
  | commitNotice (h : TetherHdr)
  /-- READ_REQUEST (R466): A read piece is executed at its owner. -/
  | readRequest (h : TetherHdr) (ns : BitVec 15) (lba : BitVec 40) (n : BitVec 17) (bad : List Nat)
  /-- READ_DATA (R466): Confirmed read data returns to a front staging slot. -/
  | readData (h : TetherHdr) (blocks : List (BitVec 40 × Option Block))
  /-- PIECE_COMPLETION (R466): A spanned piece completes, and the front commits when all pieces are done. -/
  | pieceCompletion (h : TetherHdr) (sct sc : BitVec 8)
  /-- ROLL_CALL_FRAME (R472): A ring-scope Roll Call frame is carried around the ring. -/
  | rollCallFrame (h : TetherHdr) (ident : BitVec 16) (b : CallBody)
  /-- BELL_BEAT (R473): A Bell beat is taken as a relay source and forwarded once. -/
  | bellBeat (h : TetherHdr) (time : Word64) (roundTrip : BitVec 32)
  /-- BELL_BEAT_SEND (R473): A LOCKED device sends a Bell beat every 1 ms. -/
  | bellBeatSend
  /-- RESYNC_DATA (R471): The target programs and journals a copied region. -/
  | resyncData (h : TetherHdr) (i : BitVec 6) (stop : Bool) (blocks : List (BitVec 40 × Block))
  /-- IDLE_FRAME (R456): An idle frame carries acknowledgements only. -/
  | idleFrame (link : Bool) (acked : BitVec 12) (nak : Bool)
  /-- REPLAY_TIMEOUT (R457): A NAK or 1 µs without ack replays frames, and four replays retrain the link. -/
  | replayTimeout (link : Bool)
  /-- LINK_RETRAIN_COMPLETE (R455): A Tether link completes training at the best rate it reaches. -/
  | linkRetrainComplete (link rate width : Bool)
  /-- FENCE_TIMEOUT (R468): FENCE_MS elapses with TAKEOVER set and the namespace goes SOLE. -/
  | fenceTimeout (i : BitVec 6)
  /-- FORMATION_TIMEOUT (R468): The ring is not formed within FORM_MS, so mirrored namespaces go SOLE or FENCED. -/
  | formationTimeout
  /-- TH_CTRL_EN_WRITE (R458): Enabling the Tether trains the links and sends HELLO. -/
  | thCtrlEnWrite (v : Word)
  /-- TH_NS_CMD_TAKEOVER (R468): The manager takes over a FENCED namespace. -/
  | thNsCmdTakeover (v : Word)
  /-- LOOPBACK_START (R475): Starts a loop-back at the selected depth, or refuses it as BUSY. -/
  | loopbackStart (pf via1687 trainOk : Bool) (v : Word)
  /-- LOOPBACK_STOP (R475): Ends the running loop-back. -/
  | loopbackStop (v : Word)
  /-- PAD_BURST_END (R476): A NAND pad burst ends, and queued host requests are started before the next one. -/
  | padBurstEnd (chan : BitVec 5)
  /-- LOOPBACK_COMPLETE (R477): A loop-back pattern completes with its result. -/
  | loopbackComplete (iface : BitVec 3) (inst : BitVec 6) (errors : BitVec 28)
  /-- PRBS_LOCK (R479): A checker locks after 1 024 error-free bits and starts counting. -/
  | prbsLock (k : BitVec 4) (errs : Word)
  /-- MARGIN_POINT_START (R480): Starts a margin measurement at one point. -/
  | marginPointStart (v : Word)
  /-- MARGIN_DONE (R480): The dwell ends and the error count is reported. -/
  | marginDone (errors : Word)
  /-- BYPASS (R481): JTAG BYPASS instruction. -/
  | bypass
  /-- IDCODE (R481): JTAG IDCODE instruction. -/
  | idcode
  /-- SAMPLE_PRELOAD (R481): JTAG SAMPLE/PRELOAD instruction. -/
  | samplePreload (pins cells : Nat)
  /-- EXTEST (R482): Drives balls from boundary cells when permitted, and otherwise acts as BYPASS. -/
  | extest
  /-- EXTEST_PULSE (R482): AC EXTEST pulse when permitted. -/
  | extestPulse
  /-- EXTEST_TRAIN (R482): AC EXTEST train when permitted. -/
  | extestTrain
  /-- CLAMP (R482): CLAMP when permitted. -/
  | clamp
  /-- HIGHZ (R482): HIGHZ when permitted. -/
  | highz
  /-- EXTEST_EXIT (R482): Leaving an EXTEST-class instruction asserts an internal warm reset. -/
  | extestExit (b : Machine.BootIn)
  /-- IEEE_1687_ACCESS (R483): Accesses the instrument network. -/
  | ieee1687Access (wr : Bool) (off : BitVec 20) (v : Word)
  /-- TRST (R481): TRST# low holds the TAP in Test-Logic-Reset. -/
  | trst (low : Bool)
  /-- SRAM_BIST (R483): Runs March C- on a macro group. -/
  | sramBist (g : BitVec 8) (bank : Option (BitVec 4)) (fail : Option Nat)
  /-- MRAM_BIST (R483): Runs the MRAM read and write passes. -/
  | mramBist (wr : Bool) (fail : Option Nat)
  /-- SC_BACKGROUND_CHECK (R216): A per-second check against the shadow takes a faulty bank offline to rebuild it. -/
  | scBackgroundCheck (bank : BitVec 4) (shadowOk : Bool)
  /-- SC_BANK_REBUILD_COMPLETE (R216): A bank is rebuilt from the shadow with the pre-filter recomputed. -/
  | scBankRebuildComplete (bank : BitVec 4)
  /-- MED_ENV_STAGE_REQ (R292): Queues an Envelope commit of the staged budget and weights. -/
  | medEnvStageReq
  /-- BPM_SHARE_WRITE (R192): Changes the share of an account and journals SHARE in its records. -/
  | bpmShareWrite (a : BitVec 13) (v : Word)
  /-- LOCK_WRITE (R494): Setting a block's LOCK bit makes its rwl fields read-only until warm reset. -/
  | lockWrite (b : BitVec 5) (v : Word)
  /-- LOCK_ALL (R494): GLB_CTRL.LOCK_ALL sets every LOCK bit in one cycle. -/
  | lockAll
  /-- LO_LATCH_READ (R490): A read of a latching LO register latches the HI half for the reading PF. -/
  | loLatchRead (pf : Bool) (off : BitVec 26) (n : BitVec 10)
  /-- READ_CLEAR (R4): A read of an rc field returns its value and clears it. -/
  | readClear (pf : Bool) (off : BitVec 26) (n : BitVec 10)
  /-- REGISTER_WRITE (R4): A BAR2 write to a register with no row of its own, per its access codes and R488. -/
  | registerWrite (pf : Bool) (off : BitVec 26) (words : List Word) (be : Bool)
  /-- UNDEFINED_INSTRUCTION (R105): A context issues a word with an unassigned major opcode or undefined field, or fetches beyond its code section or with a bus error, and traps with ILLEGAL or BUS_ERROR. -/
  | undefinedInstruction (i : CtxId) (busErr : Bool)
  /-- PFAIL_RELEASE (R313): PFAIL# rises while the flush path runs, so that after the flush the device sets CSTS.CFS on every function and waits for PERST# or power-off. -/
  | pfailRelease
  /-- PCIE_LINK_UP (R147): A PCIe port completes training to L0 after reset, Link Down, Hot Reset or the end of a loop-back, and its configuration space is served again. -/
  | pcieLinkUp (port : Bool) (rate : BitVec 3) (width : BitVec 4) (flit : Bool)
  /-- VF_ENABLE_SET (R179): A configuration write sets VF Enable or raises NumVFs, and the VFs come into existence with Offline secondary controllers. -/
  | vfEnableSet (pf : Bool) (n : BitVec 12)
  /-- ASPM_L1_ENTRY (R413): An idle port enters ASPM L1 or its substates, except while PTM is a configured source, which S3 entry requires. -/
  | aspmL1Entry (l : LinkSleep)
  /-- INTERRUPT_AGGREGATION_TIMEOUT (R176): The Interrupt Coalescing aggregation time of a vector expires and the MSI-X message for the CQEs it held is sent. -/
  | interruptAggregationTimeout (f : BitVec 12) (vector : BitVec 16)
  /-- ENTROPY_HEALTH_FAILURE (R387): The continuous Repetition Count or Adaptive Proportion test of the noise source fails and the Crypto Module enters its error state. -/
  | entropyHealthFailure
  /-- PRBS_LOCK_LOSS (R479): A locked PRBS checker loses lock, which clears LOCKED and stops the error count. -/
  | prbsLockLoss (k : BitVec 4) (errs : Word)
  /-- MINIMUM_RESIDENCY_ELAPSED (R357): The self-refresh residency timer passes its minimum while a request or vote waits, and the DMC issues the exit and moves to SR_EXIT. -/
  | minimumResidencyElapsed (request : Bool)
  /-- S4_ENTRY (R413): With PERST# asserted, the board removes every rail except VDD_AON and VDD_IO, and the device is in S4 with only AON powered. -/
  | s4Entry
deriving DecidableEq, Repr

end Sys2Proof
end

