-- ==== Sys2Proof/Decode.lean ====
section
/-! DEFINITION. The decoder of table words, and the encoding of Zyn instructions (R104 to R107). The opcode table gives no row any bits: the
block's commands have no words of their own. Only the code words in the instruction stores have an encoding: a Zyn command is what a context
issues when it meets that word. -/
namespace Sys2Proof

/-- The command that a word spells by the table's bits: the table gives none. -/
def decodeTableWord (_nbits _w : Nat) : Option Instr := none

/-! ### Forms (R104) -/

/-- R-form: major, d, a, b, func. -/
def zR (major : BitVec 6) (d a b : BitVec 5) (func : BitVec 11) : Word := major ++ d ++ a ++ b ++ func
/-- I-form: major, d, a, imm16; LN-form has the same layout. -/
def zI (major : BitVec 6) (d a : BitVec 5) (imm : BitVec 16) : Word := major ++ d ++ a ++ imm
/-- B-form: major, predicate, signed word offset. -/
def zB (major : BitVec 6) (p : BitVec 3) (off : BitVec 23) : Word := major ++ p ++ off
/-- L-form, word 0: major, d, a, b, flags, sub. -/
def zL (major : BitVec 6) (d a b : BitVec 5) (flags : BitVec 7) (sub : BitVec 4) : Word := major ++ d ++ a ++ b ++ flags ++ sub
/-- L-form, word 1: imm16, crec. -/
def zW (imm crec : BitVec 16) : Word := imm ++ crec

def zMajor (w : Word) : BitVec 6 := w.extractLsb' 26 6
def zFd (w : Word) : BitVec 5 := w.extractLsb' 21 5
def zFa (w : Word) : BitVec 5 := w.extractLsb' 16 5
def zFb (w : Word) : BitVec 5 := w.extractLsb' 11 5
def zFunc (w : Word) : BitVec 11 := w.extractLsb' 0 11
def zImm (w : Word) : BitVec 16 := w.extractLsb' 0 16
def zPred (w : Word) : BitVec 3 := w.extractLsb' 23 3
def zOff (w : Word) : BitVec 23 := w.extractLsb' 0 23
def zFlags (w : Word) : BitVec 7 := w.extractLsb' 4 7
def zSub (w : Word) : BitVec 4 := w.extractLsb' 0 4
def zImm1 (w : Word) : BitVec 16 := w.extractLsb' 16 16

/-! ### Codes (R113) -/

def Cond.code : Cond → BitVec 3
  | .eq => 0 | .ne => 1 | .ltu => 2 | .geu => 3 | .lt => 4 | .ge => 5 | .tst => 6
def Cond.ofCode (n : BitVec 3) : Option Cond :=
  match n.toNat with
  | 0 => some .eq | 1 => some .ne | 2 => some .ltu | 3 => some .geu | 4 => some .lt | 5 => some .ge | 6 => some .tst | _ => none
def Combine.code : Combine → BitVec 2
  | .set => 0 | .and => 1 | .or => 2
def Combine.ofCode (n : BitVec 2) : Option Combine :=
  match n.toNat with
  | 0 => some .set | 1 => some .and | 2 => some .or | _ => none

def bit1 (b : Bool) : BitVec 1 := BitVec.ofBool b

/-! ### Encoder (R107, R112 to R140) -/

/-- ALU operation: func [10:6] the code, [5:0] the shift amount or the SEL predicate (R112). -/
def zAlu (op : BitVec 5) (d a b : BitVec 5) (n : BitVec 6) : Word := zR 0x01 d a b (op ++ n)
/-- PLOG operation (R114). -/
def zPlog (op d a b : BitVec 3) : Word := zR 0x03 (0#2 ++ d) (0#2 ++ a) (0#2 ++ b) (0#8 ++ op)
/-- RCALL of a kind (R127). -/
def zRcall (kind : BitVec 2) (d a b : BitVec 5) (ring : Bool) (p : BitVec 3) : Word := zR 0x25 d a b (p ++ 0#5 ++ bit1 ring ++ kind)

/-- The context that issues a Zyn instruction and its words; word 1 is 0 where the form has none. Other commands have no words. -/
def zynEncode : Instr → Option (CtxId × Word × Word)
  | .add i d a b => some (i, zAlu 0x00 d a b 0, 0)
  | .sub i d a b => some (i, zAlu 0x01 d a b 0, 0)
  | .and i d a b => some (i, zAlu 0x02 d a b 0, 0)
  | .or i d a b => some (i, zAlu 0x03 d a b 0, 0)
  | .xor i d a b => some (i, zAlu 0x04 d a b 0, 0)
  | .andn i d a b => some (i, zAlu 0x05 d a b 0, 0)
  | .shl i d a b => some (i, zAlu 0x06 d a b 0, 0)
  | .shr i d a b => some (i, zAlu 0x07 d a b 0, 0)
  | .sar i d a b => some (i, zAlu 0x08 d a b 0, 0)
  | .shli i d a n => some (i, zAlu 0x09 d a 0 n, 0)
  | .shri i d a n => some (i, zAlu 0x0A d a 0 n, 0)
  | .sari i d a n => some (i, zAlu 0x0B d a 0 n, 0)
  | .mullo i d a b => some (i, zAlu 0x0C d a b 0, 0)
  | .mulhu i d a b => some (i, zAlu 0x0D d a b 0, 0)
  | .minu i d a b => some (i, zAlu 0x0E d a b 0, 0)
  | .maxu i d a b => some (i, zAlu 0x0F d a b 0, 0)
  | .clz i d a => some (i, zAlu 0x10 d a 0 0, 0)
  | .popc i d a => some (i, zAlu 0x11 d a 0 0, 0)
  | .mov i d a => some (i, zAlu 0x12 d a 0 0, 0)
  | .sel i d a b p => some (i, zAlu 0x13 d a b (0#3 ++ p), 0)
  | .cmp i p a b cond comb => some (i, zR 0x02 (0#2 ++ p) a b (0#6 ++ comb.code ++ cond.code), 0)
  | .cmpi i p cond a imm => some (i, zI 0x0E (p ++ cond) a imm, 0)
  | .pand i d a b => some (i, zPlog 0 d a b, 0)
  | .por i d a b => some (i, zPlog 1 d a b, 0)
  | .pxor i d a b => some (i, zPlog 2 d a b, 0)
  | .pnot i d a => some (i, zPlog 3 d a 0, 0)
  | .pset i d => some (i, zPlog 4 d 0 0, 0)
  | .pclr i d => some (i, zPlog 5 d 0 0, 0)
  | .svr i d name => some (i, zI 0x04 d 0 (0#4 ++ name), 0)
  | .svw i name a => some (i, zI 0x05 0 a (0#4 ++ name), 0)
  | .addi i d a imm => some (i, zI 0x08 d a imm, 0)
  | .andi i d a imm => some (i, zI 0x09 d a imm, 0)
  | .ori i d a imm => some (i, zI 0x0A d a imm, 0)
  | .xori i d a imm => some (i, zI 0x0B d a imm, 0)
  | .movi i d imm => some (i, zI 0x0C d 0 imm, 0)
  | .movsh i d imm => some (i, zI 0x0D d 0 imm, 0)
  | .ld8 i d a imm => some (i, zI 0x10 d a imm, 0)
  | .ld16 i d a imm => some (i, zI 0x11 d a imm, 0)
  | .ld32 i d a imm => some (i, zI 0x12 d a imm, 0)
  | .ld64 i d a imm => some (i, zI 0x13 d a imm, 0)
  | .st8 i d a imm => some (i, zI 0x14 d a imm, 0)
  | .st16 i d a imm => some (i, zI 0x15 d a imm, 0)
  | .st32 i d a imm => some (i, zI 0x16 d a imm, 0)
  | .st64 i d a imm => some (i, zI 0x17 d a imm, 0)
  | .tget i d a tbl => some (i, zR 0x18 d a 0 (0#3 ++ tbl), 0)
  | .tput i a b tbl => some (i, zR 0x19 0 a b (0#3 ++ tbl), 0)
  | .tcas i d a b tbl p => some (i, zR 0x1A d a b (p ++ tbl), 0)
  | .tjrn i d a b tbl => some (i, zR 0x1B d a b (0#3 ++ tbl), 0)
  | .qpop i d h p => some (i, zR 0x1C d 0 0 (p ++ h), 0)
  | .qpush i d a b h p => some (i, zR 0x1D d a b (p ++ h), 0)
  | .qpeek i d h p => some (i, zR 0x1E d 0 0 (p ++ h), 0)
  | .wev i d a => some (i, zR 0x20 d a 0 0, 0)
  | .sev i a n => some (i, zR 0x21 0 a 0 (0#7 ++ n), 0)
  | .tnow i d => some (i, zR 0x22 d 0 0 0, 0)
  | .ptype i d => some (i, zR 0x22 d 0 0 1, 0)
  | .wper i => some (i, zR 0x22 0 0 0 2, 0)
  | .pwait i => some (i, zR 0x24 0 0 0 0, 0)
  | .rcallBarrier i d a b ring p => some (i, zRcall 0 d a b ring p, 0)
  | .rcallBroadcast i d a b ring p => some (i, zRcall 1 d a b ring p, 0)
  | .rcallSnapshot i d a b ring p => some (i, zRcall 2 d a b ring p, 0)
  | .rcallCommitVote i b p => some (i, zRcall 3 0 0 b false p, 0)
  | .trap i imm => some (i, zI 0x26 0 0 imm, 0)
  | .nrd i d a soft set kind crec => some (i, zL 0x28 d a 0 0 0, zW (0#4 ++ set ++ soft ++ 0#2 ++ kind) crec)
  | .npg i d a b kind qlc last crec => some (i, zL 0x28 d a b 0 1, zW (0#9 ++ bit1 last ++ 0#1 ++ bit1 qlc ++ kind) crec)
  | .ner i d a kind crec => some (i, zL 0x28 d a 0 0 2, zW (0#12 ++ kind) crec)
  | .nsus i d a ⟨kind, crec⟩ => some (i, zL 0x28 d a 0 0 3, zW (0#12 ++ kind) crec)
  | .nres i d a ⟨kind, crec⟩ => some (i, zL 0x28 d a 0 0 4, zW (0#12 ++ kind) crec)
  | .xfer i d a b count pau crec => some (i, zL 0x29 d a b 0 0, zW (0#7 ++ bit1 pau ++ count) crec)
  | .lookup i d a width crec => some (i, zL 0x2A d a 0 0 0, zW (0#14 ++ width) crec)
  | .rangeLock ⟨i, crec⟩ => some (i, zL 0x2B 0 0 0 0 0, zW 0 crec)
  | .rangeUnlock ⟨i, crec⟩ => some (i, zL 0x2B 0 0 0 0 1, zW 0 crec)
  | .zoneLock i d a crec => some (i, zL 0x2B d a 0 0 2, zW 0 crec)
  | .zoneUnlock ⟨i, crec⟩ a => some (i, zL 0x2B 0 a 0 0 3, zW 0 crec)
  | .cqpost i d a crec => some (i, zL 0x2C d a 0 0 0, zW 0 crec)
  | .spec i d a b zdesc crec => some (i, zL 0x2D d a b (0#6 ++ bit1 zdesc) 0, zW 0 crec)
  | .conf i a p => some (i, zR 0x2E 0 a 0 (p ++ 0#8), 0)
  | .sqsh i a => some (i, zR 0x2E 0 a 0 1, 0)
  | .br i off => some (i, zB 0x30 0 off, 0)
  | .brV i off => some (i, zB 0x30 1 off, 0)
  | .brp i p off => some (i, zB 0x31 p off, 0)
  | .brpFalse i p off => some (i, zB 0x32 p off, 0)
  | .call i off => some (i, zB 0x33 0 off, 0)
  | .ret i => some (i, zR 0x34 0 0 0 0, 0)
  | .loopn i r e off => some (i, zI 0x35 r e off, 0)
  | _ => none

/-! ### Decoder (R105) -/

/-- An instruction whose unused fields are 0. -/
def zIf (ok : Bool) (i : Instr) : Option Instr := if ok then some i else none

/-- Major 0x01 (R112). -/
def zynAlu (i : CtxId) (w : Word) : Option Instr :=
  let d := zFd w; let a := zFa w; let b := zFb w
  let n : BitVec 6 := (zFunc w).extractLsb' 0 6
  match ((zFunc w).extractLsb' 6 5 : BitVec 5).toNat with
  | 0x00 => zIf (n == 0) (.add i d a b)
  | 0x01 => zIf (n == 0) (.sub i d a b)
  | 0x02 => zIf (n == 0) (.and i d a b)
  | 0x03 => zIf (n == 0) (.or i d a b)
  | 0x04 => zIf (n == 0) (.xor i d a b)
  | 0x05 => zIf (n == 0) (.andn i d a b)
  | 0x06 => zIf (n == 0) (.shl i d a b)
  | 0x07 => zIf (n == 0) (.shr i d a b)
  | 0x08 => zIf (n == 0) (.sar i d a b)
  | 0x09 => zIf (b == 0) (.shli i d a n)
  | 0x0A => zIf (b == 0) (.shri i d a n)
  | 0x0B => zIf (b == 0) (.sari i d a n)
  | 0x0C => zIf (n == 0) (.mullo i d a b)
  | 0x0D => zIf (n == 0) (.mulhu i d a b)
  | 0x0E => zIf (n == 0) (.minu i d a b)
  | 0x0F => zIf (n == 0) (.maxu i d a b)
  | 0x10 => zIf (n == 0 && b == 0) (.clz i d a)
  | 0x11 => zIf (n == 0 && b == 0) (.popc i d a)
  | 0x12 => zIf (n == 0 && b == 0) (.mov i d a)
  | 0x13 => zIf ((n.extractLsb' 3 3 : BitVec 3) == 0) (.sel i d a b (n.extractLsb' 0 3))
  | _ => none

/-- Major 0x02 (R113). -/
def zynCmp (i : CtxId) (w : Word) : Option Instr :=
  let f := zFunc w
  match Cond.ofCode (f.extractLsb' 0 3), Combine.ofCode (f.extractLsb' 3 2) with
  | some c, some k => zIf ((f.extractLsb' 5 6 : BitVec 6) == 0 && ((zFd w).extractLsb' 3 2 : BitVec 2) == 0) (.cmp i ((zFd w).extractLsb' 0 3) (zFa w) (zFb w) c k)
  | _, _ => none

/-- Major 0x03 (R114). -/
def zynPlog (i : CtxId) (w : Word) : Option Instr :=
  let d : BitVec 3 := (zFd w).extractLsb' 0 3
  let a : BitVec 3 := (zFa w).extractLsb' 0 3
  let b : BitVec 3 := (zFb w).extractLsb' 0 3
  let top (x : BitVec 5) : Bool := (x.extractLsb' 3 2 : BitVec 2) == 0
  if !(top (zFd w) && top (zFa w) && top (zFb w) && ((zFunc w).extractLsb' 3 8 : BitVec 8) == 0) then none
  else match ((zFunc w).extractLsb' 0 3 : BitVec 3).toNat with
    | 0 => some (.pand i d a b)
    | 1 => some (.por i d a b)
    | 2 => some (.pxor i d a b)
    | 3 => zIf (b == 0) (.pnot i d a)
    | 4 => zIf (a == 0 && b == 0) (.pset i d)
    | 5 => zIf (a == 0 && b == 0) (.pclr i d)
    | _ => none

/-- Majors 0x18 to 0x25, R-form (R118 to R127). -/
def zynUnit (i : CtxId) (w : Word) : Option Instr :=
  let d := zFd w; let a := zFa w; let b := zFb w; let f := zFunc w
  let lo : BitVec 8 := f.extractLsb' 0 8
  let p : BitVec 3 := f.extractLsb' 8 3
  match (zMajor w).toNat with
  | 0x18 => zIf (b == 0 && p == 0) (.tget i d a lo)
  | 0x19 => zIf (d == 0 && p == 0) (.tput i a b lo)
  | 0x1A => some (.tcas i d a b lo p)
  | 0x1B => zIf (p == 0) (.tjrn i d a b lo)
  | 0x1C => zIf (a == 0 && b == 0) (.qpop i d lo p)
  | 0x1D => some (.qpush i d a b lo p)
  | 0x1E => zIf (a == 0 && b == 0) (.qpeek i d lo p)
  | 0x20 => zIf (b == 0 && f == 0) (.wev i d a)
  | 0x21 => zIf (d == 0 && b == 0 && (f.extractLsb' 4 7 : BitVec 7) == 0) (.sev i a (f.extractLsb' 0 4))
  | 0x22 =>
    if !(a == 0 && b == 0) then none
    else match f.toNat with
      | 0 => some (.tnow i d)
      | 1 => some (.ptype i d)
      | 2 => zIf (d == 0) (.wper i)
      | _ => none
  | 0x24 => zIf (d == 0 && a == 0 && b == 0 && f == 0) (.pwait i)
  | 0x25 =>
    let ring := f.getLsbD 2
    if !((f.extractLsb' 3 5 : BitVec 5) == 0) then none
    else match (f.extractLsb' 0 2 : BitVec 2).toNat with
      | 0 => some (.rcallBarrier i d a b ring p)
      | 1 => some (.rcallBroadcast i d a b ring p)
      | 2 => some (.rcallSnapshot i d a b ring p)
      | _ => some (.rcallCommitVote i b p)
  | 0x2E =>
    if !(d == 0 && b == 0 && (f.extractLsb' 1 7 : BitVec 7) == 0) then none
    else if f.getLsbD 0 then zIf (p == 0) (.sqsh i a) else some (.conf i a p)
  | 0x34 => zIf (d == 0 && a == 0 && b == 0 && f == 0) (.ret i)
  | _ => none

/-- I-form, B-form and LN-form majors (R113, R115 to R117, R128, R139, R140). -/
def zynImm (i : CtxId) (w : Word) : Option Instr :=
  let d := zFd w; let a := zFa w; let m := zImm w; let p := zPred w; let off := zOff w
  let name : BitVec 12 := m.extractLsb' 0 12
  let hi : BitVec 4 := m.extractLsb' 12 4
  match (zMajor w).toNat with
  | 0x04 => zIf (a == 0 && hi == 0) (.svr i d name)
  | 0x05 => zIf (d == 0 && hi == 0) (.svw i name a)
  | 0x08 => some (.addi i d a m)
  | 0x09 => some (.andi i d a m)
  | 0x0A => some (.ori i d a m)
  | 0x0B => some (.xori i d a m)
  | 0x0C => zIf (a == 0) (.movi i d m)
  | 0x0D => zIf (a == 0) (.movsh i d m)
  | 0x0E => some (.cmpi i (d.extractLsb' 2 3) (d.extractLsb' 0 2) a m)
  | 0x10 => some (.ld8 i d a m)
  | 0x11 => some (.ld16 i d a m)
  | 0x12 => some (.ld32 i d a m)
  | 0x13 => some (.ld64 i d a m)
  | 0x14 => some (.st8 i d a m)
  | 0x15 => some (.st16 i d a m)
  | 0x16 => some (.st32 i d a m)
  | 0x17 => some (.st64 i d a m)
  | 0x26 => zIf (d == 0 && a == 0) (.trap i m)
  | 0x30 => (match p.toNat with | 0 => some (.br i off) | 1 => some (.brV i off) | _ => none)
  | 0x31 => some (.brp i p off)
  | 0x32 => some (.brpFalse i p off)
  | 0x33 => zIf (p == 0) (.call i off)
  | 0x35 => some (.loopn i d a m)
  | _ => none

/-- L-form majors, word 0 and word 1 (R129 to R135). -/
def zynDev (i : CtxId) (w v : Word) : Option Instr :=
  let d := zFd w; let a := zFa w; let b := zFb w; let m := zImm1 v; let crec := zImm v
  let kind : BitVec 4 := m.extractLsb' 0 4
  let plain : Bool := zFlags w == 0
  match (zMajor w).toNat, (zSub w).toNat with
  | 0x28, 0 => zIf (plain && b == 0 && (m.extractLsb' 12 4 : BitVec 4) == 0 && (m.extractLsb' 4 2 : BitVec 2) == 0)
      (.nrd i d a (m.extractLsb' 6 2) (m.extractLsb' 8 4) kind crec)
  | 0x28, 1 => zIf (plain && (m.extractLsb' 7 9 : BitVec 9) == 0 && !m.getLsbD 5) (.npg i d a b kind (m.getLsbD 4) (m.getLsbD 6) crec)
  | 0x28, 2 => zIf (plain && b == 0 && (m.extractLsb' 4 12 : BitVec 12) == 0) (.ner i d a kind crec)
  | 0x28, 3 => zIf (plain && b == 0 && (m.extractLsb' 4 12 : BitVec 12) == 0) (.nsus i d a ⟨kind, crec⟩)
  | 0x28, 4 => zIf (plain && b == 0 && (m.extractLsb' 4 12 : BitVec 12) == 0) (.nres i d a ⟨kind, crec⟩)
  | 0x29, 0 => zIf (plain && (m.extractLsb' 9 7 : BitVec 7) == 0) (.xfer i d a b (m.extractLsb' 0 8) (m.getLsbD 8) crec)
  | 0x2A, 0 => zIf (plain && b == 0 && (m.extractLsb' 2 14 : BitVec 14) == 0) (.lookup i d a (m.extractLsb' 0 2) crec)
  | 0x2B, 0 => zIf (plain && d == 0 && a == 0 && b == 0 && m == 0) (.rangeLock ⟨i, crec⟩)
  | 0x2B, 1 => zIf (plain && d == 0 && a == 0 && b == 0 && m == 0) (.rangeUnlock ⟨i, crec⟩)
  | 0x2B, 2 => zIf (plain && b == 0 && m == 0) (.zoneLock i d a crec)
  | 0x2B, 3 => zIf (plain && d == 0 && b == 0 && m == 0) (.zoneUnlock ⟨i, crec⟩ a)
  | 0x2C, 0 => zIf (plain && b == 0 && m == 0) (.cqpost i d a crec)
  | 0x2D, 0 => zIf (((zFlags w).extractLsb' 1 6 : BitVec 6) == 0 && m == 0) (.spec i d a b ((zFlags w).getLsbD 0) crec)
  | _, _ => none

/-- The command of a context that meets words w and, for an L-form, v; none: an undefined word, met by UNDEFINED_INSTRUCTION (R105). -/
def zynDecode (i : CtxId) (w v : Word) : Option Instr :=
  match (zMajor w).toNat with
  | 0x01 => zynAlu i w
  | 0x02 => zynCmp i w
  | 0x03 => zynPlog i w
  | 0x04 | 0x05 | 0x08 | 0x09 | 0x0A | 0x0B | 0x0C | 0x0D | 0x0E | 0x10 | 0x11 | 0x12 | 0x13 | 0x14 | 0x15 | 0x16 | 0x17
  | 0x26 | 0x30 | 0x31 | 0x32 | 0x33 | 0x35 => zynImm i w
  | 0x28 | 0x29 | 0x2A | 0x2B | 0x2C | 0x2D => zynDev i w v
  | _ => zynUnit i w

/-- Words of an instruction: 2 for an L-form, else 1 (R106). -/
def zynLength (w : Word) : Nat := match (zMajor w).toNat with | 0x28 | 0x29 | 0x2A | 0x2B | 0x2C | 0x2D => 2 | _ => 1

end Sys2Proof
end

