-- ==== Sys2Proof/Config.lean ====
section
/-! DEFINITION. What one part fixes (fuses, media, algorithms named by other standards) and the values the spec leaves open.
Nothing here has a body: no proof can lean on a value. -/
namespace Sys2Proof

/-! ### Free values -/
/-- A value the spec leaves open, drawn by its number (assumption 3). -/
opaque Config.freeNat : Nat → Nat
/-- A 64-bit value the spec leaves open. -/
opaque Config.free64 : Nat → Word64

/-! ### Fused per part -/
/-- Device serial number (GLB_SERIAL). -/
opaque Config.serial : Word64
/-- VDD_CORE of each performance level in mV, taken within the bounds of R405 (Machine.levelCore). -/
opaque Config.vcoreMv : Nat → Nat

/-- Thermal constants of R422: energy of a count of counter `k` in tile `i` (J), leakage (W) of a tile by VDD_CORE in mV and °C, thermal
resistance between adjacent tiles and of a tile to the sink (K/W), and heat capacity (J/K). -/
opaque Config.energy (i k : Nat) : Rat
opaque Config.leak (i vcore : Nat) (t : Rat) : Rat
opaque Config.rTile (i j : Nat) : Rat
opaque Config.rSink (i : Nat) : Rat
opaque Config.cTile (i : Nat) : Rat

/-- The PSID printed on the label (R377). -/
opaque Config.psid : BitVec 256

/-! ### Algorithms of other standards, as functions with no equations -/
/-- AES-256-XTS of one logical block under a key and a data unit number (R19), a permutation of blocks. -/
opaque Config.xts (k : XtsKey) (lba : Nat) : Equiv.Perm Block
/-- AES-256-XTS of one 512-byte logical block under a key and its LBA (R225). -/
opaque Config.xtsS (k : XtsKey) (lba : Nat) : Equiv.Perm (BitVec 4096)
/-- SHA-384 or SHA3-384 of a list of words, as the rule that uses it names (R390, R394, R495). -/
opaque Config.digest : List Nat → Digest
/-- A key derived from inputs (R372, R373, R383). -/
opaque Config.deriveKey : List Nat → XtsKey
/-- A fresh random key or nonce of the DRBG (R371), by draw number. -/
opaque Config.random : Nat → BitVec 512
/-- The 64-bit hash a rule names without fixing its polynomial (R214, R231). -/
opaque Config.hash : List Nat → Nat

/-- Bytes in a format that another standard fixes (X.509 certificates, SPDM messages, Identify data, log pages), from their kind and content. -/
opaque Config.bytes (kind : Nat) (content : List Nat) : List Byte

end Sys2Proof
end

