-- ==== Sys2Proof/Machine/State.lean ====
section
/-! DEFINITION. The state of the block: everything the spec gives it beyond the command queue's own entry, as plain data.
Register values stand in `regs`; a quantity that a register only reports has one home, named in the register's read
(Machine/Ops.lean). -/
namespace Sys2Proof.Machine


/-! ### Timetable unit (02_timetable.md) -/

/-- One Bell source (R38, R40). -/
structure BellSrc where
  /-- The source is valid (R40). -/
  valid : Bool := false
  /-- Consecutive rejected edges, or consecutive intervals without a dialog (R40). -/
  misses : Nat := 0
  /-- It was valid before and became invalid: the two-sample rule of R40 applies. -/
  lost : Bool := false
  /-- Phase error in ns of the last sample, for the two-sample rule of R40. -/
  last : Option Int := none
deriving DecidableEq, Repr

/-- Kinds of an on-chip Roll Call (R59, R127). -/
inductive RcKind | barrier | broadcast | snapshot
deriving DecidableEq, Repr

/-- An open or queued Roll Call (R59 to R63, R127). -/
structure RollCall where
  ident : BitVec 16
  kind : RcKind
  /-- Requested mask; the effective mask is it AND the powered participants (R60). -/
  mask : Word64
  arrived : Word64 := 0
  /-- Values offered by members of a broadcast, by participant number (R127). -/
  offers : Sparse Word64 := []
  /-- Contexts waiting for the release, by CTX.ID. -/
  waiters : List Nat := []
  /-- Scope across the Tether ring (R127 func[2]). -/
  ring : Bool := false
  /-- Ring IDs whose arrival is still missing (R472). -/
  ringWait : List Nat := []
  /-- Ring ID of the device that opened it (R61). -/
  origin : Nat := 0
  /-- Elapsed time at which the tree opened it (R62). -/
  since : Nat := 0
  /-- Highest sequence number allocated when the last member of this device arrived (R63); none before. -/
  cut : Option Nat := none
  /-- What other devices reported at their arrival, by ring ID: cut or value (R63, R127). -/
  ringGot : Sparse Word64 := []
deriving DecidableEq, Repr

/-- Kinds of a global commit (R64, TT_GC_STATUS.KIND). -/
inductive GcKind | timetable | perfLevel | envelope | activation
deriving DecidableEq, Repr

/-- A queued global commit request (R68). `arg` is the target level of a performance-level commit. -/
structure GcReq where
  kind : GcKind
  arg : Nat := 0
  /-- Device time of the request. -/
  since : Word64 := 0
deriving DecidableEq, Repr

/-- The commit in flight (R64, R65): the mode latched at service, B, and the members' answers. -/
structure GcFlight where
  kind : GcKind
  arg : Nat := 0
  /-- Start of the Assembly Period at which the commit applies. -/
  b : Word64
  members : Word64
  acks : Word64 := 0
  nacks : Word64 := 0
  armed : Bool := false
  /-- Staged registers latched at service: (BAR2 offset, value). -/
  staged : List (Nat × Word) := []
deriving DecidableEq, Repr

/-- State of the TTU that no register shows whole (02_timetable.md). -/
structure Ttu where
  /-- Device time in ns (R37), cold domain. -/
  time : Word64 := 0
  /-- Elapsed AON_CLK time in ns since cold reset (R88, R174): never stepped or slewed. -/
  elapsed : Nat := 0
  /-- Sub-nanosecond part of device time, in ps (R37: fractional increment). -/
  frac : Nat := 0
  /-- Phase error still to be slewed away, in ps (R43). -/
  slew : Int := 0
  /-- A step waiting for the next Period boundary, in ns (R43). -/
  step : Option Int := none
  /-- The Period number now running (TT_PNUM), cold domain. -/
  pnum : Word64 := 0
  /-- Device time has been referenced since cold reset (R45), cold domain. -/
  referenced : Bool := false
  /-- Sources by code 1 BELL, 2 PTM, 3 Tether relay (R38). -/
  src1 : BellSrc := {}
  src2 : BellSrc := {}
  src3 : BellSrc := {}
  /-- Consecutive samples that met lock in ACQUIRING (R42). -/
  lockRun : Nat := 0
  /-- Whole seconds applied at the next BELL edge (R39, TT_SET_SEC). -/
  setSec : Option Word := none
  /-- The holdover timer runs (R42, R44). -/
  holdover : Bool := false
  /-- A write of 1 to EN waits for the next boundary (R49). -/
  enPending : Bool := false
  /-- Armed named Assembly (R56, R57). -/
  named : Option Word64 := none
  /-- Device time stepped past the armed Period: fire at the next Assembly with LATE (R57). -/
  namedLate : Bool := false
  /-- Number of the last Period that was a named Assembly, until device time is before its end again (R56, R57). -/
  namedFired : Option Word64 := none
  /-- Rest of the DPLL's loop filter, in ps times its divisor (R42). -/
  loopAcc : Int := 0
  /-- Lesson Period in which the last Notice 0x04 was written (R51). -/
  noted : Option Word64 := none
  /-- Cut vector of the last snapshot over the ring: ring ID and cut (R63). -/
  cutVec : Sparse Word64 := []
  rc : Option RollCall := none
  rcQueue : List RollCall := []
  /-- Contexts blocked because the Roll Call queue is full, with the call they ask for (R62). -/
  rcBlocked : List (Nat × RollCall) := []
  /-- Snapshots that wait for their cut to be durable (CUTDUR, R63): cut number and members. -/
  cutWait : List (Nat × List Nat) := []
  gcQueue : List GcReq := []
  gc : Option GcFlight := none
  /-- Ballast override occurrences: die and Period number, oldest first (R55, Timetable log page). -/
  ovrLog : List (Nat × Word64) := []
deriving DecidableEq, Repr

/-! ### Zyn engines (03_zyn_model.md, 04_zyn_instructions.md) -/

/-- Origin of a Sequencer activation (R131). -/
inductive Origin | host | background
deriving DecidableEq, Repr

/-- A queued activation request (R82, R83). -/
structure Request where
  kind : BitVec 5
  arg0 : Word64 := 0
  arg1 : Word64 := 0
  arg2 : Word64 := 0
  arg3 : Word64 := 0
  origin : Origin := .background
  /-- Bound command context, if the work belongs to a command. -/
  cmd : Option Nat := none
deriving DecidableEq, Repr

/-- A fault record (R100). The 32 bytes hold cause to time; the immediate of TRAP stands in `addr` (R99). The trapped activation's request and
its command's FSN are the model's own: what the hardware dispatches again, and which command the index named (R102). -/
structure FaultRec where
  cause : BitVec 8
  ctxId : BitVec 11
  kind : BitVec 5
  pc : Nat
  addr : Word64
  cmd : Option Nat
  timeUs : Nat
  req : Request
  fsn : Option Nat
deriving DecidableEq, Repr

/-- Result of an operation that a trap found issued to NAND, held for the fault handler (R100): CTX.ID, tag, record fields. -/
structure HeldResult where
  ctx : Nat
  tag : Nat
  op : Nat
  status : Nat
  wordA : Nat
  wordB : Nat
deriving DecidableEq, Repr

/-- A table operation whose entry is being fetched from DRAM (R80). -/
inductive TableOp
  | get (d : BitVec 5)
  | put (v : Word64)
  | cas (d : BitVec 5) (old new : Word64) (p : BitVec 3)
  | jrn (d : BitVec 5) (v : Word64)
deriving DecidableEq, Repr

/-- What a BLOCKED context waits for (R73, R80, R127, R129). -/
inductive Wait
  /-- WEV on a mask, result to `d` (R124). -/
  | events (mask : Word64) (d : BitVec 5)
  /-- WPER: event 24 (R125). -/
  | period
  /-- Data of a table operation (R80). -/
  | table (op : TableOp) (tbl : BitVec 8) (index : Nat) (word : Nat)
  /-- A journaled write at fill 1 000, or under a snapshot's stall (R299, R63). -/
  | journal (op : TableOp) (tbl : BitVec 8) (index : Nat) (word : Nat)
  /-- A table line under rebuild (R334), untimed (R88). -/
  | rebuild (op : TableOp) (tbl : BitVec 8) (index : Nat) (word : Nat)
  /-- Release of a Roll Call: result register and predicate (R127). -/
  | rollCall (d : BitVec 5) (p : BitVec 3)
  /-- A slot of the Roll Call queue (R62). -/
  | rcSlot (d : BitVec 5) (p : BitVec 3)
  /-- CQPOST: a free CQ entry (R134). -/
  | cq (tag : Nat) (dw0 dw1 : Word) (crec : BitVec 16)
  /-- XFER to a PAU engine that does not expect its first block yet (R224). -/
  | pau
deriving DecidableEq, Repr

/-- State of a context (R73). -/
inductive CtxSt
  | idle | ready | blocked (w : Wait) | asleep | trapped
deriving DecidableEq, Repr

/-- An unconfirmed speculative operation of a context (R135). -/
structure Spec where
  tag : Nat
  /-- false: the SPEC sent no read. -/
  sent : Bool
  /-- Map speculation: table (false MAP, true ZDESC), index, recorded stamp, recorded address; none for a retry. -/
  map : Option (Bool × Nat × Nat × Word64) := none
  chan : Nat := 0
  crec : BitVec 16 := 0xFFFF
  /-- First staging slot and count once allocated. -/
  slots : Option (Nat × Nat) := none
  /-- The decode has ended. -/
  landed : Bool := false
deriving DecidableEq, Repr

/-- A transfer issued by XFER and not ended (R133). -/
structure Xfer where
  tag : Nat
  src : Word64
  dst : Word64
  blocks : Nat
  pau : Bool := false
  crec : BitVec 16 := 0xFFFF
deriving DecidableEq, Repr

/-- One hardware context (R70 to R74, R86, R129). -/
structure Ctx where
  st : CtxSt := .idle
  kind : BitVec 5 := 0
  arg0 : Word64 := 0
  arg1 : Word64 := 0
  arg2 : Word64 := 0
  arg3 : Word64 := 0
  w : Vector Word64 32 := Vector.replicate 32 0
  p : BitVec 8 := 0
  /-- Word offset in the class's code section. -/
  pc : Nat := 0
  /-- Return stack, top first, at most 8 (R139). -/
  stack : List Nat := []
  /-- PC of the instruction issued last (R98, R100). -/
  last : Nat := 0
  /-- Budget counter (R98). -/
  used : Nat := 0
  /-- BUDGET of the entry (R94). -/
  budget : Nat := 0
  /-- Bus-error vector of the entry, if any (R94, R101). -/
  bev : Option Nat := none
  /-- In the bus-error vector state (R141). -/
  inVec : Bool := false
  events : Word64 := 0
  /-- Tags in use (R129). -/
  tags : BitVec 16 := 0
  specs : List Spec := []
  xfers : List Xfer := []
  cmd : Option Nat := none
  origin : Origin := .background
  /-- Zone locks held by the activation: ZDESC indices (R134, R100). -/
  zlocks : List Nat := []
  /-- LUNs this activation suspended by NSUS and has not resumed (R132). -/
  susp : List Nat := []
  trapCause : BitVec 8 := 0
  trapAddr : Word64 := 0
  trapPc : Nat := 0
  trapCtx : BitVec 11 := 0
  pwrMode : Word64 := 0
  rcMask : Word64 := 0
  /-- A PREPARE activation has recorded its vote (R127). -/
  voted : Bool := false
  /-- FAULT activation: the record it handles, and whether it has disposed of the command (R102). -/
  fault : Option FaultRec := none
  disposed : Bool := false
  /-- Elapsed time at which the context became BLOCKED (R73, R88). -/
  since : Nat := 0
deriving DecidableEq, Repr

/-- The tables of R78, as words keyed by 8 × index + word; MAP keyed by index. -/
structure Tables where
  map : Sparse Word64 := []
  zdesc : Sparse Word64 := []
  /-- Free blocks of a die: (erase count, block), in heap order (R279). -/
  heap : Sparse (List (Nat × Nat)) := []
  block : Sparse Word64 := []
  tenant : Sparse Word64 := []
  nsrec : Sparse Word64 := []
  param : Sparse Word64 := []
  die : Sparse Word64 := []
deriving DecidableEq, Repr

/-- The Zyn side of the device. -/
structure Zyn where
  /-- Contexts keyed by CTX.ID (R74: class [10:9], engine [8:3], context [2:0]). -/
  ctxs : Sparse Ctx := []
  /-- Scratch bytes keyed by participant number × 65 536 + address (R76). -/
  scratch : Sparse Byte := []
  /-- Mailboxes keyed by participant number × 8 + mailbox (R121), oldest first. -/
  mail : Sparse (List Word64) := []
  /-- Which context each mailbox is bound to, same key (R123). -/
  mailOwner : Sparse Nat := []
  /-- Dispatch queues keyed by participant number (R82), oldest first. -/
  queues : Sparse (List Request) := []
  /-- Fault queue (R102), oldest first. -/
  faultQ : List FaultRec := []
  /-- FSN of the commands, class and kind that have trapped once (R102). -/
  refault : List (Nat × BitVec 2 × BitVec 5) := []
  /-- Requests of stalled hardware producers, keyed by participant number (R82), oldest first. -/
  stalled : Sparse (List Request) := []
  /-- Results held for the fault handler (R100). -/
  results : List HeldResult := []
  bundle : Bundle := {}
  /-- The bundle an activation switch will install (R96). -/
  next : Option Bundle := none
  /-- Dispatch is held from the drain to the switch (R96). -/
  held : Bool := false
  /-- Participants whose domain was restored and whose RESTORE entry must run first (R76, R419). -/
  restore : List Nat := []
  tab : Tables := {}
  /-- Latched microprogram table of each Sequencer: key channel × 256 + entry (R261). -/
  uprog : Sparse Word64 := []
deriving DecidableEq, Repr

/-! ### Host interface and command intake (05_command_intake.md, 06_tenants_buffers.md) -/

/-- A submission queue (R154 to R157). -/
structure Sq where
  size : Nat
  cq : Nat
  head : Nat := 0
  tail : Nat := 0
  /-- SQEs from head to tail, in order: the fetch window's view of host memory. -/
  sqes : List Sqe := []
  /-- Kept doorbell stamps: (count of SQEs submitted by then, device time), oldest first, at most 4 (R155). -/
  stamps : List (Nat × Word64) := []
  /-- SQEs submitted and admitted since creation. -/
  submitted : Nat := 0
  admitted : Nat := 0
  /-- Ordered submission (R160). -/
  ordered : Bool := false
  /-- Command context of the last command admitted (R160). -/
  lastCmd : Option Nat := none
  /-- Being deleted (R153): fetch stopped, CID of the Delete to complete. -/
  deleting : Option (BitVec 16) := none
deriving DecidableEq, Repr

/-- A completion queue (R134, R154). -/
structure Cq where
  size : Nat
  vector : Nat := 0
  irq : Bool := true
  head : Nat := 0
  tail : Nat := 0
  /-- CQEs posted and not yet signalled, held by Interrupt Coalescing (R176). -/
  held : Nat := 0
  /-- Completions of admin commands that wait for a free entry, oldest first: CID, status (SCT, SC), Dwords 0 and 1 (R167). -/
  wait : List (BitVec 16 × Nat × Nat × Word × Word) := []
deriving DecidableEq, Repr

/-- A completion queue entry (R134). -/
structure Cqe where
  dw0 : Word := 0
  dw1 : Word := 0
  sqhd : Nat := 0
  sqid : Nat := 0
  cid : BitVec 16 := 0
  /-- Status code type and status code. -/
  sct : Nat := 0
  sc : Nat := 0
deriving DecidableEq, Repr

/-- An NVMe controller: one function (R149 to R154, R177 to R179). -/
structure Func where
  /-- The VF exists (VF Enable, NumVFs); PFs always. -/
  present : Bool := false
  /-- Secondary controller Online (R179). -/
  online : Bool := false
  /-- VQ and VI resources assigned (R178), the one of the admin queue among them; 0: never assigned. -/
  vq : Nat := 0
  vi : Nat := 0
  en : Bool := false
  rdy : Bool := false
  cfs : Bool := false
  shst : BitVec 2 := 0
  /-- Admission stopped for this function (CSTS.CFS, reset). -/
  stop : Bool := false
  /-- CC.EN 1→0 held while HALTED (R103). -/
  heldReset : Bool := false
  /-- Recovery of an enabled controller: CC.EN was set and RDY is due. -/
  enabling : Bool := false
  /-- Namespaces attached. -/
  attached : List Nat := []
  /-- Next I/O SQ of the round robin. -/
  rr : Nat := 0
  /-- cur_f of the arbiter (R157). -/
  cur : Int := 0
  /-- Outstanding Asynchronous Event Requests (CIDs, oldest first), and events (type, information) waiting for one. -/
  aers : List (BitVec 16) := []
  events : List (Nat × Nat) := []
  /-- Events reported and not yet acknowledged: no further event of the same kind is posted. -/
  reported : List (Nat × Nat) := []
  /-- Outstanding Aborts: CID of the Abort, context index of its target. -/
  aborts : List (BitVec 16 × Nat) := []
  /-- Error Information log entries: status (sct, sc), newest first. -/
  errors : List (Nat × Nat) := []
  /-- Stored standard features: feature identifier and value. -/
  feats : Sparse Word := []
  /-- Writes covered per outstanding Flush: (Flush context, covered write contexts). -/
  flushes : List (Nat × List Nat) := []
  /-- FLR in progress (R194). -/
  flr : Bool := false
  /-- The FLR removes the VF: VF Enable cleared or NumVFs lowered (R198). -/
  leaving : Bool := false
  /-- Controller reset in progress (R171). -/
  resetting : Bool := false
  /-- A normal shutdown is in progress (R172). -/
  shutdown : Bool := false
deriving DecidableEq, Repr

/-- States of a command (R176). QUEUED commands are the SQEs of their queue. -/
inductive CmdSt
  | admitted | lockWait | executing | ending | draining | committed | posted
deriving DecidableEq, Repr

/-- Phase of a mirrored write at its front (R463, R469). -/
inductive MirrorPh | none | waitGrant | granted | sent | acked
deriving DecidableEq, Repr

/-- A command context: one command in flight (R156, R176). -/
structure Cmd where
  st : CmdSt := .admitted
  func : Nat
  sqid : Nat
  admin : Bool := false
  sqe : Sqe
  fsn : Nat
  arrival : Word64 := 0
  /-- Seating Chart result (R204); all ones: no match. -/
  scr : Word64 := 0xFFFFFFFFFFFFFFFF
  classified : Bool := false
  /-- Waits for every bank to be online (R215). -/
  waitBank : Bool := false
  /-- Key slots settled at classification (R375): runs of (logical blocks, slot) in LBA order. -/
  keys : List (Nat × Nat) := []
  /-- Status to post (CMD.STATUS): status code type [10:8], status code [7:0]. -/
  status : Word64 := 0
  committed : Bool := false
  abort : Bool := false
  timedOut : Bool := false
  /-- Assigned starting LBA of a Zone Append (R27). -/
  assigned : Option Nat := none
  /-- Buffers still reserved and not yet drawn (R189). -/
  resv : Nat := 0
  /-- Buffers held, by LBA order. -/
  bufs : List Nat := []
  /-- Host DMA of the command has begun. -/
  dma : Bool := false
  /-- Every block of the write is in the pool and journaled (R23 step 3). -/
  placed : Bool := false
  /-- A waiting CQPOST: dwords 0 and 1 and the issuing context's tag (R134). -/
  cqWait : Option (Word × Word) := none
  /-- The write waits for the Dirty Ceiling (R24). -/
  ceilWait : Bool := false
  /-- Unwritten-to-media blocks left before R23 step 6. -/
  dirty : Nat := 0
  /-- Filtered Read: engine, next expected block, output (R223, R224). -/
  pau : Option (Nat × Nat) := none
  pauBytes : List Byte := []
  pauOut : List Byte := []
  pauMatches : Nat := 0
  /-- Image bound at classification (R221). -/
  filter : Option (List Byte) := none
  /-- Spanned pieces in LBA order: owner ring ID, and status once complete (R466). -/
  pieces : List (Nat × Option (Nat × Nat)) := []
  /-- Mirrored write: phase of R463. -/
  mirror : MirrorPh := .none
  /-- A range LOCK has been issued for it (R134). -/
  locked : Bool := false
  /-- Its MAP activation has been requested (R83). -/
  mapped : Bool := false
  /-- Fused pair: the other half's context (R159). -/
  fused : Option Nat := none
deriving DecidableEq, Repr

/-- Modes of a range lock (R152). -/
inductive LockMode | shared | excl
deriving DecidableEq, Repr

/-- A range-lock request (R161 to R163), one per ranged command. -/
structure LockReq where
  cmd : Nat
  fsn : Nat
  nsid : Nat
  sq : Nat
  /-- Ranges in units of 4 096 B: (first, count, mode). -/
  ranges : List (Nat × Nat × LockMode)
  wide : Bool := false
  armed : Bool := false
  held : Bool := false
  /-- Ring ID of the front, for locks asked by a Tether peer (R462). -/
  peer : Option Nat := none
deriving DecidableEq, Repr

/-- A holder or waiter of a zone lock: a context (R134) or a peer's front (R462). -/
inductive ZHolder
  | ctx (id tag : Nat) | cmd (c : Nat) | peer (ring tag : Nat)
deriving DecidableEq, Repr

/-- A pool buffer in use (R25, R187, R189). -/
structure Buf where
  cmd : Nat
  account : Nat
  nsid : Nat
  lba : Nat
  data : Block := 0
  /-- The map entry before the write that made it POOL (R303 step 3). -/
  prior : Word64 := 0
  /-- Write sequence number of the block's step-1 record (R234); 0 before it. -/
  wsn : Nat := 0
  /-- Acknowledged: counted in JNL_DIRTY (R307). -/
  acked : Bool := false
  /-- Valid sectors for a partial IU (R231). -/
  mask : BitVec 8 := 0xFF
  /-- The map change to MEDIA is journaled; released at the seal of this sequence number (R25). -/
  doneSeq : Option Nat := none
  /-- Released once no transfer reads from it. -/
  readers : Nat := 0
  /-- Fenced: never allocated again before warm reset (R326). -/
  fenced : Bool := false
deriving DecidableEq, Repr

/-- A pending descriptor of a partial IU (R231). -/
structure Pending where
  prior : Word64
  bufs : List Nat
  mask : BitVec 32
deriving DecidableEq, Repr

/-- What leaves the block: the messages the host, the board or a peer can see. -/
inductive Out
  /-- A CQE posted on CQ `cq` of function `f`. -/
  | cqe (f cq : Nat) (e : Cqe)
  /-- An MSI-X message of a vector. -/
  | msix (f vector : Nat)
  /-- Host read data: function, command identifier, first block offset, plaintext blocks. -/
  | data (f : Nat) (cid : BitVec 16) (off : Nat) (blocks : List Block)
  /-- Bytes returned by a command that returns bytes (a log, a record, Identify, SPDM ...). -/
  | bytes (f : Nat) (cid : BitVec 16) (b : List Byte)
  /-- An AER error message (R148). -/
  | aer (f : Nat)
  /-- A Tether frame: link (0 West, 1 East), type, origin ring ID, words (R456). -/
  | frame (link ty origin : Nat) (body : List Word64)
  /-- An MCTP message body. -/
  | mctp (b : List Byte)
  /-- A level on an output ball. -/
  | pin (name : String) (level : Bool)
  /-- A supply request on AVSBus: VDD_CORE and VDD_SRAM in mV (R408). -/
  | avs (vcore vsram : Nat)
  /-- A value shifted out on TDO (R481). -/
  | tdo (v : Nat)
  /-- A register value returned to a PF by a BAR2 read (R488). -/
  | reg (pf : Bool) (off : Nat) (v : Word)
deriving DecidableEq, Repr

/-- Host side of the device. -/
structure HostIf where
  /-- Functions keyed by function number (R177). -/
  funcs : Sparse Func := []
  /-- Queues keyed by function × 65 536 + queue identifier. -/
  sqs : Sparse Sq := []
  cqs : Sparse Cq := []
  /-- Command contexts in use, keyed by index (R156). -/
  cmds : Sparse Cmd := []
  /-- Next fetch sequence number (R156). -/
  fsn : Nat := 0
  /-- Fetch stopped on every function: firmware activation or flush path (R173, R311). -/
  stopAll : Bool := false
  /-- Range-Lock Table in FSN order (R161). -/
  rlt : List LockReq := []
  /-- Zone locks keyed by ZDESC index: whether the first of the list holds it, and the requests in arrival order (R134). -/
  zlocks : Sparse (Bool × List ZHolder) := []
  /-- Zone barriers: (ZDESC index, FSN, command) (R243). -/
  barriers : List (Nat × Nat × Nat) := []
  /-- Pool buffers in use, keyed by handle. -/
  bufs : Sparse Buf := []
  /-- COUNT in force, 0 before the first CC.EN (R187). -/
  poolCount : Nat := 0
  /-- The claim of R191: (function, queue). -/
  claim : Option (Nat × Nat) := none
  /-- Pending descriptors keyed by handle (R231). -/
  pendings : Sparse Pending := []
  /-- Accounts not in soft and not in hard warning, for the entry events of R193: at reset the accounts whose share is not 0 (R190). -/
  calmSoft : List Nat := [0, 2048, 4096]
  calmHard : List Nat := [0, 2048, 4096]
  low : Bool := false
  /-- HI halves latched per PF: key 67 108 864 × pf + offset (R490). -/
  latch : Sparse Word := []
  /-- The configuration registers latched at the first CC.EN of PF0 since warm reset (R492). -/
  configured : Bool := false
  /-- The MSI-X vectors masked by coalescing: aggregation threshold and time are feature 0x08. -/
  numVfs0 : Nat := 0
  numVfs1 : Nat := 0
  /-- Commit in flight of a Firmware Commit 011b: function, CID, drain begun (R173). -/
  fwCommit : Option (Nat × BitVec 16) := none
  /-- Slot of the image it activates, and whether step 4 has written its ledger record and asked for the switch. -/
  fwSlot : Bool := false
  fwRecorded : Bool := false
  /-- Unfinished filter assemblies keyed by function: next chunk, bytes (R220). -/
  assembly : Sparse (Nat × List Byte) := []
  /-- L1 state of each port: 0 not in L1, 1 L1, 2 L1.1, 3 L1.2 (R41, R144, R413). -/
  l1Port0 : BitVec 2 := 0
  l1Port1 : BitVec 2 := 0
deriving DecidableEq, Repr

/-! ### Seating Chart and Pattern Automata (07_seating_chart.md) -/

/-- An installed entry with its result record (R199). Bit i of unit u is bit 80 × u + i. -/
structure ScEntry where
  value : BitVec 320
  care : BitVec 320
  width : Nat
  prio : BitVec 8
  result : Word64
  live0 : Bool
  live1 : Bool
  /-- Owner function of a manager entry; none: a default entry (R209). -/
  owner : Option Nat
deriving DecidableEq, Repr

structure SeatingChart where
  /-- Valid entries keyed by index (R199). -/
  entries : Sparse ScEntry := []
  /-- SC_BANK_CFG in force; none before the first CC.EN (R200). -/
  layout : Option Word := none
  /-- Epoch bits set: functions whose E_f is 1 (R210). -/
  epochs : List Nat := []
  /-- What set bits of the pre-filter: value and cared bits of (FUNC << 4) or OPC[3:0] (R214). -/
  prefilter : List (Nat × Nat) := []
  /-- Filter store keyed by function: image bytes (R220). -/
  filters : Sparse (List Byte) := []
  /-- PAU engines: command context of each (R224). -/
  engines : Sparse Nat := []
  /-- Commands waiting for an engine, in FSN order. -/
  pauWait : List Nat := []
  /-- Banks under rebuild after a fault (R216). -/
  faults : List Nat := []
  /-- Rates staged for the next Period boundary (R213, R217). -/
  nextRate : Option Nat := none
  nextPau : Option Nat := none
deriving DecidableEq, Repr

/-! ### Map cache (08_placement_map.md) -/

/-- A resident line of the map cache (R232): stamps of its 12 entries, and pins. -/
structure CacheLine where
  /-- Line number: MAP index / 12, or 2^40 + ZDESC index for a descriptor. -/
  line : Nat
  stamps : Sparse Nat := []
  /-- Stamp of every entry not listed: the highest number allocated at the fill. -/
  fill : Nat
  pins : Nat := 0
  invalid : Bool := false
deriving DecidableEq, Repr

/-- A zone's pending ring: buffer handle per zone offset (R242). -/
structure MapUnit where
  /-- Resident lines keyed by set, most recently used first, at most 16 (R232, R513). -/
  cache : Sparse (List CacheLine) := []
  /-- Stamps of words 2 and 3 of active zones' descriptors (R233). -/
  zstamps : Sparse Nat := []
  /-- Pins of resident descriptors. -/
  rings : Sparse (Sparse Nat) := []
  /-- Zone offsets reserved and not committed: (ZDESC index, command, first, count). -/
  reserved : List (Nat × Nat × Nat × Nat) := []
  /-- Zone offsets filled as Write Uncorrectable (R241), keyed by ZDESC index × 2^21 + offset. -/
  voids : List Nat := []
  /-- Zone blocks that a Write Zeroes filled, which hold no buffer: ZDESC index × 2^21 + offset (R152, R235). -/
  zeroed : List Nat := []
  /-- Allocated ring slots and block-list entries. -/
  ringSlots : List Nat := []
  listUsed : List Nat := []
  /-- Open reclaim units by handle: blocks placed (R246). -/
  ruh : Sparse Nat := []
deriving DecidableEq, Repr

/-! ### Flash media (09_media.md) -/

/-- A NAND operation a Sequencer carries out (R131, R260). -/
inductive NandOp
  /-- Read of a run of codewords: soft bits, threshold set, verify read (R284). -/
  | read (soft set : Nat) (verify : Bool)
  /-- An NPG: SLC mode, last of its unit, source descriptor (R515). -/
  | npg (slc last : Bool) (src : Word64)
  | erase
  /-- Program of a closed stripe's parity die-page (R275). -/
  | parity (chan : Nat)
  /-- Program of a checkpoint image: page ID and payload (R304). -/
  | image (page : Nat) (payload : Payload)
  /-- Program of a flush-path die-page (R311): buffers. -/
  | flush (bufs : List Nat)
deriving DecidableEq, Repr

/-- A request on a LUN (R260) or in the Envelope queue (R291). -/
structure NandReq where
  op : NandOp
  /-- Activity kind in force (R131, 0 to 7). -/
  kind : Nat
  /-- 48-bit physical address (R131). -/
  addr : BitVec 48
  /-- Issuing context and tag; none for the hardware's own requests and for abandoned ones. -/
  ctx : Option (Nat × Nat) := none
  crec : BitVec 16 := 0xFFFF
  /-- Bound command, whose end frees the slots (R516). -/
  cmd : Option Nat := none
  /-- Class of R260, 1 to 6. -/
  cls : Nat
  /-- First staging slot of the run, once allocated (R516). -/
  slot : Option Nat := none
  /-- The trapped context and tag that issued it: its result is held (R100). -/
  held : Option (Nat × Nat) := none
  /-- An unconfirmed speculation: the read lands marked speculative (R21, R135). -/
  spec : Bool := false
  /-- Issued by SPEC, confirmed or not. -/
  bySpec : Bool := false
deriving DecidableEq, Repr

/-- A sensed read in its channel's decoder (R270): codewords decoded, worst corrected count, a failed one. -/
structure Decode where
  req : NandReq
  idx : Nat := 0
  worst : Nat := 0
  bad : Bool := false
  outer : Bool := false
deriving DecidableEq, Repr

/-- One codeword loaded into a LUN's latches (R515). -/
structure Latched where
  pos : Nat
  page : Nat
  payload : Payload
  /-- Pool buffer it came from, if any. -/
  buf : Option Nat := none
  /-- Accumulator joined: channel (R274). -/
  join : Option Nat := none
deriving DecidableEq, Repr

/-- A program unit being loaded or running (R515). -/
structure Unit_ where
  kind : Nat
  addr : BitVec 48
  slc : Bool
  loaded : List Latched := []
  ctx : Option (Nat × Nat) := none
  crec : BitVec 16 := 0xFFFF
  /-- The trapped context and tag of its NPG (R100). -/
  held : Option (Nat × Nat) := none
  /-- It is a stripe's parity die-page: accumulator channel (R275). -/
  parity : Option Nat := none
  /-- It is a checkpoint image: page ID (R304). -/
  image : Option Nat := none
  /-- It is a flush-path program (R312). -/
  flush : Bool := false
deriving DecidableEq, Repr

/-- What runs on a LUN. -/
inductive Running
  | none
  | read (r : NandReq)
  | program (u : Unit_)
  | erase (r : NandReq)
  /-- LUN reset through slot 12 (R262). -/
  | reset
deriving DecidableEq, Repr

/-- One LUN (R260 to R266). -/
structure Lun where
  /-- Reads and NPGs after the first of a unit, oldest first. -/
  queue : List NandReq := []
  run : Running := .none
  /-- The unit whose NPGs hold the LUN (R515). -/
  unit : Option Unit_ := none
  /-- The running program or erase is suspended (R264), and by whom: none hardware, some context NSUS. -/
  suspended : Bool := false
  suspBy : Option Nat := none
  /-- Suspends used by the running operation. -/
  suspends : Nat := 0
  /-- Reads served in the current suspension (R265). -/
  served : Nat := 0
  /-- A read runs while the program or erase is suspended. -/
  readRun : Option NandReq := none
  /-- Elapsed times of the last ready timeouts, for the rule of three in 1 s (R263). -/
  timeouts : List Nat := []
  failed : Bool := false
  /-- Last background unit that passed status and is not verified: its first die-page address (R284). -/
  unverified : Option (BitVec 48) := none
  /-- The unit that waits for its verify read: the page ID of a checkpoint image (R304). -/
  verifyImage : Option Nat := none
  /-- Elapsed time at which the operation started, was suspended or last resumed (R264, R265). -/
  since : Nat := 0
deriving DecidableEq, Repr

/-- A staging slot that is not free (R516). -/
structure Slot where
  /-- Decoded content, once landed. -/
  data : Option Payload := none
  /-- Speculative and unconfirmed (R21). -/
  spec : Bool := false
  cmd : Option Nat := none
  /-- Used by the parity accumulator (R273). -/
  acc : Bool := false
  /-- The data is to be discarded on arrival (R136, R250). -/
  discard : Bool := false
  fenced : Bool := false
deriving DecidableEq, Repr

/-- An open stripe of a channel's accumulator (R273 to R275). -/
structure Stripe where
  slc : Bool
  bg : Bool
  /-- 48-bit address of the parity die-page (PAR_SELF). -/
  parity : BitVec 48
  /-- Member die-page addresses in member order, with codeword, plane and count 0; 0 for a cancelled member. -/
  members : List (BitVec 48) := []
  /-- XOR of the members' payloads by codeword position. -/
  acc : Sparse Payload := []
  /-- Members whose program has not completed. -/
  running : Nat := 0
  /-- The stripe is closed and its parity waits or runs. -/
  closed : Bool := false
deriving DecidableEq, Repr

/-- A zone whose written data moves to fresh blocks (R244): the fresh block (die, block) of each list item. -/
structure ZoneMove where
  zone : Nat
  fresh : Sparse (Nat × Nat) := []
deriving DecidableEq, Repr

/-- Threshold Tracker accumulators of a group and page type (R268). -/
structure TrackAcc where
  up : Nat := 0
  down : Nat := 0
deriving DecidableEq, Repr

structure Media where
  /-- Programmed codewords keyed by die × 2^28 + slot (R230, R257). -/
  nand : Sparse Payload := []
  /-- LUNs keyed by die number. -/
  luns : Sparse Lun := []
  /-- Staging slots in use keyed by channel × 128 + slot. -/
  slots : Sparse Slot := []
  /-- Open stripes keyed by channel (R273). -/
  stripes : Sparse Stripe := []
  /-- Read-reference offsets keyed by (die × 64 + group) × 16 + reference (R267). -/
  offsets : Sparse Int := []
  /-- Accumulators keyed by (die × 64 + group) × 4 + page type (R268). -/
  track : Sparse TrackAcc := []
  /-- PART 0 staged per die: context, group, eight offsets (R269). -/
  part0 : Sparse (Nat × Nat × List Int) := []
  /-- Group last written per die (R269). -/
  lastGroup : Sparse Nat := []
  /-- Populated dies, in ascending order (R256). -/
  dies : List Nat := []
  /-- Dies in Ballast override (R54). -/
  override : List Nat := []
  /-- Programs and erases waiting for Envelope admission, oldest first (R291). -/
  envQ : List NandReq := []
  /-- Reads in the decoders, oldest first (R270). -/
  decoding : List Decode := []
  /-- Weights in force: W_READ, W_PSLC, W_PQLC, W_ERASE (R290, R292). -/
  weights : Word := 0x23282319
  /-- Good blocks per die at first start-up and now are counted from BLOCK; spare at first start-up per die (R289). -/
  spare0 : Sparse Nat := []
  /-- Spool limit lowered to FLUSH_RESV on these dies (R289). -/
  spoolCut : List Nat := []
  /-- Blocks whose erase has passed and that are not in the heap yet: die × 2^15 + block. -/
  erased : List Nat := []
  /-- Critical warning bits of the SMART log (R289). -/
  smart : BitVec 8 := 0
  /-- Dies of restored channel groups whose first status read has not shown ready: NWP# of their channels is low (R421). -/
  nwpWait : List Nat := []
  /-- Zones whose data is to be moved after a failed program (R244). -/
  zoneMoves : List ZoneMove := []
deriving DecidableEq, Repr

/-! ### Journal, checkpoints and flush (10_durability.md) -/

/-- A sealed batch (R295). -/
structure Batch where
  base : Nat
  flush : Bool := false
  recs : List (BitVec 128) := []
deriving DecidableEq, Repr

/-- An open-block table entry (R298). -/
structure OpenBlk where
  die : Nat
  block : Nat
  row : Nat := 0
  use : Nat
  /-- The batch holding its allocation is sealed up to this number (R298). -/
  allocSeq : Nat := 0
deriving DecidableEq, Repr

/-- A triplicated word: three copies and whether each passes its check code (R336, R337). -/
structure Trip where
  a : Nat
  b : Nat
  c : Nat
  okA : Bool := true
  okB : Bool := true
  okC : Bool := true
deriving DecidableEq, Repr

/-- An image of a checkpoint page on its way to media (R303, R304). -/
structure CpImage where
  page : Nat
  seq : Nat
  /-- die × 2^28 + slot once programmed. -/
  loc : Option Nat := none
  /-- Verified: it covers its records from the next seal. -/
  verified : Bool := false
deriving DecidableEq, Repr

/-- Journal state in SRAM, lost at warm reset. -/
structure Journal where
  /-- Next sequence number (R293). -/
  next : Nat := 0
  /-- Highest sealed number. -/
  sealed : Nat := 0
  /-- The open batch: base and records (R294). -/
  openBase : Nat := 0
  openRecs : List (BitVec 128) := []
  /-- Contexts allocated a number in the open batch (event 27). -/
  openCtxs : List Nat := []
  /-- Blocks (die × 2^15 + block) a map change of the open batch moves a page to or from: the guard of R283. -/
  openSlots : List Nat := []
  /-- FIRST_DIRTY per page (R302), key page ID. -/
  firstDirty : Sparse Nat := []
  /-- Highest sequence number that has taken effect per MAP line: CKPT_TAG (R302). -/
  lineTag : Sparse Nat := []
  /-- Images being programmed or verified (R303, R304). -/
  images : List CpImage := []
  /-- Open checkpoint block and its next row, keyed by die; the channel whose turn is next (R304). -/
  cpOpen : Sparse (Nat × Nat) := []
  cpTurn : Nat := 0
  /-- Flush path: 0 idle and the tiers (JNL_STATUS.FLUSH_STATE is the register), power loss or not (R314). -/
  flushPower : Bool := false
  /-- PFAIL# has risen during the flush (R313). -/
  pfailRose : Bool := false
  /-- PERST# was asserted during the flush (R313). -/
  perstLatched : Bool := false
  /-- Step 9 of R311: no further MRAM write. -/
  inhibit : Bool := false
  /-- Recovery phase whose work is due, if any; 5 waits for the activations of phase 4 (R315). -/
  phase : Option Nat := none
  /-- Elapsed time at which recovery started (JNL_RECOV_MS). -/
  recovAt : Nat := 0
  /-- J(E) and prior values kept by apply: key MAP index (R316). -/
  applied : Sparse (Nat × Word64 × List Nat) := []
  /-- Candidates found by replay: (nsid, lba, wsn, flush, die × 2^28 + slot, mask) (R317). -/
  cands : List (Nat × Nat × Nat × Bool × Nat × Nat) := []
  /-- Repair in progress until JNL_TAIL passes this slot (R340). -/
  repair : Option Nat := none
deriving DecidableEq, Repr

/-- Contents of the MRAM, kept through every reset (R9, R297). -/
structure Mram where
  /-- Batch ring keyed by slot, 0 to 15 999 (R295). -/
  ring : Sparse Batch := []
  /-- Critical words (R297): head and tail (slot, base), SHUTDOWN, flush number. -/
  headSlot : Trip := ⟨0, 0, 0, true, true, true⟩
  headSeq : Trip := ⟨0, 0, 0, true, true, true⟩
  /-- COUNT of the batch in the slot of JNL_HEAD, which stays there after JNL_TAIL has passed it (R295). -/
  headLen : Nat := 0
  tailSlot : Trip := ⟨0, 0, 0, true, true, true⟩
  tailSeq : Trip := ⟨0, 0, 0, true, true, true⟩
  shutdown : Trip := ⟨0, 0, 0, true, true, true⟩
  flushNo : Trip := ⟨0, 0, 0, true, true, true⟩
  /-- The critical words have been written since manufacture (R438: none valid at a first start). -/
  valid : Bool := false
  /-- Armed flush block of each die (R297). -/
  plan : Sparse Nat := []
  /-- Open-block table (R298). -/
  openBlks : List OpenBlk := []
  /-- Checkpoint set: die × 2^15 + block (R304). -/
  cpSet : List Nat := []
  /-- Newest verified copy per page ID: (die × 2^28 + slot, PAGE_SEQ) (R304). -/
  cpNewest : Sparse (Nat × Nat) := []
  /-- Threshold offsets saved (R269). -/
  offsets : Sparse Int := []
  /-- Shadows of the TENANT and NSREC tables (R338, R339), keyed as the tables. -/
  tenant : Sparse Word64 := []
  nsrec : Sparse Word64 := []
  /-- Seating Chart shadow: SC_BANK_CFG it was written under, manager entries, epochs (R210, R338). -/
  scCfg : Option Word := none
  scEntries : Sparse ScEntry := []
  scEpochs : List Nat := []
  /-- Banks whose shadow is uncorrectable (R216). -/
  scBad : List Nat := []
  /-- Words restored at start-up: retired blocks, lost pages (19_registers.md). -/
  retired : Word := 0
  lost : Word := 0
  spare0 : Sparse Nat := []
  /-- Words of the BLOCK table as the first start recorded them, under the checkpoint copies and the records (R438; the spec names no
  place for them: DESIGN CHOICE), keyed as the table. -/
  blockRec : Sparse Word64 := []
deriving DecidableEq, Repr

/-! ### Stored-data protection (11_stored_data_protection.md) -/

/-- A rebuild waiting or running (R333): table, line or 64 B unit, and the queued journaled writes (R334). -/
structure Rebuild where
  tbl : Nat
  line : Nat
  /-- Queued writes: (index, word, value, sequence number). -/
  writes : List (Nat × Nat × Word64 × Nat) := []
  /-- A context awaits it (R334). -/
  awaited : Bool := false
deriving DecidableEq, Repr

structure Protect where
  /-- Poisoned words: (store code, address). -/
  poison : List (Nat × Nat) := []
  /-- Rebuilds in order; the head runs (R333). -/
  rebuilds : List Rebuild := []
  /-- Uncorrectable counts of buffers and staging slots with elapsed time, for fencing (R326): (store, index, time). -/
  strikes : List (Nat × Nat × Nat) := []
  /-- SMART Media and Data Integrity Errors (R329). -/
  integrity : Nat := 0
  /-- Reissues of a staging read per slot key (R327). -/
  reissues : Sparse Nat := []
  /-- Elapsed time at which each scrub pass began: SRAM, DRAM, MRAM. -/
  pass0 : Nat := 0
  pass1 : Nat := 0
  pass2 : Nat := 0
deriving DecidableEq, Repr

/-! ### DRAM controller (12_dram.md) -/

/-- Self-refresh states of R357. -/
inductive SrSt | active | entry | selfRefresh | exit
deriving DecidableEq, Repr

/-- A request in a subchannel's queue, with the elapsed time of its arrival at its port (R349, R351). -/
structure DramQ where
  req : DramReq
  since : Nat
deriving DecidableEq, Repr

/-- A write batch (R349): writes issued, whether it began for lack of reads, and the queue length that ends it. -/
structure WBatch where
  issued : Nat := 0
  lack : Bool
  target : Nat
deriving DecidableEq, Repr

/-- A write entry of a subchannel's write queue (R348): 64 B unit address. -/
structure Dmc where
  sr : SrSt := .active
  /-- SRE has been issued and the minimum residency has passed (R357). -/
  residency : Bool := false
  /-- Requests waiting for the exit. -/
  waiting : Bool := false
  /-- Queued writes and reads per subchannel: key 2 × channel + subchannel (R349). -/
  wq : Sparse (List DramQ) := []
  rq : Sparse (List DramQ) := []
  /-- Subchannels in a write batch (R349). -/
  batches : Sparse WBatch := []
  /-- Open row of each bank (R351): key as in `acts`. -/
  openRow : Sparse Nat := []
  /-- Weighted round robin of a subchannel: port, and requests left of its weight (R351). -/
  turn : Sparse (Nat × Nat) := []
  /-- Command slots of a subchannel since the SCRUB port was served (R351). -/
  scrubAge : Sparse Nat := []
  /-- Activation counts per row: key bank × 2^17 + row (R354). -/
  acts : Sparse Nat := []
  /-- Postponed refreshes per bank (R353). -/
  postponed : Sparse Nat := []
  /-- tREFI in ns from the MR4 rate (R353). -/
  refi : Nat := 3900
  /-- Elapsed time of the last capture's end (R362). -/
  capEnd : Option Nat := none
  /-- Elapsed time of the last write-CRC reissue (R363). -/
  reissue : Option Nat := none
  /-- Components marked failed per subchannel rank: key, device (R360). -/
  marked : Sparse Nat := []
  /-- Corrections naming a component within the current second: key, count (R360). -/
  corr : Sparse (Nat × Nat) := []
  /-- Elapsed time at which the doubled bound of R355 ends. -/
  trackerUntil : Option Nat := none
  /-- Saved training set in the MRAM register shadow: the DMC_CFG it was made for (R365); survives resets. -/
  saved : Option Word := none
  /-- ZQ and oscillator bookkeeping (R366): ZQ done, oscillator measured per rank. -/
  zqDone : Nat := 0
  oscDone : Sparse Nat := []
deriving DecidableEq, Repr

/-! ### Crypto Module (13_security.md) -/

/-- A ledger record (R395). -/
structure LedgerRec where
  kind : Nat
  cause : Nat := 0
  no : Nat
  prev : Digest
  image : Digest
  svn : Nat
  bundle : Word
  lifecycle : Nat
  slot : Nat
  romRev : Nat
  cycles : Nat
  seconds : Nat
  bell : Nat
  flags : Word
  aliasId : Word64
  /-- Of a summary: FIRST_NO and the hash over the record hashes (R402). -/
  sum : Option (Nat × Digest) := none
deriving DecidableEq, Repr

/-- A locking range of an Opal namespace (R377). -/
structure OpalRange where
  nsid : Nat
  start : Nat
  len : Nat
  readLock : Bool := false
  writeLock : Bool := false
  lockOnReset : Bool := false
  /-- Key slot of its MEK. -/
  slot : Nat
  /-- The MEK is loaded (an authority has authenticated since warm reset). -/
  loaded : Bool := false
deriving DecidableEq, Repr

/-- Fuses (R372, R384, R386, R391): never reset. -/
structure Fuses where
  uds : BitVec 256 := 0
  udsKilled : Bool := false
  owner : Digest := 0
  vendor : Digest := 0
  lifecycle : BitVec 8 := 0
  svn : Nat := 0
  epoch : Nat := 0
  jtagOff : Bool := false
deriving DecidableEq, Repr

/-- SSPs kept wrapped in the key blocks (R373). -/
structure KeyBlocks where
  gen : Nat := 0
  /-- The two SLC blocks: die × 2^15 + block (R373). -/
  blks : List Nat := []
  /-- MEK of each slot. -/
  meks : Sparse XtsKey := []
  /-- CO verifier; none: empty. -/
  co : Option Digest := none
  /-- Opal authority verifiers. -/
  opal : Sparse Digest := []
  /-- Locking ranges by range number, 0 Global. -/
  ranges : Sparse OpalRange := []
  lockingActive : Bool := false
  adminActive : Bool := false
deriving DecidableEq, Repr

structure Ledger where
  /-- Ring keyed by record number mod 15 360 (R394). -/
  ring : Sparse LedgerRec := []
  head : Nat := 0
  tail : Nat := 0
  ack : Nat := 0
  ovf : Option LedgerRec := none
  missed : Nat := 0
  staging : Option LedgerRec := none
  /-- Checkpoint slots: covered record number, its hash, and the operating seconds of the checkpoint (R396). -/
  cps : Sparse (Nat × Digest × Nat) := []
  cpSlot : Nat := 0
  /-- A checkpoint is due for this record, and the requests waiting for it: function and CID (R396, R399). -/
  cpDue : Option Nat := none
  cpReq : List (Nat × BitVec 16) := []
  /-- 0 refuse I/O, 1 run (R403). -/
  policy : Bool := false
  cycles : Nat := 0
  seconds : Nat := 0
  /-- MRAM copy of the lifecycle (R384). -/
  lifecycle : BitVec 8 := 0
deriving DecidableEq, Repr

/-- An SPDM requester's negotiation with the device (R393). -/
structure Spdm where
  version : Bool := false
  caps : Bool := false
  algs : Bool := false
deriving DecidableEq, Repr

/-- A Tenant Set-up action that unbinds key tags (R184, R382). -/
structure Unbind where
  func : Nat
  /-- Slots still to be zeroized. -/
  slots : List Nat
  /-- New TENANT words 2 and 3; none: Remove. -/
  words : Option (Nat × Nat)
  /-- Function and CID of the command. -/
  owner : Option (Nat × BitVec 16)
deriving DecidableEq, Repr

structure Crypto where
  fuses : Fuses := {}
  blocks : KeyBlocks := {}
  /-- Keys loaded in slots (R374). -/
  slots : Sparse XtsKey := []
  /-- Commands admitted per slot. -/
  counts : Sparse Nat := []
  /-- Tag KEKs keyed by function × 65 536 + tag (R383). -/
  keks : Sparse (BitVec 256) := []
  /-- Slots accepted for clearing or unbinding (R378), with the Clear Key to complete (function, CID). -/
  clearing : List (Nat × Option (Nat × BitVec 16)) := []
  /-- Bind key tags and Remove actions whose slots are still to be zeroized (R184, R382). -/
  unbinds : List Unbind := []
  /-- PF of the live CO session (R370), and elapsed time of its last message. -/
  session : Option Nat := none
  lastMsg : Nat := 0
  failures : Nat := 0
  /-- Opal authorities authenticated since warm reset. -/
  opalAuth : List Nat := []
  ledger : Ledger := {}
  /-- Measurement 6 (R495). -/
  m6 : Digest := 0
  /-- SPDM negotiations keyed by binding: 0 PCIe VDM on PF0, 1 on PF1, 2 SMBus. -/
  spdm : Sparse Spdm := []
  /-- IMAGE_DIGEST of the running image, digest of its section 0x0030. -/
  image : Digest := 0
  sec30 : Digest := 0
  aliasId : Word64 := 0
  /-- DRBG requests since reseed (R371). -/
  drbg : Nat := 0
  /-- The CRYPTO domain keys are derived (after boot or S3 exit, R392). -/
  keysReady : Bool := false
  /-- RMA challenge handed out (R385). -/
  challenge : Digest := 0
  /-- Elapsed time of the last periodic CAST. -/
  lastCast : Nat := 0
deriving DecidableEq, Repr

/-! ### Power, thermal, start-up (14_power_thermal.md, 15_startup.md) -/

/-- States of a power domain (R404). -/
inductive DomSt | on | s1 | s2 | off
deriving DecidableEq, Repr

/-- A retention image (R418): SEQ, and the saved registers of the bank. -/
structure RetImage where
  seq : Nat
  regs : List (Nat × Word) := []
  /-- CRC matches. -/
  ok : Bool := true
deriving DecidableEq, Repr

/-- A supply request in progress (R407, R408). -/
structure AvsReq where
  /-- Rail 0 VDD_CORE, 1 VDD_SRAM, and its value in mV. -/
  rail : Nat
  mv : Nat
  /-- The raise it belongs to (target level), or a lowering. -/
  raise : Option Nat := none
  /-- What is requested after it. -/
  next : Option (Nat × Nat) := none
  /-- Values to return to when a raise fails. -/
  oldCore : Nat := 0
  oldSram : Nat := 0
deriving DecidableEq, Repr

/-- A power-state transition: steps done and direction (R410, R411). -/
structure PsTrans where
  target : Nat
  /-- Completed steps, 0 to 6 (E1 to E6). -/
  done : Nat
  entering : Bool
deriving DecidableEq, Repr

structure Power where
  /-- Domains by number, 0 to 13 (R404); unlisted: ON. -/
  doms : Sparse Nat := []
  /-- Domain entries in progress: domain, steps done (R416). -/
  entries : Sparse Nat := []
  /-- Retention SRAM banks (R418), kept through warm reset. -/
  banks : Sparse RetImage := []
  /-- Level in force for the clocks (PMU_STATUS.PL_CUR), assist codes follow R405. -/
  avs : Option AvsReq := none
  /-- Raising stopped until warm reset (R407). -/
  raiseStop : Bool := false
  /-- A raise is to be tried again at the next Assembly. -/
  raiseRetry : Bool := false
  trans : Option PsTrans := none
  /-- States set on PF0 and PF1 (R409). -/
  ps0 : Nat := 0
  ps1 : Nat := 0
  /-- Last operational state (R412). -/
  lastOp : Nat := 0
  /-- PS4 device in the PS3 configuration for an admin command (R412). -/
  adminWake : Bool := false
  /-- Device sleep: S3 or S4 (R413). -/
  s3 : Bool := false
  s4 : Bool := false
  /-- Elapsed time at which PS4 was reached (S3_DWELL_S). -/
  ps4Since : Nat := 0
  /-- Tile temperatures t[i] and sink t_s in °C, gain g: exact values of the model of R422. -/
  tiles : Vector Rat 16 := Vector.replicate 16 0
  sink : Rat := 0
  gain : Rat := 1
  /-- Consecutive failed PMBus reads (R422). -/
  iFails : Nat := 0
  /-- Diode state: consecutive bad readings, consecutive good milliseconds (R423). -/
  dBad : Vector Nat 8 := Vector.replicate 8 0
  dGood : Vector Nat 8 := Vector.replicate 8 0
  /-- First reading of each diode taken since cold reset. -/
  dSeen : BitVec 8 := 0
  /-- Throttle level L in force is TMU_STATUS.LEVEL; ms spent above and below (R425). -/
  upMs : Nat := 0
  downMs : Nat := 0
  /-- Envelope factor in force in per cent, and the one staged for the next boundary (R425). -/
  factor : Nat := 100
  nextFactor : Option Nat := none
  tmt1 : Nat := 0
  tmt2 : Nat := 0
  /-- Temperature Threshold (kelvin) over and under, and its event state (R423). -/
  tmpOver : Nat := 0
  tmpUnder : Nat := 0
  /-- WCTEMP and CCTEMP time counting (R424). -/
  wctemp : Bool := false
  cctemp : Bool := false
  /-- THERMTRIP# is asserted, until cold reset (R424). -/
  thermTrip : Bool := false
  /-- Domains whose RESTORE has been dispatched and not returned, for cold ones (R420). -/
  coldWait : List Nat := []
deriving DecidableEq, Repr

structure BootSt where
  /-- Levels of PERST#, VDD_AON, and of the strap balls. -/
  perst : Bool := false
  coldHeld : Bool := false
  gpio0 : Bool := false
  gpio1 : Bool := false
  gpio2 : Bool := false
  bootSlot : Bool := false
  roleHint : Bool := false
  /-- Level of the BELL pin (R40). -/
  bell : Bool := false
  /-- Cause of the boot under way (R395). -/
  cause : Nat := 1
  sel0 : Selector := {}
  sel1 : Selector := {}
  slotA : Image := {}
  slotB : Image := {}
  /-- Slot of the running image. -/
  slot : Bool := false
  /-- PERST# rose while a flush latched its fall (R313): the boot that follows the warm reset. -/
  waiting : Option BootIn := none
  /-- Recovery has ended since warm reset (R438, R439). -/
  recovered : Bool := false
  /-- Training has failed since warm reset: CSTS.RDY is never set (R365). -/
  noReady : Bool := false
  /-- Provision succeeded during this boot (R435). -/
  provisioned : Bool := false
  /-- Factory bad-block marks found at a first start: die × 2^15 + block (R438). -/
  badBlocks : List Nat := []
deriving DecidableEq, Repr

/-! ### Gradebook (16_gradebook.md) -/

/-- A fault counter (R444). Timestamps are (operating seconds, power cycles). -/
structure Counter where
  count : Nat := 0
  sev : Nat := 0
  first : Nat × Nat := (0, 0)
  last : Nat × Nat := (0, 0)
deriving DecidableEq, Repr

/-- Extremes of a domain over an interval (R442): temperatures in 0.125 °C, mV, mW, seconds. -/
structure DomExt where
  tMax : Int := 0
  tMin : Int := 0
  vMax : Nat := 0
  vMin : Nat := 0
  pMax : Nat := 0
  pAvg : Nat := 0
  tMaxAt : Nat × Nat := (0, 0)
  onS : Nat := 0
  sleepS : Nat := 0
deriving DecidableEq, Repr

/-- The accumulators of one interval (R442, R443). -/
structure Interval where
  openAt : Nat × Nat := (0, 0)
  sev : Nat := 0
  /-- The interval began after a lost one. -/
  afterLost : Bool := false
  gauges : Sparse Nat := []
  doms : Sparse DomExt := []
  counters : Sparse Counter := []
  /-- Class latency: (class × 2 + kind) × 32 + bin. -/
  lat : Sparse Nat := []
  /-- ECC: channel × 32 + bin. -/
  ecc : Sparse Nat := []
  /-- Function latency, true counts: function × 32 + bin. -/
  flat : Sparse Nat := []
deriving DecidableEq, Repr

/-- A summary (R442). -/
structure Summary where
  no : Nat
  compact : Bool
  cause : Nat
  closeAt : Nat × Nat
  bellClose : Nat
  bundle : Word
  svn : Word
  /-- Counters were left out (compact). -/
  truncated : Bool := false
  body : Interval
deriving DecidableEq, Repr

/-- A diagnostic record (R451): stamp and failing address, the oldest requests and last commands being timing. -/
structure Diag where
  stamp : Nat × Nat
  kind : Nat
  addr : Word64
deriving DecidableEq, Repr

structure Gradebook where
  /-- MRAM slots 0 to 111 (R441). -/
  slots : Sparse Summary := []
  nextNo : Nat := 0
  lost : Nat := 0
  lostSev : Nat := 0
  diagNext : Nat := 0
  diags : Sparse Diag := []
  /-- The open interval (SRAM). -/
  cur : Interval := {}
  /-- A summary being written, and its slot (R449). -/
  writing : Option (Nat × Summary) := none
  /-- A deferred close: highest cause (R447). -/
  deferred : Option Nat := none
  /-- Elapsed time of the last cause-3 close. -/
  lastCrit : Option Nat := none
deriving DecidableEq, Repr

/-! ### Tether (17_tether.md) -/

/-- What a received HELLO carried (R458). -/
structure Hello where
  sizeM1 : Nat
  bundle : Word
  nscfg : List Word
deriving DecidableEq, Repr

/-- What is known of one ring ID (R458, R459). -/
structure Peer where
  hello : Option Hello := none
  /-- A heartbeat it originated arrived on West or East in the interval now running. -/
  heardW : Bool := false
  heardE : Bool := false
  /-- Consecutive intervals without one, on any path. -/
  missed : Nat := 0
  lost : Bool := false
deriving DecidableEq, Repr

/-- The frames of one message, kept for replay (R456, R457): type, destination and origin ring IDs, tag, body words. -/
structure TFrame where
  ty : Nat
  src : Nat
  dst : Nat
  tag : Nat
  body : List Word64
deriving DecidableEq, Repr

/-- Link-layer state of one link (R457): registers hold UP, RATE, WIDTH, RETRAIN, REPLAYS. -/
structure TLink where
  /-- Sequence number of the next new message (12 bits). -/
  next : Nat := 0
  /-- Messages sent and not acknowledged, oldest first. -/
  unacked : List TFrame := []
  /-- Replays of the oldest frame. -/
  tries : Nat := 0
  /-- Sequence number expected next from the peer. -/
  expect : Nat := 0
deriving DecidableEq, Repr

/-- A mirrored write received from a front, journaled and acknowledged, whose commit notice is still to come (R463, R469). -/
structure PeerWrite where
  src : Nat
  tag : Nat
  entry : Nat
  lba : Nat
  n : Nat
deriving DecidableEq, Repr

structure Tether where
  /-- Ring IDs 0 to 3. -/
  peer0 : Peer := {}
  peer1 : Peer := {}
  peer2 : Peer := {}
  peer3 : Peer := {}
  west : TLink := {}
  east : TLink := {}
  /-- Mirrored writes received from peers and not settled. -/
  rx : List PeerWrite := []
  /-- Arrivals of ring-scope Roll Calls that this device's full queue could not take: (identifier, ring ID, value) (R62, R472). -/
  rcHeard : List (BitVec 16 × Nat × Word64) := []
  /-- Marked regions: (entry, region) (R469). -/
  marks : List (Nat × Nat) := []
  /-- Entries whose every region counts as marked after a reset (R469). -/
  allMarked : List Nat := []
  /-- Resync copies in flight: (entry, region). -/
  copying : List (Nat × Nat) := []
  /-- Entries that had a state before, of which R468 gives the start-up rows still to take. -/
  forming : Bool := false
  /-- Events 0xD4 to 0xD6 waiting for an acknowledgement (R470). -/
  events : List (BitVec 8) := []
deriving DecidableEq, Repr

/-! ### Loop-backs and test access (18_test.md) -/

/-- A running loop-back (R475). -/
structure Loop where
  iface : Nat
  inst : Nat
  depth : Nat
  lun : Nat := 0
  master : Bool := false
  /-- Bursts left (R476). -/
  bursts : Nat := 0
  /-- A burst is running on the channel. -/
  inBurst : Bool := false
  /-- Staging slot of a depth-2 loop-back of a NAND channel. -/
  slot : Option Nat := none
deriving DecidableEq, Repr

/-- Device Self-test in progress (R484). -/
structure SelfTest where
  func : Nat
  ext : Bool
  nsid : Nat
  /-- Segment now running, 1 to 9. -/
  seg : Nat := 1
deriving DecidableEq, Repr

/-- Device Self-test log entry: code, result, failing segment, failing LBA. -/
structure StLog where
  code : Nat
  result : Nat
  seg : Nat := 0
  lba : Option Nat := none
deriving DecidableEq, Repr

/-- Results of BIST per group: true PASS, false FAIL with the first failing address (R483). -/
structure BistRes where
  pass : Bool
  addr : Nat := 0
deriving DecidableEq, Repr

/-- TAP instructions (R481). -/
inductive TapIr
  | bypass | idcode | sample | extest | extestPulse | extestTrain | clamp | highz | access1687
deriving DecidableEq, Repr

structure Test where
  loops : List Loop := []
  /-- Margin point running: lane (R480). -/
  margin : Option Nat := none
  tap : TapIr := .idcode
  /-- An EXTEST-class instruction is in effect (R482). -/
  extest : Bool := false
  /-- Boundary cells: the preload latch, and what drives the balls. -/
  cells : Nat := 0
  driven : Option Nat := none
  /-- TRST# is low. -/
  trst : Bool := false
  bypassBit : Bool := false
  selfTest : Option SelfTest := none
  stLog : List StLog := []
  /-- BIST results per SRAM macro group; MRAM. NOT_RUN: unlisted. -/
  sramBist : Sparse BistRes := []
  mramBist : Option BistRes := none
  /-- An SRAM BIST failure waits for the next start-up's Gradebook entry (R483). -/
  bistFail : List Nat := []
deriving DecidableEq, Repr

/-! ### The whole machine -/

/-- Product variants (R2). -/
inductive Variant | af | ae
deriving DecidableEq, Repr

/-- The state of the block. -/
structure State where
  variant : Variant := .af
  /-- BAR2 registers keyed by absolute offset; an unlisted register reads as its reset value. -/
  regs : Sparse Word := []
  ttu : Ttu := {}
  zyn : Zyn := {}
  host : HostIf := {}
  sc : SeatingChart := {}
  map : MapUnit := {}
  media : Media := {}
  jnl : Journal := {}
  mram : Mram := {}
  ecc : Protect := {}
  dmc : Dmc := {}
  sec : Crypto := {}
  pwr : Power := {}
  boot : BootSt := {}
  gb : Gradebook := {}
  th : Tether := {}
  tst : Test := {}
  /-- What has left the block, newest first. -/
  out : List Out := []
  /-- The MODEL's own counter: number of free values drawn. -/
  freeCtr : Nat := 0
  /-- Commands waiting, first in, first out. -/
  pending : List Instr := []
deriving DecidableEq, Repr

/-- Why a command stops. -/
inductive Fault
  /-- Raised by any command whose operand names a unit, function, lane, die or context that the device does not
  have (R11, R177, R256). Safe: the spec has no such event. -/
  | noSuchUnit
deriving DecidableEq, Repr

/-- Why a command has no meaning. -/
inductive Refusal
  /-- Raised by the arms of exec that are not modelled yet. Safe. -/
  | notModelled (mnemonic : String)
deriving DecidableEq, Repr

/-- The machine at cold reset (R9): the AF variant (DESIGN CHOICE: R1 and R2 name two orderable parts and no default), every register at the value its table states, MRAM blank as manufactured, no command waiting. The
reset holds until COLD_RESET_RELEASE, and PERST# is low (R430). -/
def State.reset : State := { boot := { coldHeld := true } }

end Sys2Proof.Machine
end

