-- ==== Sys2Proof/Machine/RegMap.lean ====
section
/-! DEFINITION. The register map of BAR2 (19_registers.md and the register section of every chapter): one row per register,
the fields by name, and how an offset is found. Access codes are those of R4; masks hold the bits of each code. -/
namespace Sys2Proof.Machine

/-- A register, or an array of `count` registers `stride` bytes apart, at `off` from its block base. -/
structure RegDef where
  off : Nat
  stride : Nat := 4
  count : Nat := 1
  reset : Nat := 0
  rw : Nat := 0
  rwl : Nat := 0
  w1c : Nat := 0
  w1p : Nat := 0
  wo : Nat := 0
  rc : Nat := 0
  /-- Kept by a warm reset: cold domain or fuses. -/
  cold : Bool := false
  /-- Reset values of members that differ from `reset`. -/
  exc : List (Nat × Nat) := []
deriving DecidableEq, Repr

/-- A field of a register: absolute BAR2 offset, low bit, width, and the stride of its array (0: one register). -/
structure Field where
  off : Nat
  lo : Nat
  width : Nat
  stride : Nat := 0
deriving DecidableEq, Repr

/-- Member `k` of an array's field, or channel `k` of a SEQ field. -/
def Field.ix (f : Field) (k : Nat) : Field := { f with off := f.off + f.stride * k }

/-- Registers of block GLB. -/
def regsGLB : List RegDef := [
  { off := 0x0, reset := 0xB119680, cold := true },  -- GLB_ID
  { off := 0x4, cold := true },  -- GLB_SERIAL_LO
  { off := 0x8, cold := true },  -- GLB_SERIAL_HI
  { off := 0xC, rwl := 0x80000000, w1p := 0x1 },  -- GLB_CTRL
  { off := 0x10 },  -- GLB_STATUS
  { off := 0x14 },  -- GLB_EVT_SUM
  { off := 0x18, w1c := 0x7 },  -- GLB_ERR
  { off := 0x1C },  -- GLB_ERR_ADDR
  { off := 0x20 } ]  -- GLB_LOCK_STATUS

/-- Registers of block TT. -/
def regsTT : List RegDef := [
  { off := 0x0, rwl := 0x80000001 },  -- TT_CTRL
  { off := 0x4, reset := 0x3E80000, rwl := 0xFFFF007F },  -- TT_SRC
  { off := 0x8, reset := 0x80 },  -- TT_STATUS
  { off := 0x10, cold := true },  -- TT_TIME_LO
  { off := 0x14, cold := true },  -- TT_TIME_HI
  { off := 0x18, cold := true },  -- TT_PNUM_LO
  { off := 0x1C, cold := true },  -- TT_PNUM_HI
  { off := 0x20, reset := 0x1203E8, rw := 0x1FFFFFFF },  -- TT_GEOM_STAGE
  { off := 0x24, rw := 0xFFF },  -- TT_OFFSET_STAGE
  { off := 0x28, reset := 0x1203E8 },  -- TT_GEOM_ACT
  { off := 0x2C },  -- TT_OFFSET_ACT
  { off := 0x30, reset := 0x3C, rwl := 0xFFFF },  -- TT_HOLDOVER_LIMIT
  { off := 0x34, reset := 0xFA, rwl := 0xFFFF },  -- TT_LOCK_THRESH
  { off := 0x38, reset := 0xA, rwl := 0x3FF },  -- TT_PTM_INTERVAL
  { off := 0x3C, rw := 0xFFFF },  -- TT_GUARD
  { off := 0x40, reset := 0x8, rw := 0xFF },  -- TT_BALLAST_HYST
  { off := 0x44, wo := 0xFFFFFFFF },  -- TT_SET_SEC
  { off := 0x50, w1p := 0x1 },  -- TT_GC_CTRL
  { off := 0x54, w1c := 0x40 },  -- TT_GC_STATUS
  { off := 0x58 },  -- TT_GC_FAIL_LO
  { off := 0x5C },  -- TT_GC_FAIL_HI
  { off := 0x60, reset := 0x2710, rw := 0xFFFF },  -- TT_RC_TIMEOUT
  { off := 0x70, rw := 0xFFFFFFFF },  -- TT_NAMED_PNUM_LO
  { off := 0x74, rw := 0xFFFFFFFF },  -- TT_NAMED_PNUM_HI
  { off := 0x78, w1c := 0xC, w1p := 0x1 },  -- TT_NAMED_CTRL
  { off := 0x80, w1c := 0xFF },  -- TT_EVT
  { off := 0x84 },  -- TT_BALLAST_CNT
  { off := 0x1000, stride := 4, count := 256, rw := 0xFFFFFFFF, exc := [(0, 0x90000)] },  -- TT_TABLE_STAGE
  { off := 0x1400, stride := 4, count := 256, exc := [(0, 0x90000)] } ]  -- TT_TABLE_ACT

/-- Registers of block HIU. -/
def regsHIU : List RegDef := [
  { off := 0x0 },  -- HIU_PORT_STATUS
  { off := 0x4, w1c := 0xF } ]  -- HIU_EVT

/-- Registers of block CMD. -/
def regsCMD : List RegDef := [
  { off := 0x0, reset := 0x7, rwl := 0x8000000F },  -- CMD_FETCH_CTRL
  { off := 0x4 },  -- CMD_INFLIGHT
  { off := 0x8, rc := 0x3FFFF },  -- CMD_INFLIGHT_MAX
  { off := 0xC },  -- CMD_RLT_STATUS
  { off := 0x10 },  -- CMD_ABORT_CNT
  { off := 0x14 },  -- CMD_CONFLICT_CNT
  { off := 0x40, stride := 4, count := 8, reset := 0x2710, rw := 0xFFFFFF } ]  -- CMD_TIMEOUT

/-- Registers of block TEN. -/
def regsTEN : List RegDef := [
  { off := 0x0, rwl := 0x80000000 },  -- TEN_CTRL
  { off := 0x4, w1c := 0x3 },  -- TEN_EVT
  { off := 0x100, stride := 4, count := 8, reset := 0x3E8008, rwl := 0xFFFFF1FF },  -- TEN_QOS
  { off := 0x1000, stride := 4, count := 4096 } ]  -- TEN_FUNC_STATE

/-- Registers of block BPM. -/
def regsBPM : List RegDef := [
  { off := 0x0, rwl := 0x80000000 },  -- BPM_CTRL
  { off := 0x4, reset := 0x100000, rwl := 0x3FFFFF },  -- BPM_POOL_CFG
  { off := 0x8 },  -- BPM_FREE
  { off := 0xC, reset := 0xA, rw := 0x7F },  -- BPM_LOW_WM
  { off := 0x10 },  -- BPM_STATUS
  { off := 0x14, w1c := 0xF },  -- BPM_EVT
  { off := 0x10000, stride := 4, count := 4097, rw := 0x3FFFFF, exc := [(0, 0x200000), (2048, 0x200000), (4096, 0x200000)] },  -- BPM_SHARE
  { off := 0x20000, stride := 4, count := 4097 } ]  -- BPM_USED

/-- Registers of block SC. -/
def regsSC : List RegDef := [
  { off := 0x0, rw := 0x1, rwl := 0x80000000 },  -- SC_CTRL
  { off := 0x4, reset := 0x7FFFC },  -- SC_STATUS
  { off := 0x8, reset := 0xA5550000, rwl := 0xFFFFFFFF },  -- SC_BANK_CFG
  { off := 0xC, reset := 0x8, rwl := 0xF },  -- SC_UPD
  { off := 0x10 },  -- SC_FREE
  { off := 0x14, w1c := 0x1F } ]  -- SC_EVT

/-- Registers of block PAU. -/
def regsPAU : List RegDef := [
  { off := 0x0, rwl := 0x80000000 },  -- PAU_CTRL
  { off := 0x4 },  -- PAU_STATUS
  { off := 0x8, reset := 0x800 } ]  -- PAU_STORE

/-- Registers of block MAP. -/
def regsMAP : List RegDef := [
  { off := 0x0, reset := 0x3, rwl := 0x80000003 },  -- MAP_CTRL
  { off := 0x4, reset := 0x40, rwl := 0x7F },  -- MAP_REGION_CFG
  { off := 0x8 },  -- MAP_STATUS
  { off := 0x10 },  -- MAP_SPEC_ISSUED
  { off := 0x14 },  -- MAP_SPEC_SQUASHED
  { off := 0x18 },  -- MAP_RETRY_ISSUED
  { off := 0x1C },  -- MAP_RETRY_USED
  { off := 0x20 },  -- MAP_CACHE_HIT
  { off := 0x24 },  -- MAP_CACHE_MISS
  { off := 0x30 },  -- MAP_ZONES
  { off := 0x34 },  -- MAP_ZONE_RESV
  { off := 0x38, w1c := 0x1F } ]  -- MAP_EVT

/-- Registers of block ZYN. -/
def regsZYN : List RegDef := [
  { off := 0x0, rw := 0x1, rwl := 0x80000000 },  -- ZYN_CTRL
  { off := 0x4 },  -- ZYN_STATUS
  { off := 0x8 },  -- ZYN_BUNDLE_ID
  { off := 0xC },  -- ZYN_BUNDLE_SVN
  { off := 0x10, reset := 0x7D0, rwl := 0xFFFFFF },  -- ZYN_WAIT_LIMIT_CMD
  { off := 0x14, reset := 0x7D0, rwl := 0xFFFFFF },  -- ZYN_WAIT_LIMIT_MAP
  { off := 0x18, reset := 0xEA60, rwl := 0xFFFFFF },  -- ZYN_WAIT_LIMIT_SEQ
  { off := 0x1C, reset := 0x30D40, rwl := 0xFFFFFF },  -- ZYN_WAIT_LIMIT_POL
  { off := 0x20 },  -- ZYN_TRAP_CNT_CMD
  { off := 0x24 },  -- ZYN_TRAP_CNT_MAP
  { off := 0x28 },  -- ZYN_TRAP_CNT_SEQ
  { off := 0x2C },  -- ZYN_TRAP_CNT_POL
  { off := 0x30 },  -- ZYN_FAULT_LAST0
  { off := 0x34 },  -- ZYN_FAULT_LAST1
  { off := 0x38 },  -- ZYN_FAULT_ADDR_LO
  { off := 0x3C } ]  -- ZYN_FAULT_ADDR_HI

/-- Registers of block SEQ. -/
def regsSEQ : List RegDef := [
  { off := 0x0, rw := 0x4000 },  -- SEQ_IFCFG
  { off := 0x4 },  -- SEQ_STATUS
  { off := 0x8, reset := 0x1012C814, rwl := 0x1FFFFFFF },  -- SEQ_SUSP_CFG
  { off := 0xC, reset := 0x517, rwl := 0xFF1F },  -- SEQ_LADDER
  { off := 0x10 },  -- SEQ_PARITY
  { off := 0x14, w1c := 0x7F },  -- SEQ_EVT
  { off := 0x20 },  -- SEQ_CNT_CORR
  { off := 0x24 },  -- SEQ_CNT_UNCORR
  { off := 0x28 },  -- SEQ_CNT_OUTER
  { off := 0x2C } ]  -- SEQ_CNT_SUSP

/-- Registers of block MED. -/
def regsMED : List RegDef := [
  { off := 0x0, rwl := 0x80000001 },  -- MED_CTRL
  { off := 0x4 },  -- MED_GEO0
  { off := 0x8 },  -- MED_GEO1
  { off := 0xC },  -- MED_CAP_LO
  { off := 0x10 },  -- MED_CAP_HI
  { off := 0x14, reset := 0xCB2110, rwl := 0x3FFFFFF },  -- MED_SPOOL
  { off := 0x18, reset := 0x702018, rwl := 0x3FFFFFF },  -- MED_BALLAST
  { off := 0x1C, reset := 0x280F46, rwl := 0x3FFF },  -- MED_THRESH
  { off := 0x20, reset := 0xC8000E, rwl := 0xFFF00FF },  -- MED_PATROL
  { off := 0x24, reset := 0x5DC00500, rwl := 0xFFF03F80 },  -- MED_SPARE
  { off := 0x28, reset := 0x7D0, rw := 0xFFFF },  -- MED_STRIPE
  { off := 0x30, reset := 0x2EE0, rw := 0xFFFF, w1p := 0x80000000 },  -- MED_ENV_STAGE
  { off := 0x34, reset := 0x2EE0 },  -- MED_ENV_ACT
  { off := 0x38, reset := 0x23282319, rw := 0xFFFFFFFF },  -- MED_ENV_WEIGHT
  { off := 0x3C },  -- MED_ENV_STATUS
  { off := 0x40, w1c := 0xFF },  -- MED_EVT
  { off := 0x44 },  -- MED_RETIRED_CNT
  { off := 0x1010, stride := 16, count := 15, rwl := 0xFFFFFFFF },  -- MED_RSET0
  { off := 0x1014, stride := 16, count := 15, rwl := 0xFFFFFFFF },  -- MED_RSET1
  { off := 0x1018, stride := 16, count := 15, rwl := 0xFFFFFFFF },  -- MED_RSET2
  { off := 0x101C, stride := 16, count := 15, rwl := 0xFFFFFF } ]  -- MED_RSET3

/-- Registers of block JNL. -/
def regsJNL : List RegDef := [
  { off := 0x0, reset := 0x40002, rwl := 0x80FFFFFF },  -- JNL_CTRL
  { off := 0x4 },  -- JNL_STATUS
  { off := 0x8, reset := 0x122, rwl := 0xFFFF },  -- JNL_HOLDUP
  { off := 0xC, reset := 0x25866, rwl := 0x3FFFFFF },  -- JNL_FLUSH_PARAM
  { off := 0x10, reset := 0x200, rwl := 0xFFFF },  -- JNL_DIRTY_CEIL
  { off := 0x14 },  -- JNL_DIRTY
  { off := 0x18, reset := 0x27EC },  -- JNL_FLUSH_TIME
  { off := 0x20 },  -- JNL_SEQ_LO
  { off := 0x24 },  -- JNL_SEQ_HI
  { off := 0x28 },  -- JNL_SEALED_LO
  { off := 0x2C },  -- JNL_SEALED_HI
  { off := 0x30, reset := 0x1800000, rwl := 0x1FFE000 },  -- JNL_CP_STATUS
  { off := 0x34 },  -- JNL_CP_PAGES
  { off := 0x38, w1c := 0x7F },  -- JNL_EVT
  { off := 0x3C },  -- JNL_LOST_CNT
  { off := 0x40 } ]  -- JNL_RECOV_MS

/-- Registers of block ECC. -/
def regsECC : List RegDef := [
  { off := 0x0, reset := 0x1, rwl := 0x80000001 },  -- ECC_CTRL
  { off := 0x4, reset := 0x6318, rwl := 0x7FFF },  -- ECC_SCRUB_CFG
  { off := 0x8 },  -- ECC_STATUS
  { off := 0x40, stride := 4, count := 16 },  -- ECC_CE_CNT
  { off := 0x80, stride := 4, count := 16 },  -- ECC_UE_CNT
  { off := 0xC0 },  -- ECC_POISON_CNT
  { off := 0xC4, w1c := 0x3FF },  -- ECC_EVT
  { off := 0xC8 },  -- ECC_FENCE
  { off := 0xFC },  -- ECC_LOG_HEAD
  { off := 0x100, stride := 16, count := 16 },  -- ECC_LOG_INFO
  { off := 0x104, stride := 16, count := 16 },  -- ECC_LOG_ADDR_LO
  { off := 0x108, stride := 16, count := 16 },  -- ECC_LOG_ADDR_HI
  { off := 0x10C, stride := 16, count := 16 },  -- ECC_LOG_TIME
  { off := 0x200, rw := 0x3F, w1p := 0x40 } ]  -- ECC_INJECT

/-- Registers of block DMC. -/
def regsDMC : List RegDef := [
  { off := 0x0, reset := 0x2, rwl := 0x80000003 },  -- DMC_CTRL
  { off := 0x4 },  -- DMC_CFG
  { off := 0x8 },  -- DMC_STATUS
  { off := 0xC },  -- DMC_FAILDEV
  { off := 0x10, reset := 0x2, rwl := 0xF },  -- DMC_TBL_CFG
  { off := 0x14 },  -- DMC_REGION_POOL
  { off := 0x18 },  -- DMC_REGION_TBL
  { off := 0x1C },  -- DMC_REGION_MAP
  { off := 0x20, reset := 0xA430, rwl := 0xFFFFF },  -- DMC_WQ
  { off := 0x40, stride := 4, count := 8, rwl := 0xFFFFFF, exc := [(0, 0x4007D0), (1, 0x2003E8), (2, 0x8001F4), (3, 0x8001F4), (4, 0x101388), (5, 0x400FA0), (6, 0x1186A0), (7, 0x2007D0)] },  -- DMC_PORT_QOS
  { off := 0x60, stride := 4, count := 8, rc := 0xFFFFF },  -- DMC_PORT_LATMAX
  { off := 0x80, reset := 0x47D0, rwl := 0x7FFF },  -- DMC_RP_CFG
  { off := 0x84 },  -- DMC_RP_CNT
  { off := 0x88, reset := 0x140, rw := 0xFFFFFFF },  -- DMC_PWR
  { off := 0x8C, reset := 0xFA100, rwl := 0xFFFFF },  -- DMC_ERR_CFG
  { off := 0x90, w1c := 0xFF },  -- DMC_EVT
  { off := 0x94 },  -- DMC_UE_CNT
  { off := 0x98 },  -- DMC_CAP_ADDR_LO
  { off := 0x9C },  -- DMC_CAP_ADDR_HI
  { off := 0xA0 } ]  -- DMC_TRAIN

/-- Registers of block SEC. -/
def regsSEC : List RegDef := [
  { off := 0x0, reset := 0x18, rwl := 0x800000FF },  -- SEC_CTRL
  { off := 0x4 },  -- SEC_STATUS
  { off := 0x8 },  -- SEC_ERR
  { off := 0xC },  -- SEC_SVN
  { off := 0x10 },  -- SEC_LEDGER_HEAD_LO
  { off := 0x14 },  -- SEC_LEDGER_HEAD_HI
  { off := 0x18 },  -- SEC_LEDGER_TAIL_LO
  { off := 0x1C },  -- SEC_LEDGER_TAIL_HI
  { off := 0x20 },  -- SEC_LEDGER_ACK_LO
  { off := 0x24 },  -- SEC_LEDGER_ACK_HI
  { off := 0x28 },  -- SEC_LEDGER_MISC
  { off := 0x2C },  -- SEC_KEYSLOTS
  { off := 0x30, w1c := 0x7F } ]  -- SEC_EVT

/-- Registers of block PMU. -/
def regsPMU : List RegDef := [
  { off := 0x0, reset := 0x3C0000, rwl := 0x8FFF0001 },  -- PMU_CTRL
  { off := 0x4 },  -- PMU_STATUS
  { off := 0x8, rw := 0x7 },  -- PMU_PL_CAP
  { off := 0x10, stride := 4, count := 6, cold := true, exc := [(0, 0x280E1000), (1, 0x200D4800), (2, 0x181C8000), (3, 0x125BB800), (4, 0xCABB800), (5, 0x8FBB800)] },  -- PMU_PL_TABLE
  { off := 0x30 },  -- PMU_DOM_STATE
  { off := 0x40, stride := 4, count := 10, reset := 0x2F, rw := 0x80, exc := [(8, 0x20), (9, 0x20)] },  -- PMU_VOTE
  { off := 0x70, w1c := 0xFF },  -- PMU_WAKE_STATUS
  { off := 0x74 },  -- PMU_AVS_STATUS
  { off := 0x78, w1c := 0x3F },  -- PMU_EVT
  { off := 0x80, stride := 4, count := 8, cold := true } ]  -- PMU_RET_SEQ

/-- Registers of block TMU. -/
def regsTMU : List RegDef := [
  { off := 0x0, rwl := 0x80000001 },  -- TMU_CTRL
  { off := 0x4, reset := 0x78736964, rwl := 0xFFFFFFFF },  -- TMU_THRESH
  { off := 0x8, reset := 0x33205, rwl := 0xFFFFF },  -- TMU_THR_CFG
  { off := 0xC },  -- TMU_STATUS
  { off := 0x40, stride := 4, count := 16 },  -- TMU_TILE
  { off := 0x80, stride := 4, count := 8 },  -- TMU_DIODE
  { off := 0xA0, reset := 0x4000 },  -- TMU_GAIN
  { off := 0xA4, w1c := 0x7F } ]  -- TMU_EVT

/-- Registers of block GB. -/
def regsGB : List RegDef := [
  { off := 0x0, rwl := 0x80000002, w1p := 0x1 },  -- GB_CTRL
  { off := 0x4 },  -- GB_STATUS
  { off := 0x8 },  -- GB_NEXT_LO
  { off := 0xC },  -- GB_NEXT_HI
  { off := 0x10 },  -- GB_LOST
  { off := 0x14, w1c := 0xF } ]  -- GB_EVT

/-- Registers of block TH. -/
def regsTH : List RegDef := [
  { off := 0x0, reset := 0x8, rwl := 0x8000003F },  -- TH_CTRL
  { off := 0x4 },  -- TH_STATUS
  { off := 0x10, stride := 4, count := 2 },  -- TH_LINK
  { off := 0x18, reset := 0x13880014, rwl := 0xFFFFFFFF },  -- TH_FENCE
  { off := 0x1C, rw := 0x3F, w1p := 0x40 },  -- TH_NS_CMD
  { off := 0x20, w1c := 0x1F },  -- TH_EVT
  { off := 0x100, stride := 4, count := 64, reset := 0x4800000, rw := 0xFFFFFFF },  -- TH_NSCFG
  { off := 0x200, stride := 4, count := 64 } ]  -- TH_NS_STATE

/-- Registers of block TST. -/
def regsTST : List RegDef := [
  { off := 0x0, rwl := 0x80000001 },  -- TST_CTRL
  { off := 0x4, w1c := 0x1 },  -- TST_STATUS
  { off := 0x10, reset := 0x200, rw := 0x3FFFF, w1p := 0xC0000 },  -- TST_LB_CTRL
  { off := 0x14, reset := 0x4000, rw := 0xFFFF },  -- TST_LB_ARG
  { off := 0x18 },  -- TST_LB_STATUS
  { off := 0x100, stride := 4, count := 12, reset := 0x4, rw := 0x1F },  -- TST_PRBS
  { off := 0x140, stride := 4, count := 12, rc := 0xFFFFFFFF },  -- TST_PRBS_ERR
  { off := 0x180, reset := 0x1910000, rw := 0xFFFFFFF, w1p := 0x10000000 },  -- TST_MARGIN_CTRL
  { off := 0x184 } ]  -- TST_MARGIN_RES

/-- Registers of block BOOT. -/
def regsBOOT : List RegDef := [
  { off := 0x0 },  -- BOOT_STATUS
  { off := 0x4 },  -- BOOT_STRAPS
  { off := 0x8 },  -- BOOT_TIME
  { off := 0xC } ]  -- BOOT_ROM_REV

/-- The registers of the block an offset falls in, and the offset within it (R487); SEQ0 to SEQ31 share one layout. -/
def blockRegs (off : Nat) : List RegDef × Nat :=
  let r := off % 0x100000
  match off / 0x100000 with
  | 0 => (regsGLB, r)
  | 1 => (regsTT, r)
  | 2 => (regsHIU, r)
  | 3 => (regsCMD, r)
  | 4 => (regsTEN, r)
  | 5 => (regsBPM, r)
  | 6 => (regsSC, r)
  | 7 => (regsPAU, r)
  | 8 => (regsMAP, r)
  | 9 => (regsZYN, r)
  | 10 | 11 => (regsSEQ, off % 0x10000)
  | 12 => (regsMED, r)
  | 13 => (regsJNL, r)
  | 14 => (regsECC, r)
  | 15 => (regsDMC, r)
  | 16 => (regsSEC, r)
  | 17 => (regsPMU, r)
  | 18 => (regsTMU, r)
  | 19 => (regsGB, r)
  | 20 => (regsTH, r)
  | 21 => (regsTST, r)
  | 22 => (regsBOOT, r)
  | _ => ([], r)

/-- The row of a register and its index in it. -/
def findReg (off : Nat) : Option (RegDef × Nat) :=
  let (l, r) := blockRegs off
  (l.find? fun d => decide (d.off ≤ r) && (r - d.off) % d.stride == 0 && decide ((r - d.off) / d.stride < d.count)).map
    fun d => (d, (r - d.off) / d.stride)

/-- Offset of the register that holds the LOCK bit of the block of `off`, with the bit of GLB_LOCK_STATUS (R494). -/
def lockReg (off : Nat) : Option (Nat × Nat) :=
  match off / 0x100000 with
  | 0 => some (0xC, 0)  -- GLB_CTRL
  | 1 => some (0x100000, 1)  -- TT_CTRL
  | 3 => some (0x300000, 2)  -- CMD_FETCH_CTRL
  | 4 => some (0x400000, 3)  -- TEN_CTRL
  | 5 => some (0x500000, 4)  -- BPM_CTRL
  | 6 => some (0x600000, 5)  -- SC_CTRL
  | 7 => some (0x700000, 6)  -- PAU_CTRL
  | 8 => some (0x800000, 7)  -- MAP_CTRL
  | 9 => some (0x900000, 8)  -- ZYN_CTRL
  | 10 | 11 | 12 => some (0xC00000, 9)  -- MED_CTRL
  | 13 => some (0xD00000, 10)  -- JNL_CTRL
  | 14 => some (0xE00000, 11)  -- ECC_CTRL
  | 15 => some (0xF00000, 12)  -- DMC_CTRL
  | 16 => some (0x1000000, 13)  -- SEC_CTRL
  | 17 => some (0x1100000, 14)  -- PMU_CTRL
  | 18 => some (0x1200000, 15)  -- TMU_CTRL
  | 19 => some (0x1300000, 16)  -- GB_CTRL
  | 20 => some (0x1400000, 17)  -- TH_CTRL
  | 21 => some (0x1500000, 18)  -- TST_CTRL
  | _ => none

/-- Block base, LOCK register, bit of GLB_LOCK_STATUS, in ascending base order (R494, R495). -/
def lockList : List (Nat × Nat × Nat) := [
  (0x0, 0xC, 0),
  (0x100000, 0x100000, 1),
  (0x300000, 0x300000, 2),
  (0x400000, 0x400000, 3),
  (0x500000, 0x500000, 4),
  (0x600000, 0x600000, 5),
  (0x700000, 0x700000, 6),
  (0x800000, 0x800000, 7),
  (0x900000, 0x900000, 8),
  (0xC00000, 0xC00000, 9),
  (0xD00000, 0xD00000, 10),
  (0xE00000, 0xE00000, 11),
  (0xF00000, 0xF00000, 12),
  (0x1000000, 0x1000000, 13),
  (0x1100000, 0x1100000, 14),
  (0x1200000, 0x1200000, 15),
  (0x1300000, 0x1300000, 16),
  (0x1400000, 0x1400000, 17),
  (0x1500000, 0x1500000, 18) ]

/-- LO registers whose read latches the HI register at the offset given (R490): LO, stride, count, distance. -/
def latchLo : List (Nat × Nat × Nat) := [
  (0x100010, 4, 1),
  (0x100018, 4, 1),
  (0x900038, 4, 1),
  (0xC0000C, 4, 1),
  (0xD00020, 4, 1),
  (0xD00028, 4, 1),
  (0xE00104, 16, 16),
  (0xF00098, 4, 1),
  (0x1000010, 4, 1),
  (0x1000018, 4, 1),
  (0x1000020, 4, 1),
  (0x1300008, 4, 1),
  (0x4, 4, 1) ]

namespace R
/-- TT_CTRL (02_timetable.md). -/
def TT_CTRL : Nat := 0x100000
/-- TT_SRC (02_timetable.md). -/
def TT_SRC : Nat := 0x100004
/-- TT_STATUS (02_timetable.md). -/
def TT_STATUS : Nat := 0x100008
/-- TT_TIME_LO (02_timetable.md). -/
def TT_TIME_LO : Nat := 0x100010
/-- TT_TIME_HI (02_timetable.md). -/
def TT_TIME_HI : Nat := 0x100014
/-- TT_PNUM_LO (02_timetable.md). -/
def TT_PNUM_LO : Nat := 0x100018
/-- TT_PNUM_HI (02_timetable.md). -/
def TT_PNUM_HI : Nat := 0x10001C
/-- TT_GEOM_STAGE (02_timetable.md). -/
def TT_GEOM_STAGE : Nat := 0x100020
/-- TT_GEOM_ACT (02_timetable.md). -/
def TT_GEOM_ACT : Nat := 0x100028
/-- TT_OFFSET_STAGE (02_timetable.md). -/
def TT_OFFSET_STAGE : Nat := 0x100024
/-- TT_OFFSET_ACT (02_timetable.md). -/
def TT_OFFSET_ACT : Nat := 0x10002C
/-- TT_HOLDOVER_LIMIT (02_timetable.md). -/
def TT_HOLDOVER_LIMIT : Nat := 0x100030
/-- TT_LOCK_THRESH (02_timetable.md). -/
def TT_LOCK_THRESH : Nat := 0x100034
/-- TT_PTM_INTERVAL (02_timetable.md). -/
def TT_PTM_INTERVAL : Nat := 0x100038
/-- TT_GUARD (02_timetable.md). -/
def TT_GUARD : Nat := 0x10003C
/-- TT_BALLAST_HYST (02_timetable.md). -/
def TT_BALLAST_HYST : Nat := 0x100040
/-- TT_SET_SEC (02_timetable.md). -/
def TT_SET_SEC : Nat := 0x100044
/-- TT_GC_CTRL (02_timetable.md). -/
def TT_GC_CTRL : Nat := 0x100050
/-- TT_GC_STATUS (02_timetable.md). -/
def TT_GC_STATUS : Nat := 0x100054
/-- TT_GC_FAIL_LO (02_timetable.md). -/
def TT_GC_FAIL_LO : Nat := 0x100058
/-- TT_GC_FAIL_HI (02_timetable.md). -/
def TT_GC_FAIL_HI : Nat := 0x10005C
/-- TT_RC_TIMEOUT (02_timetable.md). -/
def TT_RC_TIMEOUT : Nat := 0x100060
/-- TT_NAMED_PNUM_LO (02_timetable.md). -/
def TT_NAMED_PNUM_LO : Nat := 0x100070
/-- TT_NAMED_PNUM_HI (02_timetable.md). -/
def TT_NAMED_PNUM_HI : Nat := 0x100074
/-- TT_NAMED_CTRL (02_timetable.md). -/
def TT_NAMED_CTRL : Nat := 0x100078
/-- TT_EVT (02_timetable.md). -/
def TT_EVT : Nat := 0x100080
/-- TT_BALLAST_CNT (02_timetable.md). -/
def TT_BALLAST_CNT : Nat := 0x100084
/-- TT_TABLE_STAGE (02_timetable.md). -/
def TT_TABLE_STAGE : Nat := 0x101000
/-- TT_TABLE_ACT (02_timetable.md). -/
def TT_TABLE_ACT : Nat := 0x101400
/-- ZYN_CTRL (03_zyn_model.md). -/
def ZYN_CTRL : Nat := 0x900000
/-- ZYN_STATUS (03_zyn_model.md). -/
def ZYN_STATUS : Nat := 0x900004
/-- ZYN_BUNDLE_ID (03_zyn_model.md). -/
def ZYN_BUNDLE_ID : Nat := 0x900008
/-- ZYN_BUNDLE_SVN (03_zyn_model.md). -/
def ZYN_BUNDLE_SVN : Nat := 0x90000C
/-- ZYN_WAIT_LIMIT_CMD (03_zyn_model.md). -/
def ZYN_WAIT_LIMIT_CMD : Nat := 0x900010
/-- ZYN_WAIT_LIMIT_MAP (03_zyn_model.md). -/
def ZYN_WAIT_LIMIT_MAP : Nat := 0x900014
/-- ZYN_WAIT_LIMIT_SEQ (03_zyn_model.md). -/
def ZYN_WAIT_LIMIT_SEQ : Nat := 0x900018
/-- ZYN_WAIT_LIMIT_POL (03_zyn_model.md). -/
def ZYN_WAIT_LIMIT_POL : Nat := 0x90001C
/-- ZYN_TRAP_CNT_CMD (03_zyn_model.md). -/
def ZYN_TRAP_CNT_CMD : Nat := 0x900020
/-- ZYN_TRAP_CNT_MAP (03_zyn_model.md). -/
def ZYN_TRAP_CNT_MAP : Nat := 0x900024
/-- ZYN_TRAP_CNT_SEQ (03_zyn_model.md). -/
def ZYN_TRAP_CNT_SEQ : Nat := 0x900028
/-- ZYN_TRAP_CNT_POL (03_zyn_model.md). -/
def ZYN_TRAP_CNT_POL : Nat := 0x90002C
/-- ZYN_FAULT_LAST0 (03_zyn_model.md). -/
def ZYN_FAULT_LAST0 : Nat := 0x900030
/-- ZYN_FAULT_LAST1 (03_zyn_model.md). -/
def ZYN_FAULT_LAST1 : Nat := 0x900034
/-- ZYN_FAULT_ADDR_LO (03_zyn_model.md). -/
def ZYN_FAULT_ADDR_LO : Nat := 0x900038
/-- ZYN_FAULT_ADDR_HI (03_zyn_model.md). -/
def ZYN_FAULT_ADDR_HI : Nat := 0x90003C
/-- HIU_PORT_STATUS (05_command_intake.md). -/
def HIU_PORT_STATUS : Nat := 0x200000
/-- HIU_EVT (05_command_intake.md). -/
def HIU_EVT : Nat := 0x200004
/-- CMD_FETCH_CTRL (05_command_intake.md). -/
def CMD_FETCH_CTRL : Nat := 0x300000
/-- CMD_INFLIGHT (05_command_intake.md). -/
def CMD_INFLIGHT : Nat := 0x300004
/-- CMD_INFLIGHT_MAX (05_command_intake.md). -/
def CMD_INFLIGHT_MAX : Nat := 0x300008
/-- CMD_RLT_STATUS (05_command_intake.md). -/
def CMD_RLT_STATUS : Nat := 0x30000C
/-- CMD_ABORT_CNT (05_command_intake.md). -/
def CMD_ABORT_CNT : Nat := 0x300010
/-- CMD_CONFLICT_CNT (05_command_intake.md). -/
def CMD_CONFLICT_CNT : Nat := 0x300014
/-- CMD_TIMEOUT (05_command_intake.md). -/
def CMD_TIMEOUT : Nat := 0x300040
/-- TEN_CTRL (06_tenants_buffers.md). -/
def TEN_CTRL : Nat := 0x400000
/-- TEN_EVT (06_tenants_buffers.md). -/
def TEN_EVT : Nat := 0x400004
/-- TEN_QOS (06_tenants_buffers.md). -/
def TEN_QOS : Nat := 0x400100
/-- TEN_FUNC_STATE (06_tenants_buffers.md). -/
def TEN_FUNC_STATE : Nat := 0x401000
/-- BPM_CTRL (06_tenants_buffers.md). -/
def BPM_CTRL : Nat := 0x500000
/-- BPM_POOL_CFG (06_tenants_buffers.md). -/
def BPM_POOL_CFG : Nat := 0x500004
/-- BPM_FREE (06_tenants_buffers.md). -/
def BPM_FREE : Nat := 0x500008
/-- BPM_LOW_WM (06_tenants_buffers.md). -/
def BPM_LOW_WM : Nat := 0x50000C
/-- BPM_STATUS (06_tenants_buffers.md). -/
def BPM_STATUS : Nat := 0x500010
/-- BPM_EVT (06_tenants_buffers.md). -/
def BPM_EVT : Nat := 0x500014
/-- BPM_SHARE (06_tenants_buffers.md). -/
def BPM_SHARE : Nat := 0x510000
/-- BPM_USED (06_tenants_buffers.md). -/
def BPM_USED : Nat := 0x520000
/-- SC_CTRL (07_seating_chart.md). -/
def SC_CTRL : Nat := 0x600000
/-- SC_STATUS (07_seating_chart.md). -/
def SC_STATUS : Nat := 0x600004
/-- SC_BANK_CFG (07_seating_chart.md). -/
def SC_BANK_CFG : Nat := 0x600008
/-- SC_UPD (07_seating_chart.md). -/
def SC_UPD : Nat := 0x60000C
/-- SC_FREE (07_seating_chart.md). -/
def SC_FREE : Nat := 0x600010
/-- SC_EVT (07_seating_chart.md). -/
def SC_EVT : Nat := 0x600014
/-- PAU_CTRL (07_seating_chart.md). -/
def PAU_CTRL : Nat := 0x700000
/-- PAU_STATUS (07_seating_chart.md). -/
def PAU_STATUS : Nat := 0x700004
/-- PAU_STORE (07_seating_chart.md). -/
def PAU_STORE : Nat := 0x700008
/-- MAP_CTRL (08_placement_map.md). -/
def MAP_CTRL : Nat := 0x800000
/-- MAP_REGION_CFG (08_placement_map.md). -/
def MAP_REGION_CFG : Nat := 0x800004
/-- MAP_STATUS (08_placement_map.md). -/
def MAP_STATUS : Nat := 0x800008
/-- MAP_SPEC_ISSUED (08_placement_map.md). -/
def MAP_SPEC_ISSUED : Nat := 0x800010
/-- MAP_SPEC_SQUASHED (08_placement_map.md). -/
def MAP_SPEC_SQUASHED : Nat := 0x800014
/-- MAP_RETRY_ISSUED (08_placement_map.md). -/
def MAP_RETRY_ISSUED : Nat := 0x800018
/-- MAP_RETRY_USED (08_placement_map.md). -/
def MAP_RETRY_USED : Nat := 0x80001C
/-- MAP_CACHE_HIT (08_placement_map.md). -/
def MAP_CACHE_HIT : Nat := 0x800020
/-- MAP_CACHE_MISS (08_placement_map.md). -/
def MAP_CACHE_MISS : Nat := 0x800024
/-- MAP_ZONES (08_placement_map.md). -/
def MAP_ZONES : Nat := 0x800030
/-- MAP_ZONE_RESV (08_placement_map.md). -/
def MAP_ZONE_RESV : Nat := 0x800034
/-- MAP_EVT (08_placement_map.md). -/
def MAP_EVT : Nat := 0x800038
/-- SEQ_IFCFG (09_media.md). -/
def SEQ_IFCFG : Nat := 0xA00000
/-- SEQ_STATUS (09_media.md). -/
def SEQ_STATUS : Nat := 0xA00004
/-- SEQ_SUSP_CFG (09_media.md). -/
def SEQ_SUSP_CFG : Nat := 0xA00008
/-- SEQ_LADDER (09_media.md). -/
def SEQ_LADDER : Nat := 0xA0000C
/-- SEQ_PARITY (09_media.md). -/
def SEQ_PARITY : Nat := 0xA00010
/-- SEQ_EVT (09_media.md). -/
def SEQ_EVT : Nat := 0xA00014
/-- SEQ_CNT_CORR (09_media.md). -/
def SEQ_CNT_CORR : Nat := 0xA00020
/-- SEQ_CNT_UNCORR (09_media.md). -/
def SEQ_CNT_UNCORR : Nat := 0xA00024
/-- SEQ_CNT_OUTER (09_media.md). -/
def SEQ_CNT_OUTER : Nat := 0xA00028
/-- SEQ_CNT_SUSP (09_media.md). -/
def SEQ_CNT_SUSP : Nat := 0xA0002C
/-- MED_CTRL (09_media.md). -/
def MED_CTRL : Nat := 0xC00000
/-- MED_GEO0 (09_media.md). -/
def MED_GEO0 : Nat := 0xC00004
/-- MED_GEO1 (09_media.md). -/
def MED_GEO1 : Nat := 0xC00008
/-- MED_CAP_LO (09_media.md). -/
def MED_CAP_LO : Nat := 0xC0000C
/-- MED_CAP_HI (09_media.md). -/
def MED_CAP_HI : Nat := 0xC00010
/-- MED_SPOOL (09_media.md). -/
def MED_SPOOL : Nat := 0xC00014
/-- MED_BALLAST (09_media.md). -/
def MED_BALLAST : Nat := 0xC00018
/-- MED_THRESH (09_media.md). -/
def MED_THRESH : Nat := 0xC0001C
/-- MED_PATROL (09_media.md). -/
def MED_PATROL : Nat := 0xC00020
/-- MED_SPARE (09_media.md). -/
def MED_SPARE : Nat := 0xC00024
/-- MED_STRIPE (09_media.md). -/
def MED_STRIPE : Nat := 0xC00028
/-- MED_ENV_STAGE (09_media.md). -/
def MED_ENV_STAGE : Nat := 0xC00030
/-- MED_ENV_ACT (09_media.md). -/
def MED_ENV_ACT : Nat := 0xC00034
/-- MED_ENV_WEIGHT (09_media.md). -/
def MED_ENV_WEIGHT : Nat := 0xC00038
/-- MED_ENV_STATUS (09_media.md). -/
def MED_ENV_STATUS : Nat := 0xC0003C
/-- MED_EVT (09_media.md). -/
def MED_EVT : Nat := 0xC00040
/-- MED_RETIRED_CNT (09_media.md). -/
def MED_RETIRED_CNT : Nat := 0xC00044
/-- MED_RSET0 (09_media.md). -/
def MED_RSET0 : Nat := 0xC01010
/-- MED_RSET1 (09_media.md). -/
def MED_RSET1 : Nat := 0xC01014
/-- MED_RSET2 (09_media.md). -/
def MED_RSET2 : Nat := 0xC01018
/-- MED_RSET3 (09_media.md). -/
def MED_RSET3 : Nat := 0xC0101C
/-- JNL_CTRL (10_durability.md). -/
def JNL_CTRL : Nat := 0xD00000
/-- JNL_STATUS (10_durability.md). -/
def JNL_STATUS : Nat := 0xD00004
/-- JNL_HOLDUP (10_durability.md). -/
def JNL_HOLDUP : Nat := 0xD00008
/-- JNL_FLUSH_PARAM (10_durability.md). -/
def JNL_FLUSH_PARAM : Nat := 0xD0000C
/-- JNL_DIRTY_CEIL (10_durability.md). -/
def JNL_DIRTY_CEIL : Nat := 0xD00010
/-- JNL_DIRTY (10_durability.md). -/
def JNL_DIRTY : Nat := 0xD00014
/-- JNL_FLUSH_TIME (10_durability.md). -/
def JNL_FLUSH_TIME : Nat := 0xD00018
/-- JNL_SEQ_LO (10_durability.md). -/
def JNL_SEQ_LO : Nat := 0xD00020
/-- JNL_SEQ_HI (10_durability.md). -/
def JNL_SEQ_HI : Nat := 0xD00024
/-- JNL_SEALED_LO (10_durability.md). -/
def JNL_SEALED_LO : Nat := 0xD00028
/-- JNL_SEALED_HI (10_durability.md). -/
def JNL_SEALED_HI : Nat := 0xD0002C
/-- JNL_CP_STATUS (10_durability.md). -/
def JNL_CP_STATUS : Nat := 0xD00030
/-- JNL_CP_PAGES (10_durability.md). -/
def JNL_CP_PAGES : Nat := 0xD00034
/-- JNL_EVT (10_durability.md). -/
def JNL_EVT : Nat := 0xD00038
/-- JNL_LOST_CNT (10_durability.md). -/
def JNL_LOST_CNT : Nat := 0xD0003C
/-- JNL_RECOV_MS (10_durability.md). -/
def JNL_RECOV_MS : Nat := 0xD00040
/-- ECC_CTRL (11_stored_data_protection.md). -/
def ECC_CTRL : Nat := 0xE00000
/-- ECC_SCRUB_CFG (11_stored_data_protection.md). -/
def ECC_SCRUB_CFG : Nat := 0xE00004
/-- ECC_STATUS (11_stored_data_protection.md). -/
def ECC_STATUS : Nat := 0xE00008
/-- ECC_CE_CNT (11_stored_data_protection.md). -/
def ECC_CE_CNT : Nat := 0xE00040
/-- ECC_UE_CNT (11_stored_data_protection.md). -/
def ECC_UE_CNT : Nat := 0xE00080
/-- ECC_POISON_CNT (11_stored_data_protection.md). -/
def ECC_POISON_CNT : Nat := 0xE000C0
/-- ECC_EVT (11_stored_data_protection.md). -/
def ECC_EVT : Nat := 0xE000C4
/-- ECC_FENCE (11_stored_data_protection.md). -/
def ECC_FENCE : Nat := 0xE000C8
/-- ECC_LOG_HEAD (11_stored_data_protection.md). -/
def ECC_LOG_HEAD : Nat := 0xE000FC
/-- ECC_LOG_INFO (11_stored_data_protection.md). -/
def ECC_LOG_INFO : Nat := 0xE00100
/-- ECC_LOG_ADDR_LO (11_stored_data_protection.md). -/
def ECC_LOG_ADDR_LO : Nat := 0xE00104
/-- ECC_LOG_ADDR_HI (11_stored_data_protection.md). -/
def ECC_LOG_ADDR_HI : Nat := 0xE00108
/-- ECC_LOG_TIME (11_stored_data_protection.md). -/
def ECC_LOG_TIME : Nat := 0xE0010C
/-- ECC_INJECT (11_stored_data_protection.md). -/
def ECC_INJECT : Nat := 0xE00200
/-- DMC_CTRL (12_dram.md). -/
def DMC_CTRL : Nat := 0xF00000
/-- DMC_CFG (12_dram.md). -/
def DMC_CFG : Nat := 0xF00004
/-- DMC_STATUS (12_dram.md). -/
def DMC_STATUS : Nat := 0xF00008
/-- DMC_FAILDEV (12_dram.md). -/
def DMC_FAILDEV : Nat := 0xF0000C
/-- DMC_TBL_CFG (12_dram.md). -/
def DMC_TBL_CFG : Nat := 0xF00010
/-- DMC_REGION_POOL (12_dram.md). -/
def DMC_REGION_POOL : Nat := 0xF00014
/-- DMC_REGION_TBL (12_dram.md). -/
def DMC_REGION_TBL : Nat := 0xF00018
/-- DMC_REGION_MAP (12_dram.md). -/
def DMC_REGION_MAP : Nat := 0xF0001C
/-- DMC_WQ (12_dram.md). -/
def DMC_WQ : Nat := 0xF00020
/-- DMC_PORT_QOS (12_dram.md). -/
def DMC_PORT_QOS : Nat := 0xF00040
/-- DMC_PORT_LATMAX (12_dram.md). -/
def DMC_PORT_LATMAX : Nat := 0xF00060
/-- DMC_RP_CFG (12_dram.md). -/
def DMC_RP_CFG : Nat := 0xF00080
/-- DMC_RP_CNT (12_dram.md). -/
def DMC_RP_CNT : Nat := 0xF00084
/-- DMC_PWR (12_dram.md). -/
def DMC_PWR : Nat := 0xF00088
/-- DMC_ERR_CFG (12_dram.md). -/
def DMC_ERR_CFG : Nat := 0xF0008C
/-- DMC_EVT (12_dram.md). -/
def DMC_EVT : Nat := 0xF00090
/-- DMC_UE_CNT (12_dram.md). -/
def DMC_UE_CNT : Nat := 0xF00094
/-- DMC_CAP_ADDR_LO (12_dram.md). -/
def DMC_CAP_ADDR_LO : Nat := 0xF00098
/-- DMC_CAP_ADDR_HI (12_dram.md). -/
def DMC_CAP_ADDR_HI : Nat := 0xF0009C
/-- DMC_TRAIN (12_dram.md). -/
def DMC_TRAIN : Nat := 0xF000A0
/-- SEC_CTRL (13_security.md). -/
def SEC_CTRL : Nat := 0x1000000
/-- SEC_STATUS (13_security.md). -/
def SEC_STATUS : Nat := 0x1000004
/-- SEC_ERR (13_security.md). -/
def SEC_ERR : Nat := 0x1000008
/-- SEC_SVN (13_security.md). -/
def SEC_SVN : Nat := 0x100000C
/-- SEC_LEDGER_HEAD_LO (13_security.md). -/
def SEC_LEDGER_HEAD_LO : Nat := 0x1000010
/-- SEC_LEDGER_HEAD_HI (13_security.md). -/
def SEC_LEDGER_HEAD_HI : Nat := 0x1000014
/-- SEC_LEDGER_TAIL_LO (13_security.md). -/
def SEC_LEDGER_TAIL_LO : Nat := 0x1000018
/-- SEC_LEDGER_TAIL_HI (13_security.md). -/
def SEC_LEDGER_TAIL_HI : Nat := 0x100001C
/-- SEC_LEDGER_ACK_LO (13_security.md). -/
def SEC_LEDGER_ACK_LO : Nat := 0x1000020
/-- SEC_LEDGER_ACK_HI (13_security.md). -/
def SEC_LEDGER_ACK_HI : Nat := 0x1000024
/-- SEC_LEDGER_MISC (13_security.md). -/
def SEC_LEDGER_MISC : Nat := 0x1000028
/-- SEC_KEYSLOTS (13_security.md). -/
def SEC_KEYSLOTS : Nat := 0x100002C
/-- SEC_EVT (13_security.md). -/
def SEC_EVT : Nat := 0x1000030
/-- PMU_CTRL (14_power_thermal.md). -/
def PMU_CTRL : Nat := 0x1100000
/-- PMU_STATUS (14_power_thermal.md). -/
def PMU_STATUS : Nat := 0x1100004
/-- PMU_PL_CAP (14_power_thermal.md). -/
def PMU_PL_CAP : Nat := 0x1100008
/-- PMU_PL_TABLE (14_power_thermal.md). -/
def PMU_PL_TABLE : Nat := 0x1100010
/-- PMU_DOM_STATE (14_power_thermal.md). -/
def PMU_DOM_STATE : Nat := 0x1100030
/-- PMU_VOTE (14_power_thermal.md). -/
def PMU_VOTE : Nat := 0x1100040
/-- PMU_WAKE_STATUS (14_power_thermal.md). -/
def PMU_WAKE_STATUS : Nat := 0x1100070
/-- PMU_AVS_STATUS (14_power_thermal.md). -/
def PMU_AVS_STATUS : Nat := 0x1100074
/-- PMU_EVT (14_power_thermal.md). -/
def PMU_EVT : Nat := 0x1100078
/-- PMU_RET_SEQ (14_power_thermal.md). -/
def PMU_RET_SEQ : Nat := 0x1100080
/-- TMU_CTRL (14_power_thermal.md). -/
def TMU_CTRL : Nat := 0x1200000
/-- TMU_THRESH (14_power_thermal.md). -/
def TMU_THRESH : Nat := 0x1200004
/-- TMU_THR_CFG (14_power_thermal.md). -/
def TMU_THR_CFG : Nat := 0x1200008
/-- TMU_STATUS (14_power_thermal.md). -/
def TMU_STATUS : Nat := 0x120000C
/-- TMU_TILE (14_power_thermal.md). -/
def TMU_TILE : Nat := 0x1200040
/-- TMU_DIODE (14_power_thermal.md). -/
def TMU_DIODE : Nat := 0x1200080
/-- TMU_GAIN (14_power_thermal.md). -/
def TMU_GAIN : Nat := 0x12000A0
/-- TMU_EVT (14_power_thermal.md). -/
def TMU_EVT : Nat := 0x12000A4
/-- BOOT_STATUS (15_startup.md). -/
def BOOT_STATUS : Nat := 0x1600000
/-- BOOT_STRAPS (15_startup.md). -/
def BOOT_STRAPS : Nat := 0x1600004
/-- BOOT_TIME (15_startup.md). -/
def BOOT_TIME : Nat := 0x1600008
/-- BOOT_ROM_REV (15_startup.md). -/
def BOOT_ROM_REV : Nat := 0x160000C
/-- GB_CTRL (16_gradebook.md). -/
def GB_CTRL : Nat := 0x1300000
/-- GB_STATUS (16_gradebook.md). -/
def GB_STATUS : Nat := 0x1300004
/-- GB_NEXT_LO (16_gradebook.md). -/
def GB_NEXT_LO : Nat := 0x1300008
/-- GB_NEXT_HI (16_gradebook.md). -/
def GB_NEXT_HI : Nat := 0x130000C
/-- GB_LOST (16_gradebook.md). -/
def GB_LOST : Nat := 0x1300010
/-- GB_EVT (16_gradebook.md). -/
def GB_EVT : Nat := 0x1300014
/-- TH_CTRL (17_tether.md). -/
def TH_CTRL : Nat := 0x1400000
/-- TH_STATUS (17_tether.md). -/
def TH_STATUS : Nat := 0x1400004
/-- TH_LINK (17_tether.md). -/
def TH_LINK : Nat := 0x1400010
/-- TH_FENCE (17_tether.md). -/
def TH_FENCE : Nat := 0x1400018
/-- TH_NS_CMD (17_tether.md). -/
def TH_NS_CMD : Nat := 0x140001C
/-- TH_EVT (17_tether.md). -/
def TH_EVT : Nat := 0x1400020
/-- TH_NSCFG (17_tether.md). -/
def TH_NSCFG : Nat := 0x1400100
/-- TH_NS_STATE (17_tether.md). -/
def TH_NS_STATE : Nat := 0x1400200
/-- TST_CTRL (18_test.md). -/
def TST_CTRL : Nat := 0x1500000
/-- TST_STATUS (18_test.md). -/
def TST_STATUS : Nat := 0x1500004
/-- TST_LB_CTRL (18_test.md). -/
def TST_LB_CTRL : Nat := 0x1500010
/-- TST_LB_ARG (18_test.md). -/
def TST_LB_ARG : Nat := 0x1500014
/-- TST_LB_STATUS (18_test.md). -/
def TST_LB_STATUS : Nat := 0x1500018
/-- TST_PRBS (18_test.md). -/
def TST_PRBS : Nat := 0x1500100
/-- TST_PRBS_ERR (18_test.md). -/
def TST_PRBS_ERR : Nat := 0x1500140
/-- TST_MARGIN_CTRL (18_test.md). -/
def TST_MARGIN_CTRL : Nat := 0x1500180
/-- TST_MARGIN_RES (18_test.md). -/
def TST_MARGIN_RES : Nat := 0x1500184
/-- GLB_ID (19_registers.md). -/
def GLB_ID : Nat := 0x0
/-- GLB_SERIAL_LO (19_registers.md). -/
def GLB_SERIAL_LO : Nat := 0x4
/-- GLB_SERIAL_HI (19_registers.md). -/
def GLB_SERIAL_HI : Nat := 0x8
/-- GLB_CTRL (19_registers.md). -/
def GLB_CTRL : Nat := 0xC
/-- GLB_STATUS (19_registers.md). -/
def GLB_STATUS : Nat := 0x10
/-- GLB_EVT_SUM (19_registers.md). -/
def GLB_EVT_SUM : Nat := 0x14
/-- GLB_ERR (19_registers.md). -/
def GLB_ERR : Nat := 0x18
/-- GLB_ERR_ADDR (19_registers.md). -/
def GLB_ERR_ADDR : Nat := 0x1C
/-- GLB_LOCK_STATUS (19_registers.md). -/
def GLB_LOCK_STATUS : Nat := 0x20
end R

namespace F
def TT_CTRL.EN : Field := ⟨0x100000, 0, 1, 0⟩
def TT_CTRL.LOCK : Field := ⟨0x100000, 31, 1, 0⟩
def TT_SRC.SRC_PRI : Field := ⟨0x100004, 0, 2, 0⟩
def TT_SRC.SRC_SEC : Field := ⟨0x100004, 2, 2, 0⟩
def TT_SRC.SRC_TER : Field := ⟨0x100004, 4, 2, 0⟩
def TT_SRC.BELL_EDGE : Field := ⟨0x100004, 6, 1, 0⟩
def TT_SRC.BELL_INTERVAL_MS : Field := ⟨0x100004, 16, 16, 0⟩
def TT_STATUS.STATE : Field := ⟨0x100008, 0, 3, 0⟩
def TT_STATUS.ACTIVE_SRC : Field := ⟨0x100008, 3, 2, 0⟩
def TT_STATUS.UNALIGNED : Field := ⟨0x100008, 5, 1, 0⟩
def TT_STATUS.BALLAST_OVR : Field := ⟨0x100008, 6, 1, 0⟩
def TT_STATUS.PTYPE : Field := ⟨0x100008, 7, 2, 0⟩
def TT_STATUS.COMMIT_BUSY : Field := ⟨0x100008, 9, 1, 0⟩
def TT_TIME_LO.TIME : Field := ⟨0x100010, 0, 32, 0⟩
def TT_TIME_HI.TIME : Field := ⟨0x100014, 0, 32, 0⟩
def TT_PNUM_LO.PNUM : Field := ⟨0x100018, 0, 32, 0⟩
def TT_PNUM_HI.PNUM : Field := ⟨0x10001C, 0, 32, 0⟩
def TT_GEOM_STAGE.LEN_US : Field := ⟨0x100020, 0, 17, 0⟩
def TT_GEOM_STAGE.CYCLE_M1 : Field := ⟨0x100020, 17, 12, 0⟩
def TT_GEOM_ACT.LEN_US : Field := ⟨0x100028, 0, 17, 0⟩
def TT_GEOM_ACT.CYCLE_M1 : Field := ⟨0x100028, 17, 12, 0⟩
def TT_OFFSET_STAGE.OFFSET : Field := ⟨0x100024, 0, 12, 0⟩
def TT_OFFSET_ACT.OFFSET : Field := ⟨0x10002C, 0, 12, 0⟩
def TT_HOLDOVER_LIMIT.LIMIT_S : Field := ⟨0x100030, 0, 16, 0⟩
def TT_LOCK_THRESH.THRESH_NS : Field := ⟨0x100034, 0, 16, 0⟩
def TT_PTM_INTERVAL.INTERVAL_MS : Field := ⟨0x100038, 0, 10, 0⟩
def TT_GUARD.GUARD_US : Field := ⟨0x10003C, 0, 16, 0⟩
def TT_BALLAST_HYST.HYST_BLK : Field := ⟨0x100040, 0, 8, 0⟩
def TT_SET_SEC.SECONDS : Field := ⟨0x100044, 0, 32, 0⟩
def TT_GC_CTRL.REQ : Field := ⟨0x100050, 0, 1, 0⟩
def TT_GC_STATUS.KIND : Field := ⟨0x100054, 0, 3, 0⟩
def TT_GC_STATUS.RESULT : Field := ⟨0x100054, 3, 2, 0⟩
def TT_GC_STATUS.INVALID : Field := ⟨0x100054, 5, 1, 0⟩
def TT_GC_STATUS.QFULL : Field := ⟨0x100054, 6, 1, 0⟩
def TT_GC_STATUS.COUNT : Field := ⟨0x100054, 16, 16, 0⟩
def TT_GC_FAIL_LO.FAIL : Field := ⟨0x100058, 0, 32, 0⟩
def TT_GC_FAIL_HI.FAIL : Field := ⟨0x10005C, 0, 32, 0⟩
def TT_RC_TIMEOUT.TIMEOUT_NS : Field := ⟨0x100060, 0, 16, 0⟩
def TT_NAMED_PNUM_LO.PNUM : Field := ⟨0x100070, 0, 32, 0⟩
def TT_NAMED_PNUM_HI.PNUM : Field := ⟨0x100074, 0, 32, 0⟩
def TT_NAMED_CTRL.ARM : Field := ⟨0x100078, 0, 1, 0⟩
def TT_NAMED_CTRL.ARMED : Field := ⟨0x100078, 1, 1, 0⟩
def TT_NAMED_CTRL.LATE : Field := ⟨0x100078, 2, 1, 0⟩
def TT_NAMED_CTRL.FIRED : Field := ⟨0x100078, 3, 1, 0⟩
def TT_EVT.SRC_LOST : Field := ⟨0x100080, 0, 1, 0⟩
def TT_EVT.HOLDOVER : Field := ⟨0x100080, 1, 1, 0⟩
def TT_EVT.FREERUN : Field := ⟨0x100080, 2, 1, 0⟩
def TT_EVT.RELOCKED : Field := ⟨0x100080, 3, 1, 0⟩
def TT_EVT.STEPPED : Field := ⟨0x100080, 4, 1, 0⟩
def TT_EVT.BALLAST_OVR : Field := ⟨0x100080, 5, 1, 0⟩
def TT_EVT.COMMIT_ROLLBACK : Field := ⟨0x100080, 6, 1, 0⟩
def TT_EVT.RC_TIMEOUT : Field := ⟨0x100080, 7, 1, 0⟩
def TT_BALLAST_CNT.COUNT : Field := ⟨0x100084, 0, 32, 0⟩
def TT_TABLE_STAGE.ALL : Field := ⟨0x101000, 0, 32, 4⟩
def TT_TABLE_ACT.ALL : Field := ⟨0x101400, 0, 32, 4⟩
def ZYN_CTRL.FAULT_AEN : Field := ⟨0x900000, 0, 1, 0⟩
def ZYN_CTRL.LOCK : Field := ⟨0x900000, 31, 1, 0⟩
def ZYN_STATUS.STATE : Field := ⟨0x900004, 0, 3, 0⟩
def ZYN_STATUS.DOUBLE_FAULT : Field := ⟨0x900004, 3, 1, 0⟩
def ZYN_STATUS.FQ_LEVEL : Field := ⟨0x900004, 4, 9, 0⟩
def ZYN_BUNDLE_ID.VALUE : Field := ⟨0x900008, 0, 32, 0⟩
def ZYN_BUNDLE_SVN.VALUE : Field := ⟨0x90000C, 0, 32, 0⟩
def ZYN_WAIT_LIMIT_CMD.LIMIT_US : Field := ⟨0x900010, 0, 24, 0⟩
def ZYN_WAIT_LIMIT_MAP.LIMIT_US : Field := ⟨0x900014, 0, 24, 0⟩
def ZYN_WAIT_LIMIT_SEQ.LIMIT_US : Field := ⟨0x900018, 0, 24, 0⟩
def ZYN_WAIT_LIMIT_POL.LIMIT_US : Field := ⟨0x90001C, 0, 24, 0⟩
def ZYN_TRAP_CNT_CMD.COUNT : Field := ⟨0x900020, 0, 32, 0⟩
def ZYN_TRAP_CNT_MAP.COUNT : Field := ⟨0x900024, 0, 32, 0⟩
def ZYN_TRAP_CNT_SEQ.COUNT : Field := ⟨0x900028, 0, 32, 0⟩
def ZYN_TRAP_CNT_POL.COUNT : Field := ⟨0x90002C, 0, 32, 0⟩
def ZYN_FAULT_LAST0.CAUSE : Field := ⟨0x900030, 0, 8, 0⟩
def ZYN_FAULT_LAST0.CLASS : Field := ⟨0x900030, 8, 2, 0⟩
def ZYN_FAULT_LAST0.ENGINE : Field := ⟨0x900030, 10, 5, 0⟩
def ZYN_FAULT_LAST0.CONTEXT : Field := ⟨0x900030, 15, 3, 0⟩
def ZYN_FAULT_LAST0.KIND : Field := ⟨0x900030, 18, 5, 0⟩
def ZYN_FAULT_LAST1.PC : Field := ⟨0x900034, 0, 18, 0⟩
def ZYN_FAULT_ADDR_LO.ADDR : Field := ⟨0x900038, 0, 32, 0⟩
def ZYN_FAULT_ADDR_HI.ADDR : Field := ⟨0x90003C, 0, 32, 0⟩
def HIU_PORT_STATUS.MODE : Field := ⟨0x200000, 0, 1, 0⟩
def HIU_PORT_STATUS.P0_RATE : Field := ⟨0x200000, 1, 3, 0⟩
def HIU_PORT_STATUS.P0_WIDTH : Field := ⟨0x200000, 4, 4, 0⟩
def HIU_PORT_STATUS.P0_FLIT : Field := ⟨0x200000, 8, 1, 0⟩
def HIU_PORT_STATUS.P1_RATE : Field := ⟨0x200000, 9, 3, 0⟩
def HIU_PORT_STATUS.P1_WIDTH : Field := ⟨0x200000, 12, 4, 0⟩
def HIU_PORT_STATUS.P1_FLIT : Field := ⟨0x200000, 16, 1, 0⟩
def HIU_PORT_STATUS.PTM_VALID : Field := ⟨0x200000, 17, 1, 0⟩
def HIU_EVT.P0_LINK_DOWN : Field := ⟨0x200004, 0, 1, 0⟩
def HIU_EVT.P1_LINK_DOWN : Field := ⟨0x200004, 1, 1, 0⟩
def HIU_EVT.DMA_ERR : Field := ⟨0x200004, 2, 1, 0⟩
def HIU_EVT.DOORBELL_ERR : Field := ⟨0x200004, 3, 1, 0⟩
def CMD_FETCH_CTRL.URG_EN : Field := ⟨0x300000, 0, 1, 0⟩
def CMD_FETCH_CTRL.BURST : Field := ⟨0x300000, 1, 3, 0⟩
def CMD_FETCH_CTRL.LOCK : Field := ⟨0x300000, 31, 1, 0⟩
def CMD_INFLIGHT.CUR : Field := ⟨0x300004, 0, 18, 0⟩
def CMD_INFLIGHT_MAX.MAX : Field := ⟨0x300008, 0, 18, 0⟩
def CMD_RLT_STATUS.WAITING : Field := ⟨0x30000C, 0, 18, 0⟩
def CMD_RLT_STATUS.WIDE : Field := ⟨0x30000C, 18, 9, 0⟩
def CMD_ABORT_CNT.ABORTED : Field := ⟨0x300010, 0, 16, 0⟩
def CMD_ABORT_CNT.NOT_ABORTED : Field := ⟨0x300010, 16, 16, 0⟩
def CMD_CONFLICT_CNT.COUNT : Field := ⟨0x300014, 0, 32, 0⟩
def CMD_TIMEOUT.LIMIT_MS : Field := ⟨0x300040, 0, 24, 4⟩
def TEN_CTRL.LOCK : Field := ⟨0x400000, 31, 1, 0⟩
def TEN_EVT.FLR_DONE : Field := ⟨0x400004, 0, 1, 0⟩
def TEN_EVT.VF_REMOVED : Field := ⟨0x400004, 1, 1, 0⟩
def TEN_QOS.WEIGHT : Field := ⟨0x400100, 0, 8, 4⟩
def TEN_QOS.BEST_EFFORT : Field := ⟨0x400100, 8, 1, 4⟩
def TEN_QOS.TARGET_US : Field := ⟨0x400100, 12, 20, 4⟩
def TEN_FUNC_STATE.STATE : Field := ⟨0x401000, 0, 2, 4⟩
def TEN_FUNC_STATE.CLASS : Field := ⟨0x401000, 2, 3, 4⟩
def TEN_FUNC_STATE.SOFT : Field := ⟨0x401000, 5, 1, 4⟩
def TEN_FUNC_STATE.HARD : Field := ⟨0x401000, 6, 1, 4⟩
def TEN_FUNC_STATE.CTX_COUNT : Field := ⟨0x401000, 14, 18, 4⟩
def BPM_CTRL.LOCK : Field := ⟨0x500000, 31, 1, 0⟩
def BPM_POOL_CFG.COUNT : Field := ⟨0x500004, 0, 22, 0⟩
def BPM_FREE.FREE : Field := ⟨0x500008, 0, 22, 0⟩
def BPM_LOW_WM.PCT : Field := ⟨0x50000C, 0, 7, 0⟩
def BPM_STATUS.LOW : Field := ⟨0x500010, 0, 1, 0⟩
def BPM_STATUS.EMPTY : Field := ⟨0x500010, 1, 1, 0⟩
def BPM_STATUS.CFG_CLAMPED : Field := ⟨0x500010, 2, 1, 0⟩
def BPM_STATUS.CLAIM : Field := ⟨0x500010, 3, 1, 0⟩
def BPM_EVT.LOW_ENTER : Field := ⟨0x500014, 0, 1, 0⟩
def BPM_EVT.EMPTY_ENTER : Field := ⟨0x500014, 1, 1, 0⟩
def BPM_EVT.SOFT_WARN : Field := ⟨0x500014, 2, 1, 0⟩
def BPM_EVT.HARD_WARN : Field := ⟨0x500014, 3, 1, 0⟩
def BPM_SHARE.SHARE : Field := ⟨0x510000, 0, 22, 4⟩
def BPM_USED.USED : Field := ⟨0x520000, 0, 22, 4⟩
def BPM_USED.SOFT : Field := ⟨0x520000, 22, 1, 4⟩
def BPM_USED.HARD : Field := ⟨0x520000, 23, 1, 4⟩
def SC_CTRL.PF_FORCE : Field := ⟨0x600000, 0, 1, 0⟩
def SC_CTRL.LOCK : Field := ⟨0x600000, 31, 1, 0⟩
def SC_STATUS.RATE : Field := ⟨0x600004, 0, 2, 0⟩
def SC_STATUS.PREFILTER : Field := ⟨0x600004, 2, 1, 0⟩
def SC_STATUS.OFFLINE : Field := ⟨0x600004, 3, 16, 0⟩
def SC_STATUS.UPDATING : Field := ⟨0x600004, 19, 1, 0⟩
def SC_STATUS.SKIPPED : Field := ⟨0x600004, 20, 8, 0⟩
def SC_BANK_CFG.ALL : Field := ⟨0x600008, 0, 32, 0⟩
def SC_UPD.RATIO : Field := ⟨0x60000C, 0, 4, 0⟩
def SC_FREE.FREE1 : Field := ⟨0x600010, 0, 16, 0⟩
def SC_FREE.FREE2 : Field := ⟨0x600010, 16, 14, 0⟩
def SC_EVT.BANK_FAULT : Field := ⟨0x600014, 0, 1, 0⟩
def SC_EVT.REBUILT : Field := ⟨0x600014, 1, 1, 0⟩
def SC_EVT.SHADOW_FAIL : Field := ⟨0x600014, 2, 1, 0⟩
def SC_EVT.DEFAULT_SKIP : Field := ⟨0x600014, 3, 1, 0⟩
def SC_EVT.LAYOUT_CHANGED : Field := ⟨0x600014, 4, 1, 0⟩
def PAU_CTRL.LOCK : Field := ⟨0x700000, 31, 1, 0⟩
def PAU_STATUS.RATE : Field := ⟨0x700004, 0, 2, 0⟩
def PAU_STATUS.BUSY : Field := ⟨0x700004, 2, 8, 0⟩
def PAU_STATUS.WAITING : Field := ⟨0x700004, 10, 18, 0⟩
def PAU_STORE.FREE_4K : Field := ⟨0x700008, 0, 12, 0⟩
def PAU_STORE.IMAGES : Field := ⟨0x700008, 12, 16, 0⟩
def MAP_CTRL.SPEC_EN : Field := ⟨0x800000, 0, 1, 0⟩
def MAP_CTRL.RETRY_SPEC_EN : Field := ⟨0x800000, 1, 1, 0⟩
def MAP_CTRL.LOCK : Field := ⟨0x800000, 31, 1, 0⟩
def MAP_REGION_CFG.SIZE_GIB : Field := ⟨0x800004, 0, 7, 0⟩
def MAP_STATUS.READY : Field := ⟨0x800008, 0, 1, 0⟩
def MAP_STATUS.RECOVERING : Field := ⟨0x800008, 1, 1, 0⟩
def MAP_STATUS.PINNED : Field := ⟨0x800008, 2, 18, 0⟩
def MAP_SPEC_ISSUED.COUNT : Field := ⟨0x800010, 0, 32, 0⟩
def MAP_SPEC_SQUASHED.COUNT : Field := ⟨0x800014, 0, 32, 0⟩
def MAP_RETRY_ISSUED.COUNT : Field := ⟨0x800018, 0, 32, 0⟩
def MAP_RETRY_USED.COUNT : Field := ⟨0x80001C, 0, 32, 0⟩
def MAP_CACHE_HIT.COUNT : Field := ⟨0x800020, 0, 32, 0⟩
def MAP_CACHE_MISS.COUNT : Field := ⟨0x800024, 0, 32, 0⟩
def MAP_ZONES.ACTIVE : Field := ⟨0x800030, 0, 15, 0⟩
def MAP_ZONES.OPEN : Field := ⟨0x800030, 15, 15, 0⟩
def MAP_ZONE_RESV.MAR_SUM : Field := ⟨0x800034, 0, 15, 0⟩
def MAP_EVT.PIN_BYPASS : Field := ⟨0x800038, 0, 1, 0⟩
def MAP_EVT.ZONE_RO : Field := ⟨0x800038, 1, 1, 0⟩
def MAP_EVT.ZONE_OFFLINE : Field := ⟨0x800038, 2, 1, 0⟩
def MAP_EVT.VOID_FILL : Field := ⟨0x800038, 3, 1, 0⟩
def MAP_EVT.REGION_FULL : Field := ⟨0x800038, 4, 1, 0⟩
def SEQ_IFCFG.IFTYPE : Field := ⟨0xA00000, 0, 2, 65536⟩
def SEQ_IFCFG.RATE : Field := ⟨0xA00000, 2, 7, 65536⟩
def SEQ_IFCFG.TGT_M1 : Field := ⟨0xA00000, 9, 3, 65536⟩
def SEQ_IFCFG.LUN_M1 : Field := ⟨0xA00000, 12, 2, 65536⟩
def SEQ_IFCFG.RB_USE : Field := ⟨0xA00000, 14, 1, 65536⟩
def SEQ_STATUS.BUSY : Field := ⟨0xA00004, 0, 32, 65536⟩
def SEQ_SUSP_CFG.MIN_RUN_US : Field := ⟨0xA00008, 0, 8, 65536⟩
def SEQ_SUSP_CFG.ERS_MAX : Field := ⟨0xA00008, 8, 4, 65536⟩
def SEQ_SUSP_CFG.HOLD_US : Field := ⟨0xA00008, 12, 12, 65536⟩
def SEQ_SUSP_CFG.READS_MAX : Field := ⟨0xA00008, 24, 5, 65536⟩
def SEQ_LADDER.HARD_SETS : Field := ⟨0xA0000C, 0, 4, 65536⟩
def SEQ_LADDER.OUTER_EN : Field := ⟨0xA0000C, 4, 1, 65536⟩
def SEQ_LADDER.POLL_100NS : Field := ⟨0xA0000C, 8, 8, 65536⟩
def SEQ_PARITY.OPEN : Field := ⟨0xA00010, 0, 1, 65536⟩
def SEQ_PARITY.MEMBERS : Field := ⟨0xA00010, 1, 5, 65536⟩
def SEQ_PARITY.BG : Field := ⟨0xA00010, 6, 1, 65536⟩
def SEQ_PARITY.SLC : Field := ⟨0xA00010, 7, 1, 65536⟩
def SEQ_EVT.READY_TMO : Field := ⟨0xA00014, 0, 1, 65536⟩
def SEQ_EVT.MEDIA_FAIL : Field := ⟨0xA00014, 1, 1, 65536⟩
def SEQ_EVT.UNCORR : Field := ⟨0xA00014, 2, 1, 65536⟩
def SEQ_EVT.OUTER_OK : Field := ⟨0xA00014, 3, 1, 65536⟩
def SEQ_EVT.OUTER_FAIL : Field := ⟨0xA00014, 4, 1, 65536⟩
def SEQ_EVT.UPROG_ERR : Field := ⟨0xA00014, 5, 1, 65536⟩
def SEQ_EVT.SLOT_RECLAIM : Field := ⟨0xA00014, 6, 1, 65536⟩
def SEQ_CNT_CORR.COUNT : Field := ⟨0xA00020, 0, 32, 65536⟩
def SEQ_CNT_UNCORR.COUNT : Field := ⟨0xA00024, 0, 32, 65536⟩
def SEQ_CNT_OUTER.COUNT : Field := ⟨0xA00028, 0, 32, 65536⟩
def SEQ_CNT_SUSP.COUNT : Field := ⟨0xA0002C, 0, 32, 65536⟩
def MED_CTRL.HOST_RBV : Field := ⟨0xC00000, 0, 1, 0⟩
def MED_CTRL.LOCK : Field := ⟨0xC00000, 31, 1, 0⟩
def MED_GEO0.PPB : Field := ⟨0xC00004, 0, 13, 0⟩
def MED_GEO0.PLANES : Field := ⟨0xC00004, 13, 3, 0⟩
def MED_GEO0.CPP : Field := ⟨0xC00004, 16, 4, 0⟩
def MED_GEO1.BLOCKS : Field := ⟨0xC00008, 0, 16, 0⟩
def MED_GEO1.CHANNELS : Field := ⟨0xC00008, 16, 6, 0⟩
def MED_GEO1.TARGETS : Field := ⟨0xC00008, 22, 4, 0⟩
def MED_GEO1.LUNS : Field := ⟨0xC00008, 26, 3, 0⟩
def MED_CAP_LO.CAP : Field := ⟨0xC0000C, 0, 32, 0⟩
def MED_CAP_HI.CAP : Field := ⟨0xC00010, 0, 32, 0⟩
def MED_SPOOL.MAX_BLK : Field := ⟨0xC00014, 0, 8, 0⟩
def MED_SPOOL.FLUSH_RESV : Field := ⟨0xC00014, 8, 4, 0⟩
def MED_SPOOL.FOLD_HI : Field := ⟨0xC00014, 12, 7, 0⟩
def MED_SPOOL.FOLD_LO : Field := ⟨0xC00014, 19, 7, 0⟩
def MED_BALLAST.FLOOR : Field := ⟨0xC00018, 0, 10, 0⟩
def MED_BALLAST.HOST_FLOOR : Field := ⟨0xC00018, 10, 10, 0⟩
def MED_BALLAST.OP_PCT : Field := ⟨0xC00018, 20, 6, 0⟩
def MED_THRESH.REWRITE_PCT : Field := ⟨0xC0001C, 0, 7, 0⟩
def MED_THRESH.VERIFY_PCT : Field := ⟨0xC0001C, 7, 7, 0⟩
def MED_THRESH.HARD_CAP : Field := ⟨0xC0001C, 14, 10, 0⟩
def MED_PATROL.DAYS : Field := ⟨0xC00020, 0, 8, 0⟩
def MED_PATROL.OVERDUE : Field := ⟨0xC00020, 8, 1, 0⟩
def MED_PATROL.WEAR_SPREAD : Field := ⟨0xC00020, 16, 12, 0⟩
def MED_SPARE.AVAIL_PCT : Field := ⟨0xC00024, 0, 7, 0⟩
def MED_SPARE.THRESH_PCT : Field := ⟨0xC00024, 7, 7, 0⟩
def MED_SPARE.READONLY : Field := ⟨0xC00024, 14, 1, 0⟩
def MED_SPARE.ENDUR : Field := ⟨0xC00024, 20, 12, 0⟩
def MED_STRIPE.CLOSE_US : Field := ⟨0xC00028, 0, 16, 0⟩
def MED_ENV_STAGE.BUDGET : Field := ⟨0xC00030, 0, 16, 0⟩
def MED_ENV_STAGE.REQ : Field := ⟨0xC00030, 31, 1, 0⟩
def MED_ENV_ACT.BUDGET : Field := ⟨0xC00034, 0, 16, 0⟩
def MED_ENV_WEIGHT.W_READ : Field := ⟨0xC00038, 0, 8, 0⟩
def MED_ENV_WEIGHT.W_PSLC : Field := ⟨0xC00038, 8, 8, 0⟩
def MED_ENV_WEIGHT.W_PQLC : Field := ⟨0xC00038, 16, 8, 0⟩
def MED_ENV_WEIGHT.W_ERASE : Field := ⟨0xC00038, 24, 8, 0⟩
def MED_ENV_STATUS.SUM : Field := ⟨0xC0003C, 0, 16, 0⟩
def MED_ENV_STATUS.WAITING : Field := ⟨0xC0003C, 16, 12, 0⟩
def MED_EVT.RETIRED : Field := ⟨0xC00040, 0, 1, 0⟩
def MED_EVT.HEAP_REJECT : Field := ⟨0xC00040, 1, 1, 0⟩
def MED_EVT.RW_OVF : Field := ⟨0xC00040, 2, 1, 0⟩
def MED_EVT.PATROL_OVERDUE : Field := ⟨0xC00040, 3, 1, 0⟩
def MED_EVT.SPARE_LOW : Field := ⟨0xC00040, 4, 1, 0⟩
def MED_EVT.READONLY : Field := ⟨0xC00040, 5, 1, 0⟩
def MED_EVT.DIE_FAIL : Field := ⟨0xC00040, 6, 1, 0⟩
def MED_EVT.TRACK_REJECT : Field := ⟨0xC00040, 7, 1, 0⟩
def MED_RETIRED_CNT.COUNT : Field := ⟨0xC00044, 0, 32, 0⟩
def MED_RSET0.DELTA : Field := ⟨0xC01010, 0, 32, 16⟩
def MED_RSET1.DELTA : Field := ⟨0xC01014, 0, 32, 16⟩
def MED_RSET2.DELTA : Field := ⟨0xC01018, 0, 32, 16⟩
def MED_RSET3.DELTA : Field := ⟨0xC0101C, 0, 32, 16⟩
def JNL_CTRL.SEAL_US : Field := ⟨0xD00000, 0, 8, 0⟩
def JNL_CTRL.FORCE_PAGES : Field := ⟨0xD00000, 8, 16, 0⟩
def JNL_CTRL.LOCK : Field := ⟨0xD00000, 31, 1, 0⟩
def JNL_STATUS.FILL_PM : Field := ⟨0xD00004, 0, 10, 0⟩
def JNL_STATUS.FULL : Field := ⟨0xD00004, 10, 1, 0⟩
def JNL_STATUS.FLUSH_STATE : Field := ⟨0xD00004, 11, 2, 0⟩
def JNL_STATUS.LAST_SHUTDOWN : Field := ⟨0xD00004, 13, 2, 0⟩
def JNL_STATUS.RECOV_PHASE : Field := ⟨0xD00004, 15, 3, 0⟩
def JNL_HOLDUP.ENERGY_MJ : Field := ⟨0xD00008, 0, 16, 0⟩
def JNL_FLUSH_PARAM.RATE_MIBMS : Field := ⟨0xD0000C, 0, 10, 0⟩
def JNL_FLUSH_PARAM.NAND_UJ_MIB : Field := ⟨0xD0000C, 10, 16, 0⟩
def JNL_DIRTY_CEIL.CEIL_MIB : Field := ⟨0xD00010, 0, 16, 0⟩
def JNL_DIRTY_CEIL.CLAMPED : Field := ⟨0xD00010, 16, 1, 0⟩
def JNL_DIRTY.COUNT : Field := ⟨0xD00014, 0, 22, 0⟩
def JNL_FLUSH_TIME.TF_US : Field := ⟨0xD00018, 0, 16, 0⟩
def JNL_SEQ_LO.SEQ : Field := ⟨0xD00020, 0, 32, 0⟩
def JNL_SEQ_HI.SEQ : Field := ⟨0xD00024, 0, 32, 0⟩
def JNL_SEALED_LO.SEQ : Field := ⟨0xD00028, 0, 32, 0⟩
def JNL_SEALED_HI.SEQ : Field := ⟨0xD0002C, 0, 32, 0⟩
def JNL_CP_STATUS.BLOCKS : Field := ⟨0xD00030, 0, 13, 0⟩
def JNL_CP_STATUS.CP_HI : Field := ⟨0xD00030, 13, 12, 0⟩
def JNL_CP_PAGES.COUNT : Field := ⟨0xD00034, 0, 32, 0⟩
def JNL_EVT.FILL75 : Field := ⟨0xD00038, 0, 1, 0⟩
def JNL_EVT.FILL90 : Field := ⟨0xD00038, 1, 1, 0⟩
def JNL_EVT.FULL : Field := ⟨0xD00038, 2, 1, 0⟩
def JNL_EVT.FLUSH_DONE : Field := ⟨0xD00038, 3, 1, 0⟩
def JNL_EVT.FLUSH_INCOMPLETE : Field := ⟨0xD00038, 4, 1, 0⟩
def JNL_EVT.LOST_REPLAY : Field := ⟨0xD00038, 5, 1, 0⟩
def JNL_EVT.CEIL_CLAMPED : Field := ⟨0xD00038, 6, 1, 0⟩
def JNL_LOST_CNT.COUNT : Field := ⟨0xD0003C, 0, 32, 0⟩
def JNL_RECOV_MS.MS : Field := ⟨0xD00040, 0, 16, 0⟩
def ECC_CTRL.SCRUB_EN : Field := ⟨0xE00000, 0, 1, 0⟩
def ECC_CTRL.LOCK : Field := ⟨0xE00000, 31, 1, 0⟩
def ECC_SCRUB_CFG.SRAM_H : Field := ⟨0xE00004, 0, 5, 0⟩
def ECC_SCRUB_CFG.DRAM_H : Field := ⟨0xE00004, 5, 5, 0⟩
def ECC_SCRUB_CFG.MRAM_H : Field := ⟨0xE00004, 10, 5, 0⟩
def ECC_STATUS.SRAM_PCT : Field := ⟨0xE00008, 0, 7, 0⟩
def ECC_STATUS.DRAM_PCT : Field := ⟨0xE00008, 7, 7, 0⟩
def ECC_STATUS.MRAM_PCT : Field := ⟨0xE00008, 14, 7, 0⟩
def ECC_STATUS.LATE : Field := ⟨0xE00008, 21, 1, 0⟩
def ECC_STATUS.JNL_REPAIR : Field := ⟨0xE00008, 22, 1, 0⟩
def ECC_STATUS.REBUILD_WAIT : Field := ⟨0xE00008, 23, 9, 0⟩
def ECC_CE_CNT.COUNT : Field := ⟨0xE00040, 0, 32, 4⟩
def ECC_UE_CNT.COUNT : Field := ⟨0xE00080, 0, 32, 4⟩
def ECC_POISON_CNT.COUNT : Field := ⟨0xE000C0, 0, 32, 0⟩
def ECC_EVT.UE : Field := ⟨0xE000C4, 0, 1, 0⟩
def ECC_EVT.POISON_READ : Field := ⟨0xE000C4, 1, 1, 0⟩
def ECC_EVT.TRIPLE_FAIL : Field := ⟨0xE000C4, 2, 1, 0⟩
def ECC_EVT.REBUILD_START : Field := ⟨0xE000C4, 3, 1, 0⟩
def ECC_EVT.REBUILD_DONE : Field := ⟨0xE000C4, 4, 1, 0⟩
def ECC_EVT.UNRECOVERED : Field := ⟨0xE000C4, 5, 1, 0⟩
def ECC_EVT.JNL_REPAIR : Field := ⟨0xE000C4, 6, 1, 0⟩
def ECC_EVT.FENCE : Field := ⟨0xE000C4, 7, 1, 0⟩
def ECC_EVT.ISTORE : Field := ⟨0xE000C4, 8, 1, 0⟩
def ECC_EVT.OOB_MISMATCH : Field := ⟨0xE000C4, 9, 1, 0⟩
def ECC_FENCE.BUFFERS : Field := ⟨0xE000C8, 0, 11, 0⟩
def ECC_FENCE.SLOTS : Field := ⟨0xE000C8, 11, 12, 0⟩
def ECC_LOG_HEAD.NEXT : Field := ⟨0xE000FC, 0, 4, 0⟩
def ECC_LOG_HEAD.TOTAL : Field := ⟨0xE000FC, 4, 28, 0⟩
def ECC_LOG_INFO.STORE : Field := ⟨0xE00100, 0, 4, 16⟩
def ECC_LOG_INFO.CLASS : Field := ⟨0xE00100, 4, 2, 16⟩
def ECC_LOG_INFO.SYND : Field := ⟨0xE00100, 6, 8, 16⟩
def ECC_LOG_INFO.ACTION : Field := ⟨0xE00100, 14, 4, 16⟩
def ECC_LOG_ADDR_LO.ADDR : Field := ⟨0xE00104, 0, 32, 16⟩
def ECC_LOG_ADDR_HI.ADDR : Field := ⟨0xE00108, 0, 32, 16⟩
def ECC_LOG_TIME.SECONDS : Field := ⟨0xE0010C, 0, 32, 16⟩
def ECC_INJECT.STORE : Field := ⟨0xE00200, 0, 4, 0⟩
def ECC_INJECT.TYPE : Field := ⟨0xE00200, 4, 2, 0⟩
def ECC_INJECT.ARM : Field := ⟨0xE00200, 6, 1, 0⟩
def ECC_INJECT.ARMED : Field := ⟨0xE00200, 7, 1, 0⟩
def DMC_CTRL.ERR_MODE : Field := ⟨0xF00000, 0, 1, 0⟩
def DMC_CTRL.WCRC_EN : Field := ⟨0xF00000, 1, 1, 0⟩
def DMC_CTRL.LOCK : Field := ⟨0xF00000, 31, 1, 0⟩
def DMC_CFG.POP : Field := ⟨0xF00004, 0, 1, 0⟩
def DMC_CFG.DENSITY : Field := ⟨0xF00004, 1, 1, 0⟩
def DMC_CFG.RANKS : Field := ⟨0xF00004, 2, 1, 0⟩
def DMC_CFG.RATE : Field := ⟨0xF00004, 3, 3, 0⟩
def DMC_CFG.DRFM : Field := ⟨0xF00004, 6, 1, 0⟩
def DMC_CFG.CAP_GIB : Field := ⟨0xF00004, 7, 7, 0⟩
def DMC_STATUS.STATE : Field := ⟨0xF00008, 0, 3, 0⟩
def DMC_STATUS.DEV_FAIL : Field := ⟨0xF00008, 3, 1, 0⟩
def DMC_STATUS.REGION_CLAMPED : Field := ⟨0xF00008, 4, 1, 0⟩
def DMC_STATUS.WBATCH : Field := ⟨0xF00008, 5, 1, 0⟩
def DMC_STATUS.PD : Field := ⟨0xF00008, 6, 4, 0⟩
def DMC_STATUS.TRACKER_RESET : Field := ⟨0xF00008, 10, 1, 0⟩
def DMC_FAILDEV.CH : Field := ⟨0xF0000C, 0, 1, 0⟩
def DMC_FAILDEV.SC : Field := ⟨0xF0000C, 1, 1, 0⟩
def DMC_FAILDEV.RANK : Field := ⟨0xF0000C, 2, 1, 0⟩
def DMC_FAILDEV.DEVICE : Field := ⟨0xF0000C, 3, 4, 0⟩
def DMC_FAILDEV.VALID : Field := ⟨0xF0000C, 7, 1, 0⟩
def DMC_TBL_CFG.TBL_GIB : Field := ⟨0xF00010, 0, 4, 0⟩
def DMC_REGION_POOL.BASE_MIB : Field := ⟨0xF00014, 0, 16, 0⟩
def DMC_REGION_POOL.SIZE_16M : Field := ⟨0xF00014, 16, 16, 0⟩
def DMC_REGION_TBL.BASE_MIB : Field := ⟨0xF00018, 0, 16, 0⟩
def DMC_REGION_TBL.SIZE_16M : Field := ⟨0xF00018, 16, 16, 0⟩
def DMC_REGION_MAP.BASE_MIB : Field := ⟨0xF0001C, 0, 16, 0⟩
def DMC_REGION_MAP.SIZE_16M : Field := ⟨0xF0001C, 16, 16, 0⟩
def DMC_WQ.WR_HI : Field := ⟨0xF00020, 0, 6, 0⟩
def DMC_WQ.WR_LO : Field := ⟨0xF00020, 6, 6, 0⟩
def DMC_WQ.WR_AGE_US : Field := ⟨0xF00020, 12, 8, 0⟩
def DMC_PORT_QOS.TARGET_NS : Field := ⟨0xF00040, 0, 20, 4⟩
def DMC_PORT_QOS.WEIGHT : Field := ⟨0xF00040, 20, 4, 4⟩
def DMC_PORT_LATMAX.MAX_NS : Field := ⟨0xF00060, 0, 20, 4⟩
def DMC_RP_CFG.THRESH : Field := ⟨0xF00080, 0, 14, 0⟩
def DMC_RP_CFG.USE_DRFM : Field := ⟨0xF00080, 14, 1, 0⟩
def DMC_RP_CNT.COUNT : Field := ⟨0xF00084, 0, 32, 0⟩
def DMC_PWR.PD_IDLE_NS : Field := ⟨0xF00088, 0, 12, 0⟩
def DMC_PWR.SR_IDLE_US : Field := ⟨0xF00088, 12, 16, 0⟩
def DMC_ERR_CFG.DEV_FAIL_THRESH : Field := ⟨0xF0008C, 0, 10, 0⟩
def DMC_ERR_CFG.CAP_QUIET_US : Field := ⟨0xF0008C, 10, 10, 0⟩
def DMC_EVT.UE : Field := ⟨0xF00090, 0, 1, 0⟩
def DMC_EVT.CAPTURE : Field := ⟨0xF00090, 1, 1, 0⟩
def DMC_EVT.FREEZE : Field := ⟨0xF00090, 2, 1, 0⟩
def DMC_EVT.ALERT_RETRY : Field := ⟨0xF00090, 3, 1, 0⟩
def DMC_EVT.DEV_FAIL : Field := ⟨0xF00090, 4, 1, 0⟩
def DMC_EVT.TRAIN_FAIL : Field := ⟨0xF00090, 5, 1, 0⟩
def DMC_EVT.SR_ABANDON : Field := ⟨0xF00090, 6, 1, 0⟩
def DMC_EVT.RP_TRACKER_LOST : Field := ⟨0xF00090, 7, 1, 0⟩
def DMC_UE_CNT.COUNT : Field := ⟨0xF00094, 0, 32, 0⟩
def DMC_CAP_ADDR_LO.ADDR : Field := ⟨0xF00098, 0, 32, 0⟩
def DMC_CAP_ADDR_HI.ADDR : Field := ⟨0xF0009C, 0, 32, 0⟩
def DMC_TRAIN.LAST : Field := ⟨0xF000A0, 0, 2, 0⟩
def DMC_TRAIN.STEP : Field := ⟨0xF000A0, 2, 4, 0⟩
def DMC_TRAIN.MS : Field := ⟨0xF000A0, 6, 16, 0⟩
def SEC_CTRL.ST_PERIOD_H : Field := ⟨0x1000000, 0, 8, 0⟩
def SEC_CTRL.LOCK : Field := ⟨0x1000000, 31, 1, 0⟩
def SEC_STATUS.STATE : Field := ⟨0x1000004, 0, 2, 0⟩
def SEC_STATUS.LIFECYCLE : Field := ⟨0x1000004, 2, 8, 0⟩
def SEC_STATUS.CO_SESSION : Field := ⟨0x1000004, 10, 1, 0⟩
def SEC_STATUS.CO_LOCKOUT : Field := ⟨0x1000004, 11, 1, 0⟩
def SEC_STATUS.LEDGER_FULL : Field := ⟨0x1000004, 12, 1, 0⟩
def SEC_STATUS.LEDGER_POLICY : Field := ⟨0x1000004, 13, 1, 0⟩
def SEC_STATUS.RESERVE : Field := ⟨0x1000004, 14, 1, 0⟩
def SEC_STATUS.EPOCH : Field := ⟨0x1000004, 15, 6, 0⟩
def SEC_ERR.CAUSE : Field := ⟨0x1000008, 0, 4, 0⟩
def SEC_ERR.ALG : Field := ⟨0x1000008, 4, 8, 0⟩
def SEC_SVN.FUSED : Field := ⟨0x100000C, 0, 7, 0⟩
def SEC_SVN.RUNNING : Field := ⟨0x100000C, 7, 7, 0⟩
def SEC_SVN.SLOT : Field := ⟨0x100000C, 14, 1, 0⟩
def SEC_LEDGER_HEAD_LO.RECORD : Field := ⟨0x1000010, 0, 32, 0⟩
def SEC_LEDGER_HEAD_HI.RECORD : Field := ⟨0x1000014, 0, 32, 0⟩
def SEC_LEDGER_TAIL_LO.RECORD : Field := ⟨0x1000018, 0, 32, 0⟩
def SEC_LEDGER_TAIL_HI.RECORD : Field := ⟨0x100001C, 0, 32, 0⟩
def SEC_LEDGER_ACK_LO.RECORD : Field := ⟨0x1000020, 0, 32, 0⟩
def SEC_LEDGER_ACK_HI.RECORD : Field := ⟨0x1000024, 0, 32, 0⟩
def SEC_LEDGER_MISC.MISSED : Field := ⟨0x1000028, 0, 16, 0⟩
def SEC_LEDGER_MISC.OVF_VALID : Field := ⟨0x1000028, 16, 1, 0⟩
def SEC_LEDGER_MISC.CP_SLOT : Field := ⟨0x1000028, 17, 5, 0⟩
def SEC_KEYSLOTS.LOADED : Field := ⟨0x100002C, 0, 17, 0⟩
def SEC_EVT.ERROR : Field := ⟨0x1000030, 0, 1, 0⟩
def SEC_EVT.AUTH_FAIL : Field := ⟨0x1000030, 1, 1, 0⟩
def SEC_EVT.RESERVE : Field := ⟨0x1000030, 2, 1, 0⟩
def SEC_EVT.FULL : Field := ⟨0x1000030, 3, 1, 0⟩
def SEC_EVT.COMPACTED : Field := ⟨0x1000030, 4, 1, 0⟩
def SEC_EVT.LIFECYCLE : Field := ⟨0x1000030, 5, 1, 0⟩
def SEC_EVT.ZEROIZED : Field := ⟨0x1000030, 6, 1, 0⟩
def PMU_CTRL.S3_EN : Field := ⟨0x1100000, 0, 1, 0⟩
def PMU_CTRL.S3_DWELL_S : Field := ⟨0x1100000, 16, 12, 0⟩
def PMU_CTRL.LOCK : Field := ⟨0x1100000, 31, 1, 0⟩
def PMU_STATUS.PL_CUR : Field := ⟨0x1100004, 0, 3, 0⟩
def PMU_STATUS.PL_TARGET : Field := ⟨0x1100004, 3, 3, 0⟩
def PMU_STATUS.PS_CUR : Field := ⟨0x1100004, 6, 3, 0⟩
def PMU_STATUS.PS_TARGET : Field := ⟨0x1100004, 9, 3, 0⟩
def PMU_STATUS.TRANS : Field := ⟨0x1100004, 12, 2, 0⟩
def PMU_STATUS.VHIGH : Field := ⟨0x1100004, 14, 1, 0⟩
def PMU_PL_CAP.CAP : Field := ⟨0x1100008, 0, 3, 0⟩
def PMU_PL_TABLE.VCORE_MV : Field := ⟨0x1100010, 0, 10, 4⟩
def PMU_PL_TABLE.VSRAM_MV : Field := ⟨0x1100010, 10, 10, 4⟩
def PMU_PL_TABLE.RA : Field := ⟨0x1100010, 20, 2, 4⟩
def PMU_PL_TABLE.WA : Field := ⟨0x1100010, 22, 2, 4⟩
def PMU_PL_TABLE.FREQ_50M : Field := ⟨0x1100010, 24, 6, 4⟩
def PMU_DOM_STATE.ALL : Field := ⟨0x1100030, 0, 32, 0⟩
def PMU_VOTE.ENGINE : Field := ⟨0x1100040, 0, 4, 4⟩
def PMU_VOTE.DEMAND : Field := ⟨0x1100040, 4, 1, 4⟩
def PMU_VOTE.PMU : Field := ⟨0x1100040, 5, 1, 4⟩
def PMU_VOTE.POLICY : Field := ⟨0x1100040, 6, 1, 4⟩
def PMU_VOTE.HOST : Field := ⟨0x1100040, 7, 1, 4⟩
def PMU_WAKE_STATUS.BANK_FAIL : Field := ⟨0x1100070, 0, 8, 0⟩
def PMU_WAKE_STATUS.COLD : Field := ⟨0x1100070, 8, 14, 0⟩
def PMU_AVS_STATUS.VCORE_MV : Field := ⟨0x1100074, 0, 10, 0⟩
def PMU_AVS_STATUS.VSRAM_MV : Field := ⟨0x1100074, 10, 10, 0⟩
def PMU_AVS_STATUS.TIMEOUTS : Field := ⟨0x1100074, 20, 8, 0⟩
def PMU_AVS_STATUS.RAISE_FAILS : Field := ⟨0x1100074, 28, 4, 0⟩
def PMU_EVT.AVS_TIMEOUT : Field := ⟨0x1100078, 0, 1, 0⟩
def PMU_EVT.RET_FAIL : Field := ⟨0x1100078, 1, 1, 0⟩
def PMU_EVT.PS_DONE : Field := ⟨0x1100078, 2, 1, 0⟩
def PMU_EVT.ABANDON : Field := ⟨0x1100078, 3, 1, 0⟩
def PMU_EVT.REDIRECT : Field := ⟨0x1100078, 4, 1, 0⟩
def PMU_EVT.S3_ENTER : Field := ⟨0x1100078, 5, 1, 0⟩
def PMU_RET_SEQ.SEQ : Field := ⟨0x1100080, 0, 32, 4⟩
def TMU_CTRL.COMPAT : Field := ⟨0x1200000, 0, 1, 0⟩
def TMU_CTRL.LOCK : Field := ⟨0x1200000, 31, 1, 0⟩
def TMU_THRESH.WARN : Field := ⟨0x1200004, 0, 8, 0⟩
def TMU_THRESH.THROTTLE : Field := ⟨0x1200004, 8, 8, 0⟩
def TMU_THRESH.CRIT : Field := ⟨0x1200004, 16, 8, 0⟩
def TMU_THRESH.SHUT : Field := ⟨0x1200004, 24, 8, 0⟩
def TMU_THR_CFG.UP_MS : Field := ⟨0x1200008, 0, 8, 0⟩
def TMU_THR_CFG.DOWN_MS : Field := ⟨0x1200008, 8, 8, 0⟩
def TMU_THR_CFG.HYST_C : Field := ⟨0x1200008, 16, 4, 0⟩
def TMU_STATUS.LEVEL : Field := ⟨0x120000C, 0, 4, 0⟩
def TMU_STATUS.HOT_TILE : Field := ⟨0x120000C, 4, 4, 0⟩
def TMU_STATUS.TMAX : Field := ⟨0x120000C, 8, 12, 0⟩
def TMU_STATUS.DIODE_BAD : Field := ⟨0x120000C, 20, 8, 0⟩
def TMU_STATUS.BAND : Field := ⟨0x120000C, 28, 2, 0⟩
def TMU_TILE.TEMP : Field := ⟨0x1200040, 0, 12, 4⟩
def TMU_TILE.FORCED : Field := ⟨0x1200040, 12, 1, 4⟩
def TMU_DIODE.READING : Field := ⟨0x1200080, 0, 12, 4⟩
def TMU_DIODE.BAD : Field := ⟨0x1200080, 12, 1, 4⟩
def TMU_DIODE.CAUSE : Field := ⟨0x1200080, 13, 2, 4⟩
def TMU_GAIN.GAIN : Field := ⟨0x12000A0, 0, 16, 0⟩
def TMU_GAIN.FROZEN : Field := ⟨0x12000A0, 16, 1, 0⟩
def TMU_EVT.WARN : Field := ⟨0x12000A4, 0, 1, 0⟩
def TMU_EVT.THROTTLE : Field := ⟨0x12000A4, 1, 1, 0⟩
def TMU_EVT.CRIT : Field := ⟨0x12000A4, 2, 1, 0⟩
def TMU_EVT.SHUT : Field := ⟨0x12000A4, 3, 1, 0⟩
def TMU_EVT.DIODE_BAD : Field := ⟨0x12000A4, 4, 1, 0⟩
def TMU_EVT.IOUT_LOST : Field := ⟨0x12000A4, 5, 1, 0⟩
def TMU_EVT.THRESH_REJECT : Field := ⟨0x12000A4, 6, 1, 0⟩
def BOOT_STATUS.STATE : Field := ⟨0x1600000, 0, 2, 0⟩
def BOOT_STATUS.STEP : Field := ⟨0x1600000, 2, 4, 0⟩
def BOOT_STATUS.CODE : Field := ⟨0x1600000, 6, 8, 0⟩
def BOOT_STATUS.FALLBACK : Field := ⟨0x1600000, 14, 1, 0⟩
def BOOT_STATUS.SLOT : Field := ⟨0x1600000, 15, 1, 0⟩
def BOOT_STATUS.PRESET_SKIP : Field := ⟨0x1600000, 16, 7, 0⟩
def BOOT_STATUS.NO_TT : Field := ⟨0x1600000, 23, 1, 0⟩
def BOOT_STRAPS.PORT_MODE : Field := ⟨0x1600004, 0, 1, 0⟩
def BOOT_STRAPS.XSPI_MODE : Field := ⟨0x1600004, 1, 1, 0⟩
def BOOT_STRAPS.BOOT_SLOT : Field := ⟨0x1600004, 2, 1, 0⟩
def BOOT_STRAPS.TETHER_ROLE_HINT : Field := ⟨0x1600004, 3, 1, 0⟩
def BOOT_STRAPS.BAD : Field := ⟨0x1600004, 4, 1, 0⟩
def BOOT_TIME.MS : Field := ⟨0x1600008, 0, 16, 0⟩
def BOOT_ROM_REV.ROM_REV : Field := ⟨0x160000C, 0, 16, 0⟩
def BOOT_ROM_REV.CAUSE : Field := ⟨0x160000C, 16, 3, 0⟩
def GB_CTRL.CLOSE : Field := ⟨0x1300000, 0, 1, 0⟩
def GB_CTRL.MI_FUNC : Field := ⟨0x1300000, 1, 1, 0⟩
def GB_CTRL.LOCK : Field := ⟨0x1300000, 31, 1, 0⟩
def GB_STATUS.OPEN_SEV : Field := ⟨0x1300004, 0, 2, 0⟩
def GB_STATUS.WRITING : Field := ⟨0x1300004, 2, 1, 0⟩
def GB_STATUS.DEFERRED : Field := ⟨0x1300004, 3, 1, 0⟩
def GB_STATUS.MAIN_CRIT : Field := ⟨0x1300004, 4, 6, 0⟩
def GB_STATUS.OVF_USED : Field := ⟨0x1300004, 10, 7, 0⟩
def GB_NEXT_LO.NEXT_NO : Field := ⟨0x1300008, 0, 32, 0⟩
def GB_NEXT_HI.NEXT_NO : Field := ⟨0x130000C, 0, 32, 0⟩
def GB_LOST.COUNT : Field := ⟨0x1300010, 0, 32, 0⟩
def GB_EVT.CLOSED : Field := ⟨0x1300014, 0, 1, 0⟩
def GB_EVT.OVERFLOW : Field := ⟨0x1300014, 1, 1, 0⟩
def GB_EVT.LOST : Field := ⟨0x1300014, 2, 1, 0⟩
def GB_EVT.DIAG : Field := ⟨0x1300014, 3, 1, 0⟩
def TH_CTRL.EN : Field := ⟨0x1400000, 0, 1, 0⟩
def TH_CTRL.RING_ID : Field := ⟨0x1400000, 1, 2, 0⟩
def TH_CTRL.RING_SIZE_M1 : Field := ⟨0x1400000, 3, 2, 0⟩
def TH_CTRL.TAKEOVER : Field := ⟨0x1400000, 5, 1, 0⟩
def TH_CTRL.LOCK : Field := ⟨0x1400000, 31, 1, 0⟩
def TH_STATUS.FORMED : Field := ⟨0x1400004, 0, 1, 0⟩
def TH_STATUS.CONFLICT : Field := ⟨0x1400004, 1, 1, 0⟩
def TH_STATUS.PRESENT : Field := ⟨0x1400004, 2, 4, 0⟩
def TH_LINK.UP : Field := ⟨0x1400010, 0, 1, 4⟩
def TH_LINK.RATE : Field := ⟨0x1400010, 1, 1, 4⟩
def TH_LINK.WIDTH : Field := ⟨0x1400010, 2, 1, 4⟩
def TH_LINK.RETRAIN : Field := ⟨0x1400010, 3, 1, 4⟩
def TH_LINK.REPLAYS : Field := ⟨0x1400010, 16, 16, 4⟩
def TH_FENCE.FENCE_MS : Field := ⟨0x1400018, 0, 16, 0⟩
def TH_FENCE.FORM_MS : Field := ⟨0x1400018, 16, 16, 0⟩
def TH_NS_CMD.INDEX : Field := ⟨0x140001C, 0, 6, 0⟩
def TH_NS_CMD.TAKEOVER : Field := ⟨0x140001C, 6, 1, 0⟩
def TH_EVT.PATH_LOST : Field := ⟨0x1400020, 0, 1, 0⟩
def TH_EVT.PEER_LOST : Field := ⟨0x1400020, 1, 1, 0⟩
def TH_EVT.SOLE : Field := ⟨0x1400020, 2, 1, 0⟩
def TH_EVT.RESYNC_DONE : Field := ⟨0x1400020, 3, 1, 0⟩
def TH_EVT.CONFLICT : Field := ⟨0x1400020, 4, 1, 0⟩
def TH_NSCFG.NSID : Field := ⟨0x1400100, 0, 15, 4⟩
def TH_NSCFG.MODE : Field := ⟨0x1400100, 15, 2, 4⟩
def TH_NSCFG.MEMBERS : Field := ⟨0x1400100, 17, 4, 4⟩
def TH_NSCFG.PRIMARY : Field := ⟨0x1400100, 21, 2, 4⟩
def TH_NSCFG.SPAN_SHIFT : Field := ⟨0x1400100, 23, 5, 4⟩
def TH_NSCFG.AGREED : Field := ⟨0x1400100, 28, 1, 4⟩
def TH_NS_STATE.STATE : Field := ⟨0x1400200, 0, 3, 4⟩
def TH_NS_STATE.MARKED : Field := ⟨0x1400200, 3, 29, 4⟩
def TST_CTRL.SCAN_EN : Field := ⟨0x1500000, 0, 1, 0⟩
def TST_CTRL.LOCK : Field := ⟨0x1500000, 31, 1, 0⟩
def TST_STATUS.SCAN_REFUSED : Field := ⟨0x1500004, 0, 1, 0⟩
def TST_STATUS.JTAG_CRYPTO : Field := ⟨0x1500004, 1, 1, 0⟩
def TST_LB_CTRL.IFACE : Field := ⟨0x1500010, 0, 3, 0⟩
def TST_LB_CTRL.INST : Field := ⟨0x1500010, 3, 6, 0⟩
def TST_LB_CTRL.DEPTH : Field := ⟨0x1500010, 9, 3, 0⟩
def TST_LB_CTRL.LUN : Field := ⟨0x1500010, 12, 5, 0⟩
def TST_LB_CTRL.MASTER : Field := ⟨0x1500010, 17, 1, 0⟩
def TST_LB_CTRL.START : Field := ⟨0x1500010, 18, 1, 0⟩
def TST_LB_CTRL.STOP : Field := ⟨0x1500010, 19, 1, 0⟩
def TST_LB_ARG.BITS : Field := ⟨0x1500014, 0, 8, 0⟩
def TST_LB_ARG.BURSTS : Field := ⟨0x1500014, 8, 8, 0⟩
def TST_LB_STATUS.RUNNING : Field := ⟨0x1500018, 0, 1, 0⟩
def TST_LB_STATUS.RESULT : Field := ⟨0x1500018, 1, 3, 0⟩
def TST_LB_STATUS.ERRORS : Field := ⟨0x1500018, 4, 28, 0⟩
def TST_PRBS.PATTERN : Field := ⟨0x1500100, 0, 3, 4⟩
def TST_PRBS.GEN_EN : Field := ⟨0x1500100, 3, 1, 4⟩
def TST_PRBS.CHK_EN : Field := ⟨0x1500100, 4, 1, 4⟩
def TST_PRBS.LOCKED : Field := ⟨0x1500100, 5, 1, 4⟩
def TST_PRBS_ERR.COUNT : Field := ⟨0x1500140, 0, 32, 4⟩
def TST_MARGIN_CTRL.LANE : Field := ⟨0x1500180, 0, 4, 0⟩
def TST_MARGIN_CTRL.TOFF : Field := ⟨0x1500180, 4, 6, 0⟩
def TST_MARGIN_CTRL.VOFF : Field := ⟨0x1500180, 10, 6, 0⟩
def TST_MARGIN_CTRL.EYE : Field := ⟨0x1500180, 16, 2, 0⟩
def TST_MARGIN_CTRL.DWELL_US : Field := ⟨0x1500180, 18, 10, 0⟩
def TST_MARGIN_CTRL.START : Field := ⟨0x1500180, 28, 1, 0⟩
def TST_MARGIN_CTRL.DONE : Field := ⟨0x1500180, 29, 1, 0⟩
def TST_MARGIN_RES.ERRORS : Field := ⟨0x1500184, 0, 32, 0⟩
def GLB_ID.PART : Field := ⟨0x0, 0, 16, 0⟩
def GLB_ID.VARIANT : Field := ⟨0x0, 16, 4, 0⟩
def GLB_ID.STEPPING : Field := ⟨0x0, 20, 8, 0⟩
def GLB_SERIAL_LO.SERIAL : Field := ⟨0x4, 0, 32, 0⟩
def GLB_SERIAL_HI.SERIAL : Field := ⟨0x8, 0, 32, 0⟩
def GLB_CTRL.LOCK_ALL : Field := ⟨0xC, 0, 1, 0⟩
def GLB_CTRL.LOCK : Field := ⟨0xC, 31, 1, 0⟩
def GLB_STATUS.BOOT_STATE : Field := ⟨0x10, 0, 2, 0⟩
def GLB_STATUS.RDY_PF0 : Field := ⟨0x10, 2, 1, 0⟩
def GLB_STATUS.CFS : Field := ⟨0x10, 3, 1, 0⟩
def GLB_STATUS.ZYN_HALTED : Field := ⟨0x10, 4, 1, 0⟩
def GLB_STATUS.SEC_ERROR : Field := ⟨0x10, 5, 1, 0⟩
def GLB_STATUS.DMC_FROZEN : Field := ⟨0x10, 6, 1, 0⟩
def GLB_STATUS.READONLY : Field := ⟨0x10, 7, 1, 0⟩
def GLB_STATUS.TH_SOLE : Field := ⟨0x10, 8, 1, 0⟩
def GLB_EVT_SUM.TT : Field := ⟨0x14, 0, 1, 0⟩
def GLB_EVT_SUM.HIU : Field := ⟨0x14, 1, 1, 0⟩
def GLB_EVT_SUM.TEN : Field := ⟨0x14, 2, 1, 0⟩
def GLB_EVT_SUM.BPM : Field := ⟨0x14, 3, 1, 0⟩
def GLB_EVT_SUM.SC : Field := ⟨0x14, 4, 1, 0⟩
def GLB_EVT_SUM.MAP : Field := ⟨0x14, 5, 1, 0⟩
def GLB_EVT_SUM.SEQ : Field := ⟨0x14, 6, 1, 0⟩
def GLB_EVT_SUM.MED : Field := ⟨0x14, 7, 1, 0⟩
def GLB_EVT_SUM.JNL : Field := ⟨0x14, 8, 1, 0⟩
def GLB_EVT_SUM.ECC : Field := ⟨0x14, 9, 1, 0⟩
def GLB_EVT_SUM.DMC : Field := ⟨0x14, 10, 1, 0⟩
def GLB_EVT_SUM.SEC : Field := ⟨0x14, 11, 1, 0⟩
def GLB_EVT_SUM.PMU : Field := ⟨0x14, 12, 1, 0⟩
def GLB_EVT_SUM.TMU : Field := ⟨0x14, 13, 1, 0⟩
def GLB_EVT_SUM.GB : Field := ⟨0x14, 14, 1, 0⟩
def GLB_EVT_SUM.TH : Field := ⟨0x14, 15, 1, 0⟩
def GLB_EVT_SUM.TST : Field := ⟨0x14, 16, 1, 0⟩
def GLB_EVT_SUM.GLB : Field := ⟨0x14, 17, 1, 0⟩
def GLB_ERR.BAD_WIDTH : Field := ⟨0x18, 0, 1, 0⟩
def GLB_ERR.UNMAPPED : Field := ⟨0x18, 1, 1, 0⟩
def GLB_ERR.NOT_LOADED : Field := ⟨0x18, 2, 1, 0⟩
def GLB_ERR_ADDR.OFFSET : Field := ⟨0x1C, 0, 26, 0⟩
def GLB_ERR_ADDR.PF : Field := ⟨0x1C, 31, 1, 0⟩
def GLB_LOCK_STATUS.LOCKED : Field := ⟨0x20, 0, 19, 0⟩
end F

end Sys2Proof.Machine
end

