-- ==== Sys2Proof/Machine/Ops.lean ====
section
/-! DEFINITION. Named operations shared by all meanings: sparse data, registers, free values, completions, asynchronous
events and Gradebook entries. -/
namespace Sys2Proof.Machine

/-- The answer of a meaning. -/
abbrev Res := Host.Outcome State Fault Refusal

/-- The command completes. -/
def done (s : State) : Res := .next s

/-- The operand names no unit of the device. -/
def noUnit : Res := .fault .noSuchUnit

/-- Apply `f` where the condition holds. -/
def State.when (s : State) (c : Bool) (f : State → State) : State := if c then f s else s

/-- Fold an operation over a list. -/
def State.each {α : Type} (s : State) (l : List α) (f : State → α → State) : State := l.foldl f s

/-! ### Sparse data -/

/-- The entry at a key. -/
def sget {α : Type} (k : Nat) : Sparse α → Option α
  | [] => none
  | (a, v) :: t => if a = k then some v else sget k t

/-- The entry at a key, or what an unlisted key reads as. -/
def sgetD {α : Type} (d : α) (k : Nat) (m : Sparse α) : α := (sget k m).getD d

/-- Set an entry, keeping keys in rising order. -/
def sput {α : Type} (k : Nat) (v : α) : Sparse α → Sparse α
  | [] => [(k, v)]
  | (a, w) :: t => if k < a then (k, v) :: (a, w) :: t else if k = a then (k, v) :: t else (a, w) :: sput k v t

/-- Remove an entry. -/
def sdel {α : Type} (k : Nat) : Sparse α → Sparse α
  | [] => []
  | (a, w) :: t => if k = a then sdel k t else (a, w) :: sdel k t

/-- Set an entry in canonical form: an entry equal to the default is not listed. -/
def sputD {α : Type} [DecidableEq α] (d : α) (k : Nat) (v : α) (m : Sparse α) : Sparse α :=
  if v = d then sdel k m else sput k v m

/-- Keys in strictly rising order. -/
def keysRising {α : Type} : Sparse α → Bool
  | [] => true
  | [_] => true
  | (a, _) :: (b, w) :: t => decide (a < b) && keysRising ((b, w) :: t)

/-- The canonical form of a store whose unlisted keys read as `d`: keys strictly rising, no entry equal to `d`. -/
def Memory.wf {α : Type} [DecidableEq α] (d : α) (m : Sparse α) : Bool := keysRising m && m.all fun x => decide (x.2 ≠ d)

/-! ### Free values -/

/-- Draw the next free value (assumption 3). -/
def State.draw (s : State) : Nat × State := (Config.freeNat s.freeCtr, { s with freeCtr := s.freeCtr + 1 })

/-- Draw a free 64-bit value. -/
def State.draw64 (s : State) : Word64 × State := (Config.free64 s.freeCtr, { s with freeCtr := s.freeCtr + 1 })

/-! ### Time -/

/-- Device time (R37). -/
def State.now (s : State) : Nat := s.ttu.time.toNat

/-- Advance elapsed AON_CLK time and device time by `ns`; operating seconds follow elapsed time (R37, R88, R442). -/
def State.advance (s : State) (ns : Nat) : State :=
  let e := s.ttu.elapsed + ns
  let secs := e / 1000000000 - s.ttu.elapsed / 1000000000
  { s with
    ttu := { s.ttu with elapsed := e, time := s.ttu.time + BitVec.ofNat 64 ns }
    sec := { s.sec with ledger := { s.sec.ledger with
      seconds := s.sec.ledger.seconds + (if s.pwr.s3 || s.pwr.s4 then 0 else secs) } } }

/-! ### Registers (R4 to R8, R486 to R494) -/

/-- Reset value of the register at an offset; registers that differ by variant take the variant's value. -/
def regReset (v : Variant) (off : Nat) : Word :=
  if off = R.GLB_ID then (match v with | .af => 0x0B119680 | .ae => 0x0B129680)
  else if off = R.TMU_THRESH then (match v with | .af => 0x78736964 | .ae => 0x7A756E69)
  else match findReg off with
    | none => 0
    | some (d, i) => BitVec.ofNat 32 ((d.exc.lookup i).getD d.reset)

/-- The stored value of a register. -/
def State.reg (s : State) (off : Nat) : Word := sgetD (regReset s.variant off) off s.regs

/-- Store a register. -/
def State.setReg (s : State) (off : Nat) (w : Word) : State :=
  { s with regs := sputD (regReset s.variant off) off w s.regs }

/-- The value of a field, as a number. -/
def State.fld (s : State) (f : Field) : Nat := ((s.reg f.off).toNat >>> f.lo) % 2 ^ f.width

/-- Store a number in a field, other bits of its register unchanged. -/
def State.setFld (s : State) (f : Field) (n : Nat) : State :=
  let m : Word := BitVec.ofNat 32 ((2 ^ f.width - 1) <<< f.lo)
  s.setReg f.off ((s.reg f.off &&& ~~~m) ||| (BitVec.ofNat 32 (n <<< f.lo) &&& m))

/-- A field is non-zero. -/
def State.flag (s : State) (f : Field) : Bool := s.fld f != 0

/-- Set a one-bit field: a status or event bit (R5). -/
def State.raise (s : State) (f : Field) : State := s.setFld f 1

/-- Clear a one-bit field. -/
def State.clear (s : State) (f : Field) : State := s.setFld f 0

/-- Store a truth value in a one-bit field. -/
def State.setBit (s : State) (f : Field) (b : Bool) : State := s.setFld f (if b then 1 else 0)

/-- Add to a counter field that saturates at its largest value. -/
def State.count (s : State) (f : Field) (n : Nat := 1) : State := s.setFld f (min (s.fld f + n) (2 ^ f.width - 1))

/-- Add to a counter field modulo its width. -/
def State.countMod (s : State) (f : Field) (n : Nat := 1) : State := s.setFld f ((s.fld f + n) % 2 ^ f.width)

/-- Raise a maximum field to at least `n`. -/
def State.maxFld (s : State) (f : Field) (n : Nat) : State := s.setFld f (max (s.fld f) (min n (2 ^ f.width - 1)))

/-- Store a 64-bit value in a LO and HI register pair. -/
def State.setPair (s : State) (lo : Nat) (v : Nat) : State :=
  (s.setReg lo (BitVec.ofNat 32 v)).setReg (lo + 4) (BitVec.ofNat 32 (v / 2 ^ 32))

/-- The value of a LO and HI register pair. -/
def State.pair (s : State) (lo : Nat) : Nat := (s.reg lo).toNat + (s.reg (lo + 4)).toNat * 2 ^ 32

/-- The LOCK bit that governs an offset is 1 (R494). -/
def State.locked (s : State) (off : Nat) : Bool :=
  match lockReg off with
  | none => false
  | some (r, _) => (s.reg r).getLsbD 31

/-- Registers of a block that hold an rwl field, in ascending offset order (R495). -/
def rwlImage (s : State) (base : Nat) (defs : List RegDef) : List Nat :=
  (defs.filter fun d => d.rwl != 0).flatMap fun d =>
    (List.range d.count).map fun i => (s.reg (base + d.off + d.stride * i)).toNat

/-- Image of a block in the extension of measurement 6; MED is followed by SEQ0 to SEQ31 (R495). -/
def lockImage (s : State) (base : Nat) : List Nat :=
  rwlImage s base (blockRegs base).1 ++
    (if base = 0xC00000 then (List.range 32).flatMap fun n => rwlImage s (0xA00000 + 0x10000 * n) regsSEQ else [])

/-- Extend measurement 6 for a block whose LOCK bit went from 0 to 1 (R495). -/
def State.extendM6 (s : State) (base : Nat) : State :=
  { s with sec := { s.sec with m6 := Config.digest (s.sec.m6.toNat :: base :: lockImage s base) } }

/-- Base of the block whose LOCK bit the register at `off` holds. -/
def lockBase (off : Nat) : Option Nat := (lockList.find? fun (_, r, _) => r == off).map fun (b, _, _) => b

/-- What a write stores in a register by its access codes (R4, R6, R7): rw, rwl while unlocked, w1c.
A LOCK bit that becomes 1 extends measurement 6 after the write's other rwl fields are stored (R494, R495). -/
def State.storeReg (s : State) (off : Nat) (v : Word) : State :=
  match findReg off with
  | none => s
  | some (d, _) =>
    let old := s.reg off
    let w := BitVec.ofNat 32 (d.rw ||| (if s.locked off then 0 else d.rwl))
    let new := ((old &&& ~~~w) ||| (v &&& w)) &&& ~~~(v &&& BitVec.ofNat 32 d.w1c)
    let t := s.setReg off new
    match lockBase off with
    | some b => t.when (new.getLsbD 31 && !old.getLsbD 31) (·.extendM6 b)
    | none => t

/-! ### Functions and completions (R134, R149, R176, R177) -/

/-- The port runs as two x4 ports (R142). -/
def State.x4x4 (s : State) : Bool := s.flag F.HIU_PORT_STATUS.MODE

/-- A function is a PF (R177). -/
def State.isPf (s : State) (f : Nat) : Bool := f == 0 || (f == 2048 && s.x4x4)

/-- A controller; a PF is always present. -/
def State.func (s : State) (f : Nat) : Func :=
  let g := sgetD {} f s.host.funcs
  if s.isPf f then { g with present := true, online := true } else g

def State.setFunc (s : State) (f : Nat) (g : Func) : State :=
  { s with host := { s.host with funcs := sput f g s.host.funcs } }

/-- Key of a queue: function and queue identifier. -/
def qkey (f q : Nat) : Nat := f * 65536 + q

def State.sq (s : State) (f q : Nat) : Option Sq := sget (qkey f q) s.host.sqs
def State.cq (s : State) (f q : Nat) : Option Cq := sget (qkey f q) s.host.cqs
def State.setSq (s : State) (f q : Nat) (x : Sq) : State :=
  { s with host := { s.host with sqs := sput (qkey f q) x s.host.sqs } }
def State.setCq (s : State) (f q : Nat) (x : Cq) : State :=
  { s with host := { s.host with cqs := sput (qkey f q) x s.host.cqs } }

/-- Something leaves the block. -/
def State.emit (s : State) (o : Out) : State := { s with out := o :: s.out }

/-- A CQ has no free entry. -/
def Cq.full (c : Cq) : Bool := (c.tail + 1) % c.size == c.head

/-- Aggregation threshold and time of Interrupt Coalescing (feature 0x08), 0 if none. -/
def Func.coalesce (g : Func) : Nat := (sgetD 0 0x08 g.feats).toNat

/-- Write a CQE in its CQ and signal MSI-X per the queue's vector and coalescing (R134, R176). -/
def State.postCqe (s : State) (f q : Nat) (e : Cqe) : State :=
  match s.cq f q with
  | none => s.emit (.cqe f q e)
  | some c =>
    let thr := (s.func f).coalesce % 256
    let time := (s.func f).coalesce / 256 % 256
    let c := { c with tail := (c.tail + 1) % c.size }
    let s := s.emit (.cqe f q e)
    if !c.irq then s.setCq f q c
    else if q == 0 || time == 0 || c.held ≥ thr then (s.setCq f q { c with held := 0 }).emit (.msix f c.vector)
    else s.setCq f q { c with held := c.held + 1 }

/-- The CQE of an admin command is posted, and its context is freed (R166, R176). -/
def State.adminPost (s : State) (f : Nat) (cid : BitVec 16) (sct sc : Nat) (dw0 dw1 : Word) : State :=
  let s := { s with host := { s.host with
    cmds := s.host.cmds.filter fun ((_, x) : Nat × Cmd) => !(x.admin && x.func == f && x.sqe.cid == cid) } }
  s.postCqe f 0 { dw0 := dw0, dw1 := dw1, sqid := 0, cid := cid, sct := sct, sc := sc,
                  sqhd := ((s.sq f 0).map (·.head)).getD 0 }

/-- Complete an admin command of a function with a status and Dwords 0 and 1: its entry is reserved and its CQE posted, or it waits for a free
entry (R166, R167). A function under reset gets no CQE (R171, R194). -/
def State.adminDone (s : State) (f : Nat) (cid : BitVec 16) (sct sc : Nat) (dw0 : Word := 0) (dw1 : Word := 0) : State :=
  let g := s.func f
  if g.resetting || g.flr then
    { s with host := { s.host with
      cmds := s.host.cmds.filter fun ((_, x) : Nat × Cmd) => !(x.admin && x.func == f && x.sqe.cid == cid) } }
  else match s.cq f 0 with
    | some q => if q.full || !q.wait.isEmpty then s.setCq f 0 { q with wait := q.wait ++ [(cid, sct, sc, dw0, dw1)] } else s.adminPost f cid sct sc dw0 dw1
    | none => s.adminPost f cid sct sc dw0 dw1

/-- Entries of an admin CQ are free again: the oldest waiting completions take them (R167). -/
def State.adminDrain (s : State) (f : Nat) : Nat → State
  | 0 => s
  | n + 1 => match s.cq f 0 with
    | some q => (match q.wait with
      | (cid, sct, sc, d0, d1) :: t => if q.full then s else ((s.setCq f 0 { q with wait := t }).adminPost f cid sct sc d0 d1).adminDrain f n
      | [] => s)
    | none => s

/-- Success. -/
def State.ok (s : State) (f : Nat) (cid : BitVec 16) (dw0 : Word := 0) : State := s.adminDone f cid 0 0 dw0

/-- A command allowed on PFs only (R151, R175). -/
def State.pfOnly (s : State) (f : Nat) (cid : BitVec 16) (k : State → State) : State :=
  if s.isPf f then k s else s.adminDone f cid 0 0x01

/-! ### Asynchronous events -/

/-- Post an asynchronous event of a function: it completes an outstanding request, or waits for one. An event of a kind
that is reported and not yet acknowledged is not posted again (R55, R470). -/
def State.aen (s : State) (f ty info : Nat) : State :=
  let g := s.func f
  if g.reported.contains (ty, info) || g.events.contains (ty, info) then s
  else match g.aers with
    | [] => s.setFunc f { g with events := g.events ++ [(ty, info)] }
    | cid :: rest =>
      (s.setFunc f { g with aers := rest, reported := (ty, info) :: g.reported }).adminDone f cid 0 0
        (BitVec.ofNat 32 (ty + info * 256))

/-- A Vendor Specific event of PF0 (R55, R151). -/
def State.vendorEvent (s : State) (info : Nat) : State := s.aen 0 7 info

/-! ### Gradebook entries and closes (R444, R447, R448) -/

/-- Current timestamp: operating seconds and power cycles (R442). -/
def State.stamp (s : State) : Nat × Nat := (s.sec.ledger.seconds, s.sec.ledger.cycles)

/-- Choose the slot of a closing summary (R448): rules 1 to 3; none: dropped. -/
def gbSlot (slots : Sparse Summary) (sev : Nat) : Option (Nat × Bool) :=
  let free (l : List Nat) := l.find? fun k => (sget k slots).isNone
  let old (l : List Nat) :=
    ((l.filterMap fun k => (sget k slots).bind fun u =>
      if u.body.sev ≤ sev && u.body.sev < 3 then some (u.no, k) else none).foldl
      (fun acc x => match acc with | none => some x | some y => if x.1 < y.1 then some x else some y) none).map (·.2)
  let main := List.range 48
  let ovf := (List.range 64).map (· + 48)
  match free main with
  | some k => some (k, false)
  | none => match old main with
    | some k => some (k, false)
    | none => match free ovf with
      | some k => some (k, true)
      | none => (old ovf).map fun k => (k, true)

/-- Close the open interval with a cause and start its write, or drop it (R447 to R449). -/
def State.gbTake (s : State) (cause : Nat) : State :=
  let b := s.gb.cur
  let fresh : Interval := { openAt := s.stamp, afterLost := false }
  let sum (k : Bool) : Summary :=
    { no := s.gb.nextNo, compact := k, cause := cause, closeAt := s.stamp,
      bellClose := if s.fld F.TT_STATUS.STATE = 2 then s.now else 0,
      bundle := s.reg R.ZYN_BUNDLE_ID, svn := s.reg R.ZYN_BUNDLE_SVN,
      truncated := k && decide (106 < b.counters.length), body := b }
  match gbSlot s.gb.slots b.sev with
  | some (k, compact) =>
    { s with gb := { s.gb with cur := fresh, writing := some (k, sum compact), slots := sdel k s.gb.slots } }
  | none =>
    ({ s with gb := { s.gb with cur := fresh, lost := min (s.gb.lost + 1) 0xFFFFFFFF, lostSev := max s.gb.lostSev b.sev } }.raise
      F.GB_EVT.LOST).vendorEvent 0xD3

/-- Highest cause of collapsed closes; a flush-path close is always taken as cause 2 (R447). -/
def worseCause (a b : Nat) : Nat := if a = 2 || b = 2 then 2 else max a b

/-- Close the open interval, or defer the close while a summary is being written (R447). -/
def State.gbClose (s : State) (cause : Nat) : State :=
  match s.gb.writing with
  | none => s.gbTake cause
  | some _ =>
    { s with gb := { s.gb with deferred := some (match s.gb.deferred with | none => cause | some c => worseCause c cause) } }

/-- Raise a Gradebook entry of a kind and severity; a Critical entry closes the interval unless a close with cause 3 lies
within the previous 60 s (R444, R447). -/
def State.entry (s : State) (kind sev : Nat) : State :=
  let c := sgetD {} kind s.gb.cur.counters
  let c := { c with count := min (c.count + 1) 0xFFFFFFFF, sev := max c.sev sev, last := s.stamp,
                    first := if c.count = 0 then s.stamp else c.first }
  let s := { s with gb := { s.gb with cur := { s.gb.cur with
      counters := sput kind c s.gb.cur.counters, sev := max s.gb.cur.sev sev } } }
  let near := match s.gb.lastCrit with | none => false | some t => decide (s.ttu.elapsed < t + 60000000000)
  if sev = 3 && !near then
    { s.gbClose 3 with gb := { (s.gbClose 3).gb with lastCrit := some s.ttu.elapsed } }
  else s

/-- Severities of R444. -/
def sevInfo : Nat := 0
def sevNotice : Nat := 1
def sevFault : Nat := 2
def sevCritical : Nat := 3

/-- Raise a gauge of the open interval to at least `v` (R442). -/
def State.gauge (s : State) (i v : Nat) : State :=
  { s with gb := { s.gb with cur := { s.gb.cur with gauges := sput i (max (sgetD 0 i s.gb.cur.gauges) v) s.gb.cur.gauges } } }

/-- Add to a gauge of the open interval. -/
def State.gaugeAdd (s : State) (i v : Nat) : State :=
  { s with gb := { s.gb with cur := { s.gb.cur with gauges := sput i (sgetD 0 i s.gb.cur.gauges + v) s.gb.cur.gauges } } }

/-! ### Power domains (R404) -/

/-- State of a domain: 0 ON, 1 S1, 2 S2, 3 OFF. -/
def State.dom (s : State) (d : Nat) : Nat := sgetD 0 d s.pwr.doms
def State.setDom (s : State) (d st : Nat) : State := { s with pwr := { s.pwr with doms := sputD 0 d st s.pwr.doms } }
/-- A domain is powered: ON or S1. -/
def State.powered (s : State) (d : Nat) : Bool := decide (s.dom d ≤ 1)

/-- Domain of a Roll Call participant (R11, R59). -/
def partDom (p : Nat) : Nat :=
  if p < 24 then 0 else if p < 56 then 1 + (p - 24) / 4 else if p < 60 then 0
  else if p = 60 then 10 else if p = 61 then 9 else 13

/-- Mask of the powered participants (R60). -/
def State.poweredMask (s : State) : Word64 :=
  (List.range 64).foldl (fun m p => if s.powered (partDom p) then m ||| (1#64 <<< p) else m) 0

end Sys2Proof.Machine
end

