-- ==== Sys2Proof/Machine/OpsZynBase.lean ====
section
/-! DEFINITION. Zyn contexts, their events, device-operation completion and dispatch queues (03_zyn_model.md, R129, R130). -/
namespace Sys2Proof

/-- Number of a class in CTX.ID (R74). -/
def EngClass.num : EngClass → Nat
  | .cmd => 0 | .map => 1 | .seq => 2 | .pol => 3

/-- Engines of a class (R70). -/
def EngClass.engines : EngClass → Nat
  | .cmd => 16 | .map => 8 | .seq => 32 | .pol => 4

/-- First Roll Call participant of a class (R59). -/
def EngClass.part : EngClass → Nat
  | .cmd => 0 | .map => 16 | .seq => 24 | .pol => 56

def EngClass.ofNum : Nat → EngClass
  | 0 => .cmd | 1 => .map | 2 => .seq | _ => .pol

/-- The context exists (R70). -/
def CtxId.valid (i : CtxId) : Bool := decide (i.eng < i.cls.engines) && decide (i.ctx < 8)

/-- CTX.ID: class [10:9], engine [8:3], context [2:0] (R74). -/
def CtxId.key (i : CtxId) : Nat := i.cls.num * 512 + i.eng * 8 + i.ctx

/-- The context of a CTX.ID. -/
def CtxId.ofKey (k : Nat) : CtxId := ⟨.ofNum (k / 512 % 4), k / 8 % 64, k % 8⟩

/-- Roll Call participant of a context's engine. -/
def CtxId.part (i : CtxId) : Nat := i.cls.part + i.eng

end Sys2Proof

namespace Sys2Proof.Machine

def State.ctx (s : State) (i : CtxId) : Ctx := sgetD {} i.key s.zyn.ctxs
def State.setCtx (s : State) (i : CtxId) (c : Ctx) : State := { s with zyn := { s.zyn with ctxs := sput i.key c s.zyn.ctxs } }
def State.modCtx (s : State) (i : CtxId) (f : Ctx → Ctx) : State := s.setCtx i (f (s.ctx i))

/-- A working register (R108). -/
def Ctx.reg (c : Ctx) (r : BitVec 5) : Word64 := c.w[r.toNat]'r.isLt
def Ctx.setReg (c : Ctx) (r : BitVec 5) (v : Word64) : Ctx := { c with w := c.w.set r.toNat v r.isLt }
/-- A predicate (R109). -/
def Ctx.pred (c : Ctx) (n : BitVec 3) : Bool := c.p.getLsbD n.toNat
def Ctx.setPred (c : Ctx) (n : BitVec 3) (b : Bool) : Ctx :=
  { c with p := if b then c.p ||| (1#8 <<< n.toNat) else c.p &&& ~~~(1#8 <<< n.toNat) }

/-- Lowest set bit of a mask, if any. -/
def lowBit (m : Word64) : Option Nat := (List.range 64).find? fun i => m.getLsbD i

/-- Set an event flag of a context, and release it if it waits for that event: WEV returns the lowest flag of its mask and
clears it alone; WPER clears event 24; ASLEEP wakes on flags 0 to 47 (R86, R124, R125, R417). -/
def Ctx.event (c : Ctx) (e : Nat) : Ctx :=
  let ev := c.events ||| (1#64 <<< e)
  match c.st with
  | .idle => c
  | .blocked (.events m d) =>
    match lowBit (ev &&& m) with
    | some k => ({ c with st := .ready, events := ev &&& ~~~(1#64 <<< k) }).setReg d (BitVec.ofNat 64 k)
    | none => { c with events := ev }
  | .blocked .period =>
    if e = 24 then { c with st := .ready, events := ev &&& ~~~(1#64 <<< 24) } else { c with events := ev }
  | .asleep => { c with events := ev, st := if e < 48 then .ready else .asleep }
  | _ => { c with events := ev }

/-- Set an event of one context. -/
def State.zynEvent (s : State) (i : CtxId) (e : Nat) : State := s.modCtx i (·.event e)

/-- Set an event of every context that is not IDLE. -/
def State.zynEventAll (s : State) (e : Nat) : State :=
  { s with zyn := { s.zyn with ctxs := s.zyn.ctxs.map fun (k, c) => (k, c.event e) } }

/-- Scratch byte of an engine (R76). -/
def State.scratch (s : State) (part addr : Nat) : Byte := sgetD 0 (part * 65536 + addr) s.zyn.scratch
def State.setScratch (s : State) (part addr : Nat) (b : Byte) : State :=
  { s with zyn := { s.zyn with scratch := sputD 0 (part * 65536 + addr) b s.zyn.scratch } }
/-- `n` bytes of scratch, little-endian. -/
def State.scratchN (s : State) (part addr : Nat) : Nat → Nat
  | 0 => 0
  | n + 1 => (s.scratch part addr).toNat + 256 * s.scratchN part (addr + 1) n
def State.setScratchN (s : State) (part addr : Nat) (v : Nat) : Nat → State
  | 0 => s
  | n + 1 => (s.setScratch part addr (BitVec.ofNat 8 v)).setScratchN part (addr + 1) (v / 256) n

/-- Status codes of completion records (R130). -/
def stOk : Nat := 0
def stRefusedPeriod : Nat := 1
def stAddress : Nat := 2
def stMediaFail : Nat := 3
def stUncorrectable : Nat := 4
def stSquashed : Nat := 5
def stSpeculative : Nat := 6
def stAborted : Nat := 7
def stSuspendLimit : Nat := 8
def stNotSuspended : Nat := 9
def stReadyTimeout : Nat := 10
def stBusError : Nat := 11
def stDenied : Nat := 12
def stCryptoHalt : Nat := 13

/-- Write the completion record of a tag, if one is requested, then set the tag's event (R130). -/
def State.tagSignal (s : State) (i : CtxId) (tag : Nat) (crec : BitVec 16) (op status wordA wordB : Nat) : State :=
  (s.when (crec != 0xFFFF)
    (·.setScratchN i.part crec.toNat (status + tag * 2 ^ 16 + op * 2 ^ 24 + (wordA % 2 ^ 32) * 2 ^ 32 + (wordB % 2 ^ 64) * 2 ^ 64) 16)).zynEvent i tag

/-- A device operation ends: its tag is free and the record and event follow R130 (R129). -/
def State.tagDone (s : State) (i : CtxId) (tag : Nat) (crec : BitVec 16) (op status wordA wordB : Nat) : State :=
  (s.modCtx i fun c => { c with tags := c.tags &&& ~~~(1#16 <<< tag) }).tagSignal i tag crec op status wordA wordB

/-- Lowest free tag of a context (R129). -/
def Ctx.freeTag (c : Ctx) : Option Nat := (List.range 16).find? fun t => !c.tags.getLsbD t

/-- Depth of the dispatch queue of a participant (R82). -/
def queueDepth (part : Nat) : Nat := if part < 16 then 8192 else if part < 24 then 16384 else if part < 56 then 4096 else 1024

def State.queue (s : State) (part : Nat) : List Request := sgetD [] part s.zyn.queues
def State.setQueue (s : State) (part : Nat) (l : List Request) : State :=
  { s with zyn := { s.zyn with queues := sputD [] part l s.zyn.queues } }

/-- Entries of a class of the running bundle (R94). -/
def Bundle.entries (b : Bundle) : EngClass → List Entry
  | .cmd => b.entries0 | .map => b.entries1 | .seq => b.entries2 | .pol => b.entries3
def Bundle.code (b : Bundle) : EngClass → List Word
  | .cmd => b.code0 | .map => b.code1 | .seq => b.code2 | .pol => b.code3
def Bundle.entry (b : Bundle) (c : EngClass) (kind : Nat) : Option Entry :=
  (b.entries c).find? fun e => e.kind.toNat == kind

/-- Requests of producers that a full queue stalls (R82). -/
def State.stalled (s : State) (part : Nat) : List Request := sgetD [] part s.zyn.stalled
def State.setStalled (s : State) (part : Nat) (l : List Request) : State :=
  { s with zyn := { s.zyn with stalled := sputD [] part l s.zyn.stalled } }

/-- The dispatch queue of a participant is full (R82). -/
def State.queueFull (s : State) (part : Nat) : Bool := decide (queueDepth part ≤ (s.queue part).length)

/-- Request an activation. An optional kind without an entry is never dispatched (R83). A hardware producer stalls at a full queue and never
drops: its request stands outside until a place is free (R82). -/
def State.request (s : State) (cls : EngClass) (eng : Nat) (r : Request) : State :=
  let p := cls.part + eng
  if (s.zyn.bundle.entry cls r.kind.toNat).isNone then s
  else if s.queueFull p then s.setStalled p (s.stalled p ++ [r])
  else s.setQueue p (s.queue p ++ [r])

/-- Places of a queue are free again: the oldest stalled producers take them (R82). -/
def State.refill (s : State) (part : Nat) : State :=
  let n := queueDepth part - (s.queue part).length
  (s.setQueue part (s.queue part ++ (s.stalled part).take n)).setStalled part ((s.stalled part).drop n)

/-- A context may take an ordinary activation: context 7 of POL0 runs FAULT only (R70). -/
def State.idleCtx (s : State) (cls : EngClass) (eng : Nat) : Option CtxId :=
  ((List.range 8).map fun k => (⟨cls, eng, k⟩ : CtxId)).find? fun i =>
    decide ((s.ctx i).st = .idle) && !(i.cls == .pol && i.eng == 0 && i.ctx == 7)

/-- Contexts of an engine that an ordinary activation may take now. -/
def State.idleCount (s : State) (cls : EngClass) (eng : Nat) : Nat :=
  ((List.range 8).filter fun k => decide ((s.ctx ⟨cls, eng, k⟩).st = .idle) && !(cls == .pol && eng == 0 && k == 7)).length

/-- Dispatch affinity of POL: the lowest-numbered engine with an idle context that no queued request is to take, else POL0 (R70; the last is
a DESIGN CHOICE). -/
def State.polEngine (s : State) : Nat :=
  ((List.range 4).find? fun e => decide ((s.queue (56 + e)).length < s.idleCount .pol e)).getD 0

/-- The clocks of an engine are stopped (R417): every context IDLE or ASLEEP, one of them in mode 1 or 2, no request queued. -/
def State.engineStopped (s : State) (cls : EngClass) (eng mode : Nat) : Bool :=
  let cs := (List.range 8).map fun k => s.ctx ⟨cls, eng, k⟩
  cs.all (fun c => decide (c.st = .idle) || decide (c.st = .asleep)) &&
    cs.any (fun c => decide (c.st = .asleep) && decide (mode ≤ c.pwrMode.toNat)) && (s.queue (cls.part + eng)).isEmpty

/-- Request a Policy activation of a kind with its argument. -/
def State.policy (s : State) (kind arg0 : Nat) (cmd : Option Nat := none) : State :=
  s.request .pol s.polEngine { kind := BitVec.ofNat 5 kind, arg0 := BitVec.ofNat 64 arg0, cmd := cmd }

/-- Request a CMD activation for a command context: kind and completion code (R70, R83). -/
def State.cmdActivate (s : State) (kind c : Nat) (code : Nat := 0) : State :=
  s.request .cmd (c % 16) { kind := BitVec.ofNat 5 kind, arg0 := BitVec.ofNat 64 c, arg1 := BitVec.ofNat 64 code, cmd := some c }

/-- The flush path runs, or the device has stopped after it (R311). -/
def State.flushing (s : State) : Bool :=
  s.fld F.JNL_STATUS.FLUSH_STATE == 1 || s.fld F.JNL_STATUS.FLUSH_STATE == 2 || s.jnl.inhibit

/-- Zyn runs: a bundle is loaded, the device is not HALTED and no flush runs (R103, R311). While HALTED the activations that run issue no
further instruction either (DESIGN CHOICE: R103 stops dispatch and says nothing of them). -/
def State.zynRuns (s : State) : Bool := (s.fld F.ZYN_STATUS.STATE == 2 || s.fld F.ZYN_STATUS.STATE == 3) && !s.flushing

end Sys2Proof.Machine
end

