-- ==== Sys2Proof/Machine/OpsTt.lean ====
section
/-! DEFINITION. The Period grid, the reference state, the start rules of Period types, and global commit requests
(02_timetable.md). -/
namespace Sys2Proof.Machine

/-! ### Period grid (R46 to R49, R52) -/

/-- Period length in ns from a geometry register (R46). -/
def periodNs (s : State) : Nat := max 1 (s.fld F.TT_GEOM_ACT.LEN_US * 1000)
/-- Periods in a cycle (R46). -/
def cycleLen (s : State) : Nat := s.fld F.TT_GEOM_ACT.CYCLE_M1 + 1

/-- Entry `i` of a table whose first register is at `base` (R47). -/
def tableEntry (s : State) (base i : Nat) : Nat := (s.reg (base + 4 * (i / 16))).toNat >>> (2 * (i % 16)) % 4

/-- Type of Period `n` by the active table (R46). -/
def tableType (s : State) (n : Nat) : Nat := tableEntry s R.TT_TABLE_ACT ((n + s.fld F.TT_OFFSET_ACT.OFFSET) % cycleLen s)

/-- Type of Period `n`: a named Assembly counts as Assembly, before and after it; while EN = 0 every Period is Recess (R49, R52, R56). -/
def periodType (s : State) (n : Nat) : Nat :=
  if !s.flag F.TT_CTRL.EN then 1
  else if s.ttu.named = some (BitVec.ofNat 64 n) || s.ttu.namedFired = some (BitVec.ofNat 64 n) then 2
  else tableType s n

/-- Type of the current Period as PTYPE returns it (R125). -/
def State.ptype (s : State) : Nat := periodType s s.ttu.pnum.toNat

/-- Periods of Recess from `n` upward, at most `fuel`. -/
def recessAfter (s : State) (n : Nat) : Nat → Nat
  | 0 => 0
  | k + 1 => if periodType s n = 1 then recessAfter s (n + 1) k + 1 else 0
/-- Periods of Recess from `n` downward, at most `fuel`. -/
def recessBefore (s : State) (n : Nat) : Nat → Nat
  | 0 => 0
  | k + 1 => if periodType s n = 1 then (match n with | 0 => 1 | m + 1 => recessBefore s m k + 1) else 0

/-- The guard admits a background start now: GUARD_US after the run's start and before its end (R52). -/
def guardOpen (s : State) : Bool :=
  let g := s.fld F.TT_GUARD.GUARD_US * 1000
  if !s.flag F.TT_CTRL.EN || g == 0 then true
  else
    let n := s.ttu.pnum.toNat
    let start := (n + 1 - recessBefore s n (cycleLen s)) * periodNs s
    let stop := (n + recessAfter s n (cycleLen s)) * periodNs s
    decide (start + g ≤ s.now) && decide (s.now + g < stop)

/-- A background activity may start in the current Recess. -/
def recessOpen (s : State) : Bool := s.ptype == 1 && guardOpen s

/-- The current Period is a named Assembly that the table types Recess: no background activity starts in it (R56). -/
def namedRecess (s : State) : Bool := s.ptype == 2 && tableType s s.ttu.pnum.toNat == 1

/-- Journal fill in per mille (R299). -/
def State.jnlFill (s : State) : Nat := s.fld F.JNL_STATUS.FILL_PM

/-- The die is in Ballast override (R54). -/
def State.inOverride (s : State) (die : Nat) : Bool := s.media.override.contains die

/-- Start of an activity kind of R131 allowed in the current Period type (R50): 0 host, 1 GC move, 2 fold, 3 patrol,
4 rewrite, 5 calibration, 6 checkpoint, 7 journal compaction. In a named Assembly over a Recess only kind 0 starts (R56). -/
def kindAllowed (s : State) (die kind : Nat) : Bool :=
  let written : Bool := if s.ptype == 1 then guardOpen s else (s.ptype == 2 && !s.inOverride die) || decide (900 ≤ s.jnlFill)
  match kind with
  | 0 => true
  | 1 => !namedRecess s && (recessOpen s || (s.ptype != 1 && s.inOverride die))
  | 6 => !namedRecess s && written
  | 7 => !namedRecess s && written
  | _ => recessOpen s

/-- Start of an erase allowed (R50, R56): in Recess, or on a die with no queued reads, or under override. -/
def eraseAllowed (s : State) (die : Nat) (queuedReads : Bool) : Bool :=
  !namedRecess s && (if s.ptype == 1 then guardOpen s else !queuedReads || s.inOverride die)

/-- A checkpoint write or a compaction starts: in a Lesson it runs under the 90 % rule, and the Period's first one writes a Notice (R51). -/
def State.noteLesson (s : State) (kind : Nat) : State :=
  s.when ((kind == 6 || kind == 7) && s.ptype == 0 && decide (s.ttu.noted ≠ some s.ttu.pnum)) fun s =>
    ({ s with ttu := { s.ttu with noted := some s.ttu.pnum } }).entry 0x04 sevNotice

/-- None of the 16 entries of a table register holds 0b11 (R47). -/
def stageRegOk (w : Word) : Bool := w &&& (w >>> 1) &&& 0x55555555#32 == 0

/-- The staged Timetable passes R66; no entry of the whole staged table holds 0b11 (R47). -/
def stagedValid (s : State) : Bool :=
  let c := s.fld F.TT_GEOM_STAGE.CYCLE_M1 + 1
  let len := s.fld F.TT_GEOM_STAGE.LEN_US
  let asm (i : Nat) : Bool := tableEntry s R.TT_TABLE_STAGE (i % c) == 2
  (List.range 256).all (fun k => stageRegOk (s.reg (R.TT_TABLE_STAGE + 4 * k))) && (List.range c).any asm &&
    (List.range c).all (fun i => !asm i || (List.range 10).any fun k => asm (i + k + 1)) &&
    decide (250 ≤ len) && decide (len ≤ 100000) && decide (s.fld F.TT_OFFSET_STAGE.OFFSET < c)

/-- BAR2 offsets of the staged Timetable registers. -/
def stagedOffsets : List Nat :=
  R.TT_GEOM_STAGE :: R.TT_OFFSET_STAGE :: (List.range 256).map fun k => R.TT_TABLE_STAGE + 4 * k

/-- Active register of a staged Timetable register. -/
def activeOf (off : Nat) : Nat := if off < R.TT_TABLE_STAGE then off + 8 else off + 0x400

/-- Install staged Timetable values as the active ones. -/
def installTimetable (s : State) (l : List (Nat × Word)) : State := s.each l fun s (o, v) => s.setReg (activeOf o) v

/-- The staged Timetable now. -/
def stagedNow (s : State) : List (Nat × Word) := stagedOffsets.map fun o => (o, s.reg o)

/-- The first Assembly Period at or after `n`. -/
def findAssembly (s : State) (n : Nat) : Nat → Option Nat
  | 0 => none
  | k + 1 => if periodType s n = 2 then some n else findAssembly s (n + 1) k

/-- Longest gap between starts of consecutive Assembly Periods of the active table, in Periods (R69). -/
def longestGap (s : State) : Nat :=
  let c := cycleLen s
  (List.range c).foldl (fun m i => if tableType s i = 2 then
    max m (((List.range c).find? fun k => tableType s (i + k + 1) == 2).map (· + 1) |>.getD c) else m) 0

/-! ### Reference state (R38 to R45) -/

def ttUnlocked : Nat := 0
def ttAcquiring : Nat := 1
def ttLocked : Nat := 2
def ttHoldover : Nat := 3
def ttFreerun : Nat := 4

/-- Configured source codes in priority order (R38). -/
def sources (s : State) : List Nat :=
  [s.fld F.TT_SRC.SRC_PRI, s.fld F.TT_SRC.SRC_SEC, s.fld F.TT_SRC.SRC_TER].filter (· != 0)

def State.src (s : State) (c : Nat) : BellSrc :=
  if c = 1 then s.ttu.src1 else if c = 2 then s.ttu.src2 else if c = 3 then s.ttu.src3 else {}
def State.setSrc (s : State) (c : Nat) (b : BellSrc) : State :=
  { s with ttu := if c = 1 then { s.ttu with src1 := b } else if c = 2 then { s.ttu with src2 := b }
                  else if c = 3 then { s.ttu with src3 := b } else s.ttu }

/-- The valid source of highest priority, 0 if none. -/
def bestSource (s : State) : Nat := ((sources s).find? fun c => (s.src c).valid).getD 0

/-- Enter a reference state; UNALIGNED is 1 in UNLOCKED and FREERUN with a source configured (R45). -/
def State.ttState (s : State) (st : Nat) : State :=
  (s.setFld F.TT_STATUS.STATE st).setBit F.TT_STATUS.UNALIGNED
    ((st == ttUnlocked || st == ttFreerun) && !(sources s).isEmpty)

/-- Remove a phase error: slew up to 1 ms, otherwise a step at the next Period boundary (R43). `err` is what is to be added
to device time. -/
def State.removeError (s : State) (err : Int) : State :=
  if err.natAbs ≤ 1000000 then { s with ttu := { s.ttu with slew := err * 1000 } }
  else { s with ttu := { s.ttu with step := some err, slew := 0 } }

/-- The holdover timer has reached TT_HOLDOVER_LIMIT with no valid source: FREERUN and its reports (R42). -/
def State.freerun (s : State) : State :=
  let s := { s with ttu := { s.ttu with holdover := false } }
  (((s.ttState ttFreerun).raise F.TT_EVT.FREERUN).entry 0x02 sevNotice).vendorEvent 0xC1

/-- Enter HOLDOVER, start its timer and report it (R42, R55); a limit of 0 enters FREERUN at once. -/
def State.enterHoldover (s : State) : State :=
  let s := s.ttState ttHoldover
  let s := ({ s with ttu := { s.ttu with holdover := true, lockRun := 0 } }).setFld F.TT_STATUS.ACTIVE_SRC 0
  ((s.raise F.TT_EVT.HOLDOVER).vendorEvent 0xC0).when (s.fld F.TT_HOLDOVER_LIMIT.LIMIT_S == 0) (·.freerun)

/-- Take the valid source `b` in place of one that is lost: slew to its phase and report the switch (R42, R55). -/
def State.switchTo (s : State) (b : Nat) : State :=
  (({ s with ttu := { s.ttu with lockRun := 0 } }.setFld F.TT_STATUS.ACTIVE_SRC b).removeError ((s.src b).last.getD 0)).vendorEvent 0xC0

/-- The active source is no longer valid (R42). -/
def State.activeLost (s : State) : State :=
  let st := s.fld F.TT_STATUS.STATE
  let b := bestSource s
  let t := s.raise F.TT_EVT.SRC_LOST
  if st ≠ ttLocked ∧ st ≠ ttAcquiring then s
  else if b ≠ 0 then t.switchTo b
  else if st = ttLocked ∨ s.ttu.referenced = true then t.enterHoldover
  else (t.ttState ttUnlocked).setFld F.TT_STATUS.ACTIVE_SRC 0

/-- A source becomes invalid (R40). -/
def State.srcInvalid (s : State) (c : Nat) : State :=
  let b := s.src c
  let s := s.setSrc c { valid := false, lost := b.lost || b.valid, misses := 0, last := none }
  if s.fld F.TT_STATUS.ACTIVE_SRC = c then s.activeLost else s

/-- One missed interval or rejected edge; the third makes the source invalid (R40). -/
def State.srcMiss (s : State) (c : Nat) : State :=
  let b := s.src c
  if 3 ≤ b.misses + 1 then s.srcInvalid c else s.setSrc c { b with misses := b.misses + 1 }

/-- A source has become valid: enter ACQUIRING, or switch back to a higher priority (R42). -/
def State.srcValid (s : State) (err : Int) : State :=
  let st := s.fld F.TT_STATUS.STATE
  let b := bestSource s
  if st = ttUnlocked || st = ttHoldover || st = ttFreerun then
    let s := (s.ttState ttAcquiring).setFld F.TT_STATUS.ACTIVE_SRC b
    ({ s with ttu := { s.ttu with lockRun := 0, holdover := false } }).removeError err
  else if b ≠ s.fld F.TT_STATUS.ACTIVE_SRC then (s.setFld F.TT_STATUS.ACTIVE_SRC b).removeError err
  else s

/-- A sample of the active source: remove its error and count toward lock (R42). -/
def State.lockSample (s : State) (err : Int) : State :=
  let s := s.removeError err
  let meets := decide (err.natAbs ≤ s.fld F.TT_LOCK_THRESH.THRESH_NS)
  if s.fld F.TT_STATUS.STATE = ttAcquiring then
    let n := if meets then s.ttu.lockRun + 1 else 0
    let s := { s with ttu := { s.ttu with lockRun := n } }
    if n ≥ 4 then
      ((({ s with ttu := { s.ttu with lockRun := 0, referenced := true } }).ttState ttLocked).raise F.TT_EVT.RELOCKED).vendorEvent 0xC2
    else s
  else s

/-- Whole BELL intervals that a source with absolute time adds to device time while BELL is active: the count a valid PTM source or Tether relay
gives comes before the one device time has run with, and PTM's before the relay's (R39). -/
def State.wholeSeconds (s : State) (c : Nat) (err : Int) : State :=
  let iv : Int := (max 1 (s.fld F.TT_SRC.BELL_INTERVAL_MS) * 1000000 : Nat)
  let k := (2 * err + iv) / (2 * iv)
  let first := c == 2 || (c == 3 && !(s.src 2).valid)
  if s.fld F.TT_STATUS.ACTIVE_SRC = 1 && first && k != 0 then s.removeError (k * iv) else s

/-- A sample of source `c` with phase error `err`, the amount to add to device time (R38 to R43). -/
def State.sample (s : State) (c : Nat) (err : Int) : State :=
  if !(sources s).contains c then s
  else
    let b := s.src c
    if b.valid then
      let s := s.setSrc c { b with misses := 0, last := some err }
      if s.fld F.TT_STATUS.ACTIVE_SRC = c then s.lockSample err else (s.srcValid err).wholeSeconds c err
    else
      let ok := !b.lost || (match b.last with | some e => decide ((e - err).natAbs ≤ 10000) | none => false)
      if ok then ((s.setSrc c { b with valid := true, lost := false, misses := 0, last := some err }).srcValid err).wholeSeconds c err
      else s.setSrc c { b with last := some err }

/-- The event that elapsed time reaches `t`: time advances to it if it lies ahead; none where the next Period boundary comes first (the
order of events, assumption 2). -/
def State.reach (s : State) (t : Nat) : Option State :=
  if t ≤ s.ttu.elapsed then some s
  else if s.now + (t - s.ttu.elapsed) < (s.now / periodNs s + 1) * periodNs s then some (s.advance (t - s.ttu.elapsed))
  else none

/-! ### Global commit requests (R64, R68) -/

/-- Queue a commit request: a queued request of the same kind is replaced; a ninth request is refused. -/
def State.gcRequest (s : State) (kind : GcKind) (arg : Nat := 0) : State :=
  let r : GcReq := { kind := kind, arg := arg, since := s.ttu.time }
  let q := s.ttu.gcQueue
  if q.any (·.kind == kind) then
    { s with ttu := { s.ttu with gcQueue := q.map fun x => if x.kind == kind then r else x } }
  else if q.length < 8 then { s with ttu := { s.ttu with gcQueue := q ++ [r] } }
  else s.raise F.TT_GC_STATUS.QFULL

/-- The bits of TT_GC_STATUS.KIND. -/
def GcKind.code : GcKind → Nat
  | .timetable => 1 | .perfLevel => 2 | .envelope => 3 | .activation => 4

/-- B of a commit (R64): the start of the first Assembly Period that begins 50 µs or more after its request and whose D = B − 2 µs is still
to come. -/
def commitB (s : State) (since : Word64) : Option Word64 :=
  let t := max (since.toNat + 50000) (s.now + 2000)
  (findAssembly s ((t + periodNs s - 1) / periodNs s) 4096).map fun n => BitVec.ofNat 64 (n * periodNs s)

/-- Arm a named Assembly, or refuse it as late (R56, R57). -/
def State.armNamed (s : State) (p : Word64) : State :=
  if decide (s.now + periodNs s < p.toNat * periodNs s) then
    ({ s with ttu := { s.ttu with named := some p, namedLate := false } }).raise F.TT_NAMED_CTRL.ARMED
  else (s.raise F.TT_NAMED_CTRL.LATE).vendorEvent 0xC5

/-! ### Roll Call (R59 to R63, R127) -/

/-- Map Engines and Policy Cores, which a snapshot stalls (R63). -/
def stalls (part : Nat) : Bool := (decide (16 ≤ part) && decide (part < 24)) || (decide (56 ≤ part) && decide (part < 60))

/-- Sequence-number allocation of a participant is stalled by a snapshot it has joined (R63). -/
def State.snapStalled (s : State) (part : Nat) : Bool :=
  match s.ttu.rc with
  | some r => r.kind == .snapshot && stalls part && r.arrived.getLsbD part
  | none => false

/-- Effective mask of a Roll Call (R60): the powered participants are those powered when it is evaluated, up to the release (DESIGN
CHOICE: R60 does not say at which instant). -/
def rcMask (s : State) (r : RollCall) : Word64 := r.mask &&& s.poweredMask

/-- Every member of this device has arrived; participants 60 to 63 count at the opening (R59). -/
def rcHere (s : State) (r : RollCall) : Bool := (rcMask s r &&& ~~~r.arrived &&& 0x0FFFFFFFFFFFFFFF#64) == 0

/-- Every member has arrived, on every device of the call. -/
def rcComplete (s : State) (r : RollCall) : Bool := rcHere s r && r.ringWait.isEmpty

/-- Value supplied by the lowest-numbered member of the effective mask that has offered one (R127). -/
def rcValue (s : State) (r : RollCall) : Word64 :=
  (((List.range 64).find? fun p => (rcMask s r).getLsbD p && (sget p r.offers).isSome).bind fun p => sget p r.offers).getD 0

/-- Code of a kind (R127). -/
def RcKind.code : RcKind → Nat
  | .barrier => 0 | .broadcast => 1 | .snapshot => 2
def RcKind.of : Nat → Option RcKind
  | 0 => some .barrier | 1 => some .broadcast | 2 => some .snapshot | _ => none

/-- Highest sequence number allocated (R63, R293). -/
def State.lastSeq (s : State) : Nat := s.jnl.next - 1

/-- Give a waiting context its result: register, predicate, effective mask, and event 25 where a call ends (R86, R127). -/
def State.rcResult (s : State) (k : Nat) (v : Word64) (ok : Bool) (mask : Word64) (released : Bool := true) : State :=
  let i := CtxId.ofKey k
  let c := s.ctx i
  match c.st with
  | .blocked (.rollCall d p) =>
    s.setCtx i { ((c.setReg d v).setPred p ok) with st := .ready, rcMask := mask, events := if released then c.events ||| (1#64 <<< 25) else c.events }
  | _ => s

/-- Ring IDs of the other members of the formed ring, lost peers left out (R472). -/
def ringOthers (s : State) : List Nat :=
  (List.range 4).filter fun k => (s.fld F.TH_STATUS.PRESENT).testBit k && k != s.fld F.TH_CTRL.RING_ID

/-! ### Tether links (R456, R457) -/

/-- A link: false West, true East. -/
def State.link (s : State) (e : Bool) : TLink := if e then s.th.east else s.th.west
def State.setLink (s : State) (e : Bool) (l : TLink) : State :=
  if e then { s with th := { s.th with east := l } } else { s with th := { s.th with west := l } }
def linkIx (e : Bool) : Nat := if e then 1 else 0
/-- The link carries frames. -/
def linkUp (s : State) (e : Bool) : Bool := s.flag (F.TH_LINK.UP.ix (linkIx e)) && !s.flag (F.TH_LINK.RETRAIN.ix (linkIx e))

/-- Send a message on a link that is up; it stays in the replay buffer until acknowledged (R457). -/
def State.sendOn (s : State) (e : Bool) (f : TFrame) : State :=
  let l := s.link e
  if linkUp s e then
    (s.setLink e { l with next := (l.next + 1) % 4096, unacked := l.unacked ++ [f] }).emit (.frame (linkIx e) f.ty f.src f.body)
  else s

/-- Send a message to a ring ID on a path that is up: East, else West (R457). -/
def State.tSend (s : State) (ty dst tag : Nat) (body : List Word64) : State :=
  let f : TFrame := { ty := ty, src := s.fld F.TH_CTRL.RING_ID, dst := dst, tag := tag, body := body }
  if linkUp s true then s.sendOn true f else s.sendOn false f

/-- Send a message on both links of the ring, as the device itself originates it (R456). -/
def State.ringSend (s : State) (ty : Nat) (body : List Word64) : State :=
  let f : TFrame := { ty := ty, src := s.fld F.TH_CTRL.RING_ID, dst := s.fld F.TH_CTRL.RING_ID, tag := 0, body := body }
  (s.sendOn false f).sendOn true f

/-- Tell the other devices of the ring that a Roll Call has opened here, or that this device's members have all arrived (R61, R472); the
payload is the model's own. -/
def State.rcTell (s : State) (r : RollCall) (arrived : Bool) (v : Word64) : State :=
  s.when (r.ring && !(ringOthers s).isEmpty)
    (·.ringSend 0x0B [r.ident.setWidth 64, r.mask, BitVec.ofNat 64 (r.kind.code + (if arrived then 4 else 0)), v])

/-- Once the last member of this device has arrived the cut is fixed, and in a ring call the arrival is reported (R61, R63). -/
def State.rcArrive (s : State) : State :=
  match s.ttu.rc with
  | none => s
  | some r =>
    if !rcHere s r || r.cut.isSome then s
    else
      let v := if r.kind = .broadcast then rcValue s r else BitVec.ofNat 64 s.lastSeq
      ({ s with ttu := { s.ttu with rc := some { r with cut := some s.lastSeq } } }).rcTell r true v

/-- A Roll Call opens on the tree: its timeout starts, and one of ring scope that was opened here goes out to the other devices (R61, R62, R472). -/
def State.rcOpen (s : State) (r : RollCall) : State :=
  let heard := (s.th.rcHeard.filter fun (k, _) => k == r.ident).map (·.2)
  let got := heard.foldl (fun m (k, v) => sput k v m) r.ringGot
  let r := { r with since := s.ttu.elapsed, ringGot := got, ringWait := if r.ring then (ringOthers s).filter fun k => (sget k got).isNone else [] }
  let s := s.when r.ring fun s => { s with th := { s.th with rcHeard := s.th.rcHeard.filter fun (k, _) => k != r.ident } }
  let s := s.when (r.origin == s.fld F.TH_CTRL.RING_ID) (·.rcTell r false 0)
  ({ s with ttu := { s.ttu with rc := some r } }).rcArrive

/-- A second participant meets an open call: masks and kinds agree, and it joins (R127). -/
def RollCall.join (o r : RollCall) : RollCall :=
  { o with arrived := o.arrived ||| r.arrived, waiters := o.waiters ++ r.waiters
           offers := r.offers.foldl (fun m (p, v) => if (sget p m).isSome then m else sput p v m) o.offers }

/-- Join or open a Roll Call for the context whose request `r` is, or for a peer (R62, R127, R472); none: the queue is full. -/
def State.rcJoin (s : State) (r : RollCall) : Option State :=
  let same (o : RollCall) : Bool := o.ident == r.ident
  let fits (o : RollCall) : Bool := o.mask == r.mask && o.kind == r.kind
  let fail (s : State) : State := s.each r.waiters fun s k => s.rcResult k 0 false ((s.ctx (CtxId.ofKey k)).rcMask) false
  match s.ttu.rc with
  | none => some (s.rcOpen r)
  | some o =>
    if same o then (if fits o then some ({ s with ttu := { s.ttu with rc := some (o.join r) } }).rcArrive else some (fail s))
    else match s.ttu.rcQueue.find? same with
      | some q =>
        if fits q then some { s with ttu := { s.ttu with rcQueue := s.ttu.rcQueue.map fun x => if same x then x.join r else x } }
        else some (fail s)
      | none => if s.ttu.rcQueue.length < 4 then some { s with ttu := { s.ttu with rcQueue := s.ttu.rcQueue ++ [r] } } else none

/-- Close the open Roll Call, open the next queued one, and let in the contexts that wait for a slot (R62). -/
def State.rcNext (s : State) : State :=
  let q := s.ttu.rcQueue
  let s := { s with ttu := { s.ttu with rc := none, rcQueue := q.tail } }
  let s := match q with | [] => s | r :: _ => s.rcOpen r
  let w := s.ttu.rcBlocked
  ({ s with ttu := { s.ttu with rcBlocked := [] } }).each w fun s (k, r) =>
    match (s.ctx (CtxId.ofKey k)).st with
    | .blocked (.rcSlot d p) =>
      match (s.modCtx (CtxId.ofKey k) fun c => { c with st := .blocked (.rollCall d p), since := s.ttu.elapsed }).rcJoin r with
      | some t => t
      | none => { s with ttu := { s.ttu with rcBlocked := s.ttu.rcBlocked ++ [(k, r)] } }
    | _ => s

end Sys2Proof.Machine
end

