-- ==== Sys2Proof/Machine/OpsGeo.lean ====
section
/-! DEFINITION. Geometry of the media, block records, codewords on media (R118, R131, R256, R278). -/
namespace Sys2Proof.Machine

/-! ### Geometry (R256, R259, R230) -/

def geoPpb (s : State) : Nat := s.fld F.MED_GEO0.PPB
def geoPlanes (s : State) : Nat := s.fld F.MED_GEO0.PLANES
def geoCpp (s : State) : Nat := s.fld F.MED_GEO0.CPP
def geoBlocks (s : State) : Nat := s.fld F.MED_GEO1.BLOCKS
/-- Codeword slots of a die-page and of a block. -/
def pageSlots (s : State) : Nat := geoPlanes s * geoCpp s
def blockSlots (s : State) : Nat := geoPpb s * pageSlots s

/-- SLOT of a codeword position (R230). -/
def slotOf (s : State) (block page plane cw : Nat) : Nat := ((block * geoPpb s + page) * geoPlanes s + plane) * geoCpp s + cw
/-- Block of a slot. -/
def slotBlock (s : State) (slot : Nat) : Nat := slot / max 1 (blockSlots s)

/-- A 48-bit physical address (R131). -/
structure Pa where
  die : Nat
  plane : Nat
  block : Nat
  page : Nat
  count : Nat
  cw : Nat
deriving DecidableEq, Repr

def Pa.of (a : BitVec 48) : Pa :=
  let n := a.toNat
  { die := n / 2 ^ 38 % 1024, plane := n / 2 ^ 35 % 8, block := n / 2 ^ 20 % 32768, page := n / 256 % 4096,
    count := n / 8 % 32 + 1, cw := n % 8 }
def Pa.channel (p : Pa) : Nat := p.die / 32
/-- First slot of the run. -/
def Pa.slot (s : State) (p : Pa) : Nat := slotOf s p.block p.page p.plane p.cw
/-- Position of the first codeword in die-page order. -/
def Pa.pos (s : State) (p : Pa) : Nat := p.plane * geoCpp s + p.cw

/-- Address of one codeword of a die-page, or of a run from it. -/
def mkPa (s : State) (die slot : Nat) (count : Nat := 1) : BitVec 48 :=
  let cpp := max 1 (geoCpp s)
  let cw := slot % cpp
  let r := slot / cpp
  let plane := r % max 1 (geoPlanes s)
  let r := r / max 1 (geoPlanes s)
  BitVec.ofNat 48 (die * 2 ^ 38 + plane * 2 ^ 35 + (r / max 1 (geoPpb s)) % 32768 * 2 ^ 20 + r % max 1 (geoPpb s) * 256 + (count - 1) % 32 * 8 + cw)

/-! ### Block records and free heaps (R118, R278, R279) -/

def bkey (s : State) (die block : Nat) : Nat := (die * geoBlocks s + block) * 8
def State.blockW0 (s : State) (die block : Nat) : Nat := (sgetD 0 (bkey s die block) s.zyn.tab.block).toNat
def State.blockW1 (s : State) (die block : Nat) : Nat := (sgetD 0 (bkey s die block + 1) s.zyn.tab.block).toNat
def blkValid (w : Nat) : Nat := w % 65536
def blkState (w : Nat) : Nat := w / 65536 % 16
def blkErase (w : Nat) : Nat := w / 2 ^ 20 % 2 ^ 20
def State.blockSt (s : State) (die block : Nat) : Nat := blkState (s.blockW0 die block)
/-- The block was opened in SLC mode (R278). -/
def State.blockSlc (s : State) (die block : Nat) : Bool := s.blockW1 die block / 64 % 2 == 1
def State.setTab (s : State) (t : Tables) : State := { s with zyn := { s.zyn with tab := t } }

/-- Put a word of the BLOCK table in force, outside the journal. -/
def State.putBlock (s : State) (key : Nat) (v : Nat) : State :=
  s.setTab { s.zyn.tab with block := sputD 0 key (BitVec.ofNat 64 v) s.zyn.tab.block }

/-- Adjust VALID of the block that holds a slot (R278). -/
def State.adjustValid (s : State) (die slot : Nat) (up : Bool) : State :=
  let k := bkey s die (slotBlock s slot)
  let w := s.blockW0 die (slotBlock s slot)
  s.putBlock k (if up then (if blkValid w < 65535 then w + 1 else w) else if 0 < blkValid w then w - 1 else w)

/-- Key of a codeword slot on media. -/
def nandKey (die slot : Nat) : Nat := die * 2 ^ 28 + slot
def State.codeword (s : State) (die slot : Nat) : Option Payload := sget (nandKey die slot) s.media.nand

/-- Rows of a block that are programmed: one past the highest (R298). -/
def State.nextRow (s : State) (die block : Nat) : Nat :=
  let lo := nandKey die (block * blockSlots s)
  let l := s.media.nand.filter fun (k, _) => decide (lo ≤ k) && decide (k < lo + blockSlots s)
  l.foldl (fun m (k, _) => max m ((k - lo) / max 1 (pageSlots s) + 1)) 0


end Sys2Proof.Machine
end

