-- ==== Sys2Proof/Machine/OpsJnl.lean ====
section
/-! DEFINITION. Buffer accounts (R187 to R193, R25), journal batches and seals (R293 to R299), dirty data (R307). -/
namespace Sys2Proof.Machine

/-! ### Poison and test injection (R325, R326) -/

/-- A word is poisoned (R325). -/
def State.poisoned (s : State) (store addr : Nat) : Bool := s.ecc.poison.contains (store, addr)
/-- Poison a word (R325). -/
def State.poison (s : State) (store addr : Nat) : State :=
  if s.poisoned store addr then s
  else ({ s with ecc := { s.ecc with poison := (store, addr) :: s.ecc.poison } }).count F.ECC_POISON_CNT.COUNT
/-- A full-width write clears the poison of its word (R326). -/
def State.heal (s : State) (store addr : Nat) : State :=
  { s with ecc := { s.ecc with poison := s.ecc.poison.filter (· != (store, addr)) } }

/-- A test injection armed for the store takes effect on this full-width write and disarms (ECC_INJECT). -/
def State.inject (s : State) (store addr : Nat) : State :=
  if s.flag F.ECC_INJECT.ARMED && s.fld F.ECC_INJECT.STORE == store then
    (s.clear F.ECC_INJECT.ARMED).when (decide (2 ≤ s.fld F.ECC_INJECT.TYPE)) (·.poison store addr)
  else s

/-! ### Buffer accounts -/

/-- COUNT in force (R187, R492): the latched value, or the register's before the first CC.EN. -/
def poolCount (s : State) : Nat := if s.host.poolCount = 0 then s.fld F.BPM_POOL_CFG.COUNT else s.host.poolCount

/-- Share and usage of an account (R188). -/
def share (s : State) (a : Nat) : Nat := s.fld (F.BPM_SHARE.SHARE.ix a)
def usage (s : State) (a : Nat) : Nat := s.fld (F.BPM_USED.USED.ix a)
/-- Free, unreserved buffers (R190). -/
def freeBufs (s : State) : Nat := s.fld F.BPM_FREE.FREE

/-- Soft and hard warning of an account (R190). -/
def softWarn (s : State) (a : Nat) : Bool := decide (3 * share s a ≤ 4 * usage s a)
def hardWarn (s : State) (a : Nat) : Bool := decide (19 * share s a ≤ 20 * usage s a)
/-- Global Low (R190). -/
def globalLow (s : State) : Bool :=
  let p := s.fld F.BPM_LOW_WM.PCT
  decide (100 * freeBufs s ≤ (if 1 ≤ p && p ≤ 50 then p else 10) * poolCount s)

/-- Recompute the conditions of R190 for an account and report entries into them (R193). -/
def State.bpmEval (s : State) (a : Nat) : State :=
  let soft := softWarn s a
  let hard := hardWarn s a
  let low := globalLow s
  let empty := freeBufs s == 0
  let s := s.when (soft && s.host.calmSoft.contains a) (·.raise F.BPM_EVT.SOFT_WARN)
  let s := s.when (hard && s.host.calmHard.contains a) (·.raise F.BPM_EVT.HARD_WARN)
  let s := s.when (low && !s.host.low) fun s => (s.raise F.BPM_EVT.LOW_ENTER).entry 0x08 sevNotice
  let s := s.when (empty && !s.flag F.BPM_STATUS.EMPTY) fun s => (s.raise F.BPM_EVT.EMPTY_ENTER).entry 0x08 sevNotice
  let s := (s.setBit F.BPM_STATUS.LOW low).setBit F.BPM_STATUS.EMPTY empty
  { s with host := { s.host with
      calmSoft := if soft then s.host.calmSoft.filter (· != a) else if s.host.calmSoft.contains a then s.host.calmSoft else a :: s.host.calmSoft
      calmHard := if hard then s.host.calmHard.filter (· != a) else if s.host.calmHard.contains a then s.host.calmHard else a :: s.host.calmHard
      low := low } }

/-- Gauge 2: the lowest BPM_FREE of the interval (R442). -/
def State.lowFree (s : State) : State :=
  let f := freeBufs s
  { s with gb := { s.gb with cur := { s.gb.cur with gauges := sput 2 (min f (sgetD f 2 s.gb.cur.gauges)) s.gb.cur.gauges } } }

/-- Take `n` buffers of the pool for an account: a reservation (R189). -/
def State.reserve (s : State) (a n : Nat) : State :=
  (((s.setFld (F.BPM_USED.USED.ix a) (usage s a + n)).setFld F.BPM_FREE.FREE (freeBufs s - n)).bpmEval a).lowFree

/-- Return `n` buffers of an account to the pool (R189, R192). -/
def State.unreserve (s : State) (a n : Nat) : State :=
  ((s.setFld (F.BPM_USED.USED.ix a) (usage s a - n)).setFld F.BPM_FREE.FREE (freeBufs s + n)).bpmEval a

def State.buf (s : State) (h : Nat) : Option Buf := sget h s.host.bufs
def State.setBuf (s : State) (h : Nat) (b : Buf) : State := { s with host := { s.host with bufs := sput h b s.host.bufs } }

/-- Lowest handle not in use (R25: a buffer belongs to one command). -/
def State.freeHandle (s : State) : Nat :=
  s.host.bufs.foldl (fun n (k, _) => if k = n then n + 1 else n) 0

/-- Contexts of a function (R171, R194). -/
def State.ctxCount (s : State) (f : Nat) : Nat := (s.host.cmds.filter fun (_, x) => x.func == f).length

/-- Step 5 of a controller reset (R171): the queues are deleted, CSTS.RDY and CFS clear; outstanding requests for events go. -/
def State.resetDone (s : State) (f : Nat) : State :=
  let g := s.func f
  { s with host := { s.host with
      sqs := s.host.sqs.filter fun (k, _) => k / 65536 != f
      cqs := s.host.cqs.filter fun (k, _) => k / 65536 != f
      funcs := sput f { g with en := false, rdy := false, cfs := false, stop := false, heldReset := false, enabling := false
                               resetting := false, present := g.present && !g.leaving, leaving := false, aers := [], events := [], reported := [], aborts := [], flushes := [], feats := []
                               shst := if g.shutdown then 2 else 0, shutdown := false, flr := false } s.host.funcs } }

/-- Deletions of I/O SQs that waited for the last context of their queue complete (R153). -/
def State.deletesDone (s : State) (f : Nat) : State :=
  s.each (s.host.sqs.filter fun ((k, q) : Nat × Sq) => k / 65536 == f && q.deleting.isSome &&
      !s.host.cmds.any fun ((_, x) : Nat × Cmd) => x.func == f && x.sqid == k % 65536 && !x.admin) fun s (k, q) =>
    let s := { s with host := { s.host with sqs := sdel k s.host.sqs } }
    match q.deleting with | some cid => s.ok f cid | none => s

/-- A context has left its command: the Flushes that wait for it no longer do, one of its own covers nothing any more (R170), and a deletion of its queue (R153) or a reset of its
function (R171) that waited for the last context ends. -/
def State.ctxGone (s : State) (c f : Nat) : State :=
  let s := { s with
    host := { s.host with funcs := s.host.funcs.map fun (k, (g : Func)) =>
      (k, { g with flushes := (g.flushes.filter fun (x : Nat × List Nat) => x.1 != c).map fun ((w, l) : Nat × List Nat) => (w, l.filter (· != c)) }) }
    zyn := { s.zyn with refault := s.zyn.refault.filter fun (x, _, _) => s.host.cmds.any fun (y : Nat × Cmd) => y.2.fsn == x } }
  (s.deletesDone f).when ((s.func f).resetting && !(s.func f).flr && s.ctxCount f == 0) (·.resetDone f)

/-- A write's context is freed once its last buffer has gone (R23 step 6, R176). -/
def State.bufGone (s : State) (c h : Nat) : State :=
  match sget c s.host.cmds with
  | none => s
  | some x =>
    if !x.bufs.contains h then s
    else
      let x := { x with bufs := x.bufs.filter (· != h), dirty := x.dirty - 1 }
      if x.st = .posted && x.bufs.isEmpty then ({ s with host := { s.host with cmds := sdel c s.host.cmds } }).ctxGone c x.func
      else { s with host := { s.host with cmds := sput c x s.host.cmds } }

/-- Release a buffer: it leaves the account, and JNL_DIRTY if it was acknowledged (R25, R307). A buffer with readers in
progress waits for them; a fenced buffer keeps its handle (R326). -/
def State.freeBuf (s : State) (h : Nat) : State :=
  match s.buf h with
  | none => s
  | some b =>
    if b.readers ≠ 0 then s
    else
      let s := if b.fenced then s.setBuf h { b with wsn := 0, acked := false, doneSeq := none }
        else { s with host := { s.host with bufs := sdel h s.host.bufs } }
      let s := s.when b.acked fun s => s.setFld F.JNL_DIRTY.COUNT (s.fld F.JNL_DIRTY.COUNT - 1)
      let s := s.bufGone b.cmd h
      if b.fenced then s else s.unreserve b.account 1

/-! ### Journal -/

/-- Bytes of an entry of a table, for page identifiers; a map line of 12 entries takes 64 B (R228, R301). -/
def pageOf (tbl index : Nat) : Nat :=
  tbl * 2 ^ 36 + (match tbl with
    | 1 => index / 768
    | 4 => index / 256
    | _ => index / 64)

/-- A WORD record (R296). -/
def recWord (tbl word index : Nat) (v : Word64) : BitVec 128 :=
  BitVec.ofNat 128 (1 * 2 ^ 124 + tbl % 16 * 2 ^ 120 + word % 8 * 2 ^ 117 + index % 2 ^ 40 * 2 ^ 77 + v.toNat)
/-- A LINE record (R296). -/
def recLine (index : Nat) : BitVec 128 := BitVec.ofNat 128 (2 * 2 ^ 124 + 1 * 2 ^ 120 + index % 2 ^ 40 * 2 ^ 77)
/-- A FLUSH record (R296). -/
def recFlush (no count wsn : Nat) : BitVec 128 :=
  BitVec.ofNat 128 (3 * 2 ^ 124 + no % 2 ^ 28 * 2 ^ 96 + count % 2 ^ 32 * 2 ^ 64 + wsn % 2 ^ 64)
/-- A MARK record (R296). -/
def recMark (kind v : Nat) : BitVec 128 := BitVec.ofNat 128 (4 * 2 ^ 124 + kind % 16 * 2 ^ 120 + v % 2 ^ 64)

/-- Slots in use, in per mille of 16 000 (R299). -/
def fillPm (s : State) : Nat :=
  (s.mram.ring.length + (if s.jnl.openRecs.isEmpty then 0 else 1)) * 1000 / 16000

/-- Bring FILL_PM up to date and report crossings of 750 and 900, and the reach of 1 000 (R299). -/
def State.fillUpdate (s : State) : State :=
  let old := s.fld F.JNL_STATUS.FILL_PM
  let new := min 1000 (fillPm s)
  let up (t : Nat) : Bool := decide (old < t) && decide (t ≤ new)
  let down (t : Nat) : Bool := decide (t ≤ old) && decide (new < t)
  let s := (s.setFld F.JNL_STATUS.FILL_PM new).setBit F.JNL_STATUS.FULL (new == 1000)
  let s := s.when (up 750) (·.raise F.JNL_EVT.FILL75)
  let s := s.when (up 900) (·.raise F.JNL_EVT.FILL90)
  let s := s.when (up 750 || down 750 || up 900 || down 900) (·.policy 0x05 new)
  let s := s.when (up 1000) fun s => (s.raise F.JNL_EVT.FULL).entry 0x07 sevNotice
  s.gauge 3 new

/-- A triplicated word written good in all copies (R336). -/
def trip (n : Nat) : Trip := ⟨n, n, n, true, true, true⟩

/-- The 2-of-3 value of a triplicated word, if two copies agree (R337). -/
def Trip.vote (t : Trip) : Option Nat :=
  if t.okA && t.okB && t.a == t.b then some t.a
  else if t.okA && t.okC && t.a == t.c then some t.a
  else if t.okB && t.okC && t.b == t.c then some t.b
  else none

/-- Release the buffers whose map change to MEDIA is sealed (R25). -/
def State.releaseSealed (s : State) : State :=
  s.each (s.host.bufs.filter fun (_, b) => match b.doneSeq with
    | some n => decide (n ≤ s.jnl.sealed) | none => false) fun s (h, _) => s.freeBuf h

/-- Deliver CUTDUR once every record up to the cut is sealed (R63). -/
def State.cutDurable (s : State) : State :=
  let due (x : Nat × List Nat) : Bool := decide (x.1 ≤ s.jnl.sealed)
  ({ s with ttu := { s.ttu with cutWait := s.ttu.cutWait.filter fun (x : Nat × List Nat) => !due x } }).each
    ((s.ttu.cutWait.filter due).flatMap fun (x : Nat × List Nat) => x.2) fun s k => s.zynEvent (CtxId.ofKey k) 26

/-- JNL_TAIL follows min(FIRST_DIRTY): batches whose records all precede it leave the ring (R306). -/
def State.tailAdvance (s : State) : State :=
  let lim := s.jnl.firstDirty.foldl (fun m (_, n) => min m n) (s.jnl.sealed + 1)
  let keep := s.mram.ring.filter fun (_, b) => decide (lim < b.base + b.recs.length)
  let first := keep.foldl (fun (m : Option (Nat × Nat)) (k, b) => match m with
    | none => some (k, b.base) | some (k', n) => if b.base < n then some (k, b.base) else some (k', n)) none
  let s := { s with mram := { s.mram with
    ring := keep
    tailSlot := match first with | some (k, _) => trip k | none => s.mram.headSlot
    tailSeq := match first with | some (_, n) => trip n | none => s.mram.headSeq } }
  let s := match s.jnl.repair with
    | some k => if (sget k keep).isSome then s else { s with jnl := { s.jnl with repair := none } }.clear F.ECC_STATUS.JNL_REPAIR
    | none => s
  s.fillUpdate

/-- Page of a record and its table, none for FLUSH and MARK (R301). -/
def recPage (r : BitVec 128) : Option Nat :=
  let n := r.toNat
  match n / 2 ^ 124 with
  | 1 => some (pageOf (n / 2 ^ 120 % 16) (n / 2 ^ 77 % 2 ^ 40))
  | 2 => some (pageOf 1 (n / 2 ^ 77 % 2 ^ 40))
  | _ => none

/-- Lowest sequence number above `seq` of a record on a page, sealed or open (R303 step 5). -/
def nextDirty (s : State) (page seq : Nat) : Option Nat :=
  let look (base : Nat) (l : List (BitVec 128)) (m : Option Nat) : Option Nat :=
    (l.zipIdx).foldl (fun m (r, i) =>
      if recPage r == some page && decide (seq < base + i) then
        (match m with | none => some (base + i) | some x => some (min x (base + i))) else m) m
  look s.jnl.openBase s.jnl.openRecs (s.mram.ring.foldl (fun m (_, b) => look b.base b.recs m) none)

/-- Verified images cover their pages from this seal: the newest copy, VALID of the checkpoint blocks, FIRST_DIRTY and JNL_TAIL
(R303 to R306). -/
def State.cover (s : State) : State :=
  let (now, later) := s.jnl.images.partition (·.verified)
  if now.isEmpty then s
  else
    let s := { s with jnl := { s.jnl with images := later } }
    let s := s.each now fun s im =>
      match im.loc with
      | none => s
      | some loc =>
        let s := match sget im.page s.mram.cpNewest with
          | some (old, _) => s.adjustValid (old / 2 ^ 28) (old % 2 ^ 28) false
          | none => s
        let s := s.adjustValid (loc / 2 ^ 28) (loc % 2 ^ 28) true
        { s with
          mram := { s.mram with cpNewest := sput im.page (loc, im.seq) s.mram.cpNewest }
          jnl := { s.jnl with firstDirty := match nextDirty s im.page im.seq with
            | some n => sput im.page n s.jnl.firstDirty | none => sdel im.page s.jnl.firstDirty } }
    s.tailAdvance

/-- REPLAY_ROW of the open blocks at a seal (R298): the lowest row from the old one on that holds a codeword whose block is still
in the pool, or a member of a stripe whose parity has not passed; else the next unprogrammed row. -/
def State.replayRows (s : State) : State :=
  let live := s.host.bufs.map fun (_, b) => (b.nsid, b.lba)
  let members := s.media.stripes.flatMap fun (_, t) => t.members.map Pa.of
  let row (o : OpenBlk) : Nat :=
    let next := s.nextRow o.die o.block
    let held (r : Nat) : Bool :=
      members.any (fun m => m.die == o.die && m.block == o.block && m.page == r) ||
      (List.range (pageSlots s)).any fun k =>
        match s.codeword o.die ((o.block * geoPpb s + r) * pageSlots s + k) with
        | some p => live.contains (p.toNat / 2 ^ (32768 + 104) % 2 ^ 14 + 1, p.toNat / 2 ^ 32768 % 2 ^ 40)
        | none => false
    match ((List.range next).drop o.row).find? held with
    | some r => r
    | none => max o.row next
  { s with mram := { s.mram with openBlks := s.mram.openBlks.map fun o => { o with row := row o } } }

/-- Values of SHUTDOWN (R297). -/
def sdClean : Nat := 0
def sdRunning : Nat := 1
def sdFlushing : Nat := 2
def sdFlushed : Nat := 3
def State.setShutdown (s : State) (v : Nat) : State := { s with mram := { s.mram with shutdown := trip v, valid := true } }

/-- Seal the open batch: it enters the ring at the next slot, its records are durable, event 27 goes to the contexts that
were allocated a number in it, and buffer releases that wait for it happen (R294, R295, R25). SHUTDOWN leaves CLEAN when work goes on after a shutdown (DEDUCED from
R297: CLEAN says that nothing follows the checkpoint). -/
def State.seal (s : State) (flush : Bool := false) : State :=
  if s.jnl.openRecs.isEmpty || s.jnl.inhibit then s
  else
    let n := s.jnl.openRecs.length
    let slot := if s.mram.ring.isEmpty && !s.mram.valid then 0 else ((s.mram.headSlot.vote.getD 0) + 1) % 16000
    let last := s.jnl.openBase + n - 1
    let ctxs := s.jnl.openCtxs
    let s := { s with
      mram := { s.mram with
        ring := sput slot { base := s.jnl.openBase, flush := flush, recs := s.jnl.openRecs } s.mram.ring
        headSlot := trip slot, headSeq := trip s.jnl.openBase, headLen := n, valid := true
        tailSlot := if s.mram.ring.isEmpty then trip slot else s.mram.tailSlot
        tailSeq := if s.mram.ring.isEmpty then trip s.jnl.openBase else s.mram.tailSeq }
      jnl := { s.jnl with sealed := last, openRecs := [], openBase := last + 1, openCtxs := [], openSlots := [] } }
    let s := s.when (s.fld F.JNL_STATUS.RECOV_PHASE == 7 && s.mram.shutdown.vote == some sdClean) (·.setShutdown sdRunning)
    let s := s.inject 11 (slot * 1040)
    ((s.each ctxs fun s k => s.zynEvent (CtxId.ofKey k) 27).releaseSealed.cutDurable).replayRows.cover.fillUpdate

/-- Allocate the next sequence number to a record and enter it in the open batch; a batch of 64 records is sealed (R293,
R294, R79). `ctx` is the CTX.ID of the context allocated the number, if any. -/
def State.journal (s : State) (rec : BitVec 128) (ctx : Option Nat := none) : Nat × State :=
  let n := s.jnl.next
  let s := { s with jnl := { s.jnl with
    next := n + 1
    openBase := if s.jnl.openRecs.isEmpty then n else s.jnl.openBase
    openRecs := s.jnl.openRecs ++ [rec]
    openCtxs := match ctx with | some k => (if s.jnl.openCtxs.contains k then s.jnl.openCtxs else k :: s.jnl.openCtxs) | none => s.jnl.openCtxs } }
  let s := s.fillUpdate
  (n, s.when (decide (64 ≤ s.jnl.openRecs.length)) (·.seal))

/-- Note a record written to a page (R302). -/
def State.markDirty (s : State) (page n : Nat) : State :=
  if (sget page s.jnl.firstDirty).isSome then s
  else { s with jnl := { s.jnl with firstDirty := sput page n s.jnl.firstDirty } }

/-- Page rows of a block in SLC mode (R256). -/
def slcRows (s : State) : Nat := geoPpb s / 4

/-- Armed capacity in buffers of 4 096 B (R308, R312): the SLC capacity of the armed blocks. -/
def armedBufs (s : State) : Nat := s.mram.plan.length * slcRows s * pageSlots s

/-- CEIL_MIB in force: the smallest of the field, 31/32 of the armed capacity and half of the pool, in MiB (R308). -/
def ceilMib (s : State) : Nat :=
  min (s.fld F.JNL_DIRTY_CEIL.CEIL_MIB) (min (armedBufs s * 31 / 32 / 256) (poolCount s / 2 / 256))

/-- Dirty Ceiling in buffers (R308). -/
def ceilBufs (s : State) : Nat := ceilMib s * 256

/-- Bring CLAMPED and the reported flush time up to date (R308). -/
def State.ceilEval (s : State) : State :=
  let c := decide (ceilMib s < s.fld F.JNL_DIRTY_CEIL.CEIL_MIB)
  let rate := max 1 (s.fld F.JNL_FLUSH_PARAM.RATE_MIBMS)
  let s' := (s.setBit F.JNL_DIRTY_CEIL.CLAMPED c).setFld F.JNL_FLUSH_TIME.TF_US (min 65535 (5200 + (ceilMib s * 1000 + rate - 1) / rate))
  s'.when (c && !s.flag F.JNL_DIRTY_CEIL.CLAMPED) (·.raise F.JNL_EVT.CEIL_CLAMPED)

/-- Dirty data with `n` more acknowledged buffers stays within the Dirty Ceiling (R24, R307). -/
def withinCeiling (s : State) (n : Nat) : Bool := decide (s.fld F.JNL_DIRTY.COUNT + n ≤ ceilBufs s)

/-- The buffers of a write count as acknowledged dirty data from its commit point (R307). -/
def State.ackBufs (s : State) (l : List Nat) : State :=
  let s := s.each l fun s h => match s.buf h with
    | some b => if b.acked then s else (s.setBuf h { b with acked := true }).setFld F.JNL_DIRTY.COUNT (s.fld F.JNL_DIRTY.COUNT + 1)
    | none => s
  s.gauge 4 (s.fld F.JNL_DIRTY.COUNT)

end Sys2Proof.Machine
end

