-- ==== Sys2Proof/Machine/OpsMap.lean ====
section
/-! DEFINITION. Tables, map entries, the map cache and block allocation (R78, R225 to R242, R276 to R283, R513, R514). -/
namespace Sys2Proof.Machine

/-! ### Dies -/

/-- The die is populated (R256). -/
def State.populated (s : State) (die : Nat) : Bool := s.media.dies.contains die
def State.lun (s : State) (die : Nat) : Lun := sgetD {} die s.media.luns
def State.setLun (s : State) (die : Nat) (l : Lun) : State := { s with media := { s.media with luns := sputD {} die l s.media.luns } }
/-- The die is in service. -/
def State.inService (s : State) (die : Nat) : Bool := s.populated die && !(s.lun die).failed

/-! ### Free heaps (R279) -/

def State.heap (s : State) (die : Nat) : List (Nat × Nat) := sgetD [] die s.zyn.tab.heap
def State.setHeap (s : State) (die : Nat) (l : List (Nat × Nat)) : State :=
  s.setTab { s.zyn.tab with heap := sputD [] die l s.zyn.tab.heap }

/-- Insert a free block in heap order: erase count, then block index (R279). -/
def heapInsert (e : Nat × Nat) : List (Nat × Nat) → List (Nat × Nat)
  | [] => [e]
  | x :: t => if e.1 < x.1 || (e.1 == x.1 && e.2 < x.2) then e :: x :: t else x :: heapInsert e t

/-- Word of FREEHEAP entry `die` (R279). -/
def State.heapWord (s : State) (die : Nat) : Word64 :=
  if !s.inService die then BitVec.ofNat 64 (2 ^ 63)
  else match s.heap die with
    | [] => BitVec.ofNat 64 (2 ^ 63)
    | (e, b) :: t => BitVec.ofNat 64 (b % 2 ^ 15 + e % 2 ^ 20 * 2 ^ 15 + (t.length + 1) % 2 ^ 16 * 2 ^ 35)

/-- Enter or leave Ballast override as the free count moves (R54, R55). -/
def State.ballastCheck (s : State) (die : Nat) : State :=
  let n := (s.heap die).length
  let fl := s.fld F.MED_BALLAST.FLOOR
  if !s.inOverride die && decide (n < fl) then
    let s := { s with
      media := { s.media with override := die :: s.media.override }
      ttu := { s.ttu with ovrLog := s.ttu.ovrLog ++ [(die, s.ttu.pnum)] } }
    let s := ((s.count F.TT_BALLAST_CNT.COUNT).raise F.TT_EVT.BALLAST_OVR).raise F.TT_STATUS.BALLAST_OVR
    ((s.entry 0x03 sevNotice).vendorEvent 0xC3).policy 0x04 die
  else if s.inOverride die && decide (fl + s.fld F.TT_BALLAST_HYST.HYST_BLK ≤ n) then
    let l := s.media.override.filter (· != die)
    (({ s with media := { s.media with override := l } }).setBit F.TT_STATUS.BALLAST_OVR (!l.isEmpty)).policy 0x04 die
  else s

/-! ### Map cache (R232, R233, R513) -/

/-- Set of a line: the spec names no index function (assumption 3). -/
def cacheSet (line : Nat) : Nat := Config.hash [1, line] % 8564
/-- Line of a MAP index, and of the descriptor of a zone that is not active. -/
def mapLine (index : Nat) : Nat := index / 12
def zdescLine (index : Nat) : Nat := 2 ^ 40 + index

def State.ways (s : State) (set : Nat) : List CacheLine := sgetD [] set s.map.cache
def State.setWays (s : State) (set : Nat) (l : List CacheLine) : State :=
  { s with map := { s.map with cache := sputD [] set l s.map.cache } }

/-- The line, while it is resident and not invalidated (R513). -/
def State.resident (s : State) (line : Nat) : Option CacheLine :=
  (s.ways (cacheSet line)).find? fun l => l.line == line && !l.invalid

/-- Remove the last element that may be evicted: the least recently used way that is not pinned. -/
def evict : List CacheLine → Option (List CacheLine)
  | l => match l.reverse.findIdx? (fun c => c.pins == 0) with
    | some i => some ((l.reverse.eraseIdx i).reverse)
    | none => none

/-- Access a line: a hit makes it most recently used; a miss fills it, evicting a way that is not pinned, or passes by. -/
def State.touchLine (s : State) (line : Nat) : Bool × State :=
  let set := cacheSet line
  let l := s.ways set
  match s.resident line with
  | some c => (true, (s.setWays set (c :: l.filter (·.line != line))).countMod F.MAP_CACHE_HIT.COUNT)
  | none =>
    let l := l.filter (·.line != line)
    let new : CacheLine := { line := line, fill := s.lastSeq }
    let s := s.countMod F.MAP_CACHE_MISS.COUNT
    if l.length < 16 then (false, s.setWays set (new :: l))
    else match evict l with
      | some l => (false, s.setWays set (new :: l))
      | none => (false, s.raise F.MAP_EVT.PIN_BYPASS)

/-- Line that an access of a table entry goes to: block-list entries have none, nor has the descriptor of an active zone (R513); `zs`: the
zone's state. -/
def lineOf (tbl index zs : Nat) : Option Nat :=
  match tbl with
  | 1 => some (mapLine index)
  | 2 => if index < 1048576 && zs != 2 && zs != 3 && zs != 4 then some (zdescLine index) else none
  | _ => none

/-- Commit stamp of an entry of a resident line (R232). -/
def CacheLine.stamp (c : CacheLine) (i : Nat) : Nat := sgetD c.fill i c.stamps

/-- Stamp an entry of a line, if it is resident. -/
def State.stampLine (s : State) (line i n : Nat) : State :=
  s.setWays (cacheSet line) ((s.ways (cacheSet line)).map fun c => if c.line == line then { c with stamps := sput i n c.stamps } else c)

/-- Change the pins of a line. -/
def State.pinLine (s : State) (line : Nat) (up : Bool) : State :=
  (s.setWays (cacheSet line) ((s.ways (cacheSet line)).map fun c => if c.line == line then { c with pins := if up then c.pins + 1 else c.pins - 1 } else c)).setFld
    F.MAP_STATUS.PINNED (if up then s.fld F.MAP_STATUS.PINNED + 1 else s.fld F.MAP_STATUS.PINNED - 1)

/-! ### Namespaces (R227) -/

def State.nsWord (s : State) (nsid word : Nat) : Nat := (sgetD 0 ((nsid - 1) * 8 + word) s.zyn.tab.nsrec).toNat
/-- STATE of a namespace: 0 none, 1 ready, 2 recovering, 3 formatting. -/
def State.nsState (s : State) (nsid : Nat) : Nat := if nsid = 0 || nsid > 16384 then 0 else s.nsWord nsid 0 % 4
def State.nsLbaf (s : State) (nsid : Nat) : Nat := s.nsWord nsid 0 / 4 % 4
def State.nsZoned (s : State) (nsid : Nat) : Bool := s.nsLbaf nsid == 3
def State.nsSize (s : State) (nsid : Nat) : Nat := s.nsWord nsid 1 % 2 ^ 40
def State.nsBase (s : State) (nsid : Nat) : Nat := s.nsWord nsid 2 % 2 ^ 40
def State.nsLogZsze (s : State) (nsid : Nat) : Nat := s.nsWord nsid 3 % 32
def State.nsZcap (s : State) (nsid : Nat) : Nat := s.nsWord nsid 3 / 32 % 2 ^ 21
def State.nsZones (s : State) (nsid : Nat) : Nat := s.nsWord nsid 3 / 2 ^ 26 % 2 ^ 21
def State.nsMar (s : State) (nsid : Nat) : Nat := s.nsWord nsid 4 % 2 ^ 15
def State.nsLogW (s : State) (nsid : Nat) : Nat := s.nsWord nsid 4 / 2 ^ 15 % 8
def State.nsK (s : State) (nsid : Nat) : Nat := s.nsWord nsid 4 / 2 ^ 18 % 128
def State.nsKeySlot (s : State) (nsid : Nat) : Option Nat :=
  if s.nsWord nsid 5 / 65536 % 2 = 1 then some (s.nsWord nsid 5 % 65536) else none
def State.nsFdp (s : State) (nsid : Nat) : Nat := s.nsWord nsid 6 % 256
def State.nsRuhBase (s : State) (nsid : Nat) : Nat := s.nsWord nsid 6 / 256 % 128
/-- Logical blocks per indirection unit (R225). -/
def State.nsIu (s : State) (nsid : Nat) : Nat := match s.nsLbaf nsid with | 1 => 4 | 2 => 8 | _ => 1
/-- Indirection units of a conventional namespace. -/
def State.nsIus (s : State) (nsid : Nat) : Nat := (s.nsSize nsid + s.nsIu nsid - 1) / s.nsIu nsid
/-- Existing namespaces. -/
def State.nsids (s : State) : List Nat :=
  ((s.zyn.tab.nsrec.filter fun (k, v) => k % 8 == 0 && v.toNat % 4 != 0).map fun (k, _) => k / 8 + 1)

/-- MAP index of a block, and ZDESC index of its zone (R230, R237). -/
def State.mapIndex (s : State) (nsid lba : Nat) : Nat := s.nsBase nsid + lba / s.nsIu nsid
def State.zoneOf (s : State) (nsid lba : Nat) : Nat := s.nsBase nsid + lba / 2 ^ s.nsLogZsze nsid

/-! ### Map entries (R230) and zone descriptors (R237) -/

inductive Place
  | unwritten
  | media (die slot : Nat)
  | buffer (h : Nat)
  | pending (h : Nat)
  | unrecovered
  | writeUncorr
deriving DecidableEq, Repr

def State.mapEntry (s : State) (index : Nat) : Word64 := sgetD 0 index s.zyn.tab.map

/-- What a 40-bit entry designates; undefined codes read as unrecovered (R230). -/
def Place.of (e : Word64) : Place :=
  let n := e.toNat % 2 ^ 40
  let r := n % 2 ^ 38
  match n / 2 ^ 38 with
  | 0 => if r = 0 then .unwritten else .unrecovered
  | 1 => .media (r / 2 ^ 28) (r % 2 ^ 28)
  | 2 => if r / 2 ^ 36 = 0 then .buffer (r % 2 ^ 21) else if r / 2 ^ 36 = 1 then .pending (r % 2 ^ 21) else .unrecovered
  | _ => if r / 2 ^ 36 = 2 then .writeUncorr else .unrecovered

def Place.word : Place → Word64
  | .unwritten => 0
  | .media d sl => BitVec.ofNat 64 (2 ^ 38 + d % 1024 * 2 ^ 28 + sl % 2 ^ 28)
  | .buffer h => BitVec.ofNat 64 (2 * 2 ^ 38 + h % 2 ^ 21)
  | .pending h => BitVec.ofNat 64 (2 * 2 ^ 38 + 2 ^ 36 + h % 2 ^ 21)
  | .unrecovered => BitVec.ofNat 64 (3 * 2 ^ 38 + 2 ^ 36)
  | .writeUncorr => BitVec.ofNat 64 (3 * 2 ^ 38 + 2 * 2 ^ 36)

def State.zw (s : State) (z word : Nat) : Nat := (sgetD 0 (z * 8 + word) s.zyn.tab.zdesc).toNat
def State.zs (s : State) (z : Nat) : Nat := s.zw z 0 % 16
def State.zwp (s : State) (z : Nat) : Nat := s.zw z 0 / 2 ^ 32 % 2 ^ 21
def State.zrwp (s : State) (z : Nat) : Nat := s.zw z 1 % 2 ^ 21
def State.zmwp (s : State) (z : Nat) : Nat := s.zw z 1 / 2 ^ 32 % 2 ^ 21
def State.zlgen (s : State) (z : Nat) : Nat := s.zw z 2 % 2 ^ 32
/-- Zone states (R237). -/
def zsEmpty : Nat := 1
def zsImplOpen : Nat := 2
def zsExplOpen : Nat := 3
def zsClosed : Nat := 4
def zsReadOnly : Nat := 0xD
def zsFull : Nat := 0xE
def zsOffline : Nat := 0xF
def zActive (zs : Nat) : Bool := zs == 2 || zs == 3 || zs == 4
def zOpen (zs : Nat) : Bool := zs == 2 || zs == 3

/-- Block-list items of a zone: (die, block), from its list entries (R237). -/
def State.zoneItem (s : State) (z i : Nat) : Nat × Nat :=
  let base := s.zw z 3 % 2 ^ 22
  let w := (sgetD 0 ((base + i / 16) * 8 + i % 16 / 2) s.zyn.tab.zdesc).toNat
  let it := if i % 2 = 0 then w % 2 ^ 32 else w / 2 ^ 32
  (it % 1024, it / 1024 % 2 ^ 15)

/-- Die and slot of zone offset `o` (R238). -/
def State.zoneSlot (s : State) (z o : Nat) : Nat × Nat :=
  let p := max 1 (pageSlots s)
  let w := 2 ^ (s.zw z 2 / 2 ^ 32 % 8)
  let u := o / p
  let r := u / w
  let (die, blk) := s.zoneItem z (r / max 1 (geoPpb s) * w + u % w)
  let q := o % p
  (die, slotOf s blk (r % max 1 (geoPpb s)) (q / max 1 (geoCpp s)) (q % max 1 (geoCpp s)))

/-! ### Journaled writes -/

/-- Counts of active and open zones (MAP_ZONES). -/
def State.zoneCounts (s : State) : State :=
  let l := s.zyn.tab.zdesc.filter fun (k, _) => k % 8 == 0 && k / 8 < 1048576
  let n (f : Nat → Bool) : Nat := (l.filter fun (_, v) => f (v.toNat % 16)).length
  (s.setFld F.MAP_ZONES.ACTIVE (n zActive)).setFld F.MAP_ZONES.OPEN (n zOpen)

/-- The map change away from a buffer is journaled with number `n`: it is released at that record's seal (R25). -/
def State.bufDone (s : State) (h n : Nat) : State :=
  match s.buf h with | some b => s.setBuf h { b with doneSeq := some n } | none => s

/-- Step 1 of R234 puts an entry on a buffer: its write sequence number, and the value before it (R303). -/
def State.bufPlaced (s : State) (h n : Nat) (prior : Word64) : State :=
  match s.buf h with | some b => s.setBuf h { b with wsn := n, prior := prior } | none => s

/-- MWP of a zone has moved in the record numbered `n`: blocks below it leave the pending ring, and the ring slot of a full zone is
free once MWP has reached the last block written (R239, R242, R25). -/
def State.mwpMoved (s : State) (z n : Nat) : State :=
  let mwp := s.zmwp z
  let (gone, keep) := (sgetD [] z s.map.rings).partition fun (o, _) => decide (o < mwp)
  let s := { s with map := { s.map with rings := sputD [] z keep s.map.rings } }
  let s := s.each gone fun s (_, h) => s.bufDone h n
  if s.zs z = zsFull && mwp = s.zrwp z && s.zw z 5 / 2 ^ 15 % 2 = 1 then
    { s.setTab { s.zyn.tab with zdesc := sputD 0 (z * 8 + 5) 0 s.zyn.tab.zdesc } with
      map := { s.map with ringSlots := s.map.ringSlots.filter (· != s.zw z 5 % 2 ^ 14), rings := sdel z s.map.rings } }
  else s

/-- Put a word of a journaled table in force with sequence number `n`: the stored word, the commit stamps of the cache, and
VALID of the blocks a map entry names (R79, R232, R278). -/
def State.applyWord (s : State) (tbl index word : Nat) (v : Word64) (n : Nat) : State :=
  let s := s.inject (if tbl = 1 then 9 else 10) (tbl * 2 ^ 36 + index)
  let t := s.zyn.tab
  match tbl with
  | 1 =>
    let v := BitVec.ofNat 64 (v.toNat % 2 ^ 40)
    let oldWord := s.mapEntry index
    let old := Place.of oldWord
    let s := s.setTab { t with map := sputD 0 index v t.map }
    let s := match old with
      | .media d sl => s.adjustValid d sl false
      | .buffer h => if old = Place.of v then s else s.bufDone h n
      | .pending h => if old = Place.of v then s else (match sget h s.host.pendings with
        | some p => ({ s with host := { s.host with pendings := sdel h s.host.pendings } }).each p.bufs fun s b => s.bufDone b n
        | none => s)
      | _ => s
    let s := match Place.of v with
      | .media d sl => s.adjustValid d sl true
      | .buffer h => if old = Place.of v then s else s.bufPlaced h n oldWord
      | .pending h => if old = Place.of v then s else (match sget h s.host.pendings with
        | some p => s.each p.bufs fun s b => s.bufPlaced b n oldWord
        | none => s)
      | _ => s
    let named (p : Place) : List Nat := match p with | .media d sl => [d * 2 ^ 15 + slotBlock s sl] | _ => []
    let s := { s with jnl := { s.jnl with openSlots :=
      if s.jnl.openRecs.isEmpty then s.jnl.openSlots else s.jnl.openSlots ++ named old ++ named (Place.of v) } }
    let s := s.stampLine (mapLine index) (index % 12) n
    { s with jnl := { s.jnl with lineTag := sput (mapLine index) n s.jnl.lineTag } }
  | 2 =>
    let s := s.setTab { t with zdesc := sputD 0 (index * 8 + word) v t.zdesc }
    let s := s.stampLine (zdescLine index) 0 n
    let s := s.when (word == 2 || word == 3) fun s => { s with map := { s.map with zstamps := sput index n s.map.zstamps } }
    (s.when (word == 0) (·.zoneCounts)).when (word == 1 && decide (index < 1048576)) (·.mwpMoved index n)
  | 4 => s.setTab { t with block := sputD 0 (index * 8 + word) v t.block }
  | 5 => { s.setTab { t with tenant := sputD 0 (index * 8 + word) v t.tenant } with
      mram := { s.mram with tenant := sputD 0 (index * 8 + word) v s.mram.tenant } }
  | 6 => { s.setTab { t with nsrec := sputD 0 (index * 8 + word) v t.nsrec } with
      mram := { s.mram with nsrec := sputD 0 (index * 8 + word) v s.mram.nsrec } }
  | _ => s

/-- The map line or table entry is under rebuild (R333, R334). -/
def State.underRebuild (s : State) (tbl index : Nat) : Bool :=
  s.ecc.rebuilds.any fun r => r.tbl == tbl && r.line == (if tbl = 1 then mapLine index else index)

/-- Queue a journaled write on the rebuild of its entry (R334). -/
def State.queueRebuild (s : State) (tbl index word : Nat) (v : Word64) (n : Nat) : State :=
  let line := if tbl = 1 then mapLine index else index
  { s with ecc := { s.ecc with rebuilds := s.ecc.rebuilds.map fun (r : Rebuild) =>
      if r.tbl == tbl && r.line == line then { r with writes := r.writes ++ [(index, word, v, n)] } else r } }

/-- A journaled write: allocate a sequence number, enter the record, and put the word in force at once or, while its entry is
rebuilt, when the rebuild ends (R79, R119, R293, R334). -/
def State.jwrite (s : State) (tbl index word : Nat) (v : Word64) (ctx : Option Nat := none) : Nat × State :=
  let (n, s) := s.journal (recWord tbl word index v) ctx
  let s := s.markDirty (pageOf tbl index) n
  (n, if s.underRebuild tbl index then s.queueRebuild tbl index word v n else s.applyWord tbl index word v n)

/-- Access the line of a table entry, if it has one (R513). -/
def State.access (s : State) (tbl index : Nat) : State :=
  match lineOf tbl index (s.zs index) with | some l => (s.touchLine l).2 | none => s

/-- A journaled write of the hardware, without its number: it accesses the line as any TJRN does (R513). -/
def State.tjrn (s : State) (tbl index word : Nat) (v : Nat) : State := ((s.access tbl index).jwrite tbl index word (BitVec.ofNat 64 v)).2

/-- A block is marked SPECIAL 1, unrecovered: the entry by a journaled write, the SMART count and the event (R277, R329). -/
def State.markLost (s : State) (index : Nat) : State :=
  let s := (s.tjrn 1 index 0 Place.unrecovered.word.toNat).raise F.ECC_EVT.UNRECOVERED
  { s with ecc := { s.ecc with integrity := s.ecc.integrity + 1 } }

/-- A Critical event of stored-data protection (R329): critical warning bit 2 and the vendor event. -/
def State.criticalData (s : State) (kind : Nat) : State :=
  ({ s with media := { s.media with smart := s.media.smart ||| 4 } }.entry kind sevCritical).vendorEvent 0xD2

/-- Set bits [lo + width − 1 : lo] of a word. -/
def setBits (w lo width v : Nat) : Nat := w - (w / 2 ^ lo % 2 ^ width) * 2 ^ lo + v % 2 ^ width * 2 ^ lo

/-- Clear the map lines of a range by LINE records (R235, R296). -/
def State.clearLines (s : State) (base n : Nat) : State :=
  s.each (List.range ((n + 11) / 12)) fun s i =>
    let first := base + 12 * i
    let (m, s) := s.journal (recLine first)
    let s := s.markDirty (pageOf 1 first) m
    s.each (List.range 12) fun s j => s.applyWord 1 (first + j) 0 0 m

/-- Open blocks of a die (R298). -/
def State.openBlocks (s : State) (die : Nat) : Nat := (s.mram.openBlks.filter fun o => o.die == die).length
/-- Spool blocks of a die: SLC blocks of host data, open or closed (R281). -/
def State.spoolBlocks (s : State) (die : Nat) : Nat :=
  ((List.range (geoBlocks s)).filter fun b =>
    let st := s.blockSt die b
    (st == 1 || st == 2) && s.blockSlc die b && s.blockW1 die b / 128 % 2 == 0).length

/-- Take the least-worn free block of a die for a purpose, or refuse (R279, R298, R289): the block's STATE becomes open,
and SLC and PARITY are set, in one journaled write, whose record is that of word 1; the block enters the open-block table. -/
def State.allocBlock (s : State) (die purpose : Nat) (slcBit : Bool) (ctx : Option Nat := none) : Option Nat × State :=
  match s.heap die with
  | [] => (none, s)
  | (e, b) :: t =>
    let resv := s.fld F.MED_SPOOL.FLUSH_RESV
    let hostFloor := s.fld F.MED_BALLAST.HOST_FLOOR
    let free := t.length
    let spoolMax := if s.media.spoolCut.contains die then resv else s.fld F.MED_SPOOL.MAX_BLK
    let okp : Bool := match purpose with
      | 1 => decide (hostFloor ≤ free)
      | 2 => decide (hostFloor ≤ free) && decide (s.spoolBlocks die < spoolMax)
      | 3 => decide (resv ≤ free)
      | 4 => true
      | 5 => decide (resv ≤ free)
      | _ => false
    if !okp || !s.inService die || decide (16 ≤ s.openBlocks die) then (none, s)
    else
      let slc := match purpose with | 1 => false | 2 => true | 4 => true | _ => slcBit
      let w1 := (if slc then 64 else 0) + (if purpose = 5 then 128 else 0)
      let idx := die * geoBlocks s + b
      let s := s.setHeap die t
      let w0 : Word64 := BitVec.ofNat 64 (65536 + e * 2 ^ 20)
      let (n, s) := s.jwrite 4 idx 1 (BitVec.ofNat 64 w1) ctx
      let s := if s.underRebuild 4 idx then s.queueRebuild 4 idx 0 w0 n else s.applyWord 4 idx 0 w0 n
      let use := match purpose with | 3 => 1 | 5 => 2 | _ => 0
      let s := { s with mram := { s.mram with openBlks := s.mram.openBlks ++ [({ die := die, block := b, use := use, allocSeq := n } : OpenBlk)] } }
      (some b, s.ballastCheck die)

/-- Leave the open-block table: the block is closed or retired. -/
def State.closeBlockEntry (s : State) (die block : Nat) : State :=
  { s with mram := { s.mram with openBlks := s.mram.openBlks.filter fun o => !(o.die == die && o.block == block) } }

/-- The hardware closes an open block (R278). -/
def State.closeBlock (s : State) (die block : Nat) : State :=
  if s.blockSt die block = 1 then
    (s.tjrn 4 (die * geoBlocks s + block) 0 (setBits (s.blockW0 die block) 16 4 2)).closeBlockEntry die block
  else s

/-! ### Table access (R78 to R81, R118, R514) -/

/-- Words per entry (R118). -/
def tabWords (tbl : Nat) : Nat := match tbl with | 2 => 8 | 4 => 2 | 5 => 8 | 6 => 8 | 8 => 4 | _ => 1
def tabKnown (tbl : Nat) : Bool := decide (1 ≤ tbl) && decide (tbl ≤ 8)
def tabJournaled (tbl : Nat) : Bool := tbl == 1 || tbl == 2 || tbl == 4 || tbl == 5 || tbl == 6

/-- Read right of a class on a table (R78). -/
def tabRead (c : EngClass) (tbl : Nat) : Bool :=
  match tbl, c with
  | 1, .map | 1, .pol | 2, .cmd | 2, .map | 2, .pol | 3, .map | 3, .pol | 4, .map | 4, .seq | 4, .pol
  | 5, .cmd | 5, .map | 5, .pol | 6, .cmd | 6, .map | 6, .pol | 7, _ | 8, .map | 8, .seq | 8, .pol => true
  | _, _ => false
/-- TPUT right (R78). -/
def tabW (c : EngClass) (tbl : Nat) : Bool :=
  match tbl, c with
  | 3, .map | 3, .pol | 7, .pol | 8, .seq | 8, .pol => true
  | _, _ => false
/-- Journaled-write right (R78). -/
def tabJ (c : EngClass) (tbl : Nat) : Bool :=
  match tbl, c with
  | 1, .map | 2, .map | 2, .pol | 4, .pol | 5, .pol | 6, .pol => true
  | _, _ => false

/-- The index lies within the configured size of the table (R514). -/
def tabInBounds (s : State) (tbl index : Nat) : Bool :=
  match tbl with
  | 1 => s.nsids.any fun n => !s.nsZoned n && decide (s.nsBase n ≤ index) && decide (index < s.nsBase n + s.nsIus n)
  | 2 => (s.nsids.any fun n => s.nsZoned n && decide (s.nsBase n ≤ index) && decide (index < s.nsBase n + s.nsZones n))
      || s.map.listUsed.contains index
  | 3 => decide (index < 1024)
  | 4 => decide (index < 1024 * geoBlocks s)
  | 5 => decide (index < 4096)
  | 6 => decide (index < 16384)
  | 7 => decide (index < s.zyn.bundle.param.length)
  | 8 => decide (index < 1024)
  | _ => false

/-- Offsets of a group in the PART 0 layout of DIE word 1 (R269). -/
def State.offset (s : State) (die group i : Nat) : Int := sgetD 0 ((die * 64 + group) * 16 + i) s.media.offsets
def part0Word (s : State) (die : Nat) : Word64 :=
  let g := sgetD 0 die s.media.lastGroup
  let field (i : Nat) : Nat := Int.toNat (Int.emod (s.offset die g i) 128)
  BitVec.ofNat 64 (g + (List.range 8).foldl (fun a i => a + field i * 2 ^ (8 + 7 * i)) 0)

/-- Value of a table word (R118, R269, R279, R514). -/
def State.tabGet (s : State) (tbl index word : Nat) : Word64 :=
  let t := s.zyn.tab
  match tbl with
  | 1 => sgetD 0 index t.map
  | 2 => sgetD 0 (index * 8 + word) t.zdesc
  | 3 => s.heapWord index
  | 4 => if s.populated (index / max 1 (geoBlocks s)) then sgetD 0 (index * 8 + word) t.block
    else if word = 0 then BitVec.ofNat 64 (3 * 65536) else 0
  | 5 => sgetD 0 (index * 8 + word) t.tenant
  | 6 => sgetD 0 (index * 8 + word) t.nsrec
  | 7 => sgetD (s.zyn.bundle.param.getD index 0) index t.param
  | 8 => if !s.populated index then 0 else if word = 1 then part0Word s index else sgetD 0 (index * 8 + word) t.die
  | _ => 0

/-- A TPUT of DIE word 1 (R269): PART 0 is staged, PART 1 of the same group and context applies all 15 offsets. -/
def State.putOffsets (s : State) (die : Nat) (v : Word64) (ctx : Nat) : State :=
  let n := v.toNat
  let g := n % 64
  let part := n / 64 % 2
  let fs : List Int := (List.range 8).map fun i =>
    let f : Nat := n / 2 ^ (8 + 7 * i) % 128
    if f < 64 then (f : Int) else (f : Int) - 128
  let rej (s : State) : State := s.raise F.MED_EVT.TRACK_REJECT
  if n / 128 % 2 ≠ 0 || fs.any (fun f => decide (63 < f.natAbs)) then rej s
  else if part = 0 then { s with media := { s.media with part0 := sput die (ctx, g, fs) s.media.part0 } }
  else match sget die s.media.part0 with
    | some (c, g', fs0) =>
      if c = ctx && g' = g && fs.getD 7 0 = 0 then
        let all := fs0 ++ fs.take 7
        { s with media := { s.media with
          part0 := sdel die s.media.part0, lastGroup := sput die g s.media.lastGroup
          offsets := (all.zipIdx).foldl (fun m (f, i) => sputD 0 ((die * 64 + g) * 16 + i) f m) s.media.offsets } }
      else rej s
    | none => rej s

/-- A write of a word of a non-journaled table (R79, R279, R269, R514). -/
def State.tabPut (s : State) (tbl index word : Nat) (v : Word64) (ctx : Nat) : State :=
  let t := s.zyn.tab
  match tbl with
  | 3 =>
    let b := v.toNat % 2 ^ 15
    let k := index * 2 ^ 15 + b
    if v.toNat / 2 ^ 60 % 8 = 6 && s.media.erased.contains k && s.inService index then
      let w := s.blockW0 index b
      let s := s.tjrn 4 (index * geoBlocks s + b) 0 (setBits w 16 4 0)
      ({ s with media := { s.media with erased := s.media.erased.filter (· != k) } }.setHeap index
        (heapInsert (blkErase w, b) (s.heap index))).ballastCheck index
    else s.raise F.MED_EVT.HEAP_REJECT
  | 7 => s.setTab { t with param := sput index v t.param }
  | 8 =>
    if word = 1 then s.putOffsets index v ctx
    else s.setTab { t with die := sputD 0 (index * 8 + word) v t.die }
  | _ => s

/-- The write changes what the BLOCK record says of its block: the open-block table follows STATE (R278, R298). -/
def State.afterBlockWrite (s : State) (tbl index word : Nat) (v : Word64) : State :=
  if tbl = 4 && word = 0 && blkState v.toNat ≠ 1 then
    let die := index / max 1 (geoBlocks s)
    let blk := index % max 1 (geoBlocks s)
    (s.closeBlockEntry die blk).when (blkState v.toNat == 3) fun s =>
      ((s.raise F.MED_EVT.RETIRED).count F.MED_RETIRED_CNT.COUNT).entry 0x12 sevFault
  else s

end Sys2Proof.Machine
end

