-- ==== Sys2Proof/Machine/OpsHost.lean ====
section
/-! DEFINITION. Commands in flight: contexts, locks, completion, ending without a CQE (05_command_intake.md, R189 to R196). -/
namespace Sys2Proof

/-! ### Fields of the SQE -/

def Sqe.slba (q : Sqe) : Nat := q.cdw10.toNat + q.cdw11.toNat * 2 ^ 32
/-- Number of logical blocks (0-based in CDW12). -/
def Sqe.nlb (q : Sqe) : Nat := q.cdw12.toNat % 65536 + 1
def Sqe.opcode (q : Sqe) : Nat := q.opc.toNat
/-- Dataset Management with deallocate. -/
def Sqe.dealloc (q : Sqe) : Bool := q.opcode == 0x09 && q.cdw11.getLsbD 2
/-- Write-type opcodes (R156). -/
def Sqe.writeType (q : Sqe) : Bool :=
  q.opcode == 0x01 || q.opcode == 0x04 || q.opcode == 0x08 || q.opcode == 0x19 || q.opcode == 0x7D || q.dealloc
/-- Read-type commands of the latency histograms (R445). -/
def Sqe.readType (q : Sqe) : Bool := q.opcode == 0x02 || q.opcode == 0x05 || q.opcode == 0x0C || q.opcode == 0x82
/-- Buffers a write-type command reserves at admission (R189). -/
def Sqe.buffers (q : Sqe) : Nat :=
  match q.opcode with
  | 0x01 | 0x7D => q.nlb
  | 0x19 => (q.ranges.map fun (_, n) => n + 1).sum
  | _ => 0

/-- Ranges and modes of the range lock a command takes, in logical blocks (R152, R161). -/
def Sqe.ranges? (q : Sqe) : List (Nat × Nat × Machine.LockMode) :=
  match q.opcode with
  | 0x01 | 0x04 => [(q.slba, q.nlb, .excl)]
  | 0x08 => [(q.slba, q.nlb, .excl)]
  | 0x02 | 0x82 | 0x0C => [(q.slba, q.nlb, .shared)]
  | 0x05 => [(q.slba, q.nlb, if q.fuse == 1 then .excl else .shared)]
  | 0x09 => if q.dealloc then q.ranges.map fun (a, n) => (a, n, .excl) else []
  | 0x19 => (q.slba, q.buffers, .excl) :: q.ranges.map fun (a, n) => (a, n + 1, .shared)
  | _ => []

/-- The command takes a range lock. -/
def Sqe.ranged (q : Sqe) : Bool := !q.ranges?.isEmpty

end Sys2Proof

namespace Sys2Proof.Machine

def State.cmd (s : State) (c : Nat) : Option Cmd := sget c s.host.cmds
def State.setCmd (s : State) (c : Nat) (x : Cmd) : State := { s with host := { s.host with cmds := sput c x s.host.cmds } }
def State.modCmd (s : State) (c : Nat) (f : Cmd → Cmd) : State :=
  match s.cmd c with | some x => s.setCmd c (f x) | none => s

/-- Highest CMD_INFLIGHT.CUR since the last read (CMD_INFLIGHT_MAX). -/
def State.inflightMax (s : State) : State :=
  (s.maxFld F.CMD_INFLIGHT_MAX.MAX s.host.cmds.length).gauge 1 s.host.cmds.length

/-- The context is freed (R176). -/
def State.freeCmd (s : State) (c : Nat) : State :=
  match s.cmd c with
  | none => s
  | some x => ({ s with host := { s.host with cmds := sdel c s.host.cmds } }).ctxGone c x.func

/-- Tenant record word of a function (R182). -/
def State.tenWord (s : State) (f word : Nat) : Nat := (sgetD 0 (f * 8 + word) s.zyn.tab.tenant).toNat
/-- STATE: 0 NONE, 1 OFFLINE, 2 ONLINE, 3 RESETTING. -/
def State.tenState (s : State) (f : Nat) : Nat := s.tenWord f 0 % 4
def State.tenClass (s : State) (f : Nat) : Nat := s.tenWord f 0 / 4 % 8
def State.tenAccount (s : State) (f : Nat) : Nat := s.tenWord f 0 / 32 % 8192

/-- QoS class of a command: its classification's, or its function's (R204, R205). -/
def State.cmdClass (s : State) (x : Cmd) : Nat :=
  if x.classified && x.scr != 0xFFFFFFFFFFFFFFFF && x.scr.getLsbD 7 then x.scr.toNat / 16 % 8 else s.tenClass x.func

/-- Fields of the Seating Chart result (R204); all ones means no match. -/
def Cmd.matched (x : Cmd) : Bool := x.classified && x.scr != 0xFFFFFFFFFFFFFFFF
def Cmd.deny (x : Cmd) : Bool := x.matched && x.scr.getLsbD 31
def Cmd.phandle (x : Cmd) : Nat := if x.matched then x.scr.toNat / 2 ^ 32 % 65536 else 0
def Cmd.filterId (x : Cmd) : Nat := if x.matched then x.scr.toNat / 2 ^ 48 else 0
def Cmd.keySlot (x : Cmd) : Option Nat := if x.matched && x.scr.getLsbD 24 then some (x.scr.toNat / 256 % 65536) else none

/-! ### Range-Lock Table (R161 to R165) -/

/-- Units of 4 096 B of a range; a 512 B namespace is widened outward (R161). -/
def lockUnits (s : State) (nsid first n : Nat) : Nat × Nat :=
  if s.nsLbaf nsid = 2 && n != 0 then (first / 8, (first + n + 7) / 8 - first / 8) else (first, n)

/-- Two ranges overlap; a range of no blocks overlaps nothing (R161). -/
def rangesMeet (f n f' n' : Nat) : Bool := n != 0 && n' != 0 && decide (f < f' + n') && decide (f' < f + n)

/-- Two requests conflict (R161). -/
def lockConflict (a b : LockReq) : Bool :=
  a.nsid == b.nsid && a.ranges.any fun (f, n, m) => b.ranges.any fun (f', n', m') => rangesMeet f n f' n' && (m == .excl || m' == .excl)

/-- Two X ranges of the requests overlap (R165). -/
def lockConflictX (a b : LockReq) : Bool :=
  a.nsid == b.nsid && a.ranges.any fun (f, n, m) => b.ranges.any fun (f', n', m') => rangesMeet f n f' n' && m == .excl && m' == .excl

/-- Request of a command, entered at admission (R161); `sq` is the key of its queue: a range of more than 3 regions of 256 units goes on the wide list. -/
def mkLock (s : State) (c fsn sq : Nat) (q : Sqe) : LockReq :=
  let rs := q.ranges?.map fun (a, n, m) => let (f, k) := lockUnits s q.nsid.toNat a n; (f, k, m)
  { cmd := c, fsn := fsn, nsid := q.nsid.toNat, sq := sq, ranges := rs
    wide := rs.any fun (f, k, _) => decide (3 < (f + k + 255) / 256 - f / 256) }

def State.lock (s : State) (c : Nat) : Option LockReq := s.host.rlt.find? (·.cmd == c)
def State.modLock (s : State) (c : Nat) (f : LockReq → LockReq) : State :=
  { s with host := { s.host with rlt := s.host.rlt.map fun r => if r.cmd == c then f r else r } }
/-- Release or withdraw a command's request (R162, R164). -/
def State.dropLock (s : State) (c : Nat) : State :=
  { s with host := { s.host with rlt := s.host.rlt.filter (·.cmd != c) } }

/-- An armed request may be granted: no conflicting request with a lower FSN is held or entered, and a wide request has one of
the 256 entries (R162, R163). -/
def lockFree (s : State) (r : LockReq) : Bool :=
  r.armed && !r.held &&
  !(s.host.rlt.any fun o => decide (o.fsn < r.fsn) && lockConflict o r) &&
  (!r.wide || decide ((s.host.rlt.filter fun o => o.wide && decide (o.fsn < r.fsn)).length < 256))

/-- Count a write conflict across SQs (R165). -/
def State.lockConflicts (s : State) (r : LockReq) : State :=
  s.when (s.host.rlt.any fun o => decide (o.fsn < r.fsn) && lockConflictX o r && o.sq != r.sq)
    fun s => (s.count F.CMD_CONFLICT_CNT.COUNT).entry 0x06 sevInfo

/-! ### Zone locks (R134, R240) -/

def State.zlock (s : State) (z : Nat) : Bool × List ZHolder := sgetD (false, []) z s.host.zlocks
def State.setZlock (s : State) (z : Nat) (l : Bool × List ZHolder) : State :=
  { s with host := { s.host with zlocks := sputD (false, []) z l s.host.zlocks } }
/-- Ask for a zone lock; it is held at once when nothing waits before. -/
def State.askZone (s : State) (z : Nat) (h : ZHolder) : Bool × State :=
  let (held, l) := s.zlock z
  if l.isEmpty then (true, s.setZlock z (true, [h])) else (false, s.setZlock z (held, l ++ [h]))
/-- A holder or waiter leaves; the lock is free when its holder left. -/
def State.leaveZone (s : State) (z : Nat) (h : ZHolder) : State :=
  let (held, l) := s.zlock z
  match l with
  | x :: t => if x == h then s.setZlock z (false, t) else s.setZlock z (held, x :: t.filter (· != h))
  | [] => s
def State.holdsZone (s : State) (z : Nat) (h : ZHolder) : Bool :=
  match s.zlock z with | (true, x :: _) => x == h | _ => false

/-! ### Latency histograms (R445) -/

/-- Bin of a latency in ns. -/
def latBin (ns : Nat) : Nat :=
  let e (k : Nat) : Nat := (2 + k % 2) * 2 ^ (k / 2 + 3) * 1000
  (List.range 31).foldl (fun b k => if e k ≤ ns then k + 1 else b) 0

/-- Count a posted I/O command in the histograms of its class and function. -/
def State.latency (s : State) (x : Cmd) : State :=
  let b := latBin (s.now - x.arrival.toNat)
  let k := (s.cmdClass x * 2 + (if x.sqe.readType then 0 else 1)) * 32 + b
  let cur := s.gb.cur
  ({ s with gb := { s.gb with cur := { cur with
      lat := sput k (min (sgetD 0 k cur.lat + 1) 0xFFFFFFFF) cur.lat
      flat := sput (x.func * 32 + b) (sgetD 0 (x.func * 32 + b) cur.flat + 1) cur.flat } } }).gaugeAdd 0 1

/-! ### Staging slots (R516) -/

def stKey (chan slot : Nat) : Nat := chan * 128 + slot
/-- A staging slot is free again; data still to come is discarded on arrival (R136, R250). -/
def State.freeSlot (s : State) (k : Nat) : State :=
  match sget k s.media.slots with
  | none => s
  | some x =>
    if x.fenced then { s with media := { s.media with slots := sput k { x with data := none, spec := false, cmd := none, discard := false, acc := false } s.media.slots } }
    else if x.data.isNone && !x.acc then { s with media := { s.media with slots := sput k { x with discard := true, cmd := none } s.media.slots } }
    else { s with media := { s.media with slots := sdel k s.media.slots } }

/-- Free the staging slots a command holds. -/
def State.freeCmdSlots (s : State) (c : Nat) : State :=
  s.each (s.media.slots.filter fun (_, x) => x.cmd == some c) fun s (k, _) => s.freeSlot k

/-! ### Ending a command -/

/-- Distinct key slots a command is classified to (R374). -/
def Cmd.slots (x : Cmd) : List Nat := (x.keys.map (·.2)).dedup

/-- Key-slot command counts (R374, R378): the command no longer counts on its slots. -/
def State.dropKey (s : State) (x : Cmd) : State :=
  s.each x.slots fun s k => { s with sec := { s.sec with counts := sputD 0 k (sgetD 0 k s.sec.counts - 1) s.sec.counts } }

/-- Key slot of the block at an offset of a command (R375). -/
def slotAt : List (Nat × Nat) → Nat → Option Nat
  | [], _ => none
  | (n, k) :: t, o => if o < n then some k else slotAt t (o - n)

/-- A 512-byte sector of a 4 KiB block, and its replacement. -/
def sector (b : Block) (i : Nat) : BitVec 4096 := b.extractLsb' (4096 * i) 4096
def setSector (b : Block) (i : Nat) (v : BitVec 4096) : Block :=
  (b &&& ~~~(BitVec.setWidth 32768 (BitVec.allOnes 4096) <<< (4096 * i))) ||| (BitVec.setWidth 32768 v <<< (4096 * i))

/-- First LBA a command names: the assigned one of a Zone Append (R27), else its SLBA. -/
def Cmd.first (x : Cmd) : Nat := x.assigned.getD x.sqe.slba
/-- Key of a command's logical block (R375); none: no slot applies. -/
def State.keyAt (s : State) (x : Cmd) (lba : Nat) : Option XtsKey := (slotAt x.keys (lba - x.first)).bind fun k => sget k s.sec.slots

/-- AES-XTS of one logical block of 512 bytes, its LBA the data unit number (R19, R225). -/
def State.secEnc (s : State) (x : Cmd) (lba : Nat) (v : BitVec 4096) : BitVec 4096 :=
  match s.keyAt x lba with | some k => Config.xtsS k lba v | none => v
def State.secDec (s : State) (x : Cmd) (lba : Nat) (v : BitVec 4096) : BitVec 4096 :=
  match s.keyAt x lba with | some k => (Config.xtsS k lba).symm v | none => v

/-- AES-XTS of 4 KiB at an LBA under the classified key (R19): one data unit, or eight sectors of a 512-byte format (R225). A namespace
with no key slot has none applied; the spec names no such namespace. -/
def State.xtsEnc (s : State) (x : Cmd) (lba : Nat) (b : Block) : Block :=
  if s.nsLbaf x.sqe.nsid.toNat = 2 then (List.range 8).foldl (fun a i => setSector a i (s.secEnc x (lba + i) (sector b i))) b
  else match s.keyAt x lba with | some k => Config.xts k lba b | none => b
def State.xtsDec (s : State) (x : Cmd) (lba : Nat) (b : Block) : Block :=
  if s.nsLbaf x.sqe.nsid.toNat = 2 then (List.range 8).foldl (fun a i => setSector a i (s.secDec x (lba + i) (sector b i))) b
  else match s.keyAt x lba with | some k => (Config.xts k lba).symm b | none => b

/-- Unused reservation returns to the pool (R189). -/
def State.dropResv (s : State) (c : Nat) : State :=
  match s.cmd c with
  | some x => if x.resv = 0 then s else (s.setCmd c { x with resv := 0 }).unreserve (s.tenAccount x.func) x.resv
  | none => s

/-- Reserved zone blocks of a command that ends before its commit point are filled as Write Uncorrectable (R241). -/
def State.voidZone (s : State) (c : Nat) : State :=
  let mine := s.map.reserved.filter fun (_, x, _, _) => x == c
  s.each mine fun s (z, x, first, n) =>
    ({ s with map := { s.map with
      reserved := s.map.reserved.filter (· != (z, x, first, n))
      voids := (List.range n).foldl (fun (l : List Nat) i => (z * 2 ^ 21 + first + i) :: l) s.map.voids } }).raise F.MAP_EVT.VOID_FILL

/-- The commit point of a zoned write: WP takes the pointer its reservation gave, unless it is past that already (R240). -/
def State.zoneCommit (s : State) (c : Nat) : State :=
  s.each (s.map.reserved.filter fun (_, x, _, _) => x == c) fun s (z, x, first, n) =>
    let s := { s with map := { s.map with reserved := s.map.reserved.filter (· != (z, x, first, n)) } }
    s.tjrn 2 z 0 (setBits (s.zw z 0) 32 21 (max (s.zwp z) (first + n)))

/-- Buffers of a write that ends before its commit point: blocks whose map change is journaled stay, the others are
released (R169). -/
def State.dropBufs (s : State) (x : Cmd) : State :=
  s.each x.bufs fun s h => match s.buf h with
    | some b => if b.wsn = 0 then s.freeBuf h else s
    | none => s

/-- Release the zone barrier of a command (R243). -/
def State.dropBarrier (s : State) (c : Nat) : State :=
  { s with host := { s.host with barriers := s.host.barriers.filter fun (_, _, x) => x != c } }

/-- A Filtered Read gives up its Pattern Automata engine or its place in line; the waiting command with the lowest FSN takes a free
engine (R224). -/
def State.dropEngine (s : State) (c : Nat) : State :=
  let s := { s with sc := { s.sc with engines := s.sc.engines.filter fun (_, v) => v != c, pauWait := s.sc.pauWait.filter (· != c) } }
  let fsn (x : Nat) : Nat := match s.cmd x with | some m => m.fsn | none => 0
  let next := s.sc.pauWait.foldl (fun (o : Option Nat) x => match o with
    | none => some x | some y => if fsn x < fsn y then some x else some y) none
  match next, (List.range 8).find? fun e => (sget e s.sc.engines).isNone with
  | some x, some e => { s with sc := { s.sc with engines := sput e x s.sc.engines, pauWait := s.sc.pauWait.filter (· != x) } }
  | _, _ => s

/-- Post the CQE of a command whose entry is reserved: its commit point is past (R134, R164, R166, R176). Locks, barrier,
staging, unused reservation and key count are dropped; a write's buffers count as dirty data and its context stays until
R23 step 6; every other context is freed. -/
def State.postCmd (s : State) (c sct sc : Nat) (dw0 dw1 : Word) : State :=
  match s.cmd c with
  | none => s
  | some x =>
    let s := s.when (!x.admin) (·.latency x)
    let q := s.sq x.func x.sqid
    let s := s.postCqe x.func ((q.map (·.cq)).getD 0)
      { dw0 := dw0, dw1 := dw1, sqhd := (q.map (·.head)).getD 0, sqid := x.sqid, cid := x.sqe.cid, sct := sct, sc := sc }
    let s := ((((s.dropLock c).dropBarrier c).freeCmdSlots c).dropResv c).dropKey x
    let s := s.dropEngine c
    if sct = 0 && sc = 0 && !x.bufs.isEmpty then
      ((s.zoneCommit c).ackBufs x.bufs).modCmd c fun x => { x with st := .posted, committed := true, dirty := x.bufs.length, keys := [], cqWait := none }
    else (((s.when (sct == 0 && sc == 0 && x.placed) (·.zoneCommit c)).dropBufs x).voidZone c).freeCmd c

/-- End a command without a CQE (R171, R194): its locks and resources go, a write with all its data in the pool stands as
committed and not acknowledged (R196). -/
def State.vanish (s : State) (c : Nat) : State :=
  match s.cmd c with
  | none => s
  | some x =>
    let s := ((((s.dropLock c).dropBarrier c).freeCmdSlots c).dropResv c).dropKey x
    let s := s.dropEngine c
    let s := if x.placed then s.zoneCommit c else (s.dropBufs x).voidZone c
    s.freeCmd c

/-- The Aborts of a command that ended aborted complete (R168, R169). -/
def State.abortsDone (s : State) (f c : Nat) : State :=
  let g := s.func f
  (s.setFunc f { g with aborts := g.aborts.filter (·.2 != c) }).each (g.aborts.filter (·.2 == c)) fun s (cid, _) =>
    (s.ok f cid).count F.CMD_ABORT_CNT.ABORTED

/-- The other half of a fused pair whose Compare has ended with this status (R159); none: the Compare succeeded, or it is no such command. -/
def Cmd.pairFails (x : Cmd) (sct sc : Nat) : Option Nat :=
  if x.sqe.fuse = 1 && (sct != 0 || sc != 0 || x.abort) then x.fused else none

/-- Complete one command with a status: the CQ entry is reserved and the CQE posted, or the completion waits for a free entry
with the status kept in CMD.STATUS (R166, R167). An abort marked before gives Command Abort Requested (R134); a function under reset gets no CQE (R171, R194). -/
def State.finishOne (s : State) (c sct sc : Nat) (dw0 : Word := 0) (dw1 : Word := 0) : State :=
  match s.cmd c with
  | none => s
  | some x =>
    if x.committed then s
    else if (s.func x.func).resetting || (s.func x.func).flr then s.vanish c
    else
      let full := s.flushing || match (s.sq x.func x.sqid).bind fun q => s.cq x.func q.cq with | some q => q.full | none => false
      if full then s.setCmd c { x with status := BitVec.ofNat 64 (sct * 256 + sc), cqWait := some (dw0, dw1) }
      else
        let s := s.setCmd c { x with committed := true, st := .committed }
        if x.abort then
          (s.postCmd c 0 0x07 0 0).abortsDone x.func c
        else s.postCmd c sct sc dw0 dw1

/-- Complete a command with a status; where it is the Compare of a fused pair and does not succeed, its Write completes with Command Aborted due
to Failed Fused Command (R159; its code 0 / 0x09 is PRESUMED). -/
def State.finish (s : State) (c sct sc : Nat) (dw0 : Word := 0) (dw1 : Word := 0) : State :=
  match (s.cmd c).bind fun x => if x.committed || x.cqWait.isSome then none else (x.pairFails sct sc).map fun w => (x.func, w) with
  | some (f, w) =>
    let t := s.finishOne c sct sc dw0 dw1
    (t.when (t.cmd w).isSome fun t => t.setFunc f { t.func f with errors := (0, 0x09) :: (t.func f).errors }).finishOne w 0 0x09
  | none => s.finishOne c sct sc dw0 dw1

/-- Status of a command denied before it touches anything (R204). -/
def State.denied (s : State) (c : Nat) : State := s.finish c 2 0x86

end Sys2Proof.Machine
end

