-- ==== Sys2Proof/Machine/OpsZyn.lean ====
section
/-! DEFINITION. Traps, ends of activations, speculation, table operations and the issue of Zyn instructions
(03_zyn_model.md, R108 to R111, R118 to R120, R135 to R138). -/
namespace Sys2Proof.Machine

/-! ### Trap causes (R99) -/
def cBudget : Nat := 0x01
def cWaitLimit : Nat := 0x02
def cBusError : Nat := 0x03
def cIllegal : Nat := 0x04
def cTableBounds : Nat := 0x05
def cTablePerm : Nat := 0x06
def cScratch : Nat := 0x07
def cCallDepth : Nat := 0x08
def cTagLimit : Nat := 0x09
def cActOpen : Nat := 0x0A
def cSoftware : Nat := 0x0B

/-- Functions that exist: PFs and listed ones. -/
def State.funcList (s : State) : List Nat :=
  let l := s.host.funcs.map (·.1)
  let l := if l.contains 0 then l else 0 :: l
  if s.x4x4 && !l.contains 2048 then l ++ [2048] else l

/-- CSTS.CFS is set on every function, which stops its fetch (R103, R156). -/
def State.cfsAll (s : State) : State :=
  s.each s.funcList fun s f => s.setFunc f { s.func f with cfs := true, stop := true }

/-- Double fault: HALTED, CFS on every function, a Critical entry; dispatch stops in every class (R103). -/
def State.doubleFault (s : State) : State :=
  (((s.setFld F.ZYN_STATUS.STATE 4).raise F.ZYN_STATUS.DOUBLE_FAULT).cfsAll).entry 0x20 sevCritical

/-! ### Speculation (R91, R135 to R138) -/

/-- A request that has issued goes on without its context; `keep`: its result will be held (R100). -/
def NandReq.orphan (f : NandReq → Bool) (keep : Bool) (r : NandReq) : NandReq :=
  if f r then { r with ctx := none, held := if keep then r.ctx else none } else r

/-- The same of a program unit. -/
def Unit_.orphan (f : NandReq → Bool) (keep : Bool) (u : Unit_) : Unit_ :=
  if f { op := .erase, kind := 0, addr := u.addr, ctx := u.ctx, cls := 3 } then { u with ctx := none, held := if keep then u.ctx else none } else u

/-- Drop the requests that have not issued, and let the issued ones end without their context. -/
def State.dropReqs (s : State) (f : NandReq → Bool) (keep : Bool := false) : State :=
  let lun (l : Lun) : Lun :=
    { l with
      queue := l.queue.filter (!f ·)
      run := match l.run with
        | .read r => .read (r.orphan f keep)
        | .erase r => .erase (r.orphan f keep)
        | .program u => .program (u.orphan f keep)
        | x => x
      unit := l.unit.map (·.orphan f keep)
      readRun := l.readRun.map (·.orphan f keep) }
  { s with media := { s.media with
    luns := s.media.luns.map fun (d, l) => (d, lun l)
    envQ := s.media.envQ.filter (!f ·)
    decoding := s.media.decoding.map fun d => { d with req := d.req.orphan f keep } } }

/-- Discard an unconfirmed speculation: its tag is free, its slots are freed or discarded on arrival, its line is unpinned. -/
def State.discardSpec (s : State) (i : CtxId) (p : Spec) : State :=
  let s := s.modCtx i fun c => { c with tags := c.tags &&& ~~~(1#16 <<< p.tag), specs := c.specs.filter (·.tag != p.tag) }
  let s := match p.slots with
    | some (k, n) => s.each (List.range n) fun s j => s.freeSlot (k + j)
    | none => s
  let s := match p.map with
    | some (z, idx, _, _) => (s.pinLine (if z then zdescLine idx else mapLine idx) false).when p.sent fun s => (s.countMod F.MAP_SPEC_SQUASHED.COUNT).gaugeAdd 8 1
    | none => s
  s.dropReqs fun r => r.ctx == some (i.key, p.tag)

/-- Discard every unconfirmed speculation of a context. -/
def State.discardSpecs (s : State) (i : CtxId) : State := s.each (s.ctx i).specs fun s p => s.discardSpec i p

/-- Tags in use but for unconfirmed speculations (R138). -/
def Ctx.openTags (c : Ctx) : BitVec 16 := c.specs.foldl (fun t p => t &&& ~~~(1#16 <<< p.tag)) c.tags

/-- LUNs suspended by NSUS of a context resume at the end of its activation (R132). -/
def State.resumeSuspended (s : State) (i : CtxId) : State :=
  s.each (s.ctx i).susp fun s d =>
    let l := s.lun d
    if l.suspBy == some i.key then s.setLun d { l with suspended := false, suspBy := none, since := s.ttu.elapsed } else s

/-- Release the zone locks held by an activation (R100). -/
def State.releaseZones (s : State) (i : CtxId) : State :=
  s.each (s.ctx i).zlocks fun s z => s.leaveZone z ((s.zlock z).2.headD (.cmd 0))

/-- Unbind the mailboxes of a context (R123). -/
def State.unbindMail (s : State) (i : CtxId) : State :=
  { s with zyn := { s.zyn with mailOwner := s.zyn.mailOwner.filter fun (_, o) => o != i.key } }

/-- Device operations of a context that have not issued are abandoned; those issued to NAND complete without it, and at a trap (`keep`)
their results are held (R73, R100). -/
def State.abandonOps (s : State) (i : CtxId) (keep : Bool := false) : State := s.dropReqs (fun r => (r.ctx.map (·.1)) == some i.key) keep

/-- The context goes IDLE: speculation squashed, mailboxes unbound, suspended LUNs resumed (R73). -/
def State.idle (s : State) (i : CtxId) : State :=
  let s := ((s.discardSpecs i).resumeSuspended i).unbindMail i
  { s with zyn := { s.zyn with ctxs := sdel i.key s.zyn.ctxs } }

/-- Counter of traps of a class. -/
def trapCnt : EngClass → Field
  | .cmd => F.ZYN_TRAP_CNT_CMD.COUNT | .map => F.ZYN_TRAP_CNT_MAP.COUNT
  | .seq => F.ZYN_TRAP_CNT_SEQ.COUNT | .pol => F.ZYN_TRAP_CNT_POL.COUNT

/-- The command, by its FSN, and kind that trapped, for the rule of the second trap (R102). -/
def faultKey (s : State) (i : CtxId) (c : Ctx) : Option (Nat × BitVec 2 × BitVec 5) :=
  (c.cmd.bind s.cmd).map fun x => (x.fsn, BitVec.ofNat 2 i.cls.num, c.kind)

/-- The request that an activation runs (R82). -/
def Ctx.request (c : Ctx) : Request :=
  { kind := c.kind, arg0 := c.arg0, arg1 := c.arg1, arg2 := c.arg2, arg3 := c.arg3, origin := c.origin, cmd := c.cmd }

/-- Trap (R100, R102, R103): squash, abandon what has not issued, release zone locks, queue the fault record, count. The
command's range lock, buffers and context stay. -/
def State.trap (s : State) (i : CtxId) (cause pc : Nat) (addr : Word64 := 0) : State :=
  let c := s.ctx i
  let r : FaultRec := { cause := BitVec.ofNat 8 cause, ctxId := BitVec.ofNat 11 i.key, kind := c.kind, pc := pc, addr := addr,
                        cmd := c.cmd, timeUs := s.now / 1000, req := c.request, fsn := (c.cmd.bind s.cmd).map (·.fsn) }
  let s := ((s.discardSpecs i).abandonOps i true).releaseZones i
  let s := s.count (trapCnt i.cls)
  let s := ((((s.setFld F.ZYN_FAULT_LAST0.CAUSE cause).setFld F.ZYN_FAULT_LAST0.CLASS i.cls.num).setFld F.ZYN_FAULT_LAST0.ENGINE i.eng).setFld
    F.ZYN_FAULT_LAST0.CONTEXT i.ctx).setFld F.ZYN_FAULT_LAST0.KIND c.kind.toNat
  let s := (s.setFld F.ZYN_FAULT_LAST1.PC pc).setPair R.ZYN_FAULT_ADDR_LO addr.toNat
  let s := (s.entry 0x10 sevFault).when (s.flag F.ZYN_CTRL.FAULT_AEN) (·.vendorEvent 0xD0)
  let s := s.idle i
  let isFault := i.cls == .pol && c.kind == 3
  let committed := match c.cmd.bind s.cmd with | some x => x.committed | none => false
  let again := match faultKey s i c with | some k => s.zyn.refault.contains k | none => false
  if isFault || decide (256 ≤ s.zyn.faultQ.length) || (again && committed) then s.doubleFault
  else
    let s := { s with zyn := { s.zyn with
      faultQ := s.zyn.faultQ ++ [r]
      refault := match faultKey s i c with | some k => (if again then s.zyn.refault else k :: s.zyn.refault) | none => s.zyn.refault } }
    match c.cmd with
    | some x => if again then s.finish x 0 0x06 else s
    | none => s

/-- A bus error of a synchronous access: the entry's vector, or a BUS_ERROR trap (R101). -/
def State.busError (s : State) (i : CtxId) (pc : Nat) (addr : Word64) : State :=
  let c := s.ctx i
  match c.bev with
  | some v =>
    if c.inVec then s.trap i cBusError pc addr
    else s.setCtx i { c with st := .ready, stack := [], pc := v, inVec := true, trapCause := BitVec.ofNat 8 cBusError, trapAddr := addr, trapPc := pc }
  | none => s.trap i cBusError pc addr

/-! ### Issue -/

/-- The context becomes BLOCKED, and its wait timer starts (R73, R88). -/
def State.blockOn (s : State) (i : CtxId) (w : Wait) : State := s.modCtx i fun c => { c with st := .blocked w, since := s.ttu.elapsed }

/-- Issue an instruction (R72, R75, R92, R98, R106, R110): only a READY context issues; a fetch beyond the code section and an
instruction outside the profile trap with ILLEGAL; a context whose count has reached BUDGET traps. `k` gets the context as it
was, in a state where the PC has moved past the instruction and the cost is counted. -/
def State.issue (s : State) (i : CtxId) (cost words : Nat) (prof : EngClass → Bool) (k : Ctx → State → State) : Res :=
  if !i.valid then noUnit
  else
    let c := s.ctx i
    if c.st ≠ .ready || !s.zynRuns then done s
    else if c.budget ≤ c.used then done (s.trap i cBudget c.last)
    else if (s.zyn.bundle.code i.cls).length < c.pc + words then done (s.trap i cIllegal c.pc (BitVec.ofNat 64 c.pc))
    else if !prof i.cls then done (s.trap i cIllegal c.pc)
    else done (k c (s.modCtx i fun c => { c with pc := c.pc + words, used := c.used + cost, last := c.pc }))

/-- Every profile. -/
def pAll (_ : EngClass) : Bool := true
def pIntake (c : EngClass) : Bool := c == .cmd
def pMap (c : EngClass) : Bool := c == .map
def pSeq (c : EngClass) : Bool := c == .seq
def pPol (c : EngClass) : Bool := c == .pol
def pPut (c : EngClass) : Bool := c == .map || c == .seq || c == .pol
def pJrn (c : EngClass) : Bool := c == .map || c == .pol

/-- Instruction that writes one register and has no other effect. -/
def State.alu (s : State) (i : CtxId) (cost : Nat) (d : BitVec 5) (f : Ctx → Word64) : Res :=
  s.issue i cost 1 pAll fun c s => s.modCtx i (·.setReg d (f c))

/-- Instruction that writes one predicate. -/
def State.predOp (s : State) (i : CtxId) (d : BitVec 3) (f : Ctx → Bool) : Res :=
  s.issue i 1 1 pAll fun c s => s.modCtx i (·.setPred d (f c))

/-- Target of a branch: words from the branch itself; below 0 is outside every code section (R106, R139). -/
def branchTo (pc : Nat) (off : Int) : Nat := if (pc : Int) + off < 0 then 262144 else ((pc : Int) + off).toNat

/-! ### Table operations (R79, R80, R118 to R120) -/

/-- A journaled write must wait: fill at 1 000, or a snapshot stalls the engine (R299, R63). -/
def State.jnlStalled (s : State) (i : CtxId) : Bool := s.flag F.JNL_STATUS.FULL || s.snapStalled i.part

/-- The word a journaled write of firmware leaves (R119): VALID of a BLOCK record stays the table unit's (R278). -/
def State.wordIn (s : State) (tbl index word : Nat) (v : Word64) : Word64 :=
  if tbl = 4 && word = 0 then BitVec.ofNat 64 (setBits v.toNat 0 16 ((s.tabGet 4 index 0).toNat % 65536)) else v

/-- Carry out a table operation in its slot (R119, R79). -/
def State.tableDo (s : State) (i : CtxId) (op : TableOp) (tbl index word : Nat) : State :=
  match op with
  | .get d => s.modCtx i (·.setReg d (s.tabGet tbl index word))
  | .put v => s.tabPut tbl index word v i.key
  | .cas d old new p =>
    let cur := s.tabGet tbl index word
    let ret (ok : Bool) (v : Word64) (s : State) : State := s.modCtx i fun c => (c.setReg d v).setPred p ok
    if tbl = 3 then
      if cur = old then
        match s.allocBlock index (new.toNat / 2 ^ 60 % 8) (new.getLsbD 0) (some i.key) with
        | (some _, t) => ret true cur t
        | (none, t) => ret false cur t
      else ret false cur s
    else if cur = old then
      let new := s.wordIn tbl index word new
      if tabJournaled tbl then ret true cur ((s.jwrite tbl index word new (some i.key)).2.afterBlockWrite tbl index word new)
      else ret true cur (s.tabPut tbl index word new i.key)
    else ret false cur s
  | .jrn d v =>
    let v := s.wordIn tbl index word v
    let (n, s) := s.jwrite tbl index word v (some i.key)
    (s.modCtx i (·.setReg d (BitVec.ofNat 64 n))).afterBlockWrite tbl index word v

/-- The operation may allocate a sequence number. -/
def TableOp.writes (op : TableOp) (tbl : Nat) : Bool :=
  match op with | .get _ => false | .put _ => false | .jrn _ _ => true | .cas _ _ _ _ => tabJournaled tbl || tbl == 3

/-- The entry is held on chip now (R80): map lines and descriptors by the map cache (R513), PARAM always; the spec does not
say where the others are, block-list entries among them, a free value. -/
def State.onChip (s : State) (tbl index : Nat) : Bool × State :=
  match lineOf tbl index (s.zs index) with
  | some l => s.touchLine l
  | none =>
    if tbl = 7 || (tbl = 2 && index < 1048576) then (true, s)
    else let (n, s) := s.draw; (n % 2 == 0, s)

/-- Start a table operation: on chip it is done at once; otherwise the context is BLOCKED until its data returns; a journaled
write may first wait for the journal, a read or a TCAS of an entry under rebuild for the
rebuild (R80, R299, R334). -/
def State.tableStart (s : State) (i : CtxId) (op : TableOp) (tbl index word : Nat) : State :=
  let block (w : Wait) (s : State) : State := s.blockOn i w
  if s.underRebuild tbl index && !(match op with | .jrn _ _ => true | _ => false) then block (.rebuild op (BitVec.ofNat 8 tbl) index word) s
  else if op.writes tbl && s.jnlStalled i then block (.journal op (BitVec.ofNat 8 tbl) index word) s
  else
    let (here, s) := s.onChip tbl index
    if here then s.tableDo i op tbl index word
    else block (.table op (BitVec.ofNat 8 tbl) index word) s

/-- Decode the locator and check it (R78, R118): the table, index and word, or the trap cause. -/
def locate (s : State) (cls : EngClass) (a : Word64) (tbl : BitVec 8) (right : EngClass → Nat → Bool) (write : Bool) : Except Nat (Nat × Nat × Nat) :=
  let n := a.toNat
  let index := n % 2 ^ 40
  let word := n / 2 ^ 40 % 8
  let id := n / 2 ^ 48 % 256
  let t := if tbl = 0 then id else tbl.toNat
  let resv := n / 2 ^ 43 % 32 ≠ 0 || n / 2 ^ 56 ≠ 0
  if resv || !tabKnown t then .error cIllegal
  else if !right cls t then .error cTablePerm
  else if tabWords t ≤ word || !tabInBounds s t index then .error cTableBounds
  else if write && (t = 4 && !s.populated (index / max 1 (geoBlocks s)) || t = 8 && !s.populated index) then .error cTableBounds
  else .ok (t, index, word)

/-- The new value exceeds the declared maximum of a PARAM entry (R81). -/
def State.overMax (s : State) (tbl index : Nat) (v : Word64) : Bool :=
  tbl == 7 && match sget index s.zyn.bundle.paramMax with | some m => decide (m < v.toNat) | none => false

/-- A table instruction: locate, check, start (R118 to R120). An allocation that a snapshot holds stalls in issue: the context stays READY
and issues the instruction again (R63, R98). -/
def State.tableInstr (s : State) (i : CtxId) (cost : Nat) (prof : EngClass → Bool) (right : EngClass → Nat → Bool)
    (write : Bool) (a : BitVec 5) (tbl : BitVec 8) (val : Ctx → Option Word64) (op : Ctx → TableOp) : Res :=
  s.issue i cost 1 prof fun c s =>
    match locate s i.cls (c.reg a) tbl right write with
    | .error e => s.trap i e c.pc (c.reg a)
    | .ok (t, index, word) =>
      let beyond := match val c with | some v => s.overMax t index v | none => false
      if beyond then s.trap i cTablePerm c.pc (c.reg a)
      else if (op c).writes t && s.snapStalled i.part then s.setCtx i c
      else s.tableStart i (op c) t index word

/-! ### Tagged device operations (R129, R130) -/

/-- The completion-record address is none or a multiple of 16 (R130). -/
def crecOk (crec : BitVec 16) : Bool := crec == 0xFFFF || crec.toNat % 16 == 0

/-- Issue a tagged operation: the lowest free tag goes to `d`; with all 16 in use TAG_LIMIT; a bad record address SCRATCH. The flag of the
tag it takes is cleared (DESIGN CHOICE: no rule clears a tag's flag at issue). -/
def State.tagged (s : State) (i : CtxId) (prof : EngClass → Bool) (d : BitVec 5) (crec : BitVec 16)
    (k : Ctx → Nat → State → State) : Res :=
  s.issue i 1 2 prof fun c s =>
    if !crecOk crec then s.trap i cScratch c.pc (BitVec.ofNat 64 crec.toNat)
    else match c.freeTag with
      | none => s.trap i cTagLimit c.pc
      | some t => k c t (s.modCtx i fun c => ({ c with tags := c.tags ||| (1#16 <<< t), events := c.events &&& ~~~(1#64 <<< t) }).setReg d (BitVec.ofNat 64 t))

end Sys2Proof.Machine
end

