-- ==== Sys2Proof/Machine/Flags.lean ====
section
/-! DEFINITION. Flag computations: the conditions and combinations that write a Zyn predicate (R113), and the summary bits of
GLB_STATUS, GLB_EVT_SUM and GLB_LOCK_STATUS (19_registers.md). -/
namespace Sys2Proof.Machine

/-- A condition of CMP (R113). -/
def condHolds (k : Cond) (a b : Word64) : Bool :=
  match k with
  | .eq => a == b
  | .ne => a != b
  | .ltu => decide (a.toNat < b.toNat)
  | .geu => decide (b.toNat ≤ a.toNat)
  | .lt => decide (a.toInt < b.toInt)
  | .ge => decide (b.toInt ≤ a.toInt)
  | .tst => a &&& b != 0

/-- Conditions 0 to 3 of CMPI (R113). -/
def condOf (n : BitVec 2) : Cond :=
  match n.toNat with
  | 0 => .eq | 1 => .ne | 2 => .ltu | _ => .geu

/-- How CMP combines its result with the predicate (R113). -/
def combine (k : Combine) (old r : Bool) : Bool :=
  match k with
  | .set => r
  | .and => old && r
  | .or => old || r

/-- Any SEQ_EVT of any channel is non-zero. -/
def anySeqEvt (s : State) : Bool := (List.range 32).any fun n => s.reg (R.SEQ_EVT + 0x10000 * n) != 0

/-- GLB_EVT_SUM: a bit is 1 while the named register is non-zero. -/
def evtSum (s : State) : Word :=
  let bits : List Bool := [s.reg R.TT_EVT != 0, s.reg R.HIU_EVT != 0, s.reg R.TEN_EVT != 0, s.reg R.BPM_EVT != 0,
    s.reg R.SC_EVT != 0, s.reg R.MAP_EVT != 0, anySeqEvt s, s.reg R.MED_EVT != 0, s.reg R.JNL_EVT != 0, s.reg R.ECC_EVT != 0,
    s.reg R.DMC_EVT != 0, s.reg R.SEC_EVT != 0, s.reg R.PMU_EVT != 0, s.reg R.TMU_EVT != 0, s.reg R.GB_EVT != 0,
    s.reg R.TH_EVT != 0, s.flag F.TST_STATUS.SCAN_REFUSED, s.reg R.GLB_ERR != 0]
  BitVec.ofNat 32 (bits.zipIdx.foldl (fun n (b, i) => if b then n + 2 ^ i else n) 0)

/-- GLB_LOCK_STATUS: bit b is LOCK bit b of R494. -/
def lockStatus (s : State) : Word :=
  BitVec.ofNat 32 (lockList.foldl (fun n (_, r, b) => if (s.reg r).getLsbD 31 then n + 2 ^ b else n) 0)

/-- GLB_STATUS. -/
def glbStatus (s : State) : Word :=
  let bits : List Bool := [(s.func 0).rdy, s.funcList.any fun f => (s.func f).cfs, s.fld F.ZYN_STATUS.STATE == 4,
    s.fld F.SEC_STATUS.STATE == 2, s.fld F.DMC_STATUS.STATE == 4, s.flag F.MED_SPARE.READONLY,
    (List.range 64).any fun i => s.fld (F.TH_NSCFG.MODE.ix i) == 1 && let st := s.fld (F.TH_NS_STATE.STATE.ix i); st == 1 || st == 2 || st == 3]
  BitVec.ofNat 32 (bits.zipIdx.foldl (fun n (b, i) => if b then n + 2 ^ (i + 2) else n) (s.fld F.BOOT_STATUS.STATE % 4))

end Sys2Proof.Machine
end

