-- ==== Sys2Proof/Machine/Operands.lean ====
section
/-! DEFINITION. Operand forms: special values by name (R74, R116), scratch addresses (R117), queue handles (R121), immediate
extensions (R115), and the value a register shows (19_registers.md). -/
namespace Sys2Proof.Machine

/-! ### Immediates -/
def sext16 (v : BitVec 16) : Word64 := v.signExtend 64
def zext16 (v : BitVec 16) : Word64 := v.setWidth 64

/-! ### Special values (R74) -/

/-- Value of a special name for a context, none where the name or the profile is not listed. -/
def svr (s : State) (i : CtxId) (c : Ctx) (name : BitVec 12) : Option Word64 :=
  let cmd := c.cmd.bind s.cmd
  let field (f : Cmd → Nat) : Word64 := match cmd with | some x => BitVec.ofNat 64 (f x) | none => 0
  let im := i.cls == .cmd || i.cls == .map
  let ip := i.cls == .cmd || i.cls == .pol
  let imp := im || i.cls == .pol
  match name.toNat with
  | 0x000 => some (BitVec.ofNat 64 i.key)
  | 0x001 => some (c.kind.setWidth 64)
  | 0x002 => some c.arg0
  | 0x003 => some c.arg1
  | 0x004 => some c.arg2
  | 0x005 => some c.arg3
  | 0x010 => if im then some (match c.cmd with | some n => BitVec.ofNat 64 n | none => 0xFFFFFFFF) else none
  | 0x011 => if im then some (field (·.func)) else none
  | 0x012 => if im then some (field (·.sqe.nsid.toNat)) else none
  | 0x013 => if im then some (field (·.sqe.slba)) else none
  | 0x014 => if im then some (field (·.sqe.cdw12.toNat % 65536)) else none
  | 0x015 => if im then some (field fun x => x.sqe.opcode + (if x.admin then 256 else 0) + x.sqe.fuse.toNat * 512) else none
  | 0x016 => if im then some (match cmd with | some x => x.scr | none => 0) else none
  | 0x017 => if ip then some (match cmd with | some x => x.status | none => 0) else none
  | 0x018 => if imp then some (field fun x => if x.committed then 1 else 0) else none
  | 0x020 => some (c.trapCause.setWidth 64)
  | 0x021 => some c.trapAddr
  | 0x022 => some (BitVec.ofNat 64 c.trapPc)
  | 0x023 => if i.cls == .pol then some (c.trapCtx.setWidth 64) else none
  | 0x030 => some c.pwrMode
  | 0x031 => some (BitVec.ofNat 64 (s.fld F.PMU_STATUS.PL_CUR))
  | 0x040 => if i.cls == .map || i.cls == .seq then some (BitVec.ofNat 64 c.specs.length) else none
  | 0x050 => some c.rcMask
  | _ => none

/-- Write a special value; none: the write traps with ILLEGAL (R74, R417). -/
def svw (s : State) (i : CtxId) (c : Ctx) (name : BitVec 12) (v : Word64) : Option State :=
  match name.toNat with
  | 0x017 =>
    if i.cls == .cmd || i.cls == .pol then
      match c.cmd with
      | some n => if (s.cmd n).isSome then some (s.modCmd n fun x => { x with status := v }) else none
      | none => none
    else none
  | 0x030 => if v.toNat ≤ 2 then some (s.modCtx i fun c => { c with pwrMode := v }) else none
  | _ => none

/-! ### Scratch (R117) -/

/-- Address of a scratch access of `n` bytes, if it is in range and aligned. -/
def scratchAddr (c : Ctx) (a : BitVec 5) (imm : BitVec 16) (n : Nat) : Except Word64 Nat :=
  let addr := c.reg a + sext16 imm
  if addr.toNat < 0x10000 && addr.toNat % n = 0 then .ok addr.toNat else .error addr

/-- The 64-bit word of scratch at an address is poisoned (R325): store code 4. -/
def State.scratchPoison (s : State) (part addr : Nat) : Bool := s.ecc.poison.contains (4, part * 65536 + addr / 8 * 8)
/-- A full-width write clears the poison of its word (R326). -/
def State.healScratch (s : State) (part addr : Nat) : State :=
  { s with ecc := { s.ecc with poison := s.ecc.poison.filter (· != (4, part * 65536 + addr / 8 * 8)) } }

/-! ### Queue handles (R121) -/

inductive Handle
  | mailbox (key : Nat) (engine mb : Nat)
  | dispatch (cls : EngClass)
deriving DecidableEq, Repr

/-- Mailbox key of an engine's mailbox. -/
def mailKey (part mb : Nat) : Nat := part * 8 + mb

/-- A handle for QPOP and QPEEK. -/
def popHandle (i : CtxId) (h : BitVec 8) : Option Nat := if h.toNat < 8 then some (mailKey i.part h.toNat) else none

/-- A handle for QPUSH; `a` names the engine of handles 0x08 to 0x0F. -/
def pushHandle (i : CtxId) (h : BitVec 8) (a : Word64) : Option Handle :=
  let n := h.toNat
  if n < 8 then some (.mailbox (mailKey i.part n) i.part n)
  else if n < 16 then
    let cls := EngClass.ofNum (a.toNat / 64 % 4)
    let eng := a.toNat % 64
    if eng < cls.engines && (cls == i.cls || i.cls == .pol) then some (.mailbox (mailKey (cls.part + eng) (n - 8)) (cls.part + eng) (n - 8))
    else none
  else if n < 20 && i.cls == .pol then some (.dispatch (EngClass.ofNum (n - 16)))
  else none

end Sys2Proof.Machine
end

