-- ==== Sys2Proof/Machine/OpsAct.lean ====
section
/-! DEFINITION. Start and end of an activation (R73, R76, R82 to R85, R96, R102). -/
namespace Sys2Proof.Machine

/-- Load an activation into a context: entry PC and ARG0 to ARG3; everything else is cleared (R73, R124). PWR.MODE is cleared
with the rest (assumption 4). -/
def State.startCtx (s : State) (i : CtxId) (e : Entry) (r : Request) : State :=
  s.setCtx i { st := .ready, kind := r.kind, arg0 := r.arg0, arg1 := r.arg1, arg2 := r.arg2, arg3 := r.arg3, pc := e.codeOffset.toNat,
               budget := e.budget.toNat, bev := e.vector, cmd := r.cmd, origin := r.origin }

/-- A request of this kind may be dispatched while dispatch is held: PREPARE alone (R96). -/
def notHeld (s : State) (r : Request) : Bool := !s.zyn.held || r.kind == 8

/-- Dispatch the fault at the head of the queue to context 7 of POL0 (R102). ARG0, the fault queue index, is 0, the head's (DESIGN CHOICE:
R83 does not say how records are numbered). -/
def State.startFault (s : State) : State :=
  let i : CtxId := ⟨.pol, 0, 7⟩
  match s.zyn.faultQ, s.zyn.bundle.entry .pol 3 with
  | f :: t, some e =>
    if (s.ctx i).st ≠ .idle then s
    else
      let r : Request := { kind := 3, arg0 := 0, cmd := f.cmd }
      let s := ({ s with zyn := { s.zyn with faultQ := t } }).startCtx i e r
      s.modCtx i fun c => { c with
        trapCause := f.cause, trapAddr := f.addr, trapPc := f.pc, trapCtx := f.ctxId, fault := some f }
  | _, _ => s

/-- RESTORE is dispatched to an engine of a restored domain before any other activation (R76, R419). -/
def State.startRestore (s : State) (cls : EngClass) (eng : Nat) : State :=
  match s.zyn.bundle.entry cls 0x1F, s.idleCtx cls eng with
  | some e, some i =>
    ({ s with zyn := { s.zyn with restore := s.zyn.restore.filter (· != cls.part + eng) } }).startCtx i e
      { kind := 0x1F, arg0 := (s.reg R.PMU_WAKE_STATUS).setWidth 64 }
  | _, _ => s

/-- Class and engine of a participant below 60 (R59). -/
def partEngine (p : Nat) : EngClass × Nat :=
  if p < 16 then (.cmd, p) else if p < 24 then (.map, p - 16) else if p < 56 then (.seq, p - 24) else (.pol, p - 56)

/-- Dispatch the oldest request of an engine that may go, to its lowest-numbered idle context (R70, R73). -/
def State.startNext (s : State) (cls : EngClass) (eng : Nat) : State :=
  let q := s.queue (cls.part + eng)
  match q.find? (notHeld s), s.idleCtx cls eng with
  | some r, some i =>
    let s := (s.setQueue (cls.part + eng) (q.erase r)).refill (cls.part + eng)
    match s.zyn.bundle.entry cls r.kind.toNat with
    | some e => s.startCtx i e r
    | none => s
  | _, _ => s

/-- Request a MAP activation for a command (R83, R229). -/
def State.mapActivate (s : State) (kind c : Nat) : State :=
  match s.cmd c with
  | none => s
  | some x =>
    let n := x.sqe.nsid.toNat
    let e := (n + (if s.nsZoned n then x.sqe.slba / 2 ^ s.nsLogZsze n else x.sqe.slba / 4096)) % 8
    s.request .map e { kind := BitVec.ofNat 5 kind, arg0 := BitVec.ofNat 64 c, origin := .host, cmd := some c }

/-- The MAP activation of a command that hardware serves, requested once however often it waits (R83). -/
def State.mapWork (s : State) (kind c : Nat) : State :=
  match s.cmd c with
  | some x => if x.mapped then s else (s.mapActivate kind c).modCmd c fun y => { y with mapped := true }
  | none => s

/-- Dispatch the trapped activation's request again, to its own engine, for a committed command (R102). -/
def State.redispatch (s : State) (f : FaultRec) : State :=
  let i := CtxId.ofKey f.ctxId.toNat
  s.request i.cls i.eng f.req

/-- The FAULT activation ends: the results held for it go (DESIGN CHOICE: R100 states no end), and where it has not disposed of the command
the hardware does (R102). -/
def State.endFault (s : State) (c : Ctx) : State :=
  match c.fault with
  | none => s
  | some f =>
    let s := { s with zyn := { s.zyn with results := s.zyn.results.filter fun r => r.ctx != f.ctxId.toNat } }
    if c.disposed then s
    else match f.cmd with
      | none => s
      | some x => match s.cmd x with
        | none => s
        | some cm => if some cm.fsn ≠ f.fsn then s else if cm.committed then s.redispatch f else s.finish x 0 0x06

/-- The RESTORE activation of POL0 for cold domains returns: COLD clears (R420). -/
def State.endRestore (s : State) (i : CtxId) : State :=
  if i.cls == .pol && i.eng == 0 then
    let s := s.each s.pwr.coldWait fun s d => s.setFld F.PMU_WAKE_STATUS.COLD ((s.fld F.PMU_WAKE_STATUS.COLD) &&& (2 ^ 14 - 1 - 2 ^ d))
    { s with pwr := { s.pwr with coldWait := [] } }
  else s

end Sys2Proof.Machine
end

