-- ==== Sys2Proof/Machine/OpsMedia.lean ====
section
/-! DEFINITION. Flash media: out-of-band fields, requests, LUN service, programs, stripes, Envelope, spare (09_media.md, R300). -/
namespace Sys2Proof.Machine

/-! ### Out-of-band fields (R257, R300) -/

/-- CRC-8 with polynomial 0x07 and initial value 0 of a list of bytes (R300). -/
def crc8 (l : List Nat) : Nat :=
  l.foldl (fun c b => (List.range 8).foldl (fun (c : Nat) _ => if c / 128 = 1 then Nat.xor (c * 2 % 256) 0x07 else c * 2 % 256) (Nat.xor c (b % 256))) 0

/-- Bytes of a number, least significant first. -/
def leBytes (v : Nat) : Nat → List Nat
  | 0 => []
  | n + 1 => v % 256 :: leBytes (v / 256) n
/-- The number of a list of bytes, least significant first. -/
def ofLe : List Nat → Nat
  | [] => 0
  | b :: t => b % 256 + 256 * ofLe t

/-- The fields of bytes 0 to 18 of a data codeword's OOB (R300). -/
structure Oob where
  lba : Nat
  wsn : Nat
  nsidx : Nat
  flush : Bool
  part : Bool
  gen : Nat
  mask : Nat
  lgen : Nat
deriving DecidableEq, Repr

/-- Bytes 0 to 19: the fields and CHK (R300). -/
def Oob.word (o : Oob) : Nat :=
  let b := leBytes o.lba 5 ++ leBytes o.wsn 8 ++ leBytes (o.nsidx % 2 ^ 14 + (if o.flush then 2 ^ 14 else 0) + (if o.part then 2 ^ 15 else 0)) 2
    ++ [o.gen, o.mask] ++ leBytes o.lgen 2
  ofLe (b ++ [crc8 b])

/-- OOB bytes 0 to 19 of a payload. -/
def Payload.oob20 (p : Payload) : Nat := p.toNat / 2 ^ 32768 % 2 ^ 160
def Payload.data (p : Payload) : Block := BitVec.ofNat 32768 p.toNat
def Payload.parSelf (p : Payload) : Nat := p.toNat / 2 ^ (32768 + 160) % 2 ^ 48

/-- The fields of an OOB (R300). -/
def Oob.of (n : Nat) : Oob :=
  { lba := n % 2 ^ 40, wsn := n / 2 ^ 40 % 2 ^ 64, nsidx := n / 2 ^ 104 % 2 ^ 14, flush := n / 2 ^ 118 % 2 == 1, part := n / 2 ^ 119 % 2 == 1,
    gen := n / 2 ^ 120 % 256, mask := n / 2 ^ 128 % 256, lgen := n / 2 ^ 136 % 2 ^ 16 }
/-- CHK matches (R300). -/
def chkOk (n : Nat) : Bool := crc8 (leBytes n 19) == n / 2 ^ 152 % 256
/-- A checkpoint page, recognised by PARTIAL = 1 with SECT_MASK = 0x00 (R300). -/
def Oob.isPage (o : Oob) : Bool := o.part && o.mask == 0

/-- Compose a payload: data, bytes 0 to 19, PAR_SELF and PAR_PREV (R257). -/
def mkPayload (data : Block) (oob20 self prev : Nat) : Payload :=
  BitVec.ofNat 33024 (data.toNat + (oob20 % 2 ^ 160 + self % 2 ^ 48 * 2 ^ 160 + prev % 2 ^ 48 * 2 ^ 208) * 2 ^ 32768)

/-- Erase a block's contents. -/
def State.wipeBlock (s : State) (die block : Nat) : State :=
  let lo := nandKey die (block * blockSlots s)
  { s with media := { s.media with nand := s.media.nand.filter fun (k, _) => !(decide (lo ≤ k) && decide (k < lo + blockSlots s)) } }

/-! ### Checks of an address (R131, R261) -/

/-- The channel is the Sequencer's own and every field lies within the geometry (R131). -/
def paOk (s : State) (eng : Nat) (p : Pa) (run : Bool) : Bool :=
  decide (p.channel = eng) && s.populated p.die && decide (p.block < geoBlocks s) && decide (p.plane < geoPlanes s) &&
  (!run || (decide (p.page < geoPpb s) && decide (p.cw < geoCpp s) && decide (p.pos s + p.count ≤ pageSlots s)))

/-- A microprogram slot of a channel holds an undefined step type (R261). -/
def uprogBad (s : State) (chan slot : Nat) : Bool :=
  (List.range 8).any fun e =>
    let w := (sgetD 0 (chan * 256 + slot * 8 + e) s.zyn.uprog).toNat
    (List.range 4).any fun k => decide (8 ≤ w / 2 ^ (16 * k + 12) % 16)

/-- SEQ event of a channel. -/
def State.seqEvt (s : State) (f : Field) (chan : Nat) : State := s.raise (f.ix chan)

/-! ### Staging slots (R516) -/

/-- Lowest run of `n` consecutive free slots of a channel. -/
def State.findSlots (s : State) (chan n : Nat) : Option Nat :=
  (List.range (113 - n)).find? fun k => (List.range n).all fun j => (sget (stKey chan (k + j)) s.media.slots).isNone

def State.putSlot (s : State) (k : Nat) (x : Slot) : State := { s with media := { s.media with slots := sput k x s.media.slots } }

/-! ### Completion of requests -/

/-- Major opcode and sub-op byte of a record (R130). -/
def opRead : Nat := 0x28
def opNpg : Nat := 0x28 + 64
def opNer : Nat := 0x28 + 128
def opNsus : Nat := 0x28 + 192
def opNres : Nat := 0x28
def opXfer : Nat := 0x29
def opLookup : Nat := 0x2A
def opLock : Nat := 0x2B
def opCqpost : Nat := 0x2C
def opSpec : Nat := 0x2D

/-- Complete a request towards its context. A SPEC's record names SPEC, and while it is unconfirmed its tag stays in use (R135, R136); the
result of a trapped context's operation is held (R100). -/
def State.reqDone (s : State) (r : NandReq) (status wordA wordB : Nat) : State :=
  let op := if r.bySpec then opSpec else match r.op with | .read _ _ _ => opRead | .erase => opNer | _ => opNpg
  match r.ctx with
  | none => match r.held with
    | some (k, t) => { s with zyn := { s.zyn with results := s.zyn.results ++ [⟨k, t, op, status, wordA, wordB⟩] } }
    | none => s
  | some (k, t) =>
    if r.spec then
      (s.modCtx (CtxId.ofKey k) fun c => { c with specs := c.specs.map fun (q : Spec) => if q.tag == t then { q with landed := true } else q }).tagSignal
        (CtxId.ofKey k) t r.crec op status wordA wordB
    else s.tagDone (CtxId.ofKey k) t r.crec op status wordA wordB

/-! ### Envelope (R290, R291) -/

def wRead (s : State) : Nat := s.media.weights.toNat % 256
def wProg (s : State) (slc : Bool) : Nat := s.media.weights.toNat / (if slc then 256 else 65536) % 256
def wErase (s : State) : Nat := s.media.weights.toNat / 2 ^ 24 % 256

/-- Weight a LUN contributes to S, suspended operations included (R290). -/
def lunWeight (s : State) (l : Lun) : Nat :=
  (match l.run with
    | .none => 0 | .read _ => wRead s | .program u => wProg s u.slc | .erase _ => wErase s | .reset => 0)
  + (match l.unit with | some u => wProg s u.slc | none => 0)
  + (if l.readRun.isSome then wRead s else 0)

/-- S of R290. -/
def envSum (s : State) : Nat := (s.media.luns.map fun (_, l) => lunWeight s l).sum
/-- B of R290: the budget in force times the throttle factor, which is 1 in the flush path (R311). -/
def envBudget (s : State) : Nat := s.fld F.MED_ENV_ACT.BUDGET * (if s.flushing then 100 else s.pwr.factor) / 100

/-- Weight of a request. -/
def reqWeight (s : State) (r : NandReq) : Nat :=
  match r.op with
  | .npg slc _ _ => wProg s slc
  | .erase => wErase s
  | .parity c => wProg s (match sget c s.media.stripes with | some t => t.slc | none => true)
  | .image _ _ => wProg s true
  | .flush _ => wProg s true
  | .read _ _ _ => wRead s

/-- The LUN can take a program or an erase. -/
def Lun.idle (l : Lun) : Bool := decide (l.run = .none) && l.unit.isNone && !l.failed

/-- Oldest request of the first non-empty class among those of a die (R260). -/
def dieCandidate (l : List NandReq) (die : Nat) : Option NandReq :=
  let mine := l.filter fun r => (Pa.of r.addr).die == die
  [3, 5, 6].foldl (fun (o : Option NandReq) c => match o with | some r => some r | none => mine.find? (·.cls == c)) none

/-- A loop-back keeps the hardware from starting anything on a die: a pad burst of its channel, with every NCE# high, or a die-register
echo of its LUN (R476). -/
def padBurst (s : State) (die : Nat) : Bool := s.tst.loops.any fun l =>
  l.iface == 2 && l.inst == die / 32 && (l.inBurst || (l.depth == 3 && l.lun == die % 32))

/-- A read of an erase's block is issued and has not left the LUN (R131). -/
def readsTarget (s : State) (r : NandReq) : Bool :=
  let p := Pa.of r.addr
  r.op == .erase && (s.lun p.die).queue.any fun q => (Pa.of q.addr).block == p.block && (match q.op with | .read _ _ _ => true | _ => false)

/-- The request the Envelope decides on next (R291): host kind 0 first, the oldest whose LUN is free; an erase waits until no issued read
targets its block (R131). -/
def envNext (s : State) : Option NandReq :=
  let ready := s.media.envQ.filter fun r => let d := (Pa.of r.addr).die
    (s.lun d).idle && !padBurst s d && !s.media.nwpWait.any (fun x => x / 32 == d / 32) && (dieCandidate s.media.envQ d == some r) && !readsTarget s r &&
      !(s.lun d).queue.any (fun q => decide (q.cls ≤ 2))
  match ready.find? (·.kind == 0) with | some r => some r | none => ready.head?

/-! ### Stripes (R273 to R275) -/

/-- A status read of a LUN shows ready: NWP# of its channel goes high once every LUN of a restored group's channel has shown it (R421). -/
def State.nwpReady (s : State) (d : Nat) : State :=
  if s.media.nwpWait.contains d then
    let rest := s.media.nwpWait.filter (· != d)
    let s := { s with media := { s.media with nwpWait := rest } }
    s.when (!rest.any fun x => x / 32 == d / 32) (·.emit (.pin ("NWP" ++ toString (d / 32) ++ "#") true))
  else s

/-- Members of a stripe at most (R273). -/
def maxMembers (s : State) : Nat := min 31 (20 * pageSlots s / 6)

/-- Die-page of an address: plane, codeword and count cleared. -/
def diePage (a : BitVec 48) : BitVec 48 := let p := Pa.of a
  BitVec.ofNat 48 (p.die * 2 ^ 38 + p.block * 2 ^ 20 + p.page * 256)

/-- The open parity block of a die in a mode with a row left, and that row (R278, R281). -/
def State.parityBlock (s : State) (die : Nat) (slc : Bool) : Option (Nat × Nat) :=
  (s.mram.openBlks.filter fun o => o.die == die && o.use == 2 && s.blockSlc die o.block == slc).findSome? fun o =>
    let row := s.nextRow die o.block
    if row < (if slc then geoPpb s / 4 else geoPpb s) then some (o.block, row) else none

/-- Open a stripe: a parity die-page on a LUN of the channel that is not the member's (R273, R274, R516). -/
def State.openStripe (s : State) (chan die : Nat) (slc bg : Bool) : Option State :=
  let lunDies := (s.media.dies.filter fun d => d / 32 == chan && d != die && s.inService d)
  match s.findSlots chan (pageSlots s) with
  | none => none
  | some k =>
    let s := s.each (List.range (pageSlots s)) fun s j => s.putSlot (stKey chan (k + j)) { acc := true }
    let pick (o : Option (Nat × Nat × Nat) × State) (d : Nat) : Option (Nat × Nat × Nat) × State :=
      match o with
      | (some x, s) => (some x, s)
      | (none, s) =>
        match s.parityBlock d slc with
        | some (b, row) => (some (d, b, row), s)
        | none => match s.allocBlock d 5 slc with
          | (some b, s) => (some (d, b, 0), s)
          | (none, s) => (none, s)
    match lunDies.foldl pick (none, s) with
    | (some (d, b, row), s) =>
      let t : Stripe := { slc := slc, bg := bg, parity := BitVec.ofNat 48 (d * 2 ^ 38 + b * 2 ^ 20 + row * 256) }
      some { s with media := { s.media with stripes := sput chan t s.media.stripes } }
    | (none, s) => some s

/-- Close a channel's stripe (R274). -/
def State.closeStripe (s : State) (chan : Nat) : State :=
  match sget chan s.media.stripes with
  | none => s
  | some t => { s with media := { s.media with stripes := sput chan { t with closed := true } s.media.stripes } }

/-- Once a closed stripe's member programs have completed, its parity waits for the Envelope (R274, R275). -/
def State.parityReady (s : State) (chan : Nat) : State :=
  match sget chan s.media.stripes with
  | none => s
  | some t =>
    let waiting := s.media.envQ.any (fun r => r.op == .parity chan) ||
      s.media.luns.any fun (_, l) => match l.run with | .program u => u.parity == some chan | _ => false
    if t.closed && t.running == 0 && !waiting then
      let r : NandReq := { op := .parity chan, kind := if t.bg then 1 else 0, addr := t.parity, cls := if t.bg then 5 else 3 }
      { s with media := { s.media with envQ := s.media.envQ ++ [r] } }
    else s

/-- XOR of two payloads. -/
def xorP (a b : Payload) : Payload := a ^^^ b

/-- A codeword joins a channel's stripe: PAR_SELF, and the state. none: it must wait (R273, R274). -/
def State.joinStripe (s : State) (chan : Nat) (a : BitVec 48) (slc bg : Bool) : Option (Nat × State) :=
  let page := diePage a
  let die := (Pa.of a).die
  let s? := match sget chan s.media.stripes with
    | some _ => some s
    | none => s.openStripe chan die slc bg
  match s? with
  | none => none
  | some s =>
    match sget chan s.media.stripes with
    | none => some (0, s)
    | some t =>
      if t.members.contains page then some (t.parity.toNat, s)
      else if t.closed then none
      else if t.slc != slc || t.bg != bg || t.members.any (fun m => (Pa.of m).die == die) || (Pa.of t.parity).die == die then none
      else
        let t := { t with members := t.members ++ [page], running := t.running + 1 }
        let t := { t with closed := decide (maxMembers s ≤ t.members.length) }
        some (t.parity.toNat, { s with media := { s.media with stripes := sput chan t s.media.stripes } })

/-- The stripe cannot take this die-page as it stands, so it closes (R274: a member would repeat a LUN; R273: one mode, one kind). -/
def State.stripeBlocks (s : State) (chan : Nat) : State := (s.closeStripe chan).parityReady chan

/-- Add a payload into the accumulator, or cancel it by a second addition (R274). -/
def State.accumulate (s : State) (chan pos : Nat) (p : Payload) : State :=
  match sget chan s.media.stripes with
  | none => s
  | some t => { s with media := { s.media with stripes := sput chan { t with acc := sput pos (xorP (sgetD 0 pos t.acc) p) t.acc } s.media.stripes } }

/-- Parity payload of a position: XOR of the members with the member list in OOB bytes 0 to 19 (R275). -/
def parityPayload (s : State) (t : Stripe) (pos : Nat) : Payload :=
  let list : Nat := ofLe (t.members.flatMap fun m => leBytes m.toNat 6)
  let p := Pa.of t.parity
  let prev := if p.page = 0 then 0 else match s.codeword p.die (slotOf s p.block (p.page - 1) (pos / max 1 (geoCpp s)) (pos % max 1 (geoCpp s))) with
    | some q => Payload.parSelf q | none => 0
  mkPayload (Payload.data (sgetD 0 pos t.acc)) (list / 2 ^ (160 * pos)) t.parity.toNat prev

/-- A stripe's parity has passed: the accumulator is freed (R275). -/
def State.freeStripe (s : State) (chan : Nat) : State :=
  { s with media := { s.media with
    stripes := sdel chan s.media.stripes
    slots := s.media.slots.filter fun (k, x) => !(k / 128 == chan && x.acc) } }

/-! ### Loading an NPG (R515) -/

/-- PAR_SELF of the same block's previous page row (R257). -/
def parPrev (s : State) (die block page pos : Nat) : Nat :=
  if page = 0 then 0
  else match s.codeword die (slotOf s block (page - 1) (pos / max 1 (geoCpp s)) (pos % max 1 (geoCpp s))) with
    | some q => Payload.parSelf q | none => 0

/-- OOB of a pool buffer's codeword: generation 0 (R300). -/
def bufOob (s : State) (b : Buf) (flush : Bool) : Oob :=
  { lba := b.lba, wsn := b.wsn, nsidx := b.nsid - 1, flush := flush, part := b.mask != 0xFF, gen := 0, mask := b.mask.toNat,
    lgen := if s.nsZoned b.nsid then s.zlgen (s.zoneOf b.nsid b.lba) % 65536 else 0 }

/-- A moved codeword: GEN + 1, saturating, LGEN16 of the zone at this program, and its CHK (R300). -/
def State.movedOob (s : State) (p : Payload) : Nat :=
  let o := Oob.of (Payload.oob20 p)
  { o with gen := min 255 (o.gen + 1), lgen := if s.nsZoned (o.nsidx + 1) then s.zlgen (s.zoneOf (o.nsidx + 1) o.lba) % 65536 else o.lgen }.word

/-- Merge a sector mask of one 4 096 B unit over another. -/
def mergeSectors (old new : Block) (mask : Nat) : Block :=
  BitVec.ofNat 32768 ((List.range 8).foldl (fun a i =>
    let src := if mask.testBit i then new else old
    a + src.toNat / 2 ^ (4096 * i) % 2 ^ 4096 * 2 ^ (4096 * i)) 0)

/-- Sectors that stand in a codeword: all, or those of SECT_MASK in a partial one (R300). -/
def Oob.sectors (o : Oob) : Nat := if o.part then o.mask else 0xFF

/-- Data and OOB of the codeword a pool buffer gives a program (R231): a partial unit of LBAF 2 is merged sector by sector over its prior copy.
Over an unwritten unit the codeword stays PARTIAL, and its other sectors read as zeros; a prior copy that cannot be read gives none
(DESIGN CHOICES). -/
def bufMerged (s : State) (h : Nat) (b : Buf) : Option (Block × Oob) :=
  let o := bufOob s b false
  if !o.part || s.nsLbaf b.nsid != 2 then some (b.data, o)
  else match s.host.pendings.find? fun (_, p) => p.bufs.contains h with
    | none => some (b.data, o)
    | some (_, p) => match Place.of p.prior with
      | .unwritten => some (b.data, o)
      | .media d sl => (s.codeword d sl).map fun q =>
          let m := (Oob.of (Payload.oob20 q)).sectors ||| o.mask
          (mergeSectors (Payload.data q) b.data o.mask, { o with part := m != 0xFF, mask := m })
      | _ => none

/-- Descriptor of an NPG source (R515): space, and the fields. -/
structure Src where
  space : Nat
  handle : Nat
  chan : Nat
  slot : Nat
  join : Option Nat
deriving DecidableEq, Repr

/-- Decode a source descriptor; none: a host space, another code, or a bit outside the fields (R515). A run of several codewords from a pool
buffer, and a staging run that passes slot 111, trap as well (DESIGN CHOICE: R515 shuts both out and names no outcome). -/
def Src.of (b : Word64) (count : Nat) : Option Src :=
  let n := b.toNat
  let join := if n / 2 ^ 59 % 2 = 1 then some (n / 2 ^ 54 % 32) else none
  let jok := n / 2 ^ 59 % 2 = 1 || n / 2 ^ 54 % 32 = 0
  match n / 2 ^ 60 with
  | 1 => if n % 2 ^ 54 / 2 ^ 21 = 0 && jok && count = 1 then some ⟨1, n % 2 ^ 21, 0, 0, join⟩ else none
  | 2 => if n % 2 ^ 54 / 2 ^ 13 = 0 && n / 2 ^ 7 % 2 = 0 && jok && n % 128 + count ≤ 112 then some ⟨2, 0, n / 2 ^ 8 % 32, n % 128, join⟩ else none
  | 3 => if n % 2 ^ 60 = 0 then some ⟨3, 0, 0, 0, none⟩ else none
  | _ => none

/-- Codewords an NPG would load, with the state after the accumulator joined; or a status; none: it must wait. A staging slot without data,
and the accumulator with no open stripe, answer DENIED; the accumulator at another die-page than its stripe's parity answers ADDRESS (DESIGN
CHOICES: R515 states no status for these). A prior copy that cannot be read ends it UNCORRECTABLE (DESIGN CHOICE). -/
def State.npgLoad (s : State) (r : NandReq) (slc : Bool) (b : Word64) : Option (Except Nat (List Latched × State)) :=
  let p := Pa.of r.addr
  let first := p.pos s
  match Src.of b p.count with
  | none => some (.error stAddress)
  | some src =>
    let blk (k : Nat) : Nat := first + k
    let mk (s : State) (k : Nat) (data : Block) (oob : Nat) (self : Nat) : Latched :=
      { pos := blk k, page := p.page, payload := mkPayload data oob self (parPrev s p.die p.block p.page (blk k)), join := src.join }
    let joined : Option (Nat × State) := match src.join with
      | none => some (0, s)
      | some c => s.joinStripe c r.addr slc (r.kind != 0)
    match src.space with
    | 1 =>
      match s.buf src.handle with
      | none => some (.error stDenied)
      | some bf => if s.poisoned 8 src.handle then some (.error stBusError) else match joined with
        | none => none
        | some (self, t) => match bufMerged s src.handle bf with
          | none => some (.error stUncorrectable)
          | some (data, o) => some (.ok ([{ mk t 0 data o.word self with buf := some src.handle }], t))
    | 2 =>
      let ks := List.range p.count
      let sl (k : Nat) : Option Slot := sget (stKey src.chan (src.slot + k)) s.media.slots
      if ks.any (fun k => match sl k with | some x => x.spec | none => false) then some (.error stSpeculative)
      else if ks.any (fun k => match sl k with | some x => x.data.isNone | none => true) then some (.error stDenied)
      else if ks.any (fun k => s.poisoned 1 (stKey src.chan (src.slot + k))) then some (.error stBusError)
      else match joined with
        | none => none
        | some (self, s) =>
          let l := ks.filterMap fun k => ((sl k).bind (·.data)).map fun d =>
            mk s k (Payload.data d) (if r.kind = 0 then Payload.oob20 d else s.movedOob d) self
          some (.ok (l, s.each ks fun s k => s.freeSlot (stKey src.chan (src.slot + k))))
    | _ =>
      match sget p.channel s.media.stripes with
      | none => some (.error stDenied)
      | some t =>
        if diePage r.addr ≠ diePage t.parity then some (.error stAddress)
        else some (.ok ((List.range p.count).map fun k =>
          { pos := blk k, page := p.page, payload := parityPayload s t (blk k) }, s))

/-- Send the joined codewords to their accumulators (R274). -/
def State.accumulateAll (s : State) (l : List Latched) : State :=
  s.each l fun s x => match x.join with | some c => s.accumulate c x.pos x.payload | none => s

/-! ### Service of a LUN (R260, R262, R515) -/

/-- A read is a verify read (R284): of kind 1, 2 or 4, into the LUN's last background unit, which passed and is not yet verified. -/
def verifyRead (s : State) (r : NandReq) : Bool :=
  let p := Pa.of r.addr
  (r.kind == 1 || r.kind == 2 || r.kind == 4) && (match (s.lun p.die).unverified with
    | some a =>
      let u := Pa.of a
      u.block == p.block && (if s.blockSlc p.die p.block then u.page == p.page else u.page / 4 == p.page / 4)
    | none => false)

/-- The Period check of a read start (R50, R52, R284). -/
def readAllowed (s : State) (r : NandReq) : Bool :=
  r.kind == 0 || (match r.op with | .read _ _ v => v | _ => false) || verifyRead s r || kindAllowed s (Pa.of r.addr).die r.kind

/-- Start a read on its LUN: it takes its staging slots (R516). none: no run of slots is free. -/
def State.startRead (s : State) (die : Nat) (r : NandReq) : Option State :=
  let p := Pa.of r.addr
  match s.findSlots p.channel p.count with
  | none => none
  | some k =>
    let s := s.each (List.range p.count) fun s j => s.putSlot (stKey p.channel (k + j)) { spec := r.spec, cmd := r.cmd }
    let r := { r with slot := some (stKey p.channel k) }
    let l := s.lun die
    let l := { l with queue := l.queue.erase { r with slot := none } }
    let s := match r.ctx with
      | some (c, t) => s.when r.spec fun s => s.modCtx (CtxId.ofKey c) fun x => { x with specs := x.specs.map fun (q : Spec) =>
          if q.tag == t then { q with slots := some (stKey p.channel k, p.count) } else q }
      | none => s
    if l.failed then
      let s := s.setLun die l
      some { s with media := { s.media with decoding := s.media.decoding ++ [{ req := r }] } }
    else if decide (l.run = .none) then some (s.setLun die { l with run := .read r, since := s.ttu.elapsed })
    else some (s.setLun die { l with readRun := some r, served := l.served + 1 })

/-- Which read of a LUN's queue may start now (R260, R265). -/
def nextRead (s : State) (die : Nat) (l : Lun) : Option NandReq :=
  let cls (c : Nat) : Option NandReq := l.queue.find? (·.cls == c)
  let host := match cls 1 with | some r => some r | none => cls 2
  if l.unit.isSome then none
  else match l.run with
    | .none => (match host with | some r => some r | none => cls 4)
    | .program _ | .erase _ =>
      if l.suspended && l.suspBy.isNone && l.readRun.isNone && decide (l.served < max 1 (s.fld (F.SEQ_SUSP_CFG.READS_MAX.ix (die / 32)))) then host
      else if l.suspended && l.suspBy.isSome && l.readRun.isNone then host else none
    | _ => none

/-- Start the program of a LUN's loaded unit. -/
def State.startProgram (s : State) (die : Nat) (u : Unit_) : State :=
  s.setLun die { s.lun die with run := .program u, unit := none, suspends := 0, suspended := false, suspBy := none, since := s.ttu.elapsed }

/-- Load one NPG into a unit (R515): the last one starts the program; a status ends it. none: it waits for the accumulator. -/
def State.loadNpg (s : State) (die : Nat) (u : Unit_) (r : NandReq) (slc last : Bool) (src : Word64) : Option State :=
  match s.npgLoad r slc src with
  | none => none
  | some (.error e) => some (s.reqDone r e 0 0)
  | some (.ok (l, s)) =>
    let s := s.accumulateAll l
    let par := match Src.of src (Pa.of r.addr).count with | some x => if x.space = 3 then some (Pa.of r.addr).channel else none | none => none
    let u := { u with loaded := u.loaded ++ l, parity := match u.parity with | some c => some c | none => par }
    if last then some (s.startProgram die { u with ctx := r.ctx, crec := r.crec })
    else some ((s.setLun die { s.lun die with unit := some u }).reqDone r stOk 0 0)

/-- The unit's first NPG has ended with a status: the next one that waits on the LUN is now the unit's first, and needs admission (R515). -/
def State.npgNext (s : State) (die : Nat) : State :=
  let l := s.lun die
  match l.queue.find? (fun r => match r.op with | .npg _ _ _ => true | _ => false) with
  | some r =>
    if l.unit.isSome || decide (l.run ≠ .none) then s
    else
      let s := s.setLun die { l with queue := l.queue.erase r }
      { s with media := { s.media with envQ := r :: s.media.envQ } }
  | none => s

/-- Serve a LUN: start what may start now, at most `fuel` requests. -/
def State.lunNext (s : State) (die : Nat) : Nat → State
  | 0 => s
  | fuel + 1 =>
    let l := s.lun die
    match l.unit with
    | some u =>
      match l.queue.find? (fun r => match r.op with | .npg _ _ _ => true | _ => false) with
      | none => s
      | some r =>
        match r.op with
        | .npg slc last src =>
          let t := s.setLun die { l with queue := l.queue.erase r }
          match t.loadNpg die u r slc last src with
          | some t => t.lunNext die fuel
          | none => (match Src.of src (Pa.of r.addr).count with
              | some x => (match x.join with | some c => s.stripeBlocks c | none => s)
              | none => s)
        | _ => s
    | none =>
      if l.failed then
        match l.queue with
        | [] => s
        | r :: _ => (match s.startRead die r with | some t => t.lunNext die fuel | none => s)
      else match nextRead s die l with
        | none => s
        | some r =>
          if readAllowed s r then (match s.startRead die r with | some t => t.lunNext die fuel | none => s)
          else ((s.setLun die { l with queue := l.queue.erase r }).reqDone r stRefusedPeriod 0 0).lunNext die fuel

/-- Serve a LUN fully, unless a loop-back holds it. -/
def State.serve (s : State) (die : Nat) : State :=
  if padBurst s die then s else s.lunNext die ((s.lun die).queue.length + 1)

/-- Serve every LUN that has something queued. -/
def State.serveAll (s : State) : State :=
  s.each (s.media.luns.filter fun (_, l) => !l.queue.isEmpty) fun s (d, _) => s.serve d

/-- Put a request on its LUN's queue and serve the LUN. -/
def State.enqueue (s : State) (r : NandReq) : State :=
  let d := (Pa.of r.addr).die
  (s.setLun d { s.lun d with queue := (s.lun d).queue ++ [r] }).serve d

/-- Put a program or erase in the Envelope queue (R291). -/
def State.envelope (s : State) (r : NandReq) : State :=
  let s := { s with media := { s.media with envQ := s.media.envQ ++ [r] } }
  s.setFld F.MED_ENV_STATUS.WAITING s.media.envQ.length

/-! ### Capacity and spare (R259, R287, R289) -/

/-- Good blocks of a die: not retired. -/
def goodBlocks (s : State) (die : Nat) : Nat := ((List.range (geoBlocks s)).filter fun b => s.blockSt die b != 3).length

/-- cap_lb of R259. -/
def capLb (s : State) : Nat :=
  let usable := ((s.media.dies.filter fun d => s.inService d).map fun d =>
    goodBlocks s d - s.fld F.MED_SPOOL.MAX_BLK - s.fld F.MED_BALLAST.FLOOR).sum
  let m := maxMembers s
  usable * blockSlots s * m * (100 - s.fld F.MED_BALLAST.OP_PCT) / ((m + 1) * 100)

/-- Capacity given to namespaces, in blocks of media, divided over the in-service dies: blocks a die needs for it (R289). -/
def blocksNeeded (s : State) : Nat :=
  let lb := (s.nsids.map fun n => if s.nsLbaf n = 2 then s.nsSize n / 8 else s.nsSize n).sum
  let m := max 1 (maxMembers s)
  let dies := max 1 (s.media.dies.filter fun d => s.inService d).length
  let per := max 1 (blockSlots s * m * (100 - s.fld F.MED_BALLAST.OP_PCT) / ((m + 1) * 100))
  (lb + per * dies - 1) / (per * dies)

/-- Spare of a die (R289). -/
def spareOf (s : State) (d : Nat) : Nat :=
  let sp := if s.media.spoolCut.contains d then s.fld F.MED_SPOOL.FLUSH_RESV else s.fld F.MED_SPOOL.MAX_BLK
  goodBlocks s d - sp - s.fld F.MED_BALLAST.FLOOR - blocksNeeded s

/-- Recompute capacity and spare after start-up or a retirement (R259, R289). -/
def State.spareEval (s : State) : State :=
  let s := s.setPair R.MED_CAP_LO (capLb s)
  let dies := s.media.dies.filter fun d => s.inService d
  let zero := dies.filter fun d => spareOf s d == 0 && !s.media.spoolCut.contains d
  let s := { s with media := { s.media with spoolCut := s.media.spoolCut ++ zero } }
  let pct : Nat := dies.foldl (fun (m : Nat) d => match sget d s.media.spare0 with
    | some n => min m (if n = 0 then 0 else 100 * spareOf s d / n) | none => m) 100
  let s := s.setFld F.MED_SPARE.AVAIL_PCT (if dies.isEmpty then 0 else min 127 pct)
  let low : Bool := !dies.isEmpty && decide ((pct : Nat) < s.fld F.MED_SPARE.THRESH_PCT)
  let s := s.when low fun s => ({ s with media := { s.media with smart := s.media.smart ||| 1 } }.raise F.MED_EVT.SPARE_LOW)
  let dead := zero.any fun d => spareOf s d == 0
  s.when (dead && !s.flag F.MED_SPARE.READONLY) fun s =>
    (((({ s with media := { s.media with smart := s.media.smart ||| 8 } }.raise F.MED_SPARE.READONLY).raise F.MED_EVT.READONLY)).entry 0x29 sevCritical)

/-- Retire a block (R287): STATE retired, the event, the count and a Fault entry. -/
def State.retire (s : State) (die block : Nat) : State :=
  let w := setBits (s.blockW0 die block) 16 4 3
  let idx := die * geoBlocks s + block
  ((s.tjrn 4 idx 0 w).afterBlockWrite 4 idx 0 (BitVec.ofNat 64 w)).spareEval

/-- Post a block for rewrite to mailbox 6 of POL0 (R272): cause 0 threshold, 1 soft, 2 outer, 3 patrol. -/
def State.postRewrite (s : State) (die block cause : Nat) : State :=
  let k := 56 * 8 + 6
  let l := sgetD [] k s.zyn.mail
  if 256 ≤ l.length then s.raise F.MED_EVT.RW_OVF
  else
    let v : Word64 := BitVec.ofNat 64 (die + block * 1024 + cause * 2 ^ 25)
    let s := { s with zyn := { s.zyn with mail := sputD [] k (l ++ [v]) s.zyn.mail } }
    match l, sget k s.zyn.mailOwner with
    | [], some o => s.zynEvent (CtxId.ofKey o) 22
    | _, _ => s

/-- A LUN fails (R263): DSTATE in DIE word 0 (its place and codes are stated nowhere: the word is a free value), DIE_EVENT, a
Critical entry; from now reads go to recovery and nothing is programmed. -/
def State.failDie (s : State) (die : Nat) : State :=
  let l := s.lun die
  let s := s.setLun die { l with failed := true, run := .none, unit := none, suspended := false, suspBy := none, readRun := none, timeouts := [] }
  let (w, s) := s.draw64
  let s := s.setTab { s.zyn.tab with die := sputD 0 (die * 8) w s.zyn.tab.die }
  let s := s.request .seq (die / 32) { kind := 3, arg0 := BitVec.ofNat 64 (die % 32) }
  let s := ((s.entry 0x21 sevCritical).raise F.MED_EVT.DIE_FAIL)
  let s := { s with media := { s.media with envQ := s.media.envQ.filter fun r => (Pa.of r.addr).die != die } }
  s.spareEval.serve die

end Sys2Proof.Machine
end

