-- ==== Sys2Proof/Machine/OpsCkpt.lean ====
section
/-! DEFINITION. Checkpoint images: contents, stamps, programs, forced requests (R228, R301 to R306). -/
namespace Sys2Proof.Machine

/-- The value a MAP entry had before its trailing run of POOL writes (R303 step 3). -/
def State.priorValue (s : State) (e : Word64) : Nat → Word64
  | 0 => e
  | fuel + 1 => match Place.of e with
    | .buffer h => (match s.buf h with | some b => s.priorValue b.prior fuel | none => 0)
    | .pending h => (match sget h s.host.pendings with | some p => s.priorValue p.prior fuel | none => 0)
    | _ => e

/-- First index and entries of a page's table entries (R301). -/
def pageRange (page : Nat) : Nat × Nat × Nat :=
  let tbl := page / 2 ^ 36
  let o := page % 2 ^ 36
  match tbl with
  | 1 => (tbl, o * 768, 768)
  | 4 => (tbl, o * 256, 256)
  | t => (t, o * 64, 64)

/-- The words of a page with their byte offset in the image (R228, R301, R303). -/
def pageWords (s : State) (page : Nat) : List (Nat × Nat) :=
  let (tbl, first, n) := pageRange page
  match tbl with
  | 1 =>
    ((List.range n).map fun j => (j / 12 * 64 + j % 12 * 5, (s.priorValue (s.mapEntry (first + j)) 64).toNat % 2 ^ 40)) ++
      (List.range 64).map fun l => (l * 64 + 60, sgetD 0 (first / 12 + l) s.jnl.lineTag % 2 ^ 32)
  | 4 => (List.range n).flatMap fun j => (List.range 2).map fun w => (j * 16 + w * 8, (sgetD 0 ((first + j) * 8 + w) s.zyn.tab.block).toNat)
  | t => (List.range n).flatMap fun j => (List.range 8).map fun w =>
      (j * 64 + w * 8, (sgetD 0 ((first + j) * 8 + w) (match t with | 2 => s.zyn.tab.zdesc | 5 => s.zyn.tab.tenant | _ => s.zyn.tab.nsrec)).toNat)

/-- The 4 KiB image of a page. -/
def pageImage (s : State) (page : Nat) : Block :=
  BitVec.ofNat 32768 ((pageWords s page).foldl (fun a (o, v) => a + v * 2 ^ (8 * o)) 0)

/-- PAGE_SEQ of an image (R303 step 4): every allocated write has taken effect, so L − 1 is the last number allocated. -/
def pageSeq (s : State) (page : Nat) : Nat :=
  let (tbl, first, n) := pageRange page
  let pools := if tbl = 1 then (List.range n).filterMap fun j => match Place.of (s.mapEntry (first + j)) with
      | .buffer h => (s.buf h).map (·.wsn)
      | .pending h => (sget h s.host.pendings).map fun p => p.bufs.foldl (fun m b => match s.buf b with | some x => min m x.wsn | none => m) s.lastSeq
      | _ => none
    else []
  pools.foldl (fun m p => min m (p - 1)) s.lastSeq

/-- The die of a channel that can take an image now: one with an open checkpoint block, or that can open one (R304). -/
def State.cpBlock (s : State) (die : Nat) : Option (Nat × Nat) × State :=
  match sget die s.jnl.cpOpen with
  | some (b, row) => if row < geoPpb s / 4 then (some (b, row), s) else (none, s)
  | none => match s.allocBlock die 3 true with
    | (some b, s) =>
      (some (b, 0), { s with mram := { s.mram with
        cpSet := s.mram.cpSet ++ [die * 2 ^ 15 + b]
        openBlks := s.mram.openBlks.map fun o => if o.die == die && o.block == b then { o with use := 3 } else o } })
    | (none, s) => (none, s)

/-- Program an image to the checkpoint block of the next channel's die (R304): round robin over channels. -/
def State.programImage (s : State) (page : Nat) (payload : Payload) : State :=
  let chans := (List.range 32).map fun k => (s.jnl.cpTurn + k) % 32
  let dies := chans.filterMap fun c => s.media.dies.find? fun d => d / 32 == c && s.inService d
  let pick (o : Option (Nat × Nat × Nat) × State) (d : Nat) : Option (Nat × Nat × Nat) × State :=
    match o with
    | (some x, s) => (some x, s)
    | (none, s) => match s.cpBlock d with | (some (b, row), s) => (some (d, b, row), s) | (none, s) => (none, s)
  match dies.foldl pick (none, s) with
  | (some (d, b, row), s) =>
    let full := decide (geoPpb s / 4 ≤ row + 1)
    let s := { s with jnl := { s.jnl with
      cpTurn := (d / 32 + 1) % 32
      cpOpen := if full then sdel d s.jnl.cpOpen else sput d (b, row + 1) s.jnl.cpOpen } }
    s.envelope { op := .image page payload, kind := 6, addr := BitVec.ofNat 48 (d * 2 ^ 38 + b * 2 ^ 20 + row * 256), cls := 5 }
  | (none, s) => { s with jnl := { s.jnl with images := s.jnl.images.filter (·.page != page) } }

/-- Image a page at the final RET of its CHECKPOINT activation (R303, R304). A page already on its way is imaged again after it. -/
def State.imagePage (s : State) (page : Nat) : State :=
  if s.jnl.images.any (·.page == page) then s
  else
    let seq := pageSeq s page
    let oob : Oob := { lba := page, wsn := seq, nsidx := 0, flush := false, part := true, gen := 0, mask := 0, lgen := 0 }
    let payload := mkPayload (pageImage s page) oob.word 0 0
    let s := { s with jnl := { s.jnl with images := s.jnl.images ++ [({ page := page, seq := seq } : CpImage)] } }
    s.programImage page payload

/-- Request the CHECKPOINT activation of a page (R83). -/
def State.requestImage (s : State) (page : Nat) : State :=
  s.request .map (page % 8) { kind := 5, arg0 := BitVec.ofNat 64 page }

/-- The `n` pages with the lowest FIRST_DIRTY that are not requested (R306). -/
def dirtiest (s : State) (n : Nat) : List Nat :=
  let l := s.jnl.firstDirty.filter fun (p, _) => !s.jnl.images.any (·.page == p)
  ((l.mergeSort fun a b => decide (a.2 ≤ b.2)).take n).map (·.1)

/-- Forced checkpoint requests of a Period that starts (R306, R51): at fill ≥ 750 in Recess and Assembly, at ≥ 900 in Lessons as
well. -/
def State.forceCheckpoints (s : State) : State :=
  let f := s.jnlFill
  let ty := s.ptype
  if (decide (750 ≤ f) && ty != 0) || decide (900 ≤ f) then
    let pages := dirtiest s (s.fld F.JNL_CTRL.FORCE_PAGES)
    s.each pages (·.requestImage ·)
  else s

/-- A checkpoint block holds no newest copy and is closed: it leaves the set and is erased (R305). When the set exceeds CP_HI,
images of the pages in the block with the lowest VALID are requested. -/
def State.trimSet (s : State) : State :=
  let key (k : Nat) : Nat × Nat := (k / 2 ^ 15, k % 2 ^ 15)
  let opened (k : Nat) : Bool := match sget (key k).1 s.jnl.cpOpen with | some (b, _) => b == (key k).2 | none => false
  let busy (k : Nat) : Bool := s.jnl.images.any fun im => match im.loc with | some l => l / 2 ^ 28 == (key k).1 && slotBlock s (l % 2 ^ 28) == (key k).2 | none => true
  let empty := s.mram.cpSet.filter fun k => !opened k && !busy k && blkValid (s.blockW0 (key k).1 (key k).2) == 0
  let s := s.each empty fun s k =>
    let (d, b) := key k
    let s := (s.closeBlock d b)
    let s := { s with mram := { s.mram with cpSet := s.mram.cpSet.filter (· != k) } }
    s.envelope { op := .erase, kind := 6, addr := BitVec.ofNat 48 (d * 2 ^ 38 + b * 2 ^ 20), cls := 6 }
  if s.fld F.JNL_CP_STATUS.CP_HI < s.mram.cpSet.length then
    let low := s.mram.cpSet.foldl (fun (m : Option Nat) k => match m with
      | none => some k
      | some x => if blkValid (s.blockW0 (key k).1 (key k).2) < blkValid (s.blockW0 (key x).1 (key x).2) then some k else m) none
    match low with
    | some k => s.each (s.mram.cpNewest.filter fun (_, l, _) => l / 2 ^ 28 == (key k).1 && slotBlock s (l % 2 ^ 28) == (key k).2) fun s (p, _) => s.requestImage p
    | none => s
  else s

end Sys2Proof.Machine
end

