-- ==== Sys2Proof/Machine/OpsFlush.lean ====
section
/-! DEFINITION. Armed flush blocks and the flush path (R308, R310 to R314). -/
namespace Sys2Proof.Machine

/-- Arm the flush block of a die (R297, R312): an allocation with purpose 4. -/
def State.armBlock (s : State) (die : Nat) : State :=
  match s.allocBlock die 4 true with
  | (some b, s) => { s with mram := { s.mram with plan := sput die b s.mram.plan } }
  | (none, s) => { s with mram := { s.mram with plan := sdel die s.mram.plan } }

/-- Arm one block per in-service die (R312). -/
def State.armAll (s : State) : State := (s.each (s.media.dies.filter s.inService) (·.armBlock ·)).ceilEval

/-- Dies with an armed block, round robin over channels and then over dies (R312). -/
def armedDies (s : State) : List Nat :=
  (List.range 32).flatMap fun k => (List.range 32).filterMap fun c =>
    if (sget (c * 32 + k) s.mram.plan).isSome && s.inService (c * 32 + k) then some (c * 32 + k) else none

/-- Next row of a die's armed block that neither media nor a waiting flush program takes. -/
def flushRow (s : State) (die block : Nat) : Nat :=
  let waits : Nat := (s.media.envQ.filter fun r => match r.op with
    | .flush _ => (Pa.of r.addr).die == die && (Pa.of r.addr).block == block | _ => false).length
  let runs : Nat := match (s.lun die).run with
    | .program u => if u.flush && (Pa.of u.addr).block == block then 1 else 0
    | _ => 0
  s.nextRow die block + waits + runs

/-- Queue one die-page of buffers on a die's armed block; a consumed block is replaced first (R312). -/
def State.flushPage (s : State) (die : Nat) (bufs : List Nat) : State :=
  let full := match sget die s.mram.plan with | some b => decide (slcRows s ≤ flushRow s die b) | none => true
  let s := s.when full (·.armBlock die)
  match sget die s.mram.plan with
  | some b => s.envelope { op := .flush bufs, kind := 0, addr := BitVec.ofNat 48 (die * 2 ^ 38 + b * 2 ^ 20 + flushRow s die b * 256), cls := 3 }
  | none => s

/-- Cut a list in pieces of `n`, at most `fuel` pieces. -/
def chunks {α : Type} (n : Nat) : Nat → List α → List (List α)
  | 0, _ => []
  | _, [] => []
  | fuel + 1, l => l.take n :: chunks n fuel (l.drop n)

/-- Deal buffers over the armed dies (R312). -/
def State.flushDeal (s : State) (bufs : List Nat) : State :=
  let dies := armedDies s
  if dies.isEmpty then s
  else s.each (chunks (max 1 (pageSlots s)) bufs.length bufs).zipIdx fun s (l, k) => s.flushPage (dies.getD (k % dies.length) 0) l

/-- Buffers of a tier in ascending WSN order (R312); poisoned ones are skipped (R332). -/
def tierBufs (s : State) (one : Bool) : List Nat :=
  let l := s.host.bufs.filter fun (h, b) => b.wsn != 0 && b.acked == one && !s.ecc.poison.contains (8, h)
  (l.mergeSort fun a b => decide (a.2.wsn ≤ b.2.wsn)).map (·.1)

/-- A flush program failed, or its die: a fresh block is armed and the buffers are dealt again (R312). -/
def State.flushRetry (s : State) (die : Nat) (bufs : List Nat) : State :=
  let mine := s.media.envQ.filter fun r => match r.op with | .flush _ => (Pa.of r.addr).die == die | _ => false
  let again := mine.flatMap fun r => match r.op with | .flush l => l | _ => []
  let s := { s with
    media := { s.media with envQ := s.media.envQ.filter fun r => !mine.contains r }
    mram := { s.mram with plan := sdel die s.mram.plan } }
  let s := if s.inService die then s.armBlock die else s
  (s.ceilEval).flushDeal (bufs ++ again)

/-- What a LUN does at step 4 of R311: reads and erases stop, a suspended program resumes, a running one continues. -/
def Lun.halt (l : Lun) : Lun :=
  { l with queue := [], unit := none, readRun := none, suspended := false, suspBy := none, unverified := none, verifyImage := none
           run := match l.run with | .program u => .program { u with ctx := none } | _ => .none }

/-- A Device Self-test under way ends early with a result, which its log takes (R485). -/
def State.stEnd (s : State) (result : Nat) : State :=
  match s.tst.selfTest with
  | none => s
  | some t => { s with tst := { s.tst with selfTest := none, stLog := ({ code := if t.ext then 2 else 1, result := result } :: s.tst.stLog).take 20 } }

/-- NAND and DRAM loop-backs end ABORTED at step 1 of the flush path (R478). -/
def State.loopsAbort (s : State) : State :=
  let gone := s.tst.loops.filter fun l => l.iface == 2 || l.iface == 3
  if gone.isEmpty then s
  else
    let s := { s with tst := { s.tst with loops := s.tst.loops.filter fun l => !(l.iface == 2 || l.iface == 3) } }
    (s.setFld F.TST_LB_STATUS.RESULT 3).setBit F.TST_LB_STATUS.RUNNING (!s.tst.loops.isEmpty)

/-- Steps 1 to 4 of R311, the CUTDUR of a snapshot and a prepared commit given up (R313). -/
def State.flushHalt (s : State) : State :=
  let s := { s with
    host := { s.host with stopAll := true }
    ttu := { s.ttu with cutWait := [], gc := none } }
  let s := ((s.seal true).stEnd 8).loopsAbort
  { s with
    media := { s.media with
      luns := s.media.luns.map fun (x : Nat × Lun) => (x.1, x.2.halt)
      envQ := [], decoding := [], stripes := []
      slots := s.media.slots.filter fun (_, x) => x.fenced }
    jnl := { s.jnl with images := [] } }

/-- The flush path starts (R310, R311); a second cause has no effect (R313). Before CSTS.RDY it takes steps 1 to 4 and 9 alone. -/
def State.flushStart (s : State) (power : Bool) : State :=
  if s.flushing then s
  else
    let s := (s.entry 0x0C sevNotice).gbClose 2
    let ready := s.fld F.JNL_STATUS.RECOV_PHASE = 7
    let s := s.flushHalt
    if power && !ready then
      { s with jnl := { s.jnl with inhibit := true, flushPower := true, phase := none } }.setFld F.JNL_STATUS.FLUSH_STATE 3
    else
      let no := (s.mram.flushNo.vote.getD 0) + 1
      let s := { s with mram := { s.mram with flushNo := trip no }, jnl := { s.jnl with flushPower := power, pfailRose := false } }
      ((s.setShutdown sdFlushing).setFld F.JNL_STATUS.FLUSH_STATE 1).flushDeal (tierBufs s true)

/-- No flush program waits or runs. -/
def flushIdle (s : State) : Bool :=
  !(s.media.envQ.any fun r => match r.op with | .flush _ => true | _ => false) &&
  !(s.media.luns.any fun (_, l) => match l.run with | .program u => u.flush | _ => false)

/-- No LUN runs anything. -/
def lunsIdle (s : State) : Bool := !(s.media.luns.any fun (_, l) => decide (l.run ≠ .none))

/-- Poisoned buffers of tier 1 are marked SPECIAL 1 by WORD records (R332). -/
def State.flushPoison (s : State) : State :=
  s.each (s.host.bufs.filter fun (h, b) => b.acked && s.ecc.poison.contains (8, h)) fun s (h, b) =>
    if !s.nsZoned b.nsid && Place.of (s.mapEntry (s.mapIndex b.nsid b.lba)) = .buffer h then
      (s.markLost (s.mapIndex b.nsid b.lba)).criticalData 0x15
    else s

/-- End of tier 1 (R311 step 7): the FLUSH record is sealed, and tier 2 starts. -/
def State.tierOneEnd (s : State) : State :=
  if s.fld F.JNL_STATUS.FLUSH_STATE ≠ 1 || !flushIdle s then s
  else
    let l := tierBufs s true
    let top := l.foldl (fun m h => match s.buf h with | some b => max m b.wsn | none => m) 0
    let s := s.flushPoison
    let s := (s.journal (recFlush (s.mram.flushNo.vote.getD 0) l.length top)).2
    let s := (s.seal true).setShutdown sdFlushed
    (s.setFld F.JNL_STATUS.FLUSH_STATE 2).flushDeal (tierBufs s false)

end Sys2Proof.Machine
end

