-- ==== Sys2Proof/Machine/OpsZone.lean ====
section
/-! DEFINITION. Blocks of a zone: its list, ring slot, and the relocation after a failed program (R237, R239, R244). -/
namespace Sys2Proof.Machine

/-! ### Block lists (R237, R239) -/

/-- Dies of a zone's stripe: the first W in-service dies that have K free blocks beyond the host's floor (the spec leaves the choice to
the placement program, and it never changes a result). -/
def zoneDies (s : State) (w k : Nat) : List Nat :=
  (s.media.dies.filter fun d => s.inService d && decide (s.fld F.MED_BALLAST.HOST_FLOOR + k ≤ (s.heap d).length)
    && decide (s.openBlocks d + k ≤ 16)).take w

/-- Lowest run of `n` consecutive free block-list entries. -/
def listBase (s : State) (n : Nat) : Nat :=
  s.map.listUsed.foldl (fun b _ => match (List.range n).filter fun i => s.map.listUsed.contains (b + i) with
    | [] => b | l => b + l.getLastD 0 + 1) 1048576

/-- Write a zone's block list in its entries: 16 items of 32 bits each (R237). -/
def State.writeList (s : State) (base : Nat) (items : List (Nat × Nat)) : State :=
  let v (i : Nat) : Nat := match items[i]? with | some (d, b) => d + b * 1024 | none => 0
  s.each (List.range ((items.length + 1) / 2)) fun s j => s.tjrn 2 (base + j / 8) (j % 8) (v (2 * j) + v (2 * j + 1) * 2 ^ 32)

/-- A zone becomes active: ring slot and block list (R237, R239). none: no blocks or no slot now. -/
def State.activateZone (s : State) (z : Nat) : Option State :=
  let w := 2 ^ (s.zw z 2 / 2 ^ 32 % 8)
  let k := s.zw z 2 / 2 ^ 35 % 64
  let k := if k = 0 then 64 else k
  let dies := zoneDies s w k
  match (List.range 16384).find? fun r => !s.map.ringSlots.contains r with
  | none => none
  | some ring =>
    if dies.length < w then none
    else
      let (items, s) := (List.range k).foldl (fun (acc : List (Nat × Nat) × State) _ =>
        dies.foldl (fun (acc : List (Nat × Nat) × State) d => match acc.2.allocBlock d 1 false with
          | (some b, s) => (acc.1 ++ [(d, b)], s)
          | (none, s) => (acc.1, s)) acc) ([], s)
      let n := (items.length + 15) / 16
      let base := listBase s n
      let s := { s with map := { s.map with ringSlots := ring :: s.map.ringSlots, listUsed := ((List.range n).map (base + ·)) ++ s.map.listUsed } }
      let s := s.writeList base items
      let s := s.tjrn 2 z 3 (base % 2 ^ 22 + (n - 1) * 2 ^ 22)
      some (s.tjrn 2 z 5 (ring + 2 ^ 15))

/-- Blocks of a zone's list. -/
def zoneBlocks (s : State) (z : Nat) : List (Nat × Nat) :=
  if s.zw z 3 % 2 ^ 22 < 1048576 then []
  else (List.range (2 ^ (s.zw z 2 / 2 ^ 32 % 8) * (let k := s.zw z 2 / 2 ^ 35 % 64; if k = 0 then 64 else k))).map (s.zoneItem z ·)

/-- Blocks of a zone's list that really stand in it; an item of all ones names none. -/
def zoneOwn (s : State) (z : Nat) : List (Nat × Nat) := (zoneBlocks s z).filter (· != (1023, 32767))

/-- A block of a zone that holds nothing returns to the free heap (R239). -/
def State.returnBlock (s : State) (d b : Nat) : State :=
  let w := s.blockW0 d b
  let s := (s.tjrn 4 (d * geoBlocks s + b) 0 (setBits (setBits w 16 4 0) 0 16 0)).closeBlockEntry d b
  (s.setHeap d (heapInsert (blkErase w, b) (s.heap d))).ballastCheck d

/-- Give up the relocation of a zone: its fresh blocks return to the heap. -/
def State.dropMove (s : State) (z : Nat) : State :=
  let l := s.media.zoneMoves.filter (·.zone == z)
  ({ s with media := { s.media with zoneMoves := s.media.zoneMoves.filter (·.zone != z) } }).each l fun s m => s.each m.fresh fun s (_, e, c) => s.returnBlock e c

/-- Free a zone's ring and list entries (R239); a relocation of the zone ends. -/
def State.freeZone (s : State) (z : Nat) : State :=
  let s := s.dropMove z
  let base := s.zw z 3 % 2 ^ 22
  let n := s.zw z 3 / 2 ^ 22 % 4 + 1
  let ring := s.zw z 5 % 2 ^ 14
  let s := { s with map := { s.map with
    ringSlots := s.map.ringSlots.filter (· != ring), rings := sdel z s.map.rings
    listUsed := s.map.listUsed.filter fun i => !(decide (base ≤ i) && decide (i < base + n)) } }
  let s := s.tjrn 2 z 3 0
  s.tjrn 2 z 5 0

/-- A block of a zone that holds data waits for its erase: closed, with no valid codeword (R239, R283). -/
def State.dropZoneBlock (s : State) (d b : Nat) : State :=
  (s.tjrn 4 (d * geoBlocks s + b) 0 (setBits (setBits (s.blockW0 d b) 16 4 2) 0 16 0)).closeBlockEntry d b

/-- Active and open zones of a namespace. -/
def nsActive (s : State) (ns : Nat) : Nat := ((List.range (s.nsZones ns)).filter fun i => zActive (s.zs (s.nsBase ns + i))).length
def nsOpen (s : State) (ns : Nat) : Nat := ((List.range (s.nsZones ns)).filter fun i => zOpen (s.zs (s.nsBase ns + i))).length

/-- Set a zone's state (R239). -/
def State.setZs (s : State) (z st : Nat) : State := s.tjrn 2 z 0 (setBits (s.zw z 0) 0 4 st)

/-! ### Relocation (R244) -/

/-- The zone whose block list names a block. -/
def blockZone (s : State) (d b : Nat) : Option Nat :=
  ((s.zyn.tab.zdesc.filter fun (k, v) => k % 8 == 3 && decide (k / 8 < 1048576) && v != 0).map fun (k, _) => k / 8).find? fun z => (zoneOwn s z).contains (d, b)

/-- List items of a zone whose block a relocation replaces: it has a programmed page, or is not open any more. -/
def moveItems (s : State) (z : Nat) : List (Nat × Nat × Nat) :=
  ((zoneBlocks s z).zipIdx.filterMap fun (x, i) => if x = (1023, 32767) then none else some (i, x)).filter fun (_, d, b) =>
    decide (0 < s.nextRow d b) || s.blockSt d b != 1

/-- A die has a free block outside Ballast. -/
def freeOutside (s : State) (d : Nat) : Bool := s.inService d && decide (s.fld F.MED_BALLAST.FLOOR < (s.heap d).length)

/-- Fresh blocks for the items of a relocation that have none yet, each on its own die while that has a free block outside Ballast, else on
another die of the stripe. The first part is false where none remains (R244); `none`: a die has no room for an open block now. -/
def State.moveAlloc (s : State) (dies : List Nat) (m : ZoneMove) : List (Nat × Nat × Nat) → Bool × Option (ZoneMove × State)
  | [] => (true, some (m, s))
  | (i, d, _) :: t =>
    match (d :: dies).find? (freeOutside s) with
    | none => (false, none)
    | some e => match s.allocBlock e 3 false with
      | (some b, s) => s.moveAlloc dies { m with fresh := sput i (e, b) m.fresh } t
      | (none, _) => (true, none)

/-- Copy a zone's block to a fresh one: rows, planes and codewords keep their places (R238), the codewords' generation rises, and LGEN16 is
the zone's (R300). The copies join no stripe (DESIGN CHOICE). -/
def State.copyBlock (s : State) (d b e c : Nat) : State :=
  let lo := nandKey d (b * blockSlots s)
  let to_ := nandKey e (c * blockSlots s)
  let l := s.media.nand.filter fun (k, _) => decide (lo ≤ k) && decide (k < lo + blockSlots s)
  let t := { s with media := { s.media with nand := l.foldl (fun m (k, p) => sput (to_ + (k - lo)) (mkPayload (Payload.data p) (s.movedOob p) 0 0) m) s.media.nand } }
  t.putBlock (bkey t e c) (setBits (t.blockW0 e c) 0 16 l.length)

/-- A program of a block waits or runs. -/
def blockBusy (s : State) (d b : Nat) : Bool :=
  let at_ (a : BitVec 48) : Bool := let p := Pa.of a; p.die == d && p.block == b
  let npg (r : NandReq) : Bool := (match r.op with | .npg _ _ _ => true | _ => false) && at_ r.addr
  let l := s.lun d
  s.media.envQ.any npg || l.queue.any npg || l.unit.any (at_ ·.addr) || (match l.run with | .program u => at_ u.addr | _ => false)

/-- The zone's data stands in the fresh blocks: the list names them, LGEN has risen, the zone's state stays, and the old blocks wait for
their erase, which the open batch holds back (R31, R244, R283). -/
def State.moveCommit (s : State) (z : Nat) (m : ZoneMove) : State :=
  let old := zoneBlocks s z
  let s := s.tjrn 2 z 2 (setBits (s.zw z 2) 0 32 ((s.zlgen z + 1) % 2 ^ 32))
  let s := s.each m.fresh fun s (i, e, c) => let (d, b) := old.getD i (1023, 32767); s.copyBlock d b e c
  let s := s.writeList (s.zw z 3 % 2 ^ 22) (old.zipIdx.map fun (x, i) => sgetD x i m.fresh)
  let gone := m.fresh.map fun (i, _) => old.getD i (1023, 32767)
  let s := s.each gone fun s (d, b) => s.dropZoneBlock d b
  { s with
    jnl := { s.jnl with openSlots := if s.jnl.openRecs.isEmpty then s.jnl.openSlots else s.jnl.openSlots ++ gone.map fun (d, b) => d * 2 ^ 15 + b }
    mram := { s.mram with openBlks := s.mram.openBlks.map fun o => if m.fresh.any fun (_, e, c) => o.die == e && o.block == c then { o with use := 0 } else o }
    media := { s.media with zoneMoves := s.media.zoneMoves.filter (·.zone != z) } }

/-- No free block outside Ballast remains: the zone goes to ZSRO, with the event, the Fault entry, and Zone Descriptor Changed for the
functions that reach its namespace (R239, R244; the event's code 0xEF is PRESUMED). -/
def State.moveFails (s : State) (z : Nat) : State :=
  let s := s.dropMove z
  if s.zs z = zsReadOnly || s.zs z = zsOffline then s
  else
    let ns := s.zw z 4 % 2 ^ 32
    let s := ((s.setZs z zsReadOnly).raise F.MAP_EVT.ZONE_RO).entry 0x13 sevFault
    s.each (s.funcList.filter fun f => (s.func f).rdy && (s.func f).attached.contains ns) fun s f => s.aen f 2 0xEF

/-- Carry a relocation on as far as it goes now (R244): fresh blocks are allocated; once their allocations are sealed (R298), moves of kind 1
may start on every die concerned (R29, R50) and no program of the zone is on its way, the data is moved in one instant (DESIGN CHOICE). -/
def State.moveStep (s : State) (z : Nat) : State :=
  match s.media.zoneMoves.find? (·.zone == z) with
  | none => s
  | some m =>
    let put (m : ZoneMove) (s : State) : State :=
      { s with media := { s.media with zoneMoves := s.media.zoneMoves.map fun x => if x.zone == z then m else x } }
    let items := moveItems s z
    let dies := ((zoneOwn s z).map (·.1)).dedup
    let (keep, left) := m.fresh.partition fun (i, _) => items.any (·.1 == i)
    let m : ZoneMove := { m with fresh := keep }
    let s := s.each left fun s (_, e, c) => s.returnBlock e c
    match (put m s).moveAlloc dies m (items.filter fun (i, _) => (sget i m.fresh).isNone) with
    | (false, _) => (put m s).moveFails z
    | (true, none) => put m s
    | (true, some (m, s)) =>
      let s := put m s
      let sealed (e c : Nat) : Bool := s.mram.openBlks.any fun o => o.die == e && o.block == c && decide (o.allocSeq ≤ s.jnl.sealed)
      let ready := m.fresh.all (fun (_, e, c) => sealed e c && kindAllowed s e 1) && dies.all fun d => kindAllowed s d 1
      if m.fresh.isEmpty then s.dropMove z
      else if !ready || (zoneOwn s z).any (fun (d, b) => blockBusy s d b) then s
      else s.moveCommit z m

/-- Carry every relocation on. -/
def State.movesRun (s : State) : State := s.each (s.media.zoneMoves.map (·.zone)) (·.moveStep ·)

/-- A program in a block of a zone has failed: the zone's data is to be moved (R244). -/
def State.zoneFail (s : State) (d b : Nat) : State :=
  match blockZone s d b with
  | none => s
  | some z =>
    (s.when (!s.media.zoneMoves.any (·.zone == z)) fun s =>
      { s with media := { s.media with zoneMoves := s.media.zoneMoves ++ [{ zone := z }] } }).moveStep z

end Sys2Proof.Machine
end

