-- ==== Sys2Proof/Machine/OpsSc.lean ====
section
/-! DEFINITION. Seating Chart searches and installs, the pre-filter, and the Pattern Automata Unit (07_seating_chart.md). -/
namespace Sys2Proof.Machine

/-! ### Layout (R199, R200) -/

/-- Layout in force: SC_BANK_CFG latched at the first CC.EN of PF0. -/
def scCfg (s : State) : Nat := (s.sc.layout.getD (s.reg R.SC_BANK_CFG)).toNat
/-- Width of a bank in units; code 3 acts as 0. -/
def bankWidth (s : State) (b : Nat) : Nat := match scCfg s / 4 ^ b % 4 with | 1 => 2 | 2 => 4 | _ => 1
/-- A bank is offline (R215). -/
def bankOffline (s : State) (b : Nat) : Bool := (s.fld F.SC_STATUS.OFFLINE).testBit b
/-- The pre-filter governs classification: some bank is offline, or PF_FORCE (R215). -/
def preFilterMode (s : State) : Bool := s.fld F.SC_STATUS.OFFLINE != 0 || s.flag F.SC_CTRL.PF_FORCE

/-- Indices of entries of a width, ascending; before the layout of R200 there are none. -/
def widthIndices (s : State) (w : Nat) : List Nat :=
  if s.sc.layout.isNone then [] else (List.range 16).flatMap fun b => if bankWidth s b = w then (List.range (4096 / w)).map fun k => b * 4096 + k * w else []

/-- Free entries of a width. -/
def freeIndices (s : State) (w : Nat) : List Nat := (widthIndices s w).filter fun i => (sget i s.sc.entries).isNone

/-! ### Search (R201 to R204) -/

/-- FUNC of unit 0 is fully cared: the function an entry belongs to. -/
def ScEntry.func (e : ScEntry) : Option Nat := if e.care.toNat % 4096 = 4095 then some (e.value.toNat % 4096) else none

/-- Cared bits of an entry over its units (R203). -/
def ScEntry.cared (e : ScEntry) : Nat := ((List.range (80 * e.width)).filter fun k => e.care.getLsbD k).length

/-- The live bit of an entry for its function's epoch is set (R210). -/
def liveEntry (s : State) (e : ScEntry) : Bool :=
  match e.func with
  | some f => if s.sc.epochs.contains f then e.live1 else e.live0
  | none => e.live0

/-- An entry is searchable: its bank is online and it is live (R202). -/
def searchable (s : State) (i : Nat) (e : ScEntry) : Bool := !bankOffline s (i / 4096) && liveEntry s e

/-- Each cared bit equals the key's (R202). -/
def ScEntry.hits (e : ScEntry) (key : BitVec 320) : Bool := ((e.value ^^^ key) &&& e.care).toNat % 2 ^ (80 * e.width) == 0

/-- The winner of two matching entries (R203): PRIO, cared bits, lowest index. -/
def scBetter (a b : Nat × ScEntry) : Bool :=
  if a.2.prio.toNat ≠ b.2.prio.toNat then decide (b.2.prio.toNat < a.2.prio.toNat)
  else if a.2.cared ≠ b.2.cared then decide (b.2.cared < a.2.cared) else decide (a.1 < b.1)

/-- The packed result of a search of a width: the winner's RESULT, all ones when nothing matches (R203, R204). -/
def scSearch (s : State) (key : BitVec 320) (w : Nat) : Word64 :=
  let m := s.sc.entries.filter fun (i, e) => decide (e.width ≤ w) && searchable s i e && e.hits key
  match m.foldl (fun (o : Option (Nat × ScEntry)) x => match o with | none => some x | some y => if scBetter x y then some x else some y) none with
  | some (_, e) => e.result
  | none => 0xFFFFFFFFFFFFFFFF

/-- LBA of a command key (R201). -/
def keyLba (q : Sqe) : Nat :=
  match q.opcode with
  | 0x01 | 0x02 | 0x04 | 0x05 | 0x08 | 0x0C | 0x19 | 0x79 | 0x7A | 0x7D | 0x82 => q.slba
  | _ => 0

/-- The command key of an I/O SQE (R201). -/
def commandKey (f sqid : Nat) (q : Sqe) : BitVec 320 :=
  let nsid := if q.nsid = 0xFFFFFFFF then 0x7FFF else q.nsid.toNat % 2 ^ 15
  let u0 := f % 4096 + nsid * 2 ^ 12 + q.opcode * 2 ^ 27 + keyLba q % 2 ^ 40 * 2 ^ 36 + 1 * 2 ^ 76
  let dspec := if q.writeType then q.cdw13.toNat / 65536 else 0
  let dtype := if q.writeType then q.cdw12.toNat / 2 ^ 20 % 16 else 0
  let u1 := q.keyTag.toNat + dspec * 2 ^ 16 + dtype * 2 ^ 32 + sqid % 2048 * 2 ^ 36 + 2 * 2 ^ 76
  BitVec.ofNat 320 (u0 + u1 * 2 ^ 80)

/-! ### Pre-filter (R214) -/

/-- Value and cared bits of (FUNC << 4) or OPC[3:0] of an entry. -/
def preBits (e : ScEntry) : Nat × Nat :=
  let v := e.value.toNat
  let c := e.care.toNat
  (v % 4096 * 16 + v / 2 ^ 27 % 16, c % 4096 * 16 + c / 2 ^ 27 % 16)

/-- The pre-filter bit of a function and opcode is set. -/
def preHit (s : State) (f opc : Nat) : Bool :=
  let n := f % 4096 * 16 + opc % 16
  s.sc.prefilter.any fun (v, c) => Nat.land (Nat.xor v n) c == 0

/-- Set the bits an entry could match (R214). -/
def State.preSet (s : State) (e : ScEntry) : State :=
  if s.sc.prefilter.contains (preBits e) then s
  else { s with sc := { s.sc with prefilter := preBits e :: s.sc.prefilter } }

/-- Recompute the pre-filter from the entries (R216). -/
def State.preRecompute (s : State) : State :=
  ({ s with sc := { s.sc with prefilter := [] } }).each s.sc.entries fun s (_, e) => s.preSet e

/-! ### Manager entries (R206 to R210) -/

/-- Indices of a function's manager entries, live in its current epoch, in banks offline too. -/
def managerEntries (s : State) (f : Nat) : List Nat :=
  (s.sc.entries.filter fun (_, e) => e.owner == some f && liveEntry s e).map (·.1)

/-- Filter identifier of a function (R220: TENANT word 4). -/
def tenFilter (s : State) (f : Nat) : Nat := s.tenWord f 4 % 65536

/-- A record of an Install Entries action passes its checks: FUNC cared and the caller's function, the units' kinds and widths, and the key slot,
filter and placement its result may name, and zeros where R206 has them (R206, R207). -/
def recOk (s : State) (f : Nat) (slotOk : Nat → Bool) (r : ScRec) : Bool :=
  let v := r.value.toNat
  let c := r.care.toNat
  let res := r.result.toNat
  let w := r.width.toNat
  r.zero42 == 0 && r.zero56 == 0 && r.index == 0 &&
  c % 4096 == 4095 && v % 4096 == f &&
  c / 2 ^ 76 % 16 == 15 && v / 2 ^ 76 % 16 == 1 && (w == 1 || w == 2) &&
  (w == 1 || (c / 2 ^ 156 % 16 == 15 && v / 2 ^ 156 % 16 == 2)) &&
  (w == 2 || c / 2 ^ 80 == 0) &&
  c / 2 ^ 35 % 2 == 0 && (w == 1 || c / 2 ^ (80 + 47) % 2 ^ 29 == 0) &&
  (res / 2 ^ 24 % 2 == 0 || slotOk (res / 256 % 65536)) &&
  (res / 2 ^ 48 == 0 || res / 2 ^ 48 == tenFilter s f) &&
  (res / 2 ^ 25 % 64 == 0 || s.isPf f)

/-- Place records at rising indices, each at the lowest free index of its width above the one before (R208). -/
def placeRecs (s : State) (above : Option Nat) : List ScRec → Option (List (Nat × ScRec))
  | [] => some []
  | r :: t =>
    let ok (i : Nat) : Bool := match above with | none => true | some a => decide (a < i)
    match (freeIndices s r.width.toNat).find? ok with
    | none => none
    | some i => (placeRecs s (some i) t).map ((i, r) :: ·)

/-- The entry of a record. -/
def recEntry (f : Nat) (epoch : Bool) (r : ScRec) : ScEntry :=
  { value := r.value.setWidth 320, care := r.care.setWidth 320, width := r.width.toNat, prio := r.prio, result := r.result,
    live0 := epoch, live1 := !epoch, owner := some f }

/-- Write the function's entries and epoch into the MRAM shadow (R210 step 3, R200). -/
def State.scShadow (s : State) : State :=
  { s with mram := { s.mram with
    scCfg := some (s.sc.layout.getD (s.reg R.SC_BANK_CFG))
    scEntries := s.sc.entries.filter fun (_, e) => e.owner.isSome
    scEpochs := s.sc.epochs } }

/-- Steps 1 to 5 of R210: add placed records, remove entries, flip the function's epoch; what stays is live after the flip. -/
def State.scUpdate (s : State) (f : Nat) (add : List (Nat × ScRec)) (remove : List Nat) : State :=
  let old := s.sc.epochs.contains f
  let new := !old
  let s := s.each add fun s (i, r) =>
    let e := recEntry f (!new) r
    ({ s with sc := { s.sc with entries := sput i e s.sc.entries } }).preSet e
  let keep := s.sc.entries.filter fun (i, e) => !(e.owner == some f && remove.contains i)
  let live := keep.map fun (i, e) => if e.owner == some f then (i, { e with live0 := !new, live1 := new }) else (i, e)
  ({ s with sc := { s.sc with
    entries := live
    epochs := if new then f :: s.sc.epochs else s.sc.epochs.filter (· != f) } }).scShadow

/-- An Install Entries action (R206 to R210): 0 replace, 1 add, 2 remove. Either a status, or the new state. -/
def State.installEntries (s : State) (f mode : Nat) (slotOk : Nat → Bool) (l : List ScRec) : Except (Nat × Nat) State :=
  let mine := managerEntries s f
  if l.isEmpty || decide (63 < l.length) then .error (0, 0x02)
  else if mode = 2 then
    if l.all fun r => mine.contains r.index.toNat then .ok (s.scUpdate f [] (l.map (·.index.toNat))) else .error (0, 0x02)
  else if !(l.all (recOk s f slotOk)) then .error (0, 0x02)
  else match placeRecs s none l with
    | none => .error (7, 0x82)
    | some p => .ok (s.scUpdate f p (if mode = 0 then mine else []))

/-! ### Banks offline (R215, R216) -/

/-- A bank goes offline; the pre-filter governs. -/
def State.bankDown (s : State) (b : Nat) : State :=
  (s.setFld F.SC_STATUS.OFFLINE (Nat.lor (s.fld F.SC_STATUS.OFFLINE) (2 ^ b))).raise F.SC_STATUS.PREFILTER

/-- A mismatch or parity error of the background check (R216): rebuilt from the shadow, or offline for good when the shadow is uncorrectable. -/
def State.bankFault (s : State) (b : Nat) (shadowOk : Bool) : State :=
  let s := (s.bankDown b).raise F.SC_EVT.BANK_FAULT
  if shadowOk then { s with sc := { s.sc with faults := if s.sc.faults.contains b then s.sc.faults else b :: s.sc.faults } }
  else
    let s := (s.raise F.SC_EVT.SHADOW_FAIL).entry 0x11 sevCritical
    { s with mram := { s.mram with scBad := if s.mram.scBad.contains b then s.mram.scBad else b :: s.mram.scBad } }

/-- A bank is restored from the shadow and comes online (R215, R216): the pre-filter is computed anew. -/
def State.bankRebuilt (s : State) (b : Nat) : State :=
  if s.sc.layout.isNone || !bankOffline s b || s.mram.scBad.contains b then s
  else
    let s := (s.setFld F.SC_STATUS.OFFLINE (s.fld F.SC_STATUS.OFFLINE - 2 ^ b)).preRecompute
    let s := s.setBit F.SC_STATUS.PREFILTER (preFilterMode s)
    if s.sc.faults.contains b then
      let s := (s.raise F.SC_EVT.REBUILT).entry 0x11 sevFault
      { s with sc := { s.sc with faults := s.sc.faults.filter (· != b) } }
    else s

/-! ### Default entries (R209) -/

/-- A default record of 64 bytes (R206, R209): KEY_VALID, KEY_SLOT, LRANGE and FILTER are taken as 0. -/
def defaultEntry (r : BitVec 512) : ScEntry :=
  let n := r.toNat
  let w := n / 2 ^ 320 % 256
  let res := n / 2 ^ 352 % 2 ^ 64
  let res := res % 256 + res / 2 ^ 31 % 2 ^ 17 * 2 ^ 31
  { value := BitVec.ofNat 320 (n % 2 ^ 160), care := BitVec.ofNat 320 (n / 2 ^ 160 % 2 ^ 160), width := w,
    prio := BitVec.ofNat 8 (n / 2 ^ 328), result := BitVec.ofNat 64 res, live0 := true, live1 := true, owner := none }

/-- Install the default entries from the highest indices downward, skipping those without room (R209). -/
def State.installDefaults (s : State) : State :=
  let s := { s with sc := { s.sc with entries := s.sc.entries.filter fun (_, e) => e.owner.isSome } }
  let step (acc : Nat × State) (r : BitVec 512) : Nat × State :=
    let (skip, s) := acc
    let e := defaultEntry r
    match (freeIndices s e.width).reverse.head? with
    | some i => (skip, ({ s with sc := { s.sc with entries := sput i e s.sc.entries } }).preSet e)
    | none => (skip + 1, s)
  let (skip, s) := s.zyn.bundle.defaults.foldl step (0, s)
  (s.setFld F.SC_STATUS.SKIPPED (min 255 skip)).when (skip != 0) (·.raise F.SC_EVT.DEFAULT_SKIP)

/-- Lay the array out at the first CC.EN of PF0 (R200): default entries, then the shadow's manager entries if the layout is the
one they were written under; the banks come online, but for one whose shadow is uncorrectable and still in use (R216). -/
def State.scLayout (s : State) : State :=
  let cfg := s.reg R.SC_BANK_CFG
  let s := { s with sc := { s.sc with layout := some cfg, entries := [], epochs := [], prefilter := [] } }
  let same := s.mram.scCfg == some cfg
  let s := if same then
      ({ s with sc := { s.sc with entries := s.mram.scEntries, epochs := s.mram.scEpochs } }).each s.mram.scEntries fun s (_, e) => s.preSet e
    else s
  let s := s.when (!same && s.mram.scCfg.isSome) (·.raise F.SC_EVT.LAYOUT_CHANGED)
  let s := s.installDefaults
  let s := s.when (!same) fun s => ({ s with mram := { s.mram with scBad := [] } }).scShadow
  let s := s.setFld F.SC_STATUS.OFFLINE (s.mram.scBad.foldl (fun n b => Nat.lor n (2 ^ b)) 0)
  s.setBit F.SC_STATUS.PREFILTER (preFilterMode s)

/-! ### Pattern Automata Unit (R217 to R224) -/

/-- Fields of a filter image (R218). -/
structure Filter where
  id : Nat
  states : Nat
  classes : Nat
  frame : Nat
  recLen : Nat
  delim : Nat
  start : Nat
  length : Nat
deriving DecidableEq, Repr

/-- Little-endian number of `n` bytes of an image. -/
def imgLe (img : List Byte) (off n : Nat) : Nat := ofLe (((img.drop off).take n).map (·.toNat))

def Filter.of (img : List Byte) : Filter :=
  { id := imgLe img 6 2, states := imgLe img 8 4, classes := imgLe img 12 1, frame := imgLe img 13 1, recLen := imgLe img 14 2,
    delim := imgLe img 16 1, start := imgLe img 0x14 2, length := imgLe img 0x18 4 }

/-- CRC-32C of bytes, reflected polynomial 0x82F63B78 (PRESUMED: the spec names the code and not its parameters). -/
def crc32c (l : List Nat) : Nat :=
  Nat.xor 0xFFFFFFFF (l.foldl (fun c b => (List.range 8).foldl (fun (c : Nat) _ =>
    if c % 2 = 1 then Nat.xor (c / 2) 0x82F63B78 else c / 2) (Nat.xor c (b % 256))) 0xFFFFFFFF)

/-- The checks of an image (R219). -/
def filterOk (img : List Byte) : Bool :=
  let f := Filter.of img
  let next := 0x120
  let nbytes := f.states * f.classes * 2
  imgLe img 0 4 == 0x544C465A && imgLe img 4 2 == 1 && decide (1 ≤ f.id) &&
  decide (2 ≤ f.states) && decide (f.states ≤ 65536) && decide (1 ≤ f.classes) && decide (f.classes ≤ 64) && decide (f.frame ≤ 1) &&
  (if f.frame = 0 then decide (16 ≤ f.recLen) && decide (f.recLen ≤ 4096) else f.recLen == 0) &&
  imgLe img 0x11 3 == 0 && imgLe img 0x16 2 == 0 &&
  decide (f.states * f.classes ≤ 1048576) && decide (f.length = 0x120 + nbytes + (f.states + 7) / 8) && decide (f.length ≤ 2097152 + 0x2120) &&
  decide (img.length = f.length) &&
  (((img.drop 0x20).take 256).all fun c => decide (c.toNat < f.classes)) &&
  ((List.range (f.states * f.classes)).all fun k => decide (imgLe img (next + 2 * k) 2 < f.states)) && decide (f.start < f.states) &&
  imgLe img 0x1C 4 == crc32c (((img.take 0x1C) ++ ([0, 0, 0, 0] : List Byte) ++ img.drop 0x20).map fun b => b.toNat)

/-- One byte of the automaton: next state, and whether it accepts. -/
def filterStep (img : List Byte) (f : Filter) (st : Nat) (b : Byte) : Nat × Bool :=
  let cls := imgLe img (0x20 + b.toNat) 1
  let n := imgLe img (0x120 + 2 * (st * f.classes + cls)) 2
  (n, (imgLe img (0x120 + f.states * f.classes * 2 + n / 8) 1).testBit (n % 8))

/-- What a scan has found: bytes of the output, matches, and the record under way. -/
structure Scan where
  out : List Byte := []
  total : Nat := 0
  matched : Nat := 0
  trunc : Bool := false
  st : Nat
  start : Nat := 0
  /-- Bytes of the record so far, newest first, and its first accepting offset. -/
  recBytes : List Byte := []
  hit : Option Nat := none
deriving DecidableEq, Repr

/-- Put output of a match, as far as the result buffer has room (R223). -/
def Scan.put (c : Scan) (room : Nat) (l : List Byte) : Scan :=
  let fit := l.take (room - c.out.length)
  { c with out := c.out ++ fit, trunc := c.trunc || decide (fit.length < l.length) }

/-- A record ends (R223). -/
def Scan.close (c : Scan) (f : Filter) (mode room pos : Nat) : Scan :=
  let d := match c.hit with
    | none => c
    | some o =>
      let c := { c with matched := c.matched + 1 }
      match mode with
      | 0 => c.put room c.recBytes.reverse
      | 1 => c.put room ((leBytes c.start 6 ++ leBytes o 2).map (BitVec.ofNat 8))
      | _ => c
  { d with st := f.start, start := pos, recBytes := [], hit := none }

/-- Scan a stream of bytes (R223): the output and CQE Dwords 0 and 1. -/
def pauScan (img : List Byte) (stream : List Byte) (mode room : Nat) : List Byte × Nat × Nat :=
  let f := Filter.of img
  let step (c : Scan) (b : Byte) : Scan :=
    let (n, acc) := filterStep img f c.st b
    let off := c.recBytes.length
    let c := { c with st := n, recBytes := b :: c.recBytes, total := c.total + 1
                      hit := if acc && c.hit.isNone then some off else c.hit }
    let ended := if f.frame = 0 then off + 1 == f.recLen else b.toNat == f.delim || off + 1 == 65535
    if ended then c.close f mode room c.total else c
  let c := stream.foldl step ({ st := f.start } : Scan)
  let c := if c.recBytes.isEmpty then c else c.close f mode room c.total
  (c.out, c.out.length, c.matched % 2 ^ 31 + (if c.trunc then 2 ^ 31 else 0))

/-- Bytes of a block, byte 0 first. -/
def blockBytes (b : Block) : List Byte := (List.range 4096).map fun i => b.extractLsb' (8 * i) 8

/-- Assign a PAU engine to a command, or let it wait in FSN order (R224). -/
def State.pauAssign (s : State) (c : Nat) : State :=
  if s.sc.engines.any fun (_, x) => x == c then s
  else match (List.range 8).find? fun e => (sget e s.sc.engines).isNone with
    | some e => { s with sc := { s.sc with engines := sput e c s.sc.engines, pauWait := s.sc.pauWait.filter (· != c) } }
    | none => if s.sc.pauWait.contains c then s else { s with sc := { s.sc with pauWait := s.sc.pauWait ++ [c] } }

/-- An engine is free again (R224). -/
def State.pauRelease (s : State) (c : Nat) : State := s.dropEngine c

/-- Old images that a command in flight is still bound to (R220): the classification put them in the command's context. -/
def heldImages (s : State) : List (List Byte) :=
  (s.host.cmds.filterMap fun ((_, x) : Nat × Cmd) => x.filter).dedup.filter fun i => !s.sc.filters.any fun ((_, j) : Nat × List Byte) => i == j

/-- Images the filter store holds (R217, R220). -/
def storeImages (s : State) : List (List Byte) := s.sc.filters.map (fun (x : Nat × List Byte) => x.2) ++ heldImages s

/-- Pages of 4 KiB of the filter store in use (R220, PAU_STORE). -/
def storePages (s : State) : Nat :=
  ((storeImages s).map fun l => (l.length + 4095) / 4096).sum

end Sys2Proof.Machine
end

