-- ==== Sys2Proof/Machine/ZynDev.lean ====
section
/-! DEFINITION. Zyn device operations: NAND, transfers, lookup, locks, CQPOST, speculation (R129 to R138, R248, R515). -/
namespace Sys2Proof.Machine

/-! ### NAND operations (R131, R132, R515) -/

/-- The activity kind in force (R131): host origin runs as kind 0; background takes kind 0 as 1. -/
def effKind (c : Ctx) (kind : BitVec 4) : Nat := if c.origin = .host then 0 else if kind = 0 then 1 else kind.toNat

/-- Operand a of a NAND operation: bits [63:48] are 0 (R131). -/
def paOperand (a : Word64) : Option (BitVec 48) := if a.toNat < 2 ^ 48 then some (a.setWidth 48) else none

/-- Microprogram slot of a read, by planes and soft bits (R261). -/
def readSlot (s : State) (p : Pa) (soft : Nat) : Nat :=
  if soft ≠ 0 then 2 else if geoCpp s < p.cw + p.count then 1 else 0

/-- A read of a run may be sent (R131, R287): geometry, a block not retired, an SLC page within the block. -/
def readAddrOk (s : State) (eng : Nat) (p : Pa) : Bool :=
  paOk s eng p true && s.blockSt p.die p.block != 3 &&
  !(s.blockSlc p.die p.block && decide (geoPpb s / 4 ≤ p.page))

/-- NRD (R131). -/
def execNrd (i : CtxId) (d a : BitVec 5) (soft : BitVec 2) (set kind : BitVec 4) (crec : BitVec 16) (s : State) : Res :=
  s.tagged i pSeq d crec fun c t s =>
    match paOperand (c.reg a) with
    | none => s.trap i cIllegal c.pc (c.reg a)
    | some addr =>
      if 8 ≤ kind.toNat then s.trap i cIllegal c.pc
      else
        let p := Pa.of addr
        let k := effKind c kind
        let bad := uprogBad s i.eng (readSlot s p soft.toNat)
        let s := s.when bad (·.seqEvt F.SEQ_EVT.UPROG_ERR i.eng)
        if bad || !readAddrOk s i.eng p then s.tagDone i t crec opRead stAddress 0 0
        else s.enqueue { op := .read soft.toNat set.toNat false, kind := k, addr := addr, ctx := some (i.key, t), crec := crec,
                         cmd := c.cmd, cls := if k = 0 then 1 else 4 }

/-- The NPGs of a unit of this LUN are still arriving: its last one has not come (R515). -/
def unitOpen (s : State) (die : Nat) : Bool :=
  let isLast (r : NandReq) : Bool := match r.op with | .npg _ last _ => last | _ => false
  let isNpg (r : NandReq) : Bool := match r.op with | .npg _ _ _ => true | _ => false
  let waiting := (s.media.envQ.filter fun r => (Pa.of r.addr).die == die && isNpg r).getLast?
  let first := (s.lun die).unit.isSome || (match waiting with | some r => !isLast r | none => false)
  first && !(s.lun die).queue.any isLast

/-- NPG (R515). -/
def execNpg (i : CtxId) (d a b : BitVec 5) (kind : BitVec 4) (qlc last : Bool) (crec : BitVec 16) (s : State) : Res :=
  s.tagged i pSeq d crec fun c t s =>
    match paOperand (c.reg a) with
    | none => s.trap i cIllegal c.pc (c.reg a)
    | some addr =>
      let p := Pa.of addr
      if 8 ≤ kind.toNat || (Src.of (c.reg b) p.count).isNone then s.trap i cIllegal c.pc
      else
        let k := effKind c kind
        let fin (st : Nat) (s : State) : State := s.tagDone i t crec opNpg st 0 0
        let bad := uprogBad s i.eng (if qlc then 4 else 3)
        let s := s.when bad (·.seqEvt F.SEQ_EVT.UPROG_ERR i.eng)
        if k = 3 || k = 5 then fin stDenied s
        else if bad || !paOk s i.eng p true || s.blockSt p.die p.block != 1 || s.blockSlc p.die p.block == qlc ||
            (!qlc && decide (geoPpb s / 4 ≤ p.page)) then fin stAddress s
        else if (s.lun p.die).failed then (let (n, s) := s.draw; fin (n % 14) s)
        else
          let r : NandReq := { op := .npg (!qlc) last (c.reg b), kind := k, addr := addr, ctx := some (i.key, t), crec := crec,
                               cmd := c.cmd, cls := if k = 0 then 3 else 5 }
          if unitOpen s p.die then s.enqueue r else s.envelope r

/-- NER (R131, R283, R287): a block that is not closed, still has valid pages, or is named by the open batch is refused with DENIED,
and the guard seals the batch (R294); a block to be retired is retired instead. -/
def execNer (i : CtxId) (d a : BitVec 5) (kind : BitVec 4) (crec : BitVec 16) (s : State) : Res :=
  s.tagged i pSeq d crec fun c t s =>
    match paOperand (c.reg a) with
    | none => s.trap i cIllegal c.pc (c.reg a)
    | some addr =>
      if 8 ≤ kind.toNat then s.trap i cIllegal c.pc
      else
        let p := Pa.of addr
        let k := effKind c kind
        let fin (st : Nat) (s : State) : State := s.tagDone i t crec opNer st 0 0
        let bad := uprogBad s i.eng 5
        let s := s.when bad (·.seqEvt F.SEQ_EVT.UPROG_ERR i.eng)
        if bad || !paOk s i.eng p false || s.blockSt p.die p.block == 3 then fin stAddress s
        else if s.blockSt p.die p.block != 2 || blkValid (s.blockW0 p.die p.block) != 0 then fin stDenied s
        else if s.jnl.openSlots.contains (p.die * 2 ^ 15 + p.block) then fin stDenied s.seal
        else if s.blockW1 p.die p.block / 256 % 2 = 1 then fin stDenied (s.retire p.die p.block)
        else if (s.lun p.die).failed then (let (n, s) := s.draw; fin (n % 14) s)
        else s.envelope { op := .erase, kind := k, addr := addr, ctx := some (i.key, t), crec := crec, cmd := c.cmd, cls := 6 }

/-- Suspends a running operation may still take (R50, R264). -/
def suspendLimit (s : State) (die : Nat) (run : Running) : Nat :=
  match run with
  | .erase _ => max 1 (s.fld (F.SEQ_SUSP_CFG.ERS_MAX.ix (die / 32)))
  | _ => 2

/-- The LUN runs a program or erase that is not suspended. -/
def Lun.suspendable (l : Lun) : Bool := (match l.run with | .program _ => true | .erase _ => true | _ => false) && !l.suspended

/-- NSUS (R132); of the address only target and LUN count, and kinds 8 to 15 trap (R131). -/
def execNsus (i : CtxId) (d a : BitVec 5) (w : SusWord) (s : State) : Res :=
  s.tagged i pSeq d w.crec fun c t s =>
    match paOperand (c.reg a) with
    | none => s.trap i cIllegal c.pc (c.reg a)
    | some addr =>
      if 8 ≤ w.kind.toNat then s.trap i cIllegal c.pc
      else
      let die := i.eng * 32 + (Pa.of addr).die % 32
      let l := s.lun die
      let fin (st a : Nat) (s : State) : State := s.tagDone i t w.crec opNsus st a 0
      if !s.populated die then fin stAddress 0 s
      else if !l.suspendable then fin stNotSuspended 0 s
      else if suspendLimit s die l.run ≤ l.suspends then fin stSuspendLimit l.suspends s
      else
        let s := s.setLun die { l with suspended := true, suspBy := some i.key, suspends := l.suspends + 1, served := 0, since := s.ttu.elapsed }
        let s := s.modCtx i fun c => { c with susp := die :: c.susp }
        fin stOk (l.suspends + 1) ((s.count (F.SEQ_CNT_SUSP.COUNT.ix i.eng)).serve die)

/-- NRES (R132): only an operation suspended by NSUS; operands as NSUS (R131). -/
def execNres (i : CtxId) (d a : BitVec 5) (w : SusWord) (s : State) : Res :=
  s.tagged i pSeq d w.crec fun c t s =>
    match paOperand (c.reg a) with
    | none => s.trap i cIllegal c.pc (c.reg a)
    | some addr =>
      if 8 ≤ w.kind.toNat then s.trap i cIllegal c.pc
      else
      let die := i.eng * 32 + (Pa.of addr).die % 32
      let l := s.lun die
      let fin (st : Nat) (s : State) : State := s.tagDone i t w.crec opNres st 0 0
      if !s.populated die then fin stAddress s
      else if l.suspended && l.suspBy.isSome then
        let s := s.setLun die { l with suspended := false, suspBy := none, since := s.ttu.elapsed }
        fin stOk (s.modCtx i fun c => { c with susp := c.susp.filter (· != die) })
      else fin stNotSuspended s

/-! ### XFER (R133, R224) -/

/-- A transfer descriptor (R133). -/
inductive Desc
  | host (off : Nat)
  | pool (h : Nat)
  | staging (chan slot : Nat)
deriving DecidableEq, Repr

/-- Decode a descriptor; none: another space, a slot above 111, or a bit outside the fields. -/
def Desc.of (w : Word64) : Option Desc :=
  let n := w.toNat
  let r := n % 2 ^ 60
  match n / 2 ^ 60 with
  | 0 => if r < 2 ^ 40 then some (.host r) else none
  | 1 => if r < 2 ^ 21 then some (.pool r) else none
  | 2 => if r / 2 ^ 13 = 0 && r / 2 ^ 7 % 2 = 0 && r % 128 ≤ 111 then some (.staging (r / 256) (r % 128)) else none
  | _ => none

/-- The slots of a staging run of `n` codewords exist (R133). -/
def Desc.runOk (d : Desc) (n : Nat) : Bool := match d with | .staging _ sl => decide (sl + n ≤ 112) | _ => true

/-- The pairing is one of R133 for the profile; imm16[8] = 1 on another than staging to host is no pairing either (DESIGN CHOICE). -/
def pairOk (cls : EngClass) (pau : Bool) (a b : Desc) : Bool :=
  match a, b with
  | .host _, .pool _ => cls == .cmd && !pau
  | .staging _ _, .host _ => cls == .cmd
  | .pool _, .host _ => cls == .cmd && !pau
  | .staging _ _, .staging _ _ => cls == .seq && !pau
  | _, _ => false

/-- The command holds its range lock (R164). -/
def holdsLock (s : State) (c : Nat) : Bool := match s.lock c with | some r => r.held | none => false

/-- Logical blocks in a codeword: eight of 512 bytes, or one (R225). -/
def unitBlocks (s : State) (x : Cmd) : Nat := if s.nsLbaf x.sqe.nsid.toNat = 2 then 8 else 1

/-- First LBA of the `j`-th codeword of a transfer whose host offset, in logical blocks, is `o` (R133): codewords lie on multiples of their
size (R225). -/
def State.lbaAt (s : State) (x : Cmd) (o j : Nat) : Nat := ((x.first + o) / unitBlocks s x + j) * unitBlocks s x

/-- The transfer's blocks lie within the command's range (R133). -/
def inRange (s : State) (x : Cmd) (o n : Nat) : Bool := decide (o < x.sqe.nlb) && decide (s.lbaAt x o (n - 1) < x.first + x.sqe.nlb)

/-- A read may take this pool buffer for a block: the entry, its pending descriptor or the zone's ring names it (R133), the ring only below
the write pointer (R18). -/
def readsBuf (s : State) (x : Cmd) (h lba : Nat) : Bool :=
  let n := x.sqe.nsid.toNat
  if s.nsZoned n then
    let z := s.zoneOf n lba
    decide (lba % 2 ^ s.nsLogZsze n < s.zmwp z) && sget (lba % 2 ^ s.nsLogZsze n) (sgetD [] z s.map.rings) == some h
  else match Place.of (s.mapEntry (s.mapIndex n lba)) with
    | .buffer k => k == h
    | .pending k => (match sget k s.host.pendings with | some p => p.bufs.contains h | none => false)
    | _ => false

/-- A pool buffer that the bound command may name (R133). -/
def poolOk (s : State) (c : Nat) (x : Cmd) (h : Nat) (lba : Option Nat) : Bool :=
  match s.buf h with
  | none => false
  | some b => b.cmd == c || (match lba with
    | some l => x.sqe.readType && holdsLock s c && readsBuf s x h l
    | none => false)

/-- XFER (R133): what is wrong ends it at once; otherwise it runs until XFER_COMPLETE. One that meets a PAU engine that expects
another block stays BLOCKED before its issue (R224). DESIGN CHOICES: several blocks with a pool descriptor use consecutive handles; a staging
run past slot 111 traps like a slot above 111; the data of a Filtered Read goes to the host through its engine alone, and an engine takes no
other command's (R32): anything else is DENIED. -/
def execXfer (i : CtxId) (d a b : BitVec 5) (count : BitVec 8) (pau : Bool) (crec : BitVec 16) (s : State) : Res :=
  s.tagged i (fun k => k == .cmd || k == .seq) d crec fun c t s =>
    match Desc.of (c.reg a), Desc.of (c.reg b) with
    | some src, some dst =>
      let n := count.toNat + 1
      let fin (st : Nat) (s : State) : State := s.tagDone i t crec opXfer st 0 0
      let start (s : State) : State := s.modCtx i fun c => { c with xfers := c.xfers ++ [{ tag := t, src := c.reg a, dst := c.reg b, blocks := n, pau := pau, crec := crec }] }
      if !pairOk i.cls pau src dst || !src.runOk n || !dst.runOk n then s.trap i cIllegal c.pc
      else
        let spec (ch sl : Nat) : Bool := (List.range n).any fun k => match sget (stKey ch (sl + k)) s.media.slots with | some x => x.spec | none => false
        match src, dst with
        | .staging ch sl, .staging _ _ => if spec ch sl then fin stSpeculative s else start s
        | _, _ =>
          match c.cmd with
          | none => s.trap i cIllegal c.pc
          | some x =>
            match s.cmd x with
            | none => fin stDenied s
            | some cm =>
              let halted := s.fld F.SEC_STATUS.STATE = 2
              let range (o : Nat) : Bool := inRange s cm o n
              let filtered := cm.sqe.opcode == 0x82 && !cm.admin
              match src, dst with
              | .staging ch sl, .host o =>
                if !range o || filtered != pau then fin stDenied s
                else if spec ch sl then fin stSpeculative s
                else if halted then fin stCryptoHalt s
                else if pau then
                  let s := s.pauAssign x
                  let ready := s.sc.engines.any fun (_, y) => y == x
                  let next := match cm.pau with | some (_, k) => k | none => 0
                  if ready && next == o then start (s.modCmd x fun m => { m with dma := true })
                  else s.modCtx i fun c' => { c with st := .blocked .pau, events := c'.events, since := s.ttu.elapsed }
                else start (s.modCmd x fun m => { m with dma := true })
              | .host o, .pool h =>
                if !range o || !(List.range n).all (fun k => poolOk s x cm (h + k) none) then fin stDenied s
                else if halted then fin stCryptoHalt s
                else start (s.modCmd x fun m => { m with dma := true })
              | .pool h, .host o =>
                if !range o || filtered || !(List.range n).all (fun k => poolOk s x cm (h + k) (some (s.lbaAt cm o k))) then fin stDenied s
                else if halted then fin stCryptoHalt s
                else
                  let s := s.each (List.range n) fun s k => (match s.buf (h + k) with
                    | some bf => s.setBuf (h + k) { bf with readers := bf.readers + 1 }
                    | none => s)
                  start (s.modCmd x fun m => { m with dma := true })
              | _, _ => s.trap i cIllegal c.pc
    | _, _ => s.trap i cIllegal c.pc

/-! ### LOOKUP, locks, CQPOST (R134) -/

/-- Key of a LOOKUP from scratch: unit k in bytes 0 to 9 of the slot at a + 16 k (R134). -/
def lookupKey (s : State) (part addr units : Nat) : BitVec 320 :=
  BitVec.ofNat 320 ((List.range units).foldl (fun a k => a + s.scratchN part (addr + 16 * k) 10 % 2 ^ 80 * 2 ^ (80 * k)) 0)

/-- LOOKUP (R134). -/
def execLookup (i : CtxId) (d a : BitVec 5) (width : BitVec 2) (crec : BitVec 16) (s : State) : Res :=
  s.tagged i (fun k => k == .cmd || k == .pol) d crec fun c t s =>
    let units := 2 ^ width.toNat
    let addr := (c.reg a).toNat
    if width = 3 then s.trap i cIllegal c.pc
    else if addr % 16 ≠ 0 || decide (0x10000 < addr + 16 * units) then s.trap i cScratch c.pc (c.reg a)
    else s.tagDone i t crec opLookup stOk 0 (scSearch s (lookupKey s i.part addr units) units).toNat

/-- Issue an untagged device operation: its record address is checked as every other (R129, R130). -/
def State.untagged (s : State) (i : CtxId) (prof : EngClass → Bool) (crec : BitVec 16) (k : Ctx → State → State) : Res :=
  s.issue i 1 2 prof fun c s => if !crecOk crec then s.trap i cScratch c.pc (BitVec.ofNat 64 crec.toNat) else k c s

/-- RANGE_LOCK (R134, R161): arms the bound command's request; a second one traps, though an UNLOCK came between. -/
def execRangeLock (u : Untagged) (s : State) : Res :=
  s.untagged u.ctx pIntake u.crec fun c s =>
    match c.cmd.bind fun x => (s.cmd x).map fun m => (x, m) with
    | none => s.trap u.ctx cIllegal c.pc
    | some (x, m) =>
      if m.locked then s.trap u.ctx cIllegal c.pc
      else
        let s := s.modCmd x fun m => { m with locked := true }
        match s.lock x with
        | none => s
        | some r =>
          if r.armed then s.trap u.ctx cIllegal c.pc
          else ((s.modLock x fun r => { r with armed := true }).lockConflicts r).modCmd x fun m => { m with st := .lockWait }

/-- RANGE_UNLOCK (R134). -/
def execRangeUnlock (u : Untagged) (s : State) : Res :=
  s.untagged u.ctx pIntake u.crec fun c s =>
    match c.cmd with
    | none => s.trap u.ctx cIllegal c.pc
    | some x => if holdsLock s x then s.dropLock x else s

/-- ZONE_LOCK (R134): held at once when nothing waits before it. -/
def execZoneLock (i : CtxId) (d a : BitVec 5) (crec : BitVec 16) (s : State) : Res :=
  s.tagged i pMap d crec fun c t s =>
    let z := (c.reg a).toNat
    let (held, s) := s.askZone z (.ctx i.key t)
    if held then (s.modCtx i fun c => { c with zlocks := z :: c.zlocks }).tagDone i t crec opLock stOk 0 0
    else s.modCtx i fun c => { c with xfers := c.xfers ++ [{ tag := t, src := c.reg a, dst := 0, blocks := 0, crec := crec }] }

/-- ZONE_UNLOCK (R134): by the context that holds the lock. -/
def execZoneUnlock (u : Untagged) (a : BitVec 5) (s : State) : Res :=
  s.untagged u.ctx pMap u.crec fun c s =>
    let z := (c.reg a).toNat
    if c.zlocks.contains z then
      (s.leaveZone z ((s.zlock z).2.headD (.cmd 0))).modCtx u.ctx fun c => { c with zlocks := c.zlocks.erase z }
    else s.trap u.ctx cIllegal c.pc

/-- Reserve the entry of a command and post its CQE with the status of CMD.STATUS (R134): the completion record's STATUS. -/
def State.cqCommit (s : State) (c : Nat) (dw0 dw1 : Word) : Nat × State :=
  match s.cmd c with
  | none => (stDenied, s)
  | some x =>
    if x.committed then (stDenied, s)
    else (if x.abort then stAborted else stOk, s.finish c (x.status.toNat / 256 % 8) (x.status.toNat % 256) dw0 dw1)

/-- A success would commit a write past the Dirty Ceiling (R24, R166). -/
def ceilingHolds (s : State) (x : Cmd) : Bool :=
  x.placed && !x.bufs.isEmpty && x.status == 0 && !x.abort && !withinCeiling s x.bufs.length

/-- A commit point waits: the CQ of the command has no free entry, or the Dirty Ceiling holds its write. -/
def cqFull (s : State) (x : Cmd) : Bool := s.flushing || ceilingHolds s x ||
  match (s.sq x.func x.sqid).bind fun q => s.cq x.func q.cq with | some q => q.full | none => false

/-- CQPOST (R134, R166). -/
def execCqpost (i : CtxId) (d a : BitVec 5) (crec : BitVec 16) (s : State) : Res :=
  s.tagged i pIntake d crec fun c t s =>
    let dw0 : Word := (c.reg a).setWidth 32
    let dw1 : Word := ((c.reg a) >>> 32).setWidth 32
    match c.cmd with
    | none => s.trap i cIllegal c.pc
    | some x =>
      match s.cmd x with
      | none => s.tagDone i t crec opCqpost stDenied 0 0
      | some cm =>
        if !cm.committed && cqFull s cm then
          (s.modCmd x fun m => { m with cqWait := some (dw0, dw1) }).blockOn i (.cq t dw0 dw1 crec)
        else
          let (st, s) := s.cqCommit x dw0 dw1
          s.tagDone i t crec opCqpost st 0 0

/-! ### Speculation (R135 to R138, R248, R251) -/

/-- Stamp of an entry while its line is resident (R136, R232, R233, R513). -/
def entryStamp (s : State) (z : Bool) (idx : Nat) : Option Nat :=
  if z then
    if zActive (s.zs idx) then some (sgetD 0 idx s.map.zstamps)
    else (s.resident (zdescLine idx)).map fun l => l.stamp 0
  else (s.resident (mapLine idx)).map fun l => l.stamp (idx % 12)

/-- Codewords of the IU a map index belongs to (R225, R248). -/
def iuOfIndex (s : State) (idx : Nat) : Nat :=
  match s.nsids.find? fun n => !s.nsZoned n && decide (s.nsBase n ≤ idx) && decide (idx < s.nsBase n + s.nsIus n) with
  | some n => if s.nsLbaf n = 1 then 4 else 1
  | none => 1

/-- The address agrees with the codeword slot the entry designates, and covers the IU (R248). -/
def specAgrees (s : State) (z : Bool) (idx : Nat) (p : Pa) : Bool :=
  if z then (List.range (s.zmwp idx)).any fun o => s.zoneSlot idx o == (p.die, p.slot s)
  else match Place.of (s.mapEntry idx) with
    | .media d sl => d == p.die && sl == p.slot s && decide (iuOfIndex s idx ≤ p.count)
    | _ => false

/-- A SPEC that sends no read: its event is set at once, the record says SQUASHED, the tag stays until CONF or SQSH (R135). -/
def State.specUnsent (s : State) (i : CtxId) (t : Nat) (crec : BitVec 16) : State :=
  (s.modCtx i fun c => { c with specs := c.specs ++ [{ tag := t, sent := false, crec := crec, landed := true }] }).tagSignal i t crec opSpec
    stSquashed 0 (2 ^ 64 - 1)

/-- SPEC (R135, R248, R251): of operand b the Map profile reads [39:0], the Sequencer profile [5:0]. -/
def execSpec (i : CtxId) (d a b : BitVec 5) (zdesc : Bool) (crec : BitVec 16) (s : State) : Res :=
  s.tagged i (fun k => k == .map || k == .seq) d crec fun c t s =>
    match paOperand (c.reg a) with
    | none => s.trap i cIllegal c.pc (c.reg a)
    | some addr =>
      let p := Pa.of addr
      let n := (c.reg b).toNat
      if i.cls == .map then
        let n := n % 2 ^ 40
        match entryStamp s zdesc n with
          | none => s.specUnsent i t crec
          | some stamp =>
            if !s.flag F.MAP_CTRL.SPEC_EN || !readAddrOk s p.channel p || !specAgrees s zdesc n p then s.specUnsent i t crec
            else
              let s := s.pinLine (if zdesc then zdescLine n else mapLine n) true
              let s := s.modCtx i fun c => { c with specs := c.specs ++ [{ tag := t, sent := true, map := some (zdesc, n, stamp, c.reg a), chan := p.channel, crec := crec }] }
              ((s.countMod F.MAP_SPEC_ISSUED.COUNT).gaugeAdd 7 1).enqueue
                { op := .read 0 0 false, kind := 0, addr := addr, ctx := some (i.key, t), crec := crec, cmd := c.cmd, cls := 1, spec := true, bySpec := true }
      else if !s.flag F.MAP_CTRL.RETRY_SPEC_EN || !readAddrOk s i.eng p then s.specUnsent i t crec
      else
        let s := s.modCtx i fun c => { c with specs := c.specs ++ [{ tag := t, sent := true, chan := p.channel, crec := crec }] }
        (s.countMod F.MAP_RETRY_ISSUED.COUNT).enqueue
          { op := .read (n / 16 % 4) (n % 16) false, kind := effKind c 0, addr := addr, ctx := some (i.key, t), crec := crec, cmd := c.cmd, cls := 2, spec := true, bySpec := true }

/-- The unconfirmed SPEC that a[3:0] names (R136). -/
def specOf (c : Ctx) (a : Word64) : Option Spec := c.specs.find? fun p => p.tag == a.toNat % 16

/-- CONF succeeds (R136). -/
def confOk (s : State) (p : Spec) : Bool :=
  p.sent && (match p.map with
    | none => true
    | some (z, idx, stamp, a) => entryStamp s z idx == some stamp && specAgrees s z idx (Pa.of (a.setWidth 48)))

/-- CONF (R136, R137). -/
def execConf (i : CtxId) (a : BitVec 5) (p : BitVec 3) (s : State) : Res :=
  s.issue i 3 1 (fun k => k == .map || k == .seq) fun c s =>
    match specOf c (c.reg a) with
    | none => s.trap i cIllegal c.pc
    | some q =>
      if confOk s q then
        let s := match q.slots with
          | some (k, n) => s.each (List.range n) fun s j => (match sget (k + j) s.media.slots with
            | some x => s.putSlot (k + j) { x with spec := false }
            | none => s)
          | none => s
        let s := match q.map with
          | some (z, idx, _, _) => s.pinLine (if z then zdescLine idx else mapLine idx) false
          | none => s.countMod F.MAP_RETRY_USED.COUNT
        let unmark (r : NandReq) : NandReq := if r.ctx == some (i.key, q.tag) then { r with spec := false } else r
        let s := { s with media := { s.media with
          luns := s.media.luns.map fun (x : Nat × Lun) => (x.1, { x.2 with
            queue := x.2.queue.map unmark
            run := match x.2.run with | .read r => .read (unmark r) | y => y
            readRun := x.2.readRun.map unmark })
          decoding := s.media.decoding.map fun (x : Decode) => { x with req := unmark x.req } } }
        s.modCtx i fun c => { c.setPred p true with
          specs := c.specs.filter (·.tag != q.tag)
          tags := if q.landed then c.tags &&& ~~~(1#16 <<< q.tag) else c.tags }
      else (s.discardSpec i q).modCtx i (·.setPred p false)

/-- SQSH (R136). -/
def execSqsh (i : CtxId) (a : BitVec 5) (s : State) : Res :=
  s.issue i 1 1 (fun k => k == .map || k == .seq) fun c s =>
    match specOf c (c.reg a) with
    | none => s.trap i cIllegal c.pc
    | some q => s.discardSpec i q

end Sys2Proof.Machine
end

