-- ==== Sys2Proof/Machine/Media.lean ====
section
/-! DEFINITION. Media events: ends of NAND operations and decodes, suspends, the Envelope, staging, stripes (09_media.md). -/
namespace Sys2Proof.Machine

/-- The die is one the device drives (R256). -/
abbrev DieNo := BitVec 10

/-! ### Programs and erases end (R131, R278, R284, R285, R287) -/

/-- Store a unit's codewords on media. -/
def State.storeUnit (s : State) (u : Unit_) : State :=
  let p := Pa.of u.addr
  { s with media := { s.media with nand := u.loaded.foldl (fun m x =>
      sput (nandKey p.die ((p.block * geoPpb s + x.page) * pageSlots s + x.pos)) x.payload m) s.media.nand } }

/-- Die-pages of a unit that joined a channel's stripe, with that channel. -/
def Unit_.joins (u : Unit_) : List (Nat × BitVec 48) :=
  let p := Pa.of u.addr
  (u.loaded.filterMap fun x => x.join.map fun c => (c, BitVec.ofNat 48 (p.die * 2 ^ 38 + p.block * 2 ^ 20 + x.page * 256))).dedup

/-- Members of stripes whose program has ended (R274): a failed member is cancelled, its payload sent a second time. -/
def State.endMembers (s : State) (u : Unit_) (fail : Bool) : State :=
  let s := s.when fail (·.accumulateAll u.loaded)
  s.each u.joins fun s (c, page) =>
    match sget c s.media.stripes with
    | none => s
    | some t =>
      let t := { t with running := t.running - 1, members := if fail then t.members.map fun m => if m == page then 0 else m else t.members }
      ({ s with media := { s.media with stripes := sput c t s.media.stripes } }).parityReady c

/-- MAP engine for a program unit: the slice of the first buffer's block (R229), or the die's. -/
def unitEngine (s : State) (u : Unit_) : Nat :=
  match u.loaded.findSome? fun x => x.buf.bind s.buf with
  | some b => (b.nsid + (if s.nsZoned b.nsid then b.lba / 2 ^ s.nsLogZsze b.nsid else b.lba / 4096)) % 8
  | none => (Pa.of u.addr).die % 8

/-- VALID of a zone's block is its programmed slots (R278). -/
def State.zoneValid (s : State) (u : Unit_) : State :=
  let p := Pa.of u.addr
  let zoned := u.loaded.any fun x => let n := (Oob.of (Payload.oob20 x.payload)).nsidx + 1
    u.parity.isNone && u.image.isNone && s.nsState n != 0 && s.nsZoned n
  if zoned then
    let lo := nandKey p.die (p.block * blockSlots s)
    let n := (s.media.nand.filter fun (k, _) => decide (lo ≤ k) && decide (k < lo + blockSlots s)).length
    s.putBlock (bkey s p.die p.block) (setBits (s.blockW0 p.die p.block) 0 16 n)
  else s

/-- A program passes. -/
def State.programPass (s : State) (die : Nat) (u : Unit_) : State :=
  let s := s.setLun die { s.lun die with run := .none, suspended := false, suspBy := none }
  let s := (s.storeUnit u).zoneValid u
  let s := s.endMembers u false
  let s := s.reqDone { op := .npg u.slc true 0, kind := u.kind, addr := u.addr, ctx := u.ctx, crec := u.crec, held := u.held, cls := 3 } stOk 0 0
  let s := match u.parity with | some c => s.freeStripe c | none => s
  match u.image with
  | some pg =>
    let p := Pa.of u.addr
    let loc := nandKey die ((p.block * geoPpb s + p.page) * pageSlots s)
    let s := { s with jnl := { s.jnl with images := s.jnl.images.map fun (im : CpImage) => if im.page == pg then { im with loc := some loc } else im } }
    (s.setLun die { s.lun die with verifyImage := some pg }).enqueue { op := .read 0 0 true, kind := 6, addr := u.addr, cls := 4 }
  | none =>
    if u.parity.isSome || u.flush then s
    else if u.kind = 0 then
      let (h, s) := s.draw64
      let s := s.request .map (unitEngine s u) { kind := 3, arg0 := h, origin := .host }
      s.when (s.flag F.MED_CTRL.HOST_RBV) fun s => s.setLun die { s.lun die with unverified := some u.addr }
    else s.setLun die { s.lun die with unverified := some u.addr }

/-- DIE_EVENT of a LUN (R83). -/
def State.dieEvent (s : State) (die : Nat) : State :=
  s.request .seq (die / 32) { kind := 3, arg0 := BitVec.ofNat 64 (die % 32) }

/-- A program fails with a status (R285): the hardware closes the block on a status fail, the member is cancelled, parity and images
go to another block (R275, R304); the data of a zone is to be moved (R244). -/
def State.programFail (s : State) (die : Nat) (u : Unit_) (status : Nat) : State :=
  let p := Pa.of u.addr
  let s := s.setLun die { s.lun die with run := .none, unit := none, suspended := false, suspBy := none }
  let s := s.endMembers u true
  let s := s.reqDone { op := .npg u.slc true 0, kind := u.kind, addr := u.addr, ctx := u.ctx, crec := u.crec, held := u.held, cls := 3 } status 0 0
  let s := s.when (status == stMediaFail) (·.closeBlock die p.block)
  let s := match u.parity with
    | some c =>
      let other := (s.media.dies.filter fun d => d / 32 == c && d != die && s.inService d)
      let pick (o : Option (Nat × Nat) × State) (d : Nat) : Option (Nat × Nat) × State := match o with
        | (some x, s) => (some x, s)
        | (none, s) => match s.allocBlock d 5 u.slc with | (some b, s) => (some (d, b), s) | (none, s) => (none, s)
      (match (die :: other).foldl pick (none, s) with
      | (some (d, b), s) =>
        (match sget c s.media.stripes with
        | some t => ({ s with media := { s.media with stripes := sput c { t with parity := BitVec.ofNat 48 (d * 2 ^ 38 + b * 2 ^ 20) } s.media.stripes } }).parityReady c
        | none => s)
      | (none, s) => s)
    | none => s
  let s := match u.image, u.loaded with
    | some pg, x :: _ => ({ s with jnl := { s.jnl with cpOpen := sdel die s.jnl.cpOpen } }).programImage pg x.payload
    | _, _ => s
  let s := s.when u.flush (·.flushRetry die (u.loaded.filterMap (·.buf)))
  (s.when (u.parity.isNone && u.image.isNone && !u.flush) (·.zoneFail die p.block)).dieEvent die

/-- An erase passes (R278, R287): ERASE_COUNT rises by 1 in a journaled write; at 1.5 × ENDUR the block is retired instead of
going to the heap; the hardware's own erases insert the block themselves. -/
def State.erasePass (s : State) (r : NandReq) : State :=
  let p := Pa.of r.addr
  let s := s.setLun p.die { s.lun p.die with run := .none, suspended := false, suspBy := none }
  let s := s.wipeBlock p.die p.block
  let idx := p.die * geoBlocks s + p.block
  let e := blkErase (s.blockW0 p.die p.block) + 1
  let s := s.tjrn 4 idx 0 (setBits (setBits (s.blockW0 p.die p.block) 20 20 e) 0 16 0)
  let s := s.reqDone r stOk 0 0
  if 3 * s.fld F.MED_SPARE.ENDUR ≤ 2 * e then s.retire p.die p.block
  else if r.ctx.isSome then { s with media := { s.media with erased := (p.die * 2 ^ 15 + p.block) :: s.media.erased } }
  else
    let s := s.tjrn 4 idx 0 (setBits (s.blockW0 p.die p.block) 16 4 0)
    (s.setHeap p.die (heapInsert (e, p.block) (s.heap p.die))).ballastCheck p.die

/-- An erase fails: the hardware retires the block (R287). -/
def State.eraseFail (s : State) (r : NandReq) (status : Nat) : State :=
  let p := Pa.of r.addr
  let s := s.setLun p.die { s.lun p.die with run := .none, suspended := false, suspBy := none }
  let s := s.reqDone r status 0 0
  (s.when (status == stMediaFail) (·.retire p.die p.block)).dieEvent p.die

/-- A sensed read goes to its channel's decoder (R270). -/
def State.sensed (s : State) (r : NandReq) : State :=
  let x : Decode := { req := r }
  { s with media := { s.media with decoding := s.media.decoding ++ [x] } }

/-- NAND_OPERATION_COMPLETE (R131): a LUN reports ready; `fail` is its fail status. -/
def execNandOperationComplete (die : DieNo) (fail : Bool) (s : State) : Res :=
  let d := die.toNat
  let l := s.lun d
  let chan := d / 32
  if !s.populated d then noUnit
  else if padBurst s d then done s
  else
    let failed (s : State) : State := s.seqEvt F.SEQ_EVT.MEDIA_FAIL chan
    let t := match l.readRun with
      | some r => (s.setLun d { l with readRun := none }).sensed r
      | none => match l.run with
        | .none => s
        | .read r => (s.setLun d { l with run := .none }).sensed r
        | .reset => if fail then s.failDie d else s.setLun d { l with run := .none }
        | .program u => if l.suspended then s else if fail then (failed s).programFail d u stMediaFail else s.programPass d u
        | .erase r => if l.suspended then s else if fail then (failed s).eraseFail r stMediaFail else s.erasePass r
    done (((((t.nwpReady d).serve d).serveAll).movesRun).trimSet)

/-- READY_TIMEOUT (R262, R263): what runs completes READY_TIMEOUT and the LUN is reset; a reset that times out, or the third timeout
in 1 s, is a failed die. -/
def execReadyTimeout (die : DieNo) (s : State) : Res :=
  let d := die.toNat
  let l := s.lun d
  if !s.populated d then noUnit
  else if padBurst s d then done s
  else match l.run with
    | .none => done s
    | .reset => done (s.failDie d)
    | run =>
      let now := s.ttu.elapsed
      let times := now :: l.timeouts.filter fun t => decide (now < t + 1000000000)
      let s := s.seqEvt F.SEQ_EVT.READY_TMO (d / 32)
      let s := match l.readRun with | some r => s.reqDone r stReadyTimeout 0 0 | none => s
      let s := match run with
        | .read r => s.reqDone r stReadyTimeout 0 0
        | .program u => s.programFail d u stReadyTimeout
        | .erase r => s.eraseFail r stReadyTimeout
        | _ => s
      let s := s.setLun d { s.lun d with run := .reset, readRun := none, suspended := false, suspBy := none, timeouts := times }
      let s := s.dieEvent d
      done (if 3 ≤ times.length then s.failDie d else s)

/-! ### Decode (R268, R270 to R272, R276, R277) -/

/-- A codeword's data reaches its staging slot, or is discarded on arrival (R136, R516). -/
def State.landSlot (s : State) (k : Nat) (p : Option Payload) : State :=
  match sget k s.media.slots with
  | none => s
  | some x => if x.discard then { s with media := { s.media with slots := sdel k s.media.slots } } else ((s.putSlot k { x with data := p }).heal 1 k).inject 1 k

/-- Group of a block (R267, R278). -/
def groupOf (s : State) (die block : Nat) : Nat := if s.blockSlc die block then 63 else s.blockW1 die block % 64

/-- The Threshold Tracker counts a level-0 decode, and moves references on an imbalance (R268). Which references a page type reads and
the sign of the step are stated nowhere: a free value. -/
def State.trackCount (s : State) (p : Pa) (up down : Nat) : State :=
  let g := groupOf s p.die p.block
  let k := (p.die * 64 + g) * 4 + (if g = 63 then 0 else p.page % 4)
  let a := sgetD {} k s.media.track
  let u := a.up + up
  let d := a.down + down
  if u + d < 1024 then { s with media := { s.media with track := sput k ⟨u, d⟩ s.media.track } }
  else
    let s := { s with media := { s.media with track := sdel k s.media.track } }
    if (max u d) - (min u d) < 256 then s
    else
      let (n, s) := s.draw
      let step : Int := if n / 2 ^ 15 % 2 = 0 then 1 else -1
      let refs := (List.range 15).filter fun i => if g = 63 then i == 0 else n.testBit i
      { s with media := { s.media with offsets := refs.foldl (fun m i =>
          let key := (p.die * 64 + g) * 16 + i
          sputD 0 key (max (-63) (min 63 (sgetD 0 key m + step))) m) s.media.offsets } }

/-- Bin of the ECC histogram (R446). -/
def eccBin (level0 ok : Bool) (corrected : Nat) : Nat := if level0 && ok then min 30 (corrected / 5) else 31

/-- Count a codeword in the channel's ECC histogram (R446). -/
def State.eccHist (s : State) (chan bin : Nat) : State :=
  let k := chan * 32 + bin
  { s with gb := { s.gb with cur := { s.gb.cur with ecc := sput k (min 0xFFFFFFFF (sgetD 0 k s.gb.cur.ecc + 1)) s.gb.cur.ecc } } }

/-- Recovery of host data fails: the entries that name the codeword become SPECIAL 1, with a Fault entry (R277). -/
def State.loseCodeword (s : State) (die slot : Nat) : State :=
  let hit := s.zyn.tab.map.filter fun (_, e) => Place.of e == .media die slot
  (s.each hit fun s (i, _) => s.markLost i).entry 0x15 sevFault

/-- Entries that name a codeword which is not theirs (R328): CHK, NSIDX or LBA disagrees. -/
def wrongSlot (s : State) (die slot : Nat) (p : Payload) : List Nat :=
  let w := Payload.oob20 p
  let o := Oob.of w
  (s.zyn.tab.map.filter fun (i, e) => Place.of e == .media die slot && (!chkOk w || s.mapIndex (o.nsidx + 1) o.lba != i)).map (·.1)

/-- A mismatch of the OOB: the entries are marked SPECIAL 1, with a Critical entry (R328). -/
def State.oobMismatch (s : State) (l : List Nat) : State :=
  if l.isEmpty then s else ((s.each l (·.markLost ·)).raise F.ECC_EVT.OOB_MISMATCH).criticalData 0x2B

/-- A verify read of a move ends (R284): a page that passes dispatches MOVE with its handle. -/
def State.moveVerified (s : State) (r : NandReq) (pass : Bool) : State :=
  let p := Pa.of r.addr
  if verifyRead s r && pass then
    let (h, s) := s.draw64
    let last := s.blockSlc p.die p.block || p.page % 4 == 3
    (s.when last fun s => s.setLun p.die { s.lun p.die with unverified := none }).request .map (p.die % 8) { kind := 4, arg0 := h }
  else s

/-- The hardware's verify read of a checkpoint image ends (R284, R304). -/
def State.imageVerified (s : State) (die : Nat) (pass : Bool) : State :=
  match (s.lun die).verifyImage with
  | none => s
  | some pg =>
    let s := s.setLun die { s.lun die with verifyImage := none }
    if pass then
      ({ s with jnl := { s.jnl with images := s.jnl.images.map fun (im : CpImage) => if im.page == pg then { im with verified := true } else im } }).countMod
        F.JNL_CP_PAGES.COUNT
    else match (s.jnl.images.find? (·.page == pg)).bind (·.loc) with
      | some loc => (match sget loc s.media.nand with | some p => s.programImage pg p | none => s)
      | none => s

/-- The whole run of a read has been decoded: its record, and the slots of reads whose data is discarded (R130, R516). -/
def State.readEnd (s : State) (x : Decode) (pass : Bool) : State :=
  let r := x.req
  let p := Pa.of r.addr
  let first := r.slot.getD 0
  let status := if x.bad then stUncorrectable else stOk
  let wordA := if x.outer then 0xFFFFFFFF else x.worst
  let verify := match r.op with | .read _ _ v => v | _ => false
  let s := s.reqDone r status wordA (first % 128)
  let discarded := verify || r.kind == 3 || r.kind == 5 || verifyRead s r
  let s := if verify then s.imageVerified p.die pass else s.moveVerified r pass
  s.when discarded fun s => s.each (List.range p.count) fun s j =>
    match sget (first + j) s.media.slots with
    | some y => if y.data.isSome then s.freeSlot (first + j) else s
    | none => s

/-- DECODE_COMPLETE (R270): the decode of the next codeword of a channel's oldest sensed read ends. `ok`: it decoded at the level
asked, with `corrected` bits of which `up` read 1 and were 0; `outerOk`: outer recovery finds and decodes what it needs. The LUN of a
failed die gives nothing, and an erased codeword is not decoded. -/
def execDecodeComplete (chan : BitVec 5) (ok : Bool) (corrected up : BitVec 16) (outerOk : Bool) (s : State) : Res :=
  let ch := chan.toNat
  match s.media.decoding.find? fun x => (Pa.of x.req.addr).channel == ch with
  | none => done s
  | some x =>
    let r := x.req
    let p := Pa.of r.addr
    let (soft, set) := match r.op with | .read a b _ => (a, b) | _ => (0, 0)
    let k := r.slot.getD 0 + x.idx
    let cw := s.codeword p.die (p.slot s + x.idx)
    let dead := (s.lun p.die).failed
    let level0 := soft == 0 && set == 0
    let cap := s.fld F.MED_THRESH.HARD_CAP
    let n := corrected.toNat
    let rest := s.media.decoding.erase x
    let finish (s : State) (y : Decode) (pass : Bool) : State :=
      if p.count ≤ y.idx then s.readEnd y pass
      else { s with media := { s.media with decoding := y :: s.media.decoding } }
    let s := { s with media := { s.media with decoding := rest } }
    let verifyPass := ok && level0 && decide (n * 100 ≤ s.fld F.MED_THRESH.VERIFY_PCT * cap)
    let wrong := match cw with | some q => if r.kind = 3 || r.kind = 5 || r.kind = 6 then [] else wrongSlot s p.die (p.slot s + x.idx) q | none => []
    if !wrong.isEmpty then
      let s := (s.oobMismatch wrong).landSlot k none
      done ((finish s { x with idx := x.idx + 1, bad := true } false).serve p.die)
    else if ok && !dead && cw.isSome then
      let s := s.landSlot k cw
      let s := s.count (F.SEQ_CNT_CORR.COUNT.ix ch) n
      let s := s.eccHist ch (eccBin level0 true n)
      let s := s.when level0 (·.trackCount p (min up.toNat n) (n - min up.toNat n))
      let s := if soft ≠ 0 then s.postRewrite p.die p.block 1
        else s.when (decide (s.fld F.MED_THRESH.REWRITE_PCT * cap < n * 100)) (·.postRewrite p.die p.block (if r.kind = 3 then 3 else 0))
      done ((finish s { x with idx := x.idx + 1, worst := max x.worst n } verifyPass).serve p.die)
    else
      let s := s.eccHist ch 31
      if (soft == 3 || dead) && s.flag (F.SEQ_LADDER.OUTER_EN.ix ch) && outerOk && cw.isSome then
        let s := ((s.landSlot k cw).seqEvt F.SEQ_EVT.OUTER_OK ch).count (F.SEQ_CNT_OUTER.COUNT.ix ch)
        let s := s.postRewrite p.die p.block 2
        done ((finish s { x with idx := x.idx + 1, outer := true } false).serve p.die)
      else
        let s := (s.seqEvt F.SEQ_EVT.UNCORR ch).count (F.SEQ_CNT_UNCORR.COUNT.ix ch)
        let tried := (soft == 3 || dead) && s.flag (F.SEQ_LADDER.OUTER_EN.ix ch)
        let s := s.when tried fun s => (s.seqEvt F.SEQ_EVT.OUTER_FAIL ch).loseCodeword p.die (p.slot s + x.idx)
        let s := s.landSlot k none
        let s := s.request .seq ch { kind := 1, arg0 := BitVec.ofNat 64 (k % 128), origin := if r.kind = 0 then .host else .background, cmd := r.cmd }
        done ((finish s { x with idx := x.idx + 1, bad := true } false).serve p.die)

/-! ### Suspend and resume (R264, R265) -/

/-- READ_PREEMPT_SUSPEND (R264). -/
def execReadPreemptSuspend (die : DieNo) (s : State) : Res :=
  let d := die.toNat
  let l := s.lun d
  if !s.populated d then noUnit
  else if !padBurst s d && l.suspendable && l.queue.any (fun r => decide (r.cls ≤ 2)) && decide (l.suspends < suspendLimit s d l.run) &&
      decide (l.since + s.fld (F.SEQ_SUSP_CFG.MIN_RUN_US.ix (d / 32)) * 1000 ≤ s.ttu.elapsed) then
    let s := s.setLun d { l with suspended := true, suspBy := none, suspends := l.suspends + 1, served := 0, since := s.ttu.elapsed }
    done ((s.count (F.SEQ_CNT_SUSP.COUNT.ix (d / 32))).serve d)
  else done s

/-- SUSPEND_RESUME (R265): when no host or retry read is queued, READS_MAX have been served, or HOLD_US has passed. -/
def execSuspendResume (die : DieNo) (s : State) : Res :=
  let d := die.toNat
  let l := s.lun d
  let cfg (f : Field) : Nat := s.fld (f.ix (d / 32))
  if !s.populated d then noUnit
  else if !padBurst s d && l.suspended && l.suspBy.isNone && l.readRun.isNone &&
      (!l.queue.any (fun r => decide (r.cls ≤ 2)) || decide (max 1 (cfg F.SEQ_SUSP_CFG.READS_MAX) ≤ l.served) ||
       decide (l.since + cfg F.SEQ_SUSP_CFG.HOLD_US * 1000 ≤ s.ttu.elapsed)) then
    done (s.setLun d { l with suspended := false, since := s.ttu.elapsed })
  else done s

/-! ### Envelope (R290 to R292) -/

/-- Start an admitted request on its free LUN. none: its accumulator makes it wait. -/
def State.envAdmit (s : State) (r : NandReq) : Option State :=
  let p := Pa.of r.addr
  let s := { s with media := { s.media with envQ := s.media.envQ.erase r } }
  let queued := (s.lun p.die).queue.any fun q => decide (q.cls ≤ 2) || q.cls == 4
  match r.op with
  | .npg slc last src =>
    if (r.kind == 6 || r.kind == 7) && !kindAllowed s p.die r.kind then some (((s.reqDone r stRefusedPeriod 0 0).npgNext p.die).serve p.die)
    else ((s.noteLesson r.kind).loadNpg p.die { kind := r.kind, addr := r.addr, slc := slc, ctx := r.ctx, crec := r.crec } r slc last src).map fun s => (s.npgNext p.die).serve p.die
  | .erase =>
    if !eraseAllowed s p.die queued then some (s.reqDone r stRefusedPeriod 0 0)
    else if s.blockSt p.die p.block != 2 || blkValid (s.blockW0 p.die p.block) != 0 || s.jnl.openSlots.contains (p.die * 2 ^ 15 + p.block) then
      some (s.seal.reqDone r stDenied 0 0)
    else some (s.setLun p.die { s.lun p.die with run := .erase r, suspends := 0, suspended := false, suspBy := none, since := s.ttu.elapsed })
  | .parity c => match sget c s.media.stripes with
    | none => some s
    | some t =>
      let l : List Latched := (t.acc.map fun (pos, _) => { pos := pos, page := p.page, payload := parityPayload s t pos })
      some (s.startProgram p.die { kind := r.kind, addr := r.addr, slc := t.slc, loaded := l, parity := some c })
  | .image pg payload =>
    if !kindAllowed s p.die 6 then some { s with media := { s.media with envQ := s.media.envQ ++ [r] } }
    else
      match (s.noteLesson 6).joinStripe p.channel r.addr true true with
      | some (self, s) =>
        let x : Latched := { pos := 0, page := p.page, join := if self = 0 then none else some p.channel
                             payload := mkPayload (Payload.data payload) (Payload.oob20 payload) self (parPrev s p.die p.block p.page 0) }
        some ((s.accumulateAll [x]).startProgram p.die { kind := 6, addr := r.addr, slc := true, loaded := [x], image := some pg })
      | none => none
  | .flush bufs =>
    match s.joinStripe p.channel r.addr true false with
    | some (self, s) =>
      let l : List Latched := bufs.zipIdx.filterMap fun (h, k) => (s.buf h).map fun b =>
        { pos := k, page := p.page, payload := mkPayload b.data (bufOob s b true).word self (parPrev s p.die p.block p.page k)
          buf := some h, join := if self = 0 then none else some p.channel }
      some ((s.accumulateAll l).startProgram p.die { kind := 0, addr := r.addr, slc := true, loaded := l, flush := true })
    | none => none
  | .read _ _ _ => some s

/-- The accumulator a request waits for closes its stripe (R274). -/
def State.admitBlocked (s : State) (r : NandReq) : State :=
  match r.op with
  | .npg _ _ src => (match (Src.of src (Pa.of r.addr).count).bind (·.join) with | some c => s.stripeBlocks c | none => s)
  | .image _ _ | .flush _ => s.stripeBlocks (Pa.of r.addr).channel
  | _ => s

/-- ENVELOPE_ADMISSION (R290, R291): the oldest request of the host class, then of background, whose LUN is free is admitted if it
fits; one that does not fit is not passed. -/
def execEnvelopeAdmission (s : State) : Res :=
  match envNext s with
  | none => done s
  | some r =>
    if envBudget s < envSum s + reqWeight s r then done s
    else
      let t := match s.envAdmit r with | some t => t | none => s.admitBlocked r
      done ((t.setFld F.MED_ENV_STATUS.WAITING t.media.envQ.length).gauge 5 (envSum t))

/-- MED_ENV_STAGE_REQ (R292). -/
def execMedEnvStageReq (s : State) : Res := done (s.gcRequest .envelope)

/-! ### Staging, stripes, patrol, thresholds (R269, R274, R286, R516) -/

/-- STAGING_SLOT_RECLAIM (R516): a slot whose data has landed and that no consumer took. -/
def execStagingSlotReclaim (chan : BitVec 5) (slot : BitVec 7) (s : State) : Res :=
  let k := stKey chan.toNat slot.toNat
  match sget k s.media.slots with
  | some x =>
    if x.data.isSome && !x.acc && !x.fenced then
      done (({ s with media := { s.media with slots := sdel k s.media.slots } }.seqEvt F.SEQ_EVT.SLOT_RECLAIM chan.toNat).serveAll)
    else done s
  | none => done s

/-- STRIPE_CLOSE (R274). -/
def execStripeClose (chan : BitVec 5) (s : State) : Res := done ((s.closeStripe chan.toNat).parityReady chan.toNat)

/-- PATROL_OVERDUE_CHECK (R286): the oldest DIE word 3 against device time in seconds. -/
def execPatrolOverdueCheck (s : State) : Res :=
  let old := (s.media.dies.map fun d => (sgetD 0 (d * 8 + 3) s.zyn.tab.die).toNat).foldl (fun (m : Option Nat) n => match m with
    | none => some n | some x => some (min x n)) none
  match old with
  | none => done s
  | some t =>
    let late := decide (t + max 1 (s.fld F.MED_PATROL.DAYS) * 86400 < s.now / 1000000000)
    let s' := s.setBit F.MED_PATROL.OVERDUE late
    done (s'.when (late && !s.flag F.MED_PATROL.OVERDUE) fun s => (s.raise F.MED_EVT.PATROL_OVERDUE).entry 0x09 sevNotice)

/-- THRESHOLD_SAVE (R269). -/
def execThresholdSave (s : State) : Res := done { s with mram := { s.mram with offsets := s.media.offsets } }

end Sys2Proof.Machine
end

