-- ==== Sys2Proof/Machine/OpsRecov.lean ====
section
/-! DEFINITION. Recovery: critical words, checkpoint pages, journal apply, replay and settle (R315 to R321, R335 to R340). -/
namespace Sys2Proof.Machine

/-! ### Phase 0: critical words -/

/-- Vote a critical word; an uncorrectable one takes its replacement, written back in all copies (R336, R337). -/
def State.voteWord (s : State) (get : Mram → Trip) (put : Mram → Trip → Mram) (repl : State → Nat) : State :=
  match (get s.mram).vote with
  | some _ => s
  | none => ({ s with mram := put s.mram (trip (repl s)) }.raise F.ECC_EVT.TRIPLE_FAIL).criticalData 0x2A

/-- Newest and oldest batch of the ring. -/
def newestBatch (s : State) : Option (Nat × Batch) :=
  s.mram.ring.foldl (fun (o : Option (Nat × Batch)) x => match o with
    | none => some x | some y => if y.2.base < x.2.base then some x else some y) none
def oldestBatch (s : State) : Option (Nat × Batch) :=
  s.mram.ring.foldl (fun (o : Option (Nat × Batch)) x => match o with
    | none => some x | some y => if x.2.base < y.2.base then some x else some y) none

/-- Vote the words of the journal (R297, R337). -/
def State.voteAll (s : State) : State :=
  let hs (s : State) : Nat := ((newestBatch s).map (·.1)).getD 0
  let hb (s : State) : Nat := ((newestBatch s).map (·.2.base)).getD 0
  let ts (s : State) : Nat := ((oldestBatch s).map (·.1)).getD 0
  let tb (s : State) : Nat := ((oldestBatch s).map (·.2.base)).getD 0
  let fl (s : State) : Nat := (s.mram.ring.foldl (fun m (_, b) => b.recs.foldl (fun m r =>
    if r.toNat / 2 ^ 124 = 3 then max m (r.toNat / 2 ^ 96 % 2 ^ 28) else m) m) 0) + 1
  let s := s.voteWord (·.headSlot) (fun m t => { m with headSlot := t }) hs
  let s := s.voteWord (·.headSeq) (fun m t => { m with headSeq := t }) hb
  let s := s.voteWord (·.tailSlot) (fun m t => { m with tailSlot := t }) ts
  let s := s.voteWord (·.tailSeq) (fun m t => { m with tailSeq := t }) tb
  let s := s.voteWord (·.shutdown) (fun m t => { m with shutdown := t }) fun _ => sdFlushing
  s.voteWord (·.flushNo) (fun m t => { m with flushNo := t }) fl

/-- Batches that apply, in sequence order, from JNL_TAIL to the first that breaks the chain (R316). -/
def liveBatches (s : State) : List Batch :=
  let l := (s.mram.ring.map (·.2)).mergeSort fun a b => decide (a.base ≤ b.base)
  let okRec (r : BitVec 128) : Bool := decide (1 ≤ r.toNat / 2 ^ 124) && decide (r.toNat / 2 ^ 124 ≤ 4)
  (l.foldl (fun (acc : List Batch × Nat × Bool) b =>
    let (out, next, go) := acc
    if go && b.base == next && b.recs.all okRec then (out ++ [b], b.base + b.recs.length, true) else (out, next, false))
    ([], (s.mram.tailSeq.vote).getD 0, true)).1

/-- Highest sealed number after a stop: the end of the live chain, or of the batch that JNL_HEAD names (R293). -/
def sealedAtStart (s : State) : Nat :=
  match (liveBatches s).getLast? with
  | some b => b.base + b.recs.length - 1
  | none => (s.mram.headSeq.vote.getD 0) + s.mram.headLen - 1

/-- Phase 0 (R315, R293, R297, R321, R438). -/
def State.recover0 (s : State) : State :=
  if !s.mram.valid then
    let s := { s with
      jnl := { s.jnl with next := 1, sealed := 0, openBase := 1 }
      mram := { s.mram with headSlot := trip 0, headSeq := trip 0, tailSlot := trip 0, tailSeq := trip 1, shutdown := trip sdRunning, flushNo := trip 0 } }
    s.setFld F.JNL_STATUS.LAST_SHUTDOWN 3
  else
    let s := s.voteAll
    let last := sealedAtStart s
    let s := { s with jnl := { s.jnl with next := last + 1, sealed := last, openBase := last + 1 } }
    let sd := s.mram.shutdown.vote.getD sdFlushing
    let code := if sd = sdClean then 0 else if sd = sdFlushed then 1 else 2
    (s.setFld F.JNL_STATUS.LAST_SHUTDOWN code).when (code == 2) fun s =>
      ((s.raise F.JNL_EVT.FLUSH_INCOMPLETE).entry 0x24 sevCritical).vendorEvent 0xD1

/-! ### Phase 1: load -/

/-- `n` bytes of an image at a byte offset, as a number. -/
def imgBytes (b : Block) (off n : Nat) : Nat := b.toNat / 2 ^ (8 * off) % 2 ^ (8 * n)

/-- Store a word of a table as data, with no other effect. -/
def State.rawWord (s : State) (tbl index word : Nat) (v : Nat) : State :=
  let t := s.zyn.tab
  let x : Word64 := BitVec.ofNat 64 v
  match tbl with
  | 1 => s.setTab { t with map := sputD 0 index (BitVec.ofNat 64 (v % 2 ^ 40)) t.map }
  | 2 => s.setTab { t with zdesc := sputD 0 (index * 8 + word) x t.zdesc }
  | 4 => s.setTab { t with block := sputD 0 (index * 8 + word) x t.block }
  | 5 => s.setTab { t with tenant := sputD 0 (index * 8 + word) x t.tenant }
  | 6 => s.setTab { t with nsrec := sputD 0 (index * 8 + word) x t.nsrec }
  | _ => s

/-- Load a page image into its table (R315): the inverse of the image's layout (R228, R301). -/
def State.loadPage (s : State) (page : Nat) (b : Block) : State :=
  let (tbl, first, n) := pageRange page
  match tbl with
  | 1 =>
    let s := s.each (List.range n) fun s j => s.rawWord 1 (first + j) 0 (imgBytes b (j / 12 * 64 + j % 12 * 5) 5)
    s.each (List.range 64) fun s l =>
      let tag := imgBytes b (l * 64 + 60) 4
      if tag = 0 then s else { s with jnl := { s.jnl with lineTag := sput (first / 12 + l) tag s.jnl.lineTag } }
  | 4 => s.each (List.range n) fun s j => s.each (List.range 2) fun s w => s.rawWord 4 (first + j) w (imgBytes b (j * 16 + w * 8) 8)
  | t => s.each (List.range n) fun s j => s.each (List.range 8) fun s w => s.rawWord t (first + j) w (imgBytes b (j * 64 + w * 8) 8)

/-- An older copy of a page among the checkpoint blocks whose records the journal still covers (R335): location and PAGE_SEQ. -/
def olderCopy (s : State) (page below : Nat) (bad : List Nat) : Option (Nat × Nat) :=
  (s.media.nand.filterMap fun (k, p) =>
    let o := Oob.of (Payload.oob20 p)
    if s.mram.cpSet.contains (k / 2 ^ 28 * 2 ^ 15 + slotBlock s (k % 2 ^ 28)) && o.isPage && o.lba == page && !bad.contains k &&
        decide (o.wsn < below) && decide ((s.mram.tailSeq.vote.getD 0) ≤ o.wsn + 1) then some (k, o.wsn) else none).foldl
    (fun (m : Option (Nat × Nat)) x => match m with | none => some x | some y => if y.2 < x.2 then some x else some y) none

/-- Entries of a page that no live record names become SPECIAL 1, or the page comes from its MRAM shadow (R335). -/
def State.lostPage (s : State) (page : Nat) : State :=
  let (tbl, first, n) := pageRange page
  let s := { s with mram := { s.mram with cpNewest := sdel page s.mram.cpNewest } }
  match tbl with
  | 1 =>
    let lost := (List.range n).filter fun j => tabInBounds s 1 (first + j)
    let s := s.each lost fun s j => s.rawWord 1 (first + j) 0 Place.unrecovered.word.toNat
    let s := { s with ecc := { s.ecc with integrity := s.ecc.integrity + lost.length } }
    ((s.raise F.JNL_EVT.FLUSH_INCOMPLETE).raise F.ECC_EVT.UNRECOVERED).criticalData 0x15
  | 5 => s.each (List.range n) fun s j => s.each (List.range 8) fun s w =>
      s.rawWord 5 (first + j) w (sgetD 0 ((first + j) * 8 + w) s.mram.tenant).toNat
  | 6 => s.each (List.range n) fun s j => s.each (List.range 8) fun s w =>
      s.rawWord 6 (first + j) w (sgetD 0 ((first + j) * 8 + w) s.mram.nsrec).toNat
  | 4 => s
  | _ => (s.raise F.JNL_EVT.FLUSH_INCOMPLETE).criticalData 0x15

/-- Phase 1 (R315, R335): NSREC first, since it says which entries exist. `bad` lists the codewords that do not decode. A block whose
allocation was not sealed has no entry in the open-block table. -/
def State.recover1 (s : State) (bad : List Nat) : State :=
  let s := { s with mram := { s.mram with openBlks := s.mram.openBlks.filter fun o => decide (o.allocSeq ≤ s.jnl.sealed) } }
  let s := s.setTab { s.zyn.tab with block := s.mram.blockRec }
  let pages := s.mram.cpNewest.mergeSort fun a b => decide (b.1 ≤ a.1)
  s.each pages fun s (page, loc, seq) =>
    let use (l : Nat) : Option Block := if bad.contains l then none else (sget l s.media.nand).map Payload.data
    match use loc with
    | some b => s.loadPage page b
    | none => match olderCopy s page seq bad with
      | some (l, q) =>
        let s := { s with mram := { s.mram with cpNewest := sput page (l, q) s.mram.cpNewest } }
        (match (sget l s.media.nand).map Payload.data with | some b => s.loadPage page b | none => s)
      | none => s.lostPage page

/-! ### Phase 2: apply -/

/-- PAGE_SEQ of the newest copy of a page; 0 if it has none. -/
def pageSeqOf (s : State) (page : Nat) : Nat := ((sget page s.mram.cpNewest).map (·.2)).getD 0

/-- J(E), the value before the trailing run of POOL records, and that run's numbers, for a MAP entry a record changes (R316). -/
def State.trackApply (s : State) (index n : Nat) (v : Nat) : State :=
  let old := s.mapEntry index
  let isPool (w : Word64) : Bool := match Place.of w with | .buffer _ => true | .pending _ => true | _ => false
  let (prior, run) := match sget index s.jnl.applied with
    | some (_, p, r) => if isPool old then (p, r) else (old, [])
    | none => (old, [])
  let rec' := if isPool (BitVec.ofNat 64 v) then (n, prior, run ++ [n]) else (n, BitVec.ofNat 64 v, [])
  { s with jnl := { s.jnl with applied := sput index rec' s.jnl.applied } }

/-- The record of an allocation stands for the whole write (R279): word 1 of a block that is free is written by its allocation alone. -/
def State.openFree (s : State) (index : Nat) : State :=
  let w := (sgetD 0 (index * 8) s.zyn.tab.block).toNat
  if w / 65536 % 16 = 0 then s.rawWord 4 index 0 (w + 65536) else s

/-- Apply one record (R316). -/
def State.applyRec (s : State) (r : BitVec 128) (n : Nat) : State :=
  let x := r.toNat
  let tbl := x / 2 ^ 120 % 16
  let index := x / 2 ^ 77 % 2 ^ 40
  let fresh := decide (pageSeqOf s (pageOf tbl index) < n)
  let note (s : State) : State :=
    let s := s.markDirty (pageOf tbl index) n
    s.when (tbl == 1) fun s => { s with jnl := { s.jnl with lineTag := sput (mapLine index) n s.jnl.lineTag } }
  match x / 2 ^ 124 with
  | 1 => if fresh then
      let v := x % 2 ^ 64
      let s := s.when (tbl == 1) (·.trackApply index n (v % 2 ^ 40))
      let s := s.when (tbl == 4 && x / 2 ^ 117 % 8 == 1) (·.openFree index)
      note (s.rawWord tbl index (x / 2 ^ 117 % 8) v)
    else s
  | 2 => if fresh then
      note (s.each (List.range 12) fun s j => (s.trackApply (index + j) n 0).rawWord 1 (index + j) 0 0)
    else s
  | _ => s

/-- Phase 2 (R315, R316). -/
def State.recover2 (s : State) : State :=
  s.each (liveBatches s) fun s b => s.each b.recs.zipIdx fun s (r, k) => s.applyRec r (b.base + k)

/-! ### Phase 3: replay and resolve -/

/-- Rows of the open blocks and flush blocks that phase 3 reads: (die, block, first row, flush block) (R315). -/
def replayBlocks (s : State) : List (Nat × Nat × Nat × Bool) :=
  (s.mram.plan.map fun (d, b) => (d, b, 0, true)) ++
    (s.mram.openBlks.filter fun o => sget o.die s.mram.plan != some o.block).map fun o => (o.die, o.block, o.row, false)

/-- A codeword is a candidate (R317): NSID, LBA, WSN, in a flush block, location, SECT_MASK (0x100 for a whole codeword). -/
def candidate (s : State) (k : Nat) (p : Payload) (flush : Bool) : Option (Nat × Nat × Nat × Bool × Nat × Nat) :=
  let w := Payload.oob20 p
  let o := Oob.of w
  let ns := o.nsidx + 1
  let lgen := if s.nsZoned ns then s.zlgen (s.zoneOf ns o.lba) % 65536 else o.lgen
  if chkOk w && !o.isPage && s.nsState ns == 1 && o.gen == 0 && o.lgen == lgen then
    some (ns, o.lba, o.wsn, flush, k, if o.part then o.mask else 0x100)
  else none

/-- Phase 3, first half: the candidates (R315, R317). -/
def State.recover3 (s : State) (bad : List Nat) : State :=
  let found := (replayBlocks s).flatMap fun (d, b, row, fl) =>
    let lo := nandKey d ((b * geoPpb s + row) * pageSlots s)
    let hi := nandKey d ((b + 1) * blockSlots s)
    if s.blockW1 d b / 128 % 2 = 1 then []
    else s.media.nand.filterMap fun (k, p) =>
      if decide (lo ≤ k) && decide (k < hi) && !bad.contains k then candidate s k p fl else none
  { s with jnl := { s.jnl with cands := found } }

/-- The better of two candidates of equal WSN is the copy outside a flush block (R318). -/
def betterCand (a b : Nat × Nat × Nat × Bool × Nat × Nat) : Nat × Nat × Nat × Bool × Nat × Nat :=
  if a.2.2.1 < b.2.2.1 then b else if b.2.2.1 < a.2.2.1 then a else if a.2.2.2.1 && !b.2.2.2.1 then b else a

def bestCand : List (Nat × Nat × Nat × Bool × Nat × Nat) → Option (Nat × Nat × Nat × Bool × Nat × Nat)
  | [] => none
  | c :: t => some (t.foldl betterCand c)

/-- What R318 gives a MAP entry. -/
inductive Resolve
  | keep
  | value (w : Word64)
  | take (wsn : Nat) (prior : Word64)
deriving DecidableEq, Repr

/-- Resolve an entry from its candidates (R318). An entry that no record names keeps the PAGE_SEQ of its page as J(E) (DEDUCED). -/
def resolve (s : State) (index : Nat) (cands : List (Nat × Nat × Nat × Bool × Nat × Nat)) : Resolve :=
  let (j, prior, run) := match sget index s.jnl.applied with
    | some x => x
    | none => (pageSeqOf s (pageOf 1 index), s.mapEntry index, [])
  match bestCand (cands.filter fun c => decide (j < c.2.2.1)) with
  | some c => .take c.2.2.1 prior
  | none =>
    if run.isEmpty then .keep
    else match bestCand (cands.filter fun c => run.contains c.2.2.1) with
      | some c => .take c.2.2.1 prior
      | none => .value prior

/-- Put codewords at the next free slots of a Spool block, as recovery's own program of merged data (R318, R319). -/
def State.spoolPut (s : State) (l : List (Option Payload)) : Option Nat × State :=
  let fits (die : Nat) (o : OpenBlk) : Bool :=
    o.die == die && o.use == 0 && s.blockSlc o.die o.block && sget o.die s.mram.plan != some o.block && decide (s.nextRow o.die o.block < slcRows s)
  let at' (die : Nat) : Option (Nat × Nat) := (s.mram.openBlks.find? (fits die)).map fun o => (o.die, o.block)
  let place (s : State) (die block : Nat) : Nat × State :=
    let slot := (block * geoPpb s + s.nextRow die block) * pageSlots s
    (nandKey die slot, s.each (l.zipIdx.filterMap fun (p, k) => p.map fun p => (p, k)) fun s (p, k) => { s with media := { s.media with nand := sput (nandKey die (slot + k)) p s.media.nand } })
  let dies := s.media.dies.filter s.inService
  match dies.findSome? at' with
  | some (d, b) => let (k, s) := place s d b; (some k, s)
  | none =>
    match dies.foldl (fun (o : Option (Nat × Nat) × State) d => match o with
      | (some x, s) => (some x, s)
      | (none, s) => (match s.allocBlock d 2 true with | (some b, s) => (some (d, b), s) | (none, s) => (none, s))) (none, s) with
    | (some (d, b), s) => let (k, s) := place s d b; (some k, s)
    | (none, s) => (none, s)

/-- Codeword `j` of the IU a value designates; an unwritten IU has none. -/
def iuData (s : State) (w : Word64) (j : Nat) : Option Payload :=
  match Place.of w with
  | .media d sl => s.codeword d (sl + j)
  | _ => none

/-- Adopt a write for an entry (R318): its whole-IU copy by location, or a PARTIAL copy merged over the prior value and
reprogrammed to Spool. Over an unwritten IU what no copy holds stays out and reads as zeros (`gotConv`); over a value that no longer gives its
data the IU is lost (DESIGN CHOICE: else wrong data would be read). -/
def State.adopt (s : State) (ns iuLba index wsn : Nat) (prior : Word64) (cands : List (Nat × Nat × Nat × Bool × Nat × Nat)) : State :=
  let iu := s.nsIu ns
  let mine := cands.filter fun c => c.2.2.1 == wsn
  let cwLba (c : Nat × Nat × Nat × Bool × Nat × Nat) : Nat := c.2.1
  match bestCand (mine.filter fun c => c.2.2.2.2.2 == 0x100 && cwLba c == iuLba) with
  | some c => s.tjrn 1 index 0 (Place.media (c.2.2.2.2.1 / 2 ^ 28) (c.2.2.2.2.1 % 2 ^ 28)).word.toNat
  | none =>
    let n := if s.nsLbaf ns = 1 then 4 else 1
    let whole := s.nsLbaf ns == 1
    let merged := (List.range n).map fun j =>
      let lba := if whole then iuLba + j else iuLba
      let base := iuData s prior j
      let parts := mine.filter fun c => if whole then cwLba c == lba else decide (iuLba ≤ cwLba c) && decide (cwLba c < iuLba + iu)
      let data := parts.foldl (fun d c => match sget c.2.2.2.2.1 s.media.nand with
        | some p => if whole then Payload.data p else mergeSectors d (Payload.data p) c.2.2.2.2.2
        | none => d) ((base.map Payload.data).getD 0)
      let held := (base.map fun p => (Oob.of (Payload.oob20 p)).sectors).getD 0
      let m := if whole then (if parts.isEmpty then held else 0xFF) else parts.foldl (fun m c => m ||| c.2.2.2.2.2 % 256) held
      (data, lba, m)
    let full := merged.all fun x => x.2.2 == 0xFF
    let words := merged.map fun (data, lba, m) =>
      let o : Oob := { lba := lba, wsn := wsn, nsidx := ns - 1, flush := false, part := !full, gen := 0, mask := if full then 0xFF else if whole then 1 else m, lgen := 0 }
      if m = 0 then none else some (mkPayload data o.word 0 0)
    let gone := match Place.of prior with | .unwritten => false | .media _ _ => (List.range n).all fun j => (iuData s prior j).isNone | _ => true
    if !full && gone then s.markLost index
    else match s.spoolPut words with
    | (some k, s) => s.tjrn 1 index 0 (Place.media (k / 2 ^ 28) (k % 2 ^ 28)).word.toNat
    | (none, s) => s

/-- Adoptions of phase 4 for conventional namespaces (R318). -/
def State.adoptAll (s : State) : State :=
  let conv := s.jnl.cands.filter fun c => !s.nsZoned c.1
  let key (c : Nat × Nat × Nat × Bool × Nat × Nat) : Nat := s.mapIndex c.1 c.2.1
  let idxs := ((s.jnl.applied.map (·.1)) ++ conv.map key).dedup
  s.each idxs fun s index =>
    let cands := conv.filter fun c => key c == index
    match resolve s index cands with
    | .keep => s
    | .value w => if w = s.mapEntry index then s else s.tjrn 1 index 0 w.toNat
    | .take wsn prior =>
      match cands with
      | c :: _ => s.adopt c.1 (c.2.1 / s.nsIu c.1 * s.nsIu c.1) index wsn prior cands
      | [] => s

/-- Zoned data of phase 4 (R319): offsets from MWP up to RWP go to their R238 locations, those without a candidate are filled, those
a Write Zeroes made read zeros, and WP := RWP. -/
def State.settleZone (s : State) (z : Nat) : State :=
  let ns := s.zw z 4 % 2 ^ 32
  let first := s.zw z 4 / 2 ^ 32 % 2 ^ 21 * 2 ^ s.nsLogZsze ns
  let (mwp, rwp) := (s.zmwp z, s.zrwp z)
  let mine := s.jnl.cands.filter fun c => c.1 == ns && decide (first + mwp ≤ c.2.1) && decide (c.2.1 < first + rwp)
  let s := s.each ((List.range (rwp - mwp)).map (mwp + ·)) fun s o =>
    match (bestCand (mine.filter fun c => c.2.1 == first + o)).bind fun c => sget c.2.2.2.2.1 s.media.nand with
    | some p =>
      let (d, sl) := s.zoneSlot z o
      let q := Oob.of (Payload.oob20 p)
      { s with media := { s.media with nand := sput (nandKey d sl) (mkPayload (Payload.data p) { q with flush := false }.word 0 0) s.media.nand } }
    | none => if s.map.zeroed.contains (z * 2 ^ 21 + o) then s
      else ({ s with map := { s.map with voids := (z * 2 ^ 21 + o) :: s.map.voids } }).raise F.MAP_EVT.VOID_FILL
  if mwp = rwp && s.zwp z = rwp then s
  else
    let s := s.tjrn 2 z 1 (setBits (s.zw z 1) 32 21 rwp)
    s.tjrn 2 z 0 (setBits (s.zw z 0) 32 21 rwp)

/-! ### Phase 4: settle -/

/-- Zones that are active. -/
def activeZones (s : State) : List Nat :=
  (s.zyn.tab.zdesc.filter fun (k, v) => k % 8 == 0 && k / 8 < 1048576 && zActive (v.toNat % 16)).map fun (k, _) => k / 8

/-- VALID of every block, counted from the map, the newest checkpoint copies and the zone lists (R315, R278, R305). -/
def State.recount (s : State) : State :=
  let blk (d sl : Nat) : Nat := d * 2 ^ 15 + slotBlock s sl
  let map := s.zyn.tab.map.filterMap fun (_, w) => match Place.of w with | .media d sl => some (blk d sl) | _ => none
  let cps := s.mram.cpNewest.map fun (_, l, _) => blk (l / 2 ^ 28) (l % 2 ^ 28)
  let zones := (s.zyn.tab.zdesc.filter fun (k, v) => k % 8 == 0 && k / 8 < 1048576 && 2 ≤ v.toNat % 16).flatMap fun (k, _) =>
    let z := k / 8
    (List.range (s.zmwp z)).map fun o => let (d, sl) := s.zoneSlot z o; blk d sl
  let all := map ++ cps ++ zones
  s.each (s.media.dies.flatMap fun d => (List.range (geoBlocks s)).map fun b => (d, b)) fun s (d, b) =>
    let n := (all.filter (· == d * 2 ^ 15 + b)).length
    let w := s.blockW0 d b
    if blkValid w = n then s else s.putBlock (bkey s d b) (setBits w 0 16 n)

/-- Rebuild the free heap of every die from its BLOCK records (R279, R315). -/
def State.rebuildHeaps (s : State) : State :=
  s.each (s.media.dies) fun s d =>
    let free := (List.range (geoBlocks s)).filter fun b => s.blockSt d b == 0
    (s.setHeap d (free.foldl (fun h b => heapInsert (blkErase (s.blockW0 d b), b) h) [])).ballastCheck d

/-- Close the open blocks of a use that hold no live copy (R315, R320). -/
def State.closeDead (s : State) : State :=
  s.each (s.mram.openBlks.filter fun o => (o.use == 1 || o.use == 3) && blkValid (s.blockW0 o.die o.block) == 0) fun s o => s.closeBlock o.die o.block

/-- The flush blocks of the last loss stay as closed Spool blocks; fresh ones are armed (R312, R315). -/
def State.rearm (s : State) : State :=
  let old := s.mram.plan
  let s := s.each old fun s (d, b) => s.closeBlock d b
  ({ s with mram := { s.mram with plan := [] } }).armAll

/-- Parity that the stop abandoned is rebuilt (R275, R312, R315): codewords of the open blocks name in PAR_SELF a die-page that holds
nothing. The member list takes the members in rising address order: the order in which they joined is lost (DESIGN CHOICE). -/
def State.rebuildParity (s : State) : State :=
  let opened (k : Nat) : Bool := s.mram.openBlks.any fun o =>
    decide (nandKey o.die (o.block * blockSlots s) ≤ k) && decide (k < nandKey o.die ((o.block + 1) * blockSlots s))
  let addrs := ((s.media.nand.filter fun (x : Nat × Payload) => opened x.1 && Payload.parSelf x.2 != 0).map fun (x : Nat × Payload) => Payload.parSelf x.2).dedup
  s.each addrs fun s a =>
    let q := Pa.of (BitVec.ofNat 48 a)
    if (s.codeword q.die (q.slot s)).isSome || !s.inService q.die then s
    else
      let mine := s.media.nand.filter fun (x : Nat × Payload) => Payload.parSelf x.2 == a
      let pos (k : Nat) : Nat := k % 2 ^ 28 % max 1 (pageSlots s)
      let acc : Sparse Payload := mine.foldl (fun m (k, p) => sput (pos k) (xorP (sgetD 0 (pos k) m) p) m) []
      let members := (mine.map fun (x : Nat × Payload) => diePage (mkPa s (x.1 / 2 ^ 28) (x.1 % 2 ^ 28))).dedup
      let t : Stripe := { slc := s.blockSlc q.die q.block, bg := false, parity := BitVec.ofNat 48 a, members := members, acc := acc }
      s.each acc fun s (i, _) =>
        { s with media := { s.media with nand := sput (nandKey q.die (q.slot s - q.slot s % max 1 (pageSlots s) + i)) (parityPayload s t i) s.media.nand } }

/-- Phase 4 after a stop that was not clean (R315, R318, R319). -/
def State.settleDirty (s : State) : State :=
  let s := s.adoptAll.rebuildParity
  let s := s.each (activeZones s) (·.settleZone ·)
  let s := { s with jnl := { s.jnl with applied := [], cands := [] } }
  s.recount.closeDead.trimSet

/-- Write sequence numbers of the run of pool writes an entry ends in, oldest first, and the value before it. -/
def poolChain (s : State) (w : Word64) : Nat → List Nat × Word64
  | 0 => ([], w)
  | fuel + 1 => match Place.of w with
    | .buffer h => (match s.buf h with
      | some b => let (r, v) := poolChain s b.prior fuel; (r ++ [b.wsn], v)
      | none => ([], w))
    | .pending h => (match sget h s.host.pendings with
      | some p => let (r, v) := poolChain s p.prior fuel; (r ++ p.bufs.filterMap fun b => (s.buf b).map (·.wsn), v)
      | none => ([], w))
    | _ => ([], w)

/-- Phase 3 and 4 work against the live tables, after a flush without power loss (R314): entries in the pool are resolved. -/
def State.liveApplied (s : State) : State :=
  let one (k : Nat) (w : Word64) : Option (Nat × Nat × Word64 × List Nat) :=
    let (run, prior) := poolChain s w 64
    if run.isEmpty then none else some (k, run.foldl max 0, prior, run)
  { s with jnl := { s.jnl with applied := s.zyn.tab.map.filterMap fun (k, w) => one k w } }

/-- A RECOVER activation of a phase is dispatched (R315, R83). -/
def State.recoverEntry (s : State) (phase : Nat) : State := s.policy 0x0A phase

/-- Activations of recovery still queued or running (R315). -/
def recoverBusy (s : State) : Bool :=
  (s.zyn.ctxs.any fun (k, c) => decide (3 * 512 ≤ k) && c.kind == 0x0A && decide (c.st ≠ .idle)) ||
  (s.zyn.queues.any fun (_, l) => l.any fun r => r.kind == 0x0A)

end Sys2Proof.Machine
end

