-- ==== Sys2Proof/Machine/OpsProt.lean ====
section
/-! DEFINITION. Error log, poison, fencing, uncorrectable data by location, rebuilds (R323 to R340), and the marking of DRAM
components and the freeze of the DMC (R360, R364). -/
namespace Sys2Proof

/-- Store code of a location (registers of chapter 11). -/
def StoreLoc.store : StoreLoc → Nat
  | .sram st _ => st.toNat | .istore _ _ => 5 | .buffer _ => 8 | .pending _ => 10 | .line t _ => if t = 1 then 9 else 10
  | .heap _ => 10 | .dieWord _ _ => 10 | .table _ => 10 | .critical _ _ => 14 | .batch _ => 11 | .shadow _ _ => 14
  | .region l _ => if l then 13 else 12

/-- An address for the log. -/
def StoreLoc.addr : StoreLoc → Nat
  | .sram _ a => a.toNat | .istore p w => p.toNat * 2 ^ 18 + w.toNat | .buffer h => h.toNat | .pending h => h.toNat
  | .line t i => t.toNat * 2 ^ 36 + i.toNat | .heap d => d.toNat | .dieWord d w => d.toNat * 4 + w.toNat | .table a => a.toNat
  | .critical w _ => w.toNat | .batch k => k.toNat * 1040 | .shadow w _ => w.toNat | .region _ a => a.toNat

/-- Scrubber of a location: 0 SRAM, 1 DRAM, 2 MRAM (R330). -/
def StoreLoc.scrubber : StoreLoc → Nat
  | .sram _ _ => 0 | .istore _ _ => 0 | .buffer _ => 1 | .pending _ => 1 | .line _ _ => 1 | .heap _ => 1 | .dieWord _ _ => 1 | .table _ => 1
  | _ => 2

end Sys2Proof

namespace Sys2Proof.Machine

/-- Write an ECC_LOG entry (registers of chapter 11). -/
def State.eccLog (s : State) (store cls synd action addr : Nat) : State :=
  let k := s.fld F.ECC_LOG_HEAD.NEXT
  let s := (((s.setFld (F.ECC_LOG_INFO.STORE.ix k) store).setFld (F.ECC_LOG_INFO.CLASS.ix k) cls).setFld (F.ECC_LOG_INFO.SYND.ix k) synd).setFld
    (F.ECC_LOG_INFO.ACTION.ix k) action
  let s := ((s.setFld (F.ECC_LOG_ADDR_LO.ADDR.ix k) (addr % 2 ^ 32)).setFld (F.ECC_LOG_ADDR_HI.ADDR.ix k) (addr / 2 ^ 32 % 2 ^ 32)).setFld
    (F.ECC_LOG_TIME.SECONDS.ix k) (s.now / 1000000000 % 2 ^ 32)
  (s.setFld F.ECC_LOG_HEAD.NEXT ((k + 1) % 16)).count F.ECC_LOG_HEAD.TOTAL

/-- A corrected error of a store (R324). -/
def State.corrected (s : State) (store synd addr : Nat) : State :=
  (s.count (F.ECC_CE_CNT.COUNT.ix store)).eccLog store 0 synd 0 addr

/-- An uncorrectable error of a store: class 1 on request, 2 by a scrubber, 3 a poison read (R327, R332). -/
def State.uncorrected (s : State) (store cls action addr : Nat) : State :=
  (((s.count (F.ECC_UE_CNT.COUNT.ix store)).raise F.ECC_EVT.UE).when (cls == 3) (·.raise F.ECC_EVT.POISON_READ)).eccLog store cls 0 action addr

/-- 24 h of operation in ns (R326). -/
def dayNs : Nat := 24 * 3600 * 1000000000

/-- A strike of a pool buffer (store 8) or staging slot (store 1): the second within 24 h fences it (R326). -/
def State.strike (s : State) (store k : Nat) : State :=
  let recent := s.ecc.strikes.any fun (a, b, t) => a == store && b == k && decide (s.ttu.elapsed < t + dayNs)
  let s := { s with ecc := { s.ecc with strikes := (store, k, s.ttu.elapsed) :: s.ecc.strikes.filter fun (a, b, _) => !(a == store && b == k) } }
  if !recent then s
  else if store = 8 then
    let already := match s.buf k with | some b => b.fenced | none => false
    if already then s
    else
      let b : Buf := match s.buf k with | some b => { b with fenced := true } | none => { cmd := 2 ^ 18, account := 0, nsid := 0, lba := 0, fenced := true }
      let s := s.when (s.buf k).isNone fun s => s.setFld F.BPM_FREE.FREE (freeBufs s - 1)
      let s := ((s.setBuf k b).count F.ECC_FENCE.BUFFERS).raise F.ECC_EVT.FENCE
      s.when (decide (1024 < (s.host.bufs.filter fun (_, b) => b.fenced).length)) (·.criticalData 0x15)
  else
    let x := sgetD ({} : Slot) k s.media.slots
    if x.fenced then s
    else
      let s := ({ s with media := { s.media with slots := sput k { x with fenced := true } s.media.slots } }.count F.ECC_FENCE.SLOTS).raise F.ECC_EVT.FENCE
      s.when (decide (16 < (s.media.slots.filter fun (j, y) => j / 128 == k / 128 && y.fenced).length)) (·.criticalData 0x15)

/-! ### Uncorrectable data by location (R332) -/

/-- The program of a buffer's block has passed: media holds its codeword, or its map change is journaled (R332). -/
def State.programPassed (s : State) (b : Buf) : Bool :=
  b.doneSeq.isSome || s.media.nand.any fun (_, p) =>
    let o := Oob.of (Payload.oob20 p)
    o.nsidx + 1 == b.nsid && o.lba == b.lba && o.wsn == b.wsn && b.wsn != 0

/-- A buffer that cannot be read (R332): free, passed, or not passed. -/
def State.badBuffer (s : State) (h cls : Nat) : State :=
  match s.buf h with
  | none => (((s.uncorrected 8 cls 1 h).poison 8 h).strike 8 h).entry 0x15 sevNotice
  | some b =>
    let s := ((s.uncorrected 8 cls 3 h).poison 8 h).strike 8 h
    if s.programPassed b then s.entry 0x15 sevNotice
    else
      let idx := s.mapIndex b.nsid b.lba
      let s := if !s.nsZoned b.nsid && Place.of (s.mapEntry idx) = .buffer h then s.markLost idx else s
      let s := match s.cmd b.cmd with | some x => if x.committed then s else s.finish b.cmd 0 0x06 | none => s
      (s.freeBuf h).criticalData 0x15

/-- A pending descriptor that cannot be read: its IU becomes SPECIAL 1, and its buffers go (R332). -/
def State.badPending (s : State) (h cls : Nat) : State :=
  let s := s.uncorrected 10 cls 3 h
  match s.zyn.tab.map.find? fun (_, w) => Place.of w == .pending h with
  | some (idx, _) => (s.markLost idx).criticalData 0x15
  | none => s

/-- Start the rebuild of a table line (R333): a line the map cache holds is written back at once. -/
def State.badLine (s : State) (tbl index cls : Nat) : State :=
  let line := if tbl = 1 then mapLine index else index
  let s := ((s.uncorrected (if tbl = 1 then 9 else 10) cls 2 (tbl * 2 ^ 36 + index)).raise F.ECC_EVT.REBUILD_START).entry 0x15 sevFault
  let cached := match tbl with | 1 => (s.resident line).isSome | 2 => (s.resident (zdescLine index)).isSome | _ => false
  if cached then s.raise F.ECC_EVT.REBUILD_DONE
  else if s.underRebuild tbl index || decide (257 ≤ s.ecc.rebuilds.length) then s
  else { s with ecc := { s.ecc with rebuilds := s.ecc.rebuilds ++ [({ tbl := tbl, line := line } : Rebuild)] } }

/-- The Crypto Module enters its error state with a cause and the row of R371 concerned (R388). -/
def State.secError (s : State) (cause : Nat) (alg : Nat := 0) : State :=
  let s := { s with media := { s.media with smart := s.media.smart ||| 4 } }
  ((((s.setFld F.SEC_STATUS.STATE 2).setFld F.SEC_ERR.CAUSE cause).setFld F.SEC_ERR.ALG alg).raise F.SEC_EVT.ERROR).entry 0x26 sevCritical

/-- Newest valid ledger record (R337). -/
def State.newestRecord (s : State) : Option LedgerRec := sget ((s.sec.ledger.head - 1) % 15360) s.sec.ledger.ring

/-- A critical word met by the MRAM scrubber: one bad copy is repaired, two make it uncorrectable (R336, R337). -/
def State.badCritical (s : State) (word bad : Nat) : State :=
  let n := (bad % 2) + (bad / 2 % 2) + (bad / 4 % 2)
  if n = 0 then s
  else if n = 1 then s.corrected 14 0 word
  else
    let s := (s.uncorrected 14 2 6 word).raise F.ECC_EVT.TRIPLE_FAIL
    let s := match word with
      | 5 => (match s.newestRecord with
        | some r => { s with sec := { s.sec with ledger := { s.sec.ledger with cycles := r.cycles + 1, seconds := r.seconds } } }
        | none => s)
      | 6 => (match s.newestRecord with
        | some r => { s with sec := { s.sec with ledger := { s.sec.ledger with lifecycle := BitVec.ofNat 8 r.lifecycle } } }
        | none => s.secError 6)
      | 7 => s.secError 6
      | 2 => s.setShutdown sdFlushing
      | _ => s
    s.criticalData 0x2A

/-- An uncorrectable word in a live batch: its pages are imaged at once, until JNL_TAIL passes it (R340). -/
def State.badBatch (s : State) (slot : Nat) : State :=
  match sget slot s.mram.ring with
  | none => s
  | some b =>
    let s := (s.uncorrected 11 2 2 (slot * 1040)).entry 0x15 sevCritical
    let s := ({ s with jnl := { s.jnl with repair := some slot } }.raise F.ECC_STATUS.JNL_REPAIR).raise F.ECC_EVT.JNL_REPAIR
    let last := b.base + b.recs.length - 1
    let pages := (s.jnl.firstDirty.filter fun (_, n) => decide (n ≤ last)).map (·.1)
    s.each pages (·.requestImage ·)

/-- A word that cannot be read, by location (R327, R332). -/
def State.badWord (s : State) (loc : StoreLoc) (cls : Nat) : State :=
  match loc with
  | .sram st a => ((s.uncorrected st.toNat cls 1 a.toNat).poison st.toNat a.toNat).entry 0x15 sevFault
  | .istore p w => (((s.uncorrected 5 cls 1 (p.toNat * 2 ^ 18 + w.toNat)).poison 5 (p.toNat * 2 ^ 18 + w.toNat)).raise F.ECC_EVT.ISTORE).criticalData 0x15
  | .buffer h => s.badBuffer h.toNat cls
  | .pending h => s.badPending h.toNat cls
  | .line t i => s.badLine t.toNat i.toNat cls
  | .heap d => ((s.uncorrected 10 cls 2 d.toNat).each [d.toNat] fun s d =>
      let free := (List.range (geoBlocks s)).filter fun b => s.blockSt d b == 0
      s.setHeap d (free.foldl (fun h b => heapInsert (blkErase (s.blockW0 d b), b) h) [])).entry 0x15 sevFault
  | .dieWord d w =>
    if w = 1 then
      let mine := s.mram.offsets.filter fun (k, _) => k / 1024 == d.toNat
      let rest := s.media.offsets.filter fun (k, _) => k / 1024 != d.toNat
      ({ (s.uncorrected 10 cls 2 (d.toNat * 4 + 1)) with
        media := { s.media with offsets := mine.foldl (fun m (k, v) => sput k v m) rest } }).entry 0x15 sevFault
    else ((s.uncorrected 10 cls 1 (d.toNat * 4 + w.toNat)).poison 10 (d.toNat * 4 + w.toNat)).entry 0x15 sevFault
  | .table a => ((s.uncorrected 10 cls 1 a.toNat).poison 10 a.toNat).entry 0x15 sevFault
  | .critical w bad => s.badCritical w.toNat bad.toNat
  | .batch k => s.badBatch k.toNat
  | .shadow w live =>
    let s := s.uncorrected 14 cls 2 w.toNat
    if live then s.entry 0x15 sevCritical else s.criticalData 0x15
  | .region l a => (s.uncorrected (if l then 13 else 12) cls 1 a.toNat).criticalData 0x15

/-! ### DRAM components (R360) and the freeze (R364) -/

/-- A diagnostic record, written after the counter entry it accompanies (R451). -/
def State.diag (s : State) (kind : Nat) (addr : Word64) : State :=
  let s := s.raise F.GB_EVT.DIAG
  { s with gb := { s.gb with
    diags := sput s.gb.diagNext { stamp := s.stamp, kind := kind, addr := addr } s.gb.diags
    diagNext := (s.gb.diagNext + 1) % 8 } }

/-- A DRAM correction names a component: `k` is channel × 64 + subchannel × 32 + rank × 16 + device (R360). -/
def State.dramCorrected (s : State) (k : Nat) : State :=
  let th := s.fld F.DMC_ERR_CFG.DEV_FAIL_THRESH
  let sec := s.ttu.elapsed / 1000000000
  let n := match sget k s.dmc.corr with | some (t, n) => if t = sec then n + 1 else 1 | none => 1
  let s := { s with dmc := { s.dmc with corr := sput k (sec, n) s.dmc.corr } }
  if th = 0 || n < th || (sget (k / 16) s.dmc.marked).isSome then s
  else
    let s := { s with dmc := { s.dmc with marked := sput (k / 16) (k % 16) s.dmc.marked } }
    let s := ((((s.setFld F.DMC_FAILDEV.CH (k / 64)).setFld F.DMC_FAILDEV.SC (k / 32 % 2)).setFld F.DMC_FAILDEV.RANK (k / 16 % 2)).setFld
      F.DMC_FAILDEV.DEVICE (k % 16)).raise F.DMC_FAILDEV.VALID
    ((s.raise F.DMC_STATUS.DEV_FAIL).raise F.DMC_EVT.DEV_FAIL).criticalData 0x22

/-- Freeze of the DMC (R364). -/
def State.dmcFreeze (s : State) (addr : Nat) : State :=
  if s.fld F.DMC_STATUS.STATE = 4 then s
  else
    let s := { s with dmc := { s.dmc with wq := [], rq := [], batches := [] } }.clear F.DMC_STATUS.WBATCH
    let s := ((s.setFld F.DMC_STATUS.STATE 4).raise F.DMC_EVT.FREEZE).cfsAll
    ((s.setPair R.DMC_CAP_ADDR_LO addr).entry 0x23 sevCritical).diag 0x23 (BitVec.ofNat 64 addr)

end Sys2Proof.Machine
end

