-- ==== Sys2Proof/Machine/OpsPower.lean ====
section
/-! DEFINITION. Votes, performance levels, supply requests, power states and domains (R404 to R421). -/
namespace Sys2Proof.Machine

/-! ### Votes (R414, R417) -/

/-- Hardware demand of channel group `k`: a queued request, a busy or suspended LUN, or a staging slot in use. -/
def groupBusy (s : State) (k : Nat) : Bool :=
  (s.media.luns.any fun (d, l) => d / 128 == k && (!l.queue.isEmpty || decide (l.run ≠ .none) || l.suspended)) ||
  (s.media.envQ.any fun r => (Pa.of r.addr).die / 128 == k) ||
  (s.media.slots.any fun (key, _) => key / 512 == k)

/-- Hardware demand vote of a vote domain: 0 to 7 channel groups, 8 DMC, 9 TETHER. A running loop-back holds its domain's (R478). -/
def demandVote (s : State) (v : Nat) : Bool :=
  if s.tst.loops.any fun l => (l.iface == 2 && l.inst / 4 == v && decide (v < 8)) || (l.iface == 3 && v == 8) || (l.iface == 1 && v == 9) then true
  else if v < 8 then groupBusy s v
  else if v = 8 then !s.host.bufs.isEmpty || s.fld F.JNL_DIRTY.COUNT != 0 || s.dmc.waiting
  else s.flag F.TH_CTRL.EN || !s.th.west.unacked.isEmpty || !s.th.east.unacked.isEmpty

/-- Engine votes of a channel group: withdrawn by PWAIT mode 2 while the Sequencer's clocks are stopped. -/
def engineVotes (s : State) (v : Nat) : Nat :=
  if v < 8 then (List.range 4).foldl (fun n j => n + (if s.engineStopped .seq (4 * v + j) 2 then 0 else 2 ^ j)) 0 else 0

/-- Policy vote: bit 0 of PARAM entry 0x0200 + v. -/
def policyVote (s : State) (v : Nat) : Bool := (sgetD 0 (0x200 + v) s.zyn.tab.param).getLsbD 0

/-- PMU_VOTE[v] as it reads. -/
def voteWord (s : State) (v : Nat) : Nat :=
  engineVotes s v + (if demandVote s v then 16 else 0) + s.fld (F.PMU_VOTE.PMU.ix v) * 32 + (if policyVote s v then 64 else 0)
    + s.fld (F.PMU_VOTE.HOST.ix v) * 128

/-- Some vote holds the domain ON (R414). -/
def voted (s : State) (v : Nat) : Bool := voteWord s v != 0

/-- Vote index of a domain: CG0 to CG7, DMC and TETHER are vote domains. -/
def domVote (d : Nat) : Option Nat := if 1 ≤ d && d ≤ 8 then some (d - 1) else if d = 9 then some 8 else if d = 11 then some 9 else none

/-- A request or vote meets self-refresh: the exit is issued once the minimum residency has passed (R357, R358). -/
def State.dmcWake (s : State) : State :=
  match s.dmc.sr with
  | .selfRefresh => { s with dmc := { s.dmc with sr := if s.dmc.residency then .exit else .selfRefresh, waiting := true } }
  | _ => s

/-! ### Performance levels (R405 to R408) -/

/-- VDD_CORE of a level in mV: fused per part, within the level's bounds (R405). -/
def levelCore (n : Nat) : Nat :=
  let (lo, hi) := ([(840, 920), (780, 860), (730, 800), (690, 750), (660, 710), (650, 670)] : List (Nat × Nat)).getD n (650, 920)
  max lo (min hi (Config.vcoreMv n))

/-- VDD_SRAM of a level, within the bounds of R408. -/
def levelSram (s : State) (n : Nat) : Nat := max 750 (min 920 (s.fld (F.PMU_PL_TABLE.VSRAM_MV.ix n)))

/-- Level of the NVMe power state (R409): PL5 from step E3 of an entry on. -/
def psLevel (s : State) : Nat :=
  match s.pwr.trans with
  | some t => if 2 ≤ t.done then 5 else min 5 (s.fld F.PMU_STATUS.PS_CUR)
  | none => if 3 ≤ s.fld F.PMU_STATUS.PS_CUR then 5 else s.fld F.PMU_STATUS.PS_CUR

/-- The level in force: the highest-numbered of the power state's, the manager's cap and the throttle cap (R406, R425). -/
def plWanted (s : State) : Nat := max (psLevel s) (max (min 5 (s.fld F.PMU_PL_CAP.CAP)) (min 3 (s.fld F.TMU_STATUS.LEVEL)))

/-- Request the rails of a higher level: VDD_SRAM, then VDD_CORE (R407). -/
def State.avsRaise (s : State) (n : Nat) : State :=
  let cur := s.fld F.PMU_STATUS.PL_CUR
  let r : AvsReq := { rail := 1, mv := levelSram s n, raise := some n, next := some (0, levelCore n), oldCore := levelCore cur, oldSram := levelSram s cur }
  { (s.emit (.avs (levelCore cur) (levelSram s n))) with pwr := { s.pwr with avs := some r, raiseRetry := false } }

/-- Ask for a level: a raise waits for its supplies, anything else is queued at once (R406, R407). -/
def State.plAsk (s : State) (n : Nat) : State :=
  if n < s.fld F.PMU_STATUS.PL_CUR then (if s.pwr.raiseStop then s else s.avsRaise n) else s.gcRequest .perfLevel n

/-- Where the value of R406 has changed, ask for the new level. -/
def State.plEval (s : State) : State :=
  let n := plWanted s
  if n = s.fld F.PMU_STATUS.PL_TARGET then s else (s.setFld F.PMU_STATUS.PL_TARGET n).plAsk n

/-- B of a performance-level commit: event 29, and a lowering requests VDD_CORE and then VDD_SRAM (R406, R407). -/
def State.plApply (s : State) (n : Nat) : State :=
  let old := s.fld F.PMU_STATUS.PL_CUR
  let s := (s.setFld F.PMU_STATUS.PL_CUR n).zynEventAll 29
  if old < n then
    let r : AvsReq := { rail := 0, mv := levelCore n, next := some (1, levelSram s n), oldCore := levelCore old, oldSram := levelSram s old }
    { (s.emit (.avs (levelCore n) (levelSram s old))) with pwr := { s.pwr with avs := some r } }
  else s

/-- VDone of the request in progress (R407, R408). -/
def State.avsDone (s : State) : State :=
  match s.pwr.avs with
  | none => s
  | some r =>
    let s := if r.rail = 0 then s.setFld F.PMU_AVS_STATUS.VCORE_MV r.mv else s.setFld F.PMU_AVS_STATUS.VSRAM_MV r.mv
    match r.next with
    | some (rail, mv) =>
      let s := { s with pwr := { s.pwr with avs := some { r with rail := rail, mv := mv, next := none } } }
      s.emit (.avs (if rail = 0 then mv else r.mv) (if rail = 1 then mv else r.mv))
    | none =>
      let s := { s with pwr := { s.pwr with avs := none } }
      match r.raise with
      | none => s.clear F.PMU_STATUS.VHIGH
      | some n =>
        let s := s.setFld F.PMU_AVS_STATUS.RAISE_FAILS 0
        if s.fld F.PMU_STATUS.PL_TARGET = n then s.gcRequest .perfLevel n else s.plAsk (s.fld F.PMU_STATUS.PL_TARGET)

/-- 200 µs without VDone (R407, R408): a raise goes back to the old rails and is tried again at the next Assembly, 8 failures stop
raising; a lowering keeps the higher rail. -/
def State.avsTimeout (s : State) : State :=
  match s.pwr.avs with
  | none => s
  | some r =>
    let s := (s.count F.PMU_AVS_STATUS.TIMEOUTS).raise F.PMU_EVT.AVS_TIMEOUT
    match r.raise with
    | none => s.raise F.PMU_STATUS.VHIGH
    | some _ =>
      let n := s.fld F.PMU_AVS_STATUS.RAISE_FAILS + 1
      let s := (s.setFld F.PMU_AVS_STATUS.RAISE_FAILS (min 8 n)).emit (.avs r.oldCore r.oldSram)
      let s := { s with pwr := { s.pwr with avs := none, raiseRetry := decide (n < 8), raiseStop := s.pwr.raiseStop || decide (8 ≤ n) } }
      s.when (n == 8) (·.entry 0x17 sevFault)

/-- What a Period boundary tries again: a lowering not yet acknowledged, and at an Assembly a raise (R407). -/
def State.avsBoundary (s : State) : State :=
  let s := match s.pwr.avs with
    | some r => s.when (s.flag F.PMU_STATUS.VHIGH && r.raise.isNone) (·.emit (.avs (if r.rail = 0 then r.mv else r.oldCore) (if r.rail = 1 then r.mv else r.oldSram)))
    | none => s
  s.when (s.pwr.raiseRetry && s.ptype == 2) fun s => ({ s with pwr := { s.pwr with raiseRetry := false } }).plAsk (s.fld F.PMU_STATUS.PL_TARGET)

/-! ### Domains (R404, R416 to R420) -/

/-- Bases of the register blocks of a domain. -/
def domBlocks (d : Nat) : List Nat :=
  if d = 0 then [0x100000, 0x300000, 0x400000, 0x500000, 0x600000, 0x700000, 0x800000, 0x900000, 0xC00000, 0xD00000, 0xE00000, 0x1300000]
  else if 1 ≤ d && d ≤ 8 then (List.range 4).map fun j => 0xA00000 + 0x10000 * (4 * (d - 1) + j)
  else match d with | 9 => [0xF00000] | 10 => [0x200000] | 11 => [0x1400000] | 12 => [0x1000000] | _ => []

/-- Retention banks of a domain (R404); channel groups share bank 7, 8 KiB each. -/
def domBanks (d : Nat) : List Nat := match d with | 0 => [0, 1, 2] | 9 => [3] | 10 => [4] | 11 => [5] | 12 => [6] | 13 => [] | _ => [7]

/-- Key of a bank's image: the bank, and the group within bank 7. -/
def bankKey (d b : Nat) : Nat := if b = 7 then 70 + d else b

/-- Registers of a block, with their offsets. -/
def blockOffsets (base : Nat) : List (Nat × RegDef) :=
  (blockRegs base).1.flatMap fun d => (List.range d.count).map fun i => (base + d.off + d.stride * i, d)

/-- Save the retention list of a domain (R418): the sequence number of each bank rises first. -/
def State.saveDomain (s : State) (d : Nat) : State :=
  s.each (domBanks d) fun s b =>
    let n := (s.reg (R.PMU_RET_SEQ + 4 * b)).toNat + 1
    let s := s.setReg (R.PMU_RET_SEQ + 4 * b) (BitVec.ofNat 32 n)
    let regs := if b = (domBanks d).headD 0 then
        (domBlocks d).flatMap fun base => (blockOffsets base).filterMap fun (o, _) => (sget o s.regs).map fun v => (o, v)
      else []
    { s with pwr := { s.pwr with banks := sput (bankKey d b) { seq := n % 2 ^ 32, regs := regs, ok := true } s.pwr.banks } }

/-- Channels of a channel group. -/
def groupChans (d : Nat) : List Nat := (List.range 4).map fun j => 4 * (d - 1) + j

/-- NCE# driven high and NWP# low on the channels of a group (R416 step 4, R421). -/
def State.deselect (s : State) (d : Nat) : State :=
  s.each (groupChans d) fun s n => (s.emit (.pin ("NCE" ++ toString n ++ "#") true)).emit (.pin ("NWP" ++ toString n ++ "#") false)

/-- Participants of a domain: engines that RESTORE is dispatched to (R419). -/
def domParts (d : Nat) : List Nat :=
  if d = 0 then List.range 24 ++ (List.range 4).map (56 + ·)
  else if 1 ≤ d && d ≤ 8 then (List.range 4).map fun j => 24 + 4 * (d - 1) + j else []

/-- What a domain loses when its switches open: the scratch of its engines, a channel group's staging; the map cache is invalidated on
restore, the Seating Chart array waits for its shadow (R76, R215, R418). A channel group is deselected before its clamps are set; its outputs
then float (R421). -/
def State.gateDomain (s : State) (d st : Nat) : State :=
  let s := s.setDom d st
  let parts := domParts d
  let s := { s with zyn := { s.zyn with scratch := s.zyn.scratch.filter fun (x : Nat × Byte) => !parts.contains (x.1 / 65536) } }
  if d = 0 then
    let t := { s with map := { s.map with cache := [], zstamps := [] } }
    (t.setFld F.SC_STATUS.OFFLINE 0xFFFF).raise F.SC_STATUS.PREFILTER
  else if 1 ≤ d && d ≤ 8 then
    let s := s.deselect d
    { s with media := { s.media with slots := s.media.slots.filter fun ((k, _) : Nat × Slot) => k / 512 != d - 1 } }
  else if d = 9 then { s with dmc := { s.dmc with sr := .selfRefresh } }
  else s

/-- Status registers that report what has been counted or captured and nothing the domain needs to resume: they are ro and so off the
retention list (R418). DEDUCED: the other ro registers show internal state the domain resumes with, and the image holds it (the spec lists
neither). -/
def statRegs : List Nat := [R.TT_GC_STATUS, R.TT_GC_FAIL_LO, R.TT_GC_FAIL_HI, R.TT_BALLAST_CNT, R.ZYN_TRAP_CNT_CMD, R.ZYN_TRAP_CNT_MAP,
  R.ZYN_TRAP_CNT_SEQ, R.ZYN_TRAP_CNT_POL, R.ZYN_FAULT_LAST0, R.ZYN_FAULT_LAST1, R.ZYN_FAULT_ADDR_LO, R.ZYN_FAULT_ADDR_HI, R.CMD_ABORT_CNT,
  R.CMD_CONFLICT_CNT, R.MAP_SPEC_ISSUED, R.MAP_SPEC_SQUASHED, R.MAP_RETRY_ISSUED, R.MAP_RETRY_USED, R.MAP_CACHE_HIT, R.MAP_CACHE_MISS,
  R.JNL_CP_PAGES, R.JNL_RECOV_MS, R.DMC_FAILDEV, R.DMC_UE_CNT, R.DMC_CAP_ADDR_LO, R.DMC_CAP_ADDR_HI, R.ECC_LOG_HEAD, R.ECC_LOG_INFO,
  R.ECC_LOG_ADDR_LO, R.ECC_LOG_ADDR_HI, R.ECC_LOG_TIME]

/-- An offset of such a register, members of arrays among them: the SEQ counters, ECC_CE_CNT, ECC_UE_CNT, ECC_POISON_CNT, DMC_RP_CNT. -/
def isStat (o : Nat) : Bool :=
  statRegs.contains o || (0xA00000 ≤ o && o < 0xC00000 && 0x20 ≤ o % 65536 && o % 65536 < 0x30) ||
  (0xE00040 ≤ o && o < 0xE000FC) || (0xF00084 ≤ o && o < 0xF00094)

/-- Registers of a restored block (R418 to R420): the reset values, over which an accepted image loads the registers it holds, those of the
codes ro (see `isStat`), rc and w1c apart. -/
def State.restoreBlock (s : State) (base : Nat) (image : Option (Sparse Word)) : State :=
  s.each (blockOffsets base) fun s (o, d) =>
    let r := regReset s.variant o
    if d.cold then s
    else match image with
      | some regs =>
        let lost := if isStat o then BitVec.allOnes 32 else BitVec.ofNat 32 (d.w1c ||| d.rc)
        s.setReg o ((sgetD r o regs &&& ~~~lost) ||| (r &&& lost))
      | none => s.setReg o r

/-- Event 28, power wake (R86), in the contexts of these engines. -/
def State.powerWake (s : State) (parts : List Nat) : State :=
  { s with zyn := { s.zyn with ctxs := s.zyn.ctxs.map fun ((k, c) : Nat × Ctx) => (k, if parts.contains (CtxId.ofKey k).part then c.event 28 else c) } }

/-- A channel group no channel of which is populated: it stays OFF and nothing wakes it (R256, R491). -/
def groupAbsent (s : State) (d : Nat) : Bool :=
  decide (1 ≤ d) && decide (d ≤ 8) && !(s.media.dies.any fun x => x / 128 == d - 1)

/-- Restore a gated domain (R419, R420). `bad`: the banks whose image fails its CRC. A domain that was OFF has no image and takes its
reset values. A tracker the DMC held in logic is reset (R355). -/
def State.restoreDomain (s : State) (d : Nat) (bad : List Nat) : State :=
  let st := s.dom d
  if st ≤ 1 then (if st = 1 then s.setDom d 0 else s)
  else if groupAbsent s d then s
  else
    let banks := domBanks d
    let fails := if st = 3 then [] else banks.filter fun b => bad.contains b ||
      (match sget (bankKey d b) s.pwr.banks with | some im => !im.ok || im.seq != (s.reg (R.PMU_RET_SEQ + 4 * b)).toNat | none => true)
    let s := s.setDom d 0
    let image := if st = 3 || !fails.isEmpty then none else (sget (bankKey d (banks.headD 0)) s.pwr.banks).map (·.regs)
    let s := s.each (domBlocks d) fun s b => s.restoreBlock b image
    let s := if d = 0 then
        let s := (s.setFld F.SC_STATUS.OFFLINE 0xFFFF).raise F.SC_STATUS.PREFILTER
        s.when ((sources s).isEmpty) (·.ttState ttFreerun)
      else s
    let s := if 1 ≤ d && d ≤ 8 then
        let s := s.deselect d
        { s with media := { s.media with nwpWait := s.media.nwpWait ++ s.media.dies.filter fun x => x / 128 == d - 1 && !s.media.nwpWait.contains x } }
      else s
    let s := s.each fails fun s b =>
      ((s.setFld F.PMU_WAKE_STATUS.BANK_FAIL (Nat.lor (s.fld F.PMU_WAKE_STATUS.BANK_FAIL) (2 ^ b))).raise F.PMU_EVT.RET_FAIL).entry 0x25 sevCritical
    let s := if fails.isEmpty then s
      else ({ s with pwr := { s.pwr with coldWait := if s.pwr.coldWait.contains d then s.pwr.coldWait else d :: s.pwr.coldWait } }).setFld
        F.PMU_WAKE_STATUS.COLD (Nat.lor (s.fld F.PMU_WAKE_STATUS.COLD) (2 ^ d))
    let s := if d = 9 then
        ({ s.dmcWake with dmc := { s.dmcWake.dmc with trackerUntil := some (s.ttu.elapsed + 32000000) } }).raise F.DMC_STATUS.TRACKER_RESET
      else s
    let s := s.powerWake (domParts d)
    { s with zyn := { s.zyn with restore := s.zyn.restore ++ (domParts d).filter fun p => !s.zyn.restore.contains p } }

/-! ### Power states (R409 to R412) -/

/-- I/O is not served: a non-operational state holds, or an exit from one has not got as far as serving I/O (R410, R412). -/
def ioAsleep (s : State) : Bool :=
  match s.pwr.trans with
  | some t => decide (3 ≤ t.done)
  | none => decide (3 ≤ s.fld F.PMU_STATUS.PS_CUR)

/-- The Policy Cores and the rest of CORE run. -/
def coreOn (s : State) : Bool := s.dom 0 == 0

/-- The transition ends in a state (R410): PMU_STATUS and PMU_EVT report it. -/
def State.psReached (s : State) (p : Nat) : State :=
  let s := (((s.setFld F.PMU_STATUS.PS_CUR p).setFld F.PMU_STATUS.TRANS 0).raise F.PMU_EVT.PS_DONE)
  { s with pwr := { s.pwr with trans := none, ps4Since := s.ttu.elapsed, lastOp := if p ≤ 2 then p else s.pwr.lastOp } }.plEval

/-- Record a target (R411): a request that equals the state reached changes nothing; between operational states the level alone
moves; else a transition starts, or the one running meets the target at its next abort point. -/
def State.psTarget (s : State) (p : Nat) : State :=
  let s := s.setFld F.PMU_STATUS.PS_TARGET p
  match s.pwr.trans with
  | some _ => s
  | none =>
    let cur := s.fld F.PMU_STATUS.PS_CUR
    if p = cur then s
    else if p ≤ 2 && cur ≤ 2 then s.psReached p
    else if p ≤ cur then
      ({ s with pwr := { s.pwr with trans := some { target := p, done := if cur = 4 then 6 else 4, entering := false } } }).setFld F.PMU_STATUS.TRANS 2
    else
      let t : PsTrans := { target := p, done := if cur = 3 then 4 else 0, entering := true }
      let s := s.stEnd 8
      ({ s with pwr := { s.pwr with trans := some t, lastOp := if cur ≤ 2 then cur else s.pwr.lastOp } }).setFld F.PMU_STATUS.TRANS 1

/-- Device power state: the lower-numbered of those of PF0 and PF1 (R409). -/
def devicePs (s : State) : Nat := if s.x4x4 then min s.pwr.ps0 s.pwr.ps1 else s.pwr.ps0

/-- An I/O doorbell wakes the device to the last operational state (R412). -/
def State.wakeIo (s : State) : State :=
  if decide (s.fld F.PMU_STATUS.PS_CUR ≤ 2) && s.pwr.trans.isNone then s
  else
    let s := { s with pwr := { s.pwr with adminWake := false, ps0 := min s.pwr.ps0 s.pwr.lastOp, ps1 := min s.pwr.ps1 s.pwr.lastOp } }
    (s.psTarget s.pwr.lastOp).zynEventAll 28

/-- Carry out step E5 or E6, or undo it (R410): votes and domain states. -/
def State.psVotes (s : State) (groups dmc : Bool) : State :=
  let s := s.each (List.range 8) fun s v => s.setBit (F.PMU_VOTE.PMU.ix v) groups
  s.setBit (F.PMU_VOTE.PMU.ix 8) dmc

/-- E6: CRYPTO and HIU to S1, CORE to S2 with its retention list saved. -/
def State.coreDown (s : State) : State := (((s.setDom 12 1).setDom 10 1).saveDomain 0).gateDomain 0 2
/-- E6 undone: CORE is restored. -/
def State.coreUp (s : State) : State := ((s.restoreDomain 0 []).setDom 10 0).setDom 12 0

/-- PS4 takes the PS3 configuration for an admin command, an MCTP message, PFAIL#, THERMTRIP# or the Warning threshold (R412). -/
def State.wakeAdmin (s : State) : State :=
  if s.fld F.PMU_STATUS.PS_CUR = 4 && !s.pwr.adminWake && s.pwr.trans.isNone then
    let s := ((s.coreUp).psVotes false true).dmcWake
    { s with pwr := { s.pwr with adminWake := true } }
  else s

/-- Back to the PS4 configuration. -/
def State.sleepAdmin (s : State) : State := ({ s with pwr := { s.pwr with adminWake := false } }.psVotes false false).coreDown

/-- At an abort point the transition meets the latest target (R411). -/
def State.psRedirect (s : State) : State :=
  match s.pwr.trans with
  | none => s
  | some t =>
    let p := s.fld F.PMU_STATUS.PS_TARGET
    if p = t.target then s
    else
      let steps := match p with | 3 => 4 | 4 => 6 | _ => 0
      let t := { t with target := p, entering := decide (t.done < steps) }
      (({ s with pwr := { s.pwr with trans := some t } }).setFld F.PMU_STATUS.TRANS 3).raise F.PMU_EVT.REDIRECT

/-- No I/O command holds a context (E1). -/
def noIo (s : State) : Bool := !s.host.cmds.any fun (_, x) => !x.admin

/-- The pool is on media and the journal sealed (E2). -/
def poolClean (s : State) : Bool := s.host.bufs.isEmpty && s.fld F.JNL_DIRTY.COUNT == 0

/-- One step of an entry or an exit, where its condition holds (R410). -/
def State.psStep (s : State) : State :=
  match s.pwr.trans with
  | none => s
  | some t =>
    let last := match t.target with | 3 => 4 | 4 => 6 | _ => 0
    let put (s : State) (k : Nat) : State := { s with pwr := { s.pwr with trans := some { t with done := k } } }
    let after (s : State) (k : Nat) : State :=
      let s := (put s k).psRedirect
      match s.pwr.trans with
      | some u => if u.target = t.target && k = last then s.psReached t.target else s
      | none => s
    if t.entering then
      match t.done with
      | 0 => if noIo s then after s 1 else s.psRedirect
      | 1 => if poolClean s then (after s.seal 2).plEval else s.psRedirect
      | 2 => if s.fld F.PMU_STATUS.PL_CUR = 5 then after s 3 else s.psRedirect
      | 3 => after (s.psVotes false true) 4
      | 4 => after (s.psVotes false false) 5
      | 5 => after s.coreDown 6
      | _ => s
    else
      match t.done with
      | 6 => after s.coreUp 5
      | 5 => after ((s.psVotes false true).dmcWake) 4
      | 4 => if last = 4 then s.psReached t.target
             else
               let s := s.psVotes true true
               let s := s.each ((List.range 8).map (· + 1)) fun s d => s.restoreDomain d []
               let s := put s 3
               let s := s.psRedirect
               (match s.pwr.trans with | some u => if u.entering then s else s.psReached u.target | none => s)
      | _ => s.psReached t.target

end Sys2Proof.Machine
end

