-- ==== Sys2Proof/Machine/OpsSec.lean ====
section
/-! DEFINITION. Keys, lifecycle and the boot ledger (R368 to R403). -/
namespace Sys2Proof.Machine

/-! ### State of the module -/

/-- Lifecycle fuse values (R384). -/
def lcBlank : Nat := 0
def lcProvisioned : Nat := 1
def lcMission : Nat := 3
def lcRma : Nat := 7
def lcDecommissioned : Nat := 0x0F

def State.lifecycle (s : State) : Nat := s.sec.fuses.lifecycle.toNat
/-- The Crypto Module is in its error state (R388). -/
def State.secHalted (s : State) : Bool := s.fld F.SEC_STATUS.STATE == 2
def State.setFuses (s : State) (f : Fuses) : State := { s with sec := { s.sec with fuses := f } }
def State.setBlocks (s : State) (b : KeyBlocks) : State := { s with sec := { s.sec with blocks := b } }

/-- A change of a wrapped SSP writes a new generation to both key blocks and then the root pointers (R373). The blocks are taken at
the first generation, on dies of different channels, with purpose 3. -/
def State.keyGen (s : State) (b : KeyBlocks) : State :=
  let s := s.setBlocks { b with gen := s.sec.blocks.gen + 1 }
  if !s.sec.blocks.blks.isEmpty then s
  else
    let take (acc : List Nat × State) (d : Nat) : List Nat × State :=
      let (l, s) := acc
      if 2 ≤ l.length || l.any (fun k => k / 2 ^ 20 == d / 32) then (l, s)
      else match s.allocBlock d 3 true with
        | (some blk, s) => (l ++ [d * 2 ^ 15 + blk], s)
        | (none, s) => (l, s)
    let (l, s) := (s.media.dies.filter s.inService).foldl take ([], s)
    s.setBlocks { s.sec.blocks with blks := l }

/-! ### Slots (R374, R378) -/

def State.slotKey (s : State) (k : Nat) : Option XtsKey := sget k s.sec.slots
def State.setSlot (s : State) (k : Nat) (v : XtsKey) : State := { s with sec := { s.sec with slots := sput k v s.sec.slots } }
/-- Zeroize a slot (R386). -/
def State.clearSlot (s : State) (k : Nat) : State := { s with sec := { s.sec with slots := sdel k s.sec.slots } }

/-- A fresh media key of the DRBG, its halves unequal (R371, R387): a free value. -/
def State.freshKey (s : State) : XtsKey × State :=
  (Config.random s.freeCtr, { s with freeCtr := s.freeCtr + 1, sec := { s.sec with drbg := (s.sec.drbg + 1) % 2 ^ 20 } })

/-- Slots that hold the MEK of a namespace or range, loaded or not. -/
def State.mekSlots (s : State) : List Nat := s.sec.blocks.meks.map (·.1)

/-- Binding ranges of a function: first tag, count, first slot (R381). -/
def State.bindings (s : State) (f : Nat) : List (Nat × Nat × Nat) :=
  ([2, 3].map fun w => let n := s.tenWord f w; (n % 65536, n / 2 ^ 16 % 65536, n / 2 ^ 32 % 65536)).filter fun (_, n, _) => n != 0

/-- Slot of a key tag of a function; tag 0 is never bound (R381). -/
def State.tagSlot (s : State) (f tag : Nat) : Option Nat :=
  if tag = 0 then none
  else (s.bindings f).findSome? fun (a, n, k) => if a ≤ tag && tag < a + n then some (k + tag - a) else none

/-- Functions with a tenant record. -/
def State.tenants (s : State) : List Nat :=
  (s.zyn.tab.tenant.filter fun (k, v) => k % 8 == 0 && v.toNat % 4 != 0).map fun (k, _) => k / 8

/-- Slots bound to a function. -/
def State.boundSlots (s : State) (f : Nat) : List Nat := (s.bindings f).flatMap fun (_, n, k) => (List.range n).map (k + ·)

/-- The highest slot neither a MEK nor a binding takes: device slots are assigned from 65 535 downward (R374). -/
def State.freeMekSlot (s : State) : Option Nat :=
  let meks := s.mekSlots
  let ranges := s.tenants.flatMap s.bindings
  ((List.range 65536).map (65535 - ·)).find? fun k => !meks.contains k && !ranges.any fun (_, n, a) => decide (a ≤ k) && decide (k < a + n)

/-- Generate a MEK in a slot and load it (R372, R373). -/
def State.newMek (s : State) (slot : Nat) (load : Bool := true) : State :=
  let (k, s) := s.freshKey
  let s := s.keyGen { s.sec.blocks with meks := sput slot k s.sec.blocks.meks }
  if load then s.setSlot slot k else s
/-- Zeroize a MEK and its slot (R386). -/
def State.dropMek (s : State) (slot : Nat) : State :=
  (s.keyGen { s.sec.blocks with meks := sdel slot s.sec.blocks.meks }).clearSlot slot

/-- Every slot of a KPIO key: those that hold no MEK. -/
def State.kpioSlots (s : State) : List Nat := (s.sec.slots.filter fun (k, _) => !(s.mekSlots.contains k)).map (·.1)

/-- Regenerate every MEK, and clear every KPIO slot and tag KEK (R385, R386). A range whose authority has not authenticated stays
unloaded (R377). -/
def State.renewMeks (s : State) : State :=
  let s := s.each s.kpioSlots (·.clearSlot ·)
  let s := { s with sec := { s.sec with keks := [] } }
  s.each s.mekSlots fun s k => s.newMek k (s.slotKey k).isSome

/-- Zeroize All's actions (R385, R386): every slot, tag KEK, MEK and verifier and the DRBG state; `epoch`: the KHRK epoch advances. -/
def State.zeroizeAll (s : State) (epoch : Bool) : State :=
  let s := { s with sec := { s.sec with slots := [], keks := [], drbg := 0, opalAuth := [], session := none } }
  let s := s.keyGen { s.sec.blocks with meks := [], co := none, opal := [] }
  s.when epoch fun s => s.setFuses { s.sec.fuses with epoch := min 32 (s.sec.fuses.epoch + 1) }

/-! ### Opal ranges (R377) -/

/-- Numbered ranges that name a namespace; the ranges are keyed by range number, 0 Global. -/
def State.opalRanges (s : State) (ns : Nat) : List (Nat × OpalRange) := s.sec.blocks.ranges.filter fun (k, r) => k != 0 && r.nsid == ns
/-- Range that holds a 4 KiB unit of a PF-owned namespace: a numbered one, else Global, whose key is the namespace's default slot. -/
def State.opalRange (s : State) (ns unit : Nat) : Option (Nat × OpalRange) :=
  match (s.opalRanges ns).find? fun (_, r) => decide (r.start ≤ unit) && decide (unit < r.start + r.len) with
  | some x => some x
  | none => match sget 0 s.sec.blocks.ranges with
    | some g => some (0, { g with slot := (s.nsKeySlot ns).getD 65536 })
    | none => none

/-! ### Settling keys (R375) -/

/-- The namespace is owned by a PF: attached to PF0 or PF1 and to no VF (R377). -/
def State.pfOwned (s : State) (ns : Nat) : Bool :=
  let l := s.host.funcs.filter fun (_, g) => g.attached.contains ns
  !l.isEmpty && l.all fun (f, _) => s.isPf f

/-- 4 KiB unit of a logical block. -/
def State.unitOf (s : State) (ns lba : Nat) : Nat := if s.nsLbaf ns = 2 then lba / 8 else lba

/-- Merge equal neighbours of a list of slots into runs. -/
def runs : List Nat → List (Nat × Nat)
  | [] => []
  | k :: t => match runs t with
    | (n, j) :: r => if j = k then (n + 1, k) :: r else (1, k) :: (n, j) :: r
    | [] => [(1, k)]

/-- Key slots of a command's blocks, or the status that ends it (R375, R377): `base`: the first block the command itself names. -/
def State.settleKeys (s : State) (x : Cmd) : Except (Nat × Nat) (List (Nat × Nat)) :=
  let ns := x.sqe.nsid.toNat
  let tag := x.sqe.keyTag.toNat
  let write := x.sqe.writeType
  let opal := s.sec.blocks.lockingActive && s.pfOwned ns
  let n := match x.sqe.opcode with | 0x19 => x.sqe.buffers | _ => x.sqe.nlb
  let units := (List.range n).map fun o => s.opalRange ns (s.unitOf ns (x.sqe.slba + o))
  let lrange := if x.matched then x.scr.toNat / 2 ^ 25 % 64 else 0
  if x.deny then .error (2, 0x86)
  else if tag ≠ 0 && opal && !(s.opalRanges ns).isEmpty then .error (0, 0x02)
  else if opal && units.any (fun u => match u with | some (_, r) => if write then r.writeLock else r.readLock | none => false) then .error (2, 0x86)
  else if opal && lrange ≠ 0 && units.any (fun u => match u with | some (k, _) => k != lrange | none => true) then .error (2, 0x86)
  else
    let one : Option (Option Nat) :=
      if tag ≠ 0 then some (s.tagSlot x.func tag) else match x.keySlot with | some k => some (some k) | none => none
    let all : List (Option Nat) := match one with
      | some k => List.replicate n k
      | none => if opal then units.map fun u => u.map (·.2.slot) else List.replicate n (s.nsKeySlot ns)
    let bad (k : Option Nat) : Bool := match k with
      | none => true
      | some k => (s.slotKey k).isNone || s.sec.clearing.any fun (j, _) => j == k
    if all.any bad then .error (2, 0x86) else .ok (runs (all.filterMap id))

/-! ### Ranges and MEKs after a reset (R374, R377) -/

/-- Opal ranges at a power cycle or warm reset (R377): ranges with LockOnReset lock, and every range waits for its authority. -/
def State.lockRanges (s : State) : State :=
  s.setBlocks { s.sec.blocks with ranges := s.sec.blocks.ranges.map fun (x : Nat × OpalRange) =>
    (x.1, { x.2 with loaded := false, readLock := x.2.readLock || x.2.lockOnReset, writeLock := x.2.writeLock || x.2.lockOnReset }) }

/-- Key slots of the locking ranges of an activated Locking SP: the numbered ones', and the default slots of PF-owned namespaces, which
are Global's (R377). -/
def lockedSlots (s : State) : List Nat :=
  if !s.sec.blocks.lockingActive then []
  else (s.sec.blocks.ranges.filter fun (x : Nat × OpalRange) => x.1 != 0).map (·.2.slot) ++ (s.nsids.filter s.pfOwned).filterMap s.nsKeySlot

/-- MEKs loaded at start-up: all but those of locking ranges of an activated Locking SP (R374, R377). -/
def State.loadMeks (s : State) : State :=
  if !s.sec.keysReady || s.secHalted then s
  else
    let held := lockedSlots s
    s.each s.sec.blocks.meks fun s (k, v) => if held.contains k then s else s.setSlot k v

/-! ### Boot ledger (R394 to R403) -/

/-- SHA-384 of a record's bytes, its signature a function of the rest (R395). -/
def LedgerRec.hash (r : LedgerRec) : Digest :=
  Config.digest ([r.kind, r.cause, r.no, r.prev.toNat, r.image.toNat] ++ match r.sum with
    | some (n, d) => [n, d.toNat]
    | none => [r.svn, r.bundle.toNat, r.lifecycle, r.slot, r.romRev, r.cycles, r.seconds, r.bell, r.flags.toNat, r.aliasId.toNat])

def ledgerCount (s : State) : Nat := s.sec.ledger.head - s.sec.ledger.tail
/-- The ring is full (R403). -/
def ledgerFull (s : State) : Bool := decide (15360 ≤ ledgerCount s)
def State.ledgerRec (s : State) (n : Nat) : Option LedgerRec :=
  if s.sec.ledger.tail ≤ n && n < s.sec.ledger.head then sget (n % 15360) s.sec.ledger.ring else none
def State.setLedger (s : State) (l : Ledger) : State := { s with sec := { s.sec with ledger := l } }

/-- PREV_HASH of the record numbered `n` (R395). -/
def State.prevHash (s : State) (n : Nat) : Digest :=
  if n = 0 then 0 else match sget ((n - 1) % 15360) s.sec.ledger.ring with | some r => r.hash | none => 0

/-- Bring LEDGER_FULL, RESERVE and their event up to date (R400, R403). -/
def State.ledgerEval (s : State) : State :=
  let full := ledgerFull s
  let s := s.when (full && !s.flag F.SEC_STATUS.LEDGER_FULL) (·.raise F.SEC_EVT.FULL)
  let s := s.setBit F.SEC_STATUS.LEDGER_FULL full
  s.when (decide (ledgerCount s < 15104)) (·.clear F.SEC_STATUS.RESERVE)

/-- Put a record in the ring at HEAD (R395): the first one in the reserve is reported (R400). -/
def State.ledgerPut (s : State) (r : LedgerRec) : State :=
  let l := s.sec.ledger
  let first := decide (15104 ≤ ledgerCount s) && !s.flag F.SEC_STATUS.RESERVE
  let s := s.setLedger { l with ring := sput (l.head % 15360) r l.ring, head := l.head + 1, cpDue := if r.no % 256 = 255 then some r.no else l.cpDue }
  let s := s.inject 13 (l.head % 15360 * 256)
  let s := s.when first fun s => (((s.raise F.SEC_STATUS.RESERVE).raise F.SEC_EVT.RESERVE).entry 0x27 sevCritical).vendorEvent 0xD7
  s.ledgerEval

/-- A record of the next number (R395). -/
def State.ledgerMake (s : State) (kind cause : Nat) (image : Digest) (svn : Nat) (bundle : Word) (slot : Nat) : LedgerRec :=
  let l := s.sec.ledger
  { kind := kind, cause := cause, no := l.head, prev := s.prevHash l.head, image := image, svn := svn, bundle := bundle
    lifecycle := s.lifecycle, slot := slot, romRev := s.fld F.BOOT_ROM_REV.ROM_REV, cycles := l.cycles, seconds := l.seconds
    bell := if s.fld F.TT_STATUS.STATE = ttLocked then s.now else 0
    flags := BitVec.ofNat 32 ((if l.head % 256 = 255 then 1 else 0) + (if 15104 ≤ ledgerCount s then 2 else 0))
    aliasId := s.sec.aliasId }

/-- The record of the running image. -/
def State.ledgerOwn (s : State) (kind cause : Nat) (svn : Nat) : LedgerRec :=
  s.ledgerMake kind cause s.sec.image svn (s.reg R.ZYN_BUNDLE_ID) (if s.boot.slot then 1 else 0)

/-- Records are taken in this lifecycle state (R385, R435). -/
def ledgerOpen (s : State) : Bool := s.lifecycle != lcBlank && s.lifecycle != lcDecommissioned

/-- Write a boot record; a full ring takes it as the overflow record, and MISSED counts one lost (R397, R403). -/
def State.ledgerBoot (s : State) (cause : Nat) : State :=
  let r := s.ledgerOwn 1 cause (s.fld F.SEC_SVN.RUNNING)
  if ledgerFull s then
    let l := s.sec.ledger
    let missed := if l.ovf.isSome then l.missed + 1 else 0
    (s.setLedger { l with ovf := some { r with flags := r.flags ||| BitVec.ofNat 32 (missed % 65536 * 65536) }, missed := missed }).setFld F.BOOT_STATUS.CODE 0x50
  else s.ledgerPut r

/-- Compaction of TAIL to TAIL + 4 095 into a summary record (R401, R402). -/
def State.compact (s : State) : State :=
  let l := s.sec.ledger
  if l.ack < l.tail + 4095 || ledgerCount s < 4096 || !ledgerOpen s || s.secHalted then s
  else
    let hashes := (List.range 4096).map fun k => (match sget ((l.tail + k) % 15360) l.ring with | some r => r.hash.toNat | none => 0)
    let prev := match l.ovf with | some o => o.hash | none => s.prevHash l.head
    let last := match sget ((l.tail + 4095) % 15360) l.ring with | some r => r.hash | none => 0
    let no := l.head + (if l.ovf.isSome then 1 else 0)
    let flags := (if no % 256 = 255 then 1 else 0) + (if 15104 ≤ ledgerCount s then 2 else 0)
    let sum : LedgerRec :=
      { s.ledgerMake 4 0 last 0 0 0 with no := no, prev := prev, flags := BitVec.ofNat 32 flags, sum := some (l.tail, Config.digest hashes) }
    let s := s.setLedger { l with staging := some sum, tail := l.tail + 4096 }
    let s := match l.ovf with
      | some o => (s.ledgerPut o).setLedger { (s.ledgerPut o).sec.ledger with ovf := none, missed := 0 }
      | none => s
    let s := s.ledgerPut sum
    (s.setLedger { s.sec.ledger with staging := none }).ledgerEval.raise F.SEC_EVT.COMPACTED

/-- Complete a compaction that a staging record shows unfinished (R402). -/
def State.compactResume (s : State) : State :=
  match s.sec.ledger.staging with
  | none => s
  | some sum =>
    let s := match s.sec.ledger.ovf with
      | some o => (s.ledgerPut o).setLedger { (s.ledgerPut o).sec.ledger with ovf := none, missed := 0 }
      | none => s
    let s := if s.sec.ledger.head ≤ sum.no then s.ledgerPut sum else s
    (s.setLedger { s.sec.ledger with staging := none }).ledgerEval

/-- A ledger checkpoint: it covers the record it is due for, in the next slot (R396). Requests that wait complete (R399). Without
signatures none is written (R388, R385). -/
def State.ledgerCheckpoint (s : State) : State :=
  let l := s.sec.ledger
  match l.cpDue with
  | none => s
  | some n =>
    if s.secHalted || !s.sec.keysReady then s
    else
      let slot := if l.cps.isEmpty then 0 else (l.cpSlot + 1) % 30
      let hash := match sget (n % 15360) l.ring with | some r => r.hash | none => 0
      let s := s.setLedger { l with cps := sput slot (n, hash, l.seconds) l.cps, cpSlot := slot, cpDue := none, cpReq := [] }
      s.each l.cpReq fun s (f, cid) => s.ok f cid

/-- I/O that reads or writes data is refused by the module: error state, lifecycle, or a full ledger under policy 0 (R385, R388,
R403). -/
def State.ioRefused (s : State) : Option (Nat × Nat) :=
  if s.secHalted || !(s.lifecycle == lcProvisioned || s.lifecycle == lcMission) then some (7, 0x90)
  else if ledgerFull s && !s.sec.ledger.policy then some (7, 0x91)
  else none

end Sys2Proof.Machine
end

