-- ==== Sys2Proof/Machine/Xfer.lean ====
section
/-! DEFINITION. Ends of transfers, grants of locks, and waiting completions (R133, R134, R162, R166, R224). -/
namespace Sys2Proof.Machine

/-- Logical blocks of the codeword at an LBA that a transfer from host offset `o` moves to the host: those of the command from there on
(R133, R225). -/
def hostBlocks (s : State) (x : Cmd) (o lba : Nat) (b : Block) : List Block :=
  if unitBlocks s x = 1 then [b]
  else (List.range 8).filterMap fun i =>
    if decide (x.first + o ≤ lba + i) && decide (lba + i < x.first + x.sqe.nlb) then some ((sector b i).setWidth 32768) else none

/-- The codeword at an LBA of a transfer from host offset `o`, from the host's blocks, with the sectors it holds (R133, R225, R231). -/
def hostUnit (s : State) (x : Cmd) (o lba j : Nat) (data : List Block) : Block × BitVec 8 :=
  if unitBlocks s x = 1 then (data.getD j 0, 0xFF)
  else (List.range 8).foldl (fun (b, m) i =>
    if decide (x.first + o ≤ lba + i) && decide (lba + i < x.first + x.sqe.nlb) then
      (setSector b i ((data.getD (lba + i - x.first - o) 0).setWidth 4096), m ||| (1#8 <<< i)) else (b, m)) (0, 0)

/-- Contexts of a command that wait before a PAU transfer issue again (R224). -/
def State.pauWake (s : State) (c : Nat) : State :=
  { s with zyn := { s.zyn with ctxs := s.zyn.ctxs.map fun (k, x) => (k,
      if x.cmd == some c && decide (x.st = .blocked .pau) then { x with st := .ready } else x) } }

/-- Logical blocks scanned by the command's engine (R223, R224): after the command's last one the output goes to the host and the engine is
free. The result is the count of matching records. -/
def State.pauFeed (s : State) (c : Nat) (plain : List Block) (first : Nat) : Nat × State :=
  match s.cmd c with
  | none => (0, s)
  | some x =>
    let stream := x.pauBytes ++ plain.flatMap fun b => (blockBytes b).take (4096 / unitBlocks s x)
    let next := first + plain.length
    let x := { x with pau := some (0, next), pauBytes := stream }
    if next < x.sqe.nlb then (0, (s.setCmd c x).pauWake c)
    else
      let (out, n, dw1) := pauScan (x.filter.getD []) stream (x.sqe.cdw13.toNat % 4) (x.sqe.cdw15.toNat % 2 ^ 22)
      let s := s.setCmd c { x with pauBytes := [], pauOut := out, pauMatches := dw1 }
      (dw1 % 2 ^ 31, ((s.emit (.bytes x.func x.sqe.cid (out.take n))).pauRelease c).pauWake c)

/-- Free a staging source slot as its codeword leaves, and serve what waited for it (R133, R516). -/
def State.leaveSlots (s : State) (chan slot n : Nat) : State :=
  (s.each (List.range n) fun s k => s.freeSlot (stKey chan (slot + k))).serveAll

/-- Ciphertext of `n` staging slots; one without data gives zeros (DESIGN CHOICE: R133 states no status for it). -/
def stagingData (s : State) (chan slot n : Nat) : List Payload :=
  (List.range n).map fun k => ((sget (stKey chan (slot + k)) s.media.slots).bind (·.data)).getD 0

/-- A read from a pool buffer ends: the buffer goes if its map change is sealed (R25). -/
def State.leaveBuf (s : State) (h : Nat) : State :=
  match s.buf h with
  | none => s
  | some b =>
    let s := s.setBuf h { b with readers := b.readers - 1 }
    match b.doneSeq with
    | some n => s.when (decide (n ≤ s.jnl.sealed)) (·.freeBuf h)
    | none => s

/-- A block of host read data is uncorrectable in its staging slot (R326, R327): its NAND read is reissued, at most twice, and the transfer
goes on; after the third failure the command completes with Internal Error. -/
def State.stagingError (s : State) (i : CtxId) (x : Xfer) (c k : Nat) (fin : State → State) : State :=
  let n := sgetD 0 k s.ecc.reissues
  let s := (s.uncorrected 1 1 0 k).strike 1 k
  if n < 2 then
    (({ s with ecc := { s.ecc with reissues := sput k (n + 1) s.ecc.reissues } }).heal 1 k).modCtx i fun y => { y with xfers := x :: y.xfers }
  else (fin { s with ecc := { s.ecc with reissues := sdel k s.ecc.reissues } }).finish c 0 0x06

/-- A transfer of a bound command is done: a STEP is dispatched with a completion code, whose number the spec does not give (R83). -/
def State.stepDone (s : State) (c : Nat) : State := let (code, s) := s.draw; s.cmdActivate 2 c code

/-- First poisoned word of a run (R325). -/
def poisonedAt (s : State) (store k n : Nat) : Option Nat := (List.range n).find? fun j => s.poisoned store (k + j)

/-- XFER_COMPLETE (R133): a transfer of a context ends, with the host's plaintext where the host is the source, or with a bus
error; an error of a staging source bound for the host is the uncorrectable data of R327. Poisoned data is never delivered (R15, R327). -/
def execXferComplete (i : CtxId) (tag : BitVec 4) (err : Bool) (data : List Block) (s : State) : Res :=
  if !i.valid then noUnit
  else
    let c := s.ctx i
    match c.xfers.find? fun x => x.tag == tag.toNat && x.blocks != 0 with
    | none => done s
    | some x =>
      let s := s.modCtx i fun c => { c with xfers := c.xfers.filter (· != x) }
      let n := x.blocks
      let fin (st wb : Nat) (s : State) : State := s.tagDone i x.tag x.crec opXfer st (if st = stOk then n else 0) wb
      match Desc.of x.src, Desc.of x.dst, c.cmd.bind fun k => (s.cmd k).map fun m => (k, m) with
      | some (.staging ch sl), some (.staging ch' sl'), _ =>
        if err || (poisonedAt s 1 (stKey ch sl) n).isSome then done (fin stBusError 0 s)
        else
          let l := stagingData s ch sl n
          let s := s.each l.zipIdx fun s (p, k) => s.putSlot (stKey ch' (sl' + k)) { data := some p, cmd := c.cmd }
          done (fin stOk 0 (s.leaveSlots ch sl n))
      | some (.staging ch sl), some (.host o), some (k, m) =>
        let bad := poisonedAt s 1 (stKey ch sl) n
        if err || bad.isSome then done (s.stagingError i x k (stKey ch (sl + bad.getD 0)) fun s => fin stBusError 0 s)
        else
          let l := (stagingData s ch sl n).zipIdx.flatMap fun (p, j) =>
            hostBlocks s m o (s.lbaAt m o j) (s.xtsDec m (s.lbaAt m o j) (Payload.data p))
          let s := s.leaveSlots ch sl n
          if x.pau then
            let (r, s) := s.pauFeed k l o
            done (fin stOk r (s.stepDone k))
          else done (fin stOk 0 ((s.emit (.data m.func m.sqe.cid o l)).stepDone k))
      | some (.host o), some (.pool h), some (k, m) =>
        if err then done (fin stBusError 0 s)
        else
          let s := s.each (List.range n) fun s j => match s.buf (h + j) with
            | some b =>
              let lba := s.lbaAt m o j
              let (v, mask) := hostUnit s m o lba j data
              (s.setBuf (h + j) { b with data := s.xtsEnc m lba v, lba := lba, mask := mask }).heal 8 (h + j)
            | none => s
          done (fin stOk 0 (s.stepDone k))
      | some (.pool h), some (.host o), some (k, m) =>
        let l := (List.range n).flatMap fun j =>
          hostBlocks s m o (s.lbaAt m o j) (s.xtsDec m (s.lbaAt m o j) ((s.buf (h + j)).map (·.data) |>.getD 0))
        let bad := poisonedAt s 8 h n
        let s := s.each (List.range n) fun s j => s.leaveBuf (h + j)
        if err || bad.isSome then done (fin stBusError 0 (match bad with | some j => s.badBuffer (h + j) 3 | none => s))
        else done (fin stOk 0 ((s.emit (.data m.func m.sqe.cid o l)).stepDone k))
      | _, _, _ => done (fin stDenied 0 s)

/-- ZONE_LOCK_GRANT (R134): the free lock of a zone goes to the oldest request. -/
def execZoneLockGrant (z : BitVec 22) (s : State) : Res :=
  let z := z.toNat
  match s.zlock z with
  | (false, h :: t) =>
    let s := s.setZlock z (true, h :: t)
    match h with
    | .ctx k tag =>
      let i := CtxId.ofKey k
      match (s.ctx i).xfers.find? fun x => x.tag == tag && x.blocks == 0 with
      | some x =>
        done ((s.modCtx i fun c => { c with zlocks := z :: c.zlocks, xfers := c.xfers.filter (· != x) }).tagDone i tag x.crec opLock stOk 0 0)
      | none => done (s.leaveZone z h)
    | _ => done s
  | _ => done s

/-- A command whose range lock is granted executes, and its STEP is dispatched with the grant code, whose number the spec does
not give (R162, R134, R176). -/
def State.grant (s : State) (c : Nat) : State :=
  let (code, s) := (s.modLock c fun r => { r with held := true }).draw
  (s.modCmd c fun x => { x with st := .executing }).cmdActivate 2 c code

/-- RANGE_LOCK_GRANT (R162). -/
def execRangeLockGrant (c : BitVec 17) (s : State) : Res :=
  match s.lock c.toNat with
  | some r => if lockFree s r then done (s.grant c.toNat) else done s
  | none => done s

/-- A context blocked in CQPOST for a command, with its tag, dwords and record address. -/
def cqWaiter (s : State) (c : Nat) : Option (CtxId × Nat × Word × Word × BitVec 16) :=
  s.zyn.ctxs.findSome? fun (k, x) => match x.st with
    | .blocked (.cq tag dw0 dw1 crec) => if x.cmd == some c then some (CtxId.ofKey k, tag, dw0, dw1, crec) else none
    | _ => none

/-- COMMIT_POINT (R134, R166): a command that waits for a CQ entry takes the one now free, and a write that
waits for the Dirty Ceiling commits once it fits (R24). -/
def execCommitPoint (c : BitVec 17) (s : State) : Res :=
  let c := c.toNat
  match s.cmd c with
  | none => done s
  | some x =>
    match x.cqWait with
    | none =>
      if x.ceilWait && x.placed && withinCeiling s x.bufs.length then
        done ((s.setCmd c { x with ceilWait := false }).finish c 0 0 (BitVec.ofNat 32 (x.assigned.getD 0)) (BitVec.ofNat 32 (x.assigned.getD 0 / 2 ^ 32)))
      else done s
    | some (dw0, dw1) =>
      if cqFull s x then done s
      else
        let s := s.setCmd c { x with cqWait := none }
        match cqWaiter s c with
        | some (i, tag, d0, d1, crec) =>
          let (st, s) := s.cqCommit c d0 d1
          done ((s.modCtx i fun k => { k with st := .ready }).tagDone i tag crec opCqpost st 0 0)
        | none => done (s.cqCommit c dw0 dw1).2

end Sys2Proof.Machine
end

