-- ==== Sys2Proof/Machine/OpsIo.lean ====
section
/-! DEFINITION. What the I/O commands share: gates, locks, the place of a block, filling buffers, journaling a write, zones (R18 to R28,
R161 to R170, R225 to R246). -/
namespace Sys2Proof.Machine

/-! ### Ends with an error -/

/-- Complete a command with a failure and an Error Information log entry (R148, R329). -/
def State.failed (s : State) (c sct sc : Nat) : State :=
  match s.cmd c with
  | none => s
  | some x => (s.setFunc x.func { s.func x.func with errors := (sct, sc) :: (s.func x.func).errors }).finish c sct sc

/-! ### Tether namespaces (R460 to R462, R465, R468) -/

/-- TH_NSCFG entry that declares a namespace. -/
def thEntry (s : State) (ns : Nat) : Option Nat :=
  if ns = 0 then none
  else (List.range 64).find? fun i => s.fld (F.TH_NSCFG.NSID.ix i) == ns && (let m := s.fld (F.TH_NSCFG.MODE.ix i); m == 1 || m == 2)
def ringId (s : State) : Nat := s.fld F.TH_CTRL.RING_ID
/-- States of a mirrored namespace (R468). -/
def thMirrored : Nat := 0
def thSole : Nat := 1
def thFenced : Nat := 2
def thRejoin : Nat := 3
def thState (s : State) (i : Nat) : Nat := s.fld (F.TH_NS_STATE.STATE.ix i)
/-- Members of an entry, in ascending ring ID. -/
def thMembers (s : State) (i : Nat) : List Nat := (List.range 4).filter fun k => (s.fld (F.TH_NSCFG.MEMBERS.ix i)).testBit k
/-- The other member of a mirrored entry. -/
def thPeer (s : State) (i : Nat) : Nat := ((thMembers s i).find? fun k => k != ringId s).getD 0
def State.peer (s : State) (k : Nat) : Peer :=
  match k with | 0 => s.th.peer0 | 1 => s.th.peer1 | 2 => s.th.peer2 | _ => s.th.peer3

/-- Status that the Tether declaration of a namespace gives a command (R460, R461, R468). -/
def tetherStatus (s : State) (x : Cmd) : Option (Nat × Nat) :=
  match thEntry s x.sqe.nsid.toNat with
  | none => none
  | some i =>
    if s.fld (F.TH_NSCFG.AGREED.ix i) = 0 then some (0, 0x82)
    else if x.sqe.opcode = 0x19 then some (0, 0x02)
    else if s.fld (F.TH_NSCFG.MODE.ix i) = 1 && (thState s i == thFenced || thState s i == thRejoin) then some (0, 0x82)
    else none

/-! ### Gates (R153, R289, R375) -/

/-- Status that stops an I/O command before it touches anything: the module's state, the attachment and the namespace's state. -/
def gateStatus (s : State) (data : Bool) (x : Cmd) : Option (Nat × Nat) :=
  let ns := x.sqe.nsid.toNat
  match (if data then s.ioRefused else none) with
  | some e => some e
  | none =>
    if !(s.func x.func).attached.contains ns then some (0, 0x0B)
    else if s.nsState ns ≠ 1 then some (0, 0x82)
    else if x.sqe.writeType && s.flag F.MED_SPARE.READONLY then some (0, 0x20)
    else match tetherStatus s x with
      | some e => some e
      | none => if data && (thEntry s ns).isSome && x.sqe.keyTag = 0 then some (2, 0x86) else none

/-- Run an I/O command of an opcode on its context: an abort before its commit point ends it, a status of the gate too. -/
def State.ioRun (s : State) (c op : Nat) (data : Bool) (k : Cmd → State → State) : State :=
  match s.cmd c with
  | none => s
  | some x =>
    if x.committed || x.admin || !x.classified || x.waitBank || x.sqe.opcode ≠ op || x.cqWait.isSome || s.flushing then s
    else if x.abort then s.finish c 0 0x07
    else match gateStatus s data x with
      | some (t, e) => s.finish c t e
      | none => k x s

/-- The range of a command lies beyond the namespace (R153). -/
def outOfRange (s : State) (q : Sqe) (first n : Nat) : Bool := decide (s.nsSize q.nsid.toNat < first + n)

/-- Arm a command's range-lock request and take it if it may be granted, with its STEP (R161, R162, R176); a command that takes none goes on. -/
def State.takeLock (s : State) (c : Nat) : Bool × State :=
  match s.lock c with
  | none => (true, s)
  | some r =>
    if r.held then (true, s)
    else
      let s := if r.armed then s else (s.modLock c fun r => { r with armed := true }).lockConflicts r
      if lockFree s { r with armed := true } then (true, s.grant c)
      else (false, s.modCmd c fun x => { x with st := .lockWait })

/-- A zone barrier of a lower FSN holds a command of the zone back (R243). -/
def barred (s : State) (x : Cmd) (z : Nat) : Bool := s.host.barriers.any fun (y, fsn, _) => y == z && decide (fsn < x.fsn)

/-- Zones a range of logical blocks touches. -/
def zonesOf (s : State) (ns first n : Nat) : List Nat :=
  ((List.range n).map fun o => s.zoneOf ns (first + o)).dedup

/-! ### Where a block is (R230, R231, R238, R242) -/

/-- What a logical block reads as: zeros, ciphertext of its 4 KiB unit, or nothing; `new`: the loss is met now. -/
inductive Got
  | zeros
  | data (b : Block)
  | lost (new : Bool)
deriving DecidableEq, Repr

/-- A codeword on media; `bad`: neither the ladder nor outer recovery gives it. -/
def gotMedia (s : State) (d sl : Nat) (bad : Bool) : Got :=
  match s.codeword d sl with
  | some p => if bad then .lost true else .data (Payload.data p)
  | none => .lost true
/-- A pool buffer's content; a poisoned one delivers nothing (R327). -/
def gotBuf (s : State) (h : Nat) : Got :=
  match s.buf h with
  | some b => if s.poisoned 8 h then .lost false else .data b.data
  | none => .lost true

/-- A block on media whose unit may be partial over an unwritten one (R231, R300): sectors, or whole blocks of a 16 KiB unit, that its program
did not hold read as zeros (DESIGN CHOICE: the spec gives such a codeword's other sectors no content). -/
def gotUnit (s : State) (ns lba d sl j : Nat) (bad : Bool) : Got :=
  let part (k : Nat) : Option Oob := ((s.codeword d k).map fun p => Oob.of (Payload.oob20 p)).filter (·.part)
  if s.nsLbaf ns = 2 && (part sl).any (fun o => !o.mask.testBit (lba % 8)) then .zeros
  else if s.nsLbaf ns = 1 && (s.codeword d (sl + j)).isNone && (List.range 4).any (fun k => (part (sl + k)).isSome) then .zeros
  else gotMedia s d (sl + j) bad

/-- A block of a conventional namespace. -/
def gotConv (s : State) (ns lba : Nat) (bad : Bool) : Got :=
  let j := if s.nsLbaf ns = 1 then lba % 4 else 0
  let place (w : Word64) : Got := match Place.of w with
    | .unwritten => .zeros
    | .media d sl => gotUnit s ns lba d sl j bad
    | .buffer h => gotBuf s h
    | _ => .lost false
  match Place.of (s.mapEntry (s.mapIndex ns lba)) with
  | .pending h => (match sget h s.host.pendings with
    | none => .lost true
    | some p =>
      if p.mask.getLsbD (if s.nsLbaf ns = 1 then 8 * j else lba % 8) then
        match p.bufs.find? fun b => s.nsLbaf ns != 1 || (s.buf b).any (·.lba == lba) with
        | some b => gotBuf s b
        | none => .lost true
      else place p.prior)
  | _ => place (s.mapEntry (s.mapIndex ns lba))

/-- A block of a zone (R242): media below MWP, the pending ring below WP, zeros from there on and
where a finished zone was never written; filled blocks give nothing (R241). -/
def gotZone (s : State) (ns lba : Nat) (bad : Bool) : Got :=
  let z := s.zoneOf ns lba
  let o := lba % 2 ^ s.nsLogZsze ns
  if s.map.voids.contains (z * 2 ^ 21 + o) then .lost false
  else if s.map.zeroed.contains (z * 2 ^ 21 + o) && o < s.zwp z then .zeros
  else if o < s.zmwp z then (let (d, sl) := s.zoneSlot z o; gotMedia s d sl bad)
  else if o < s.zwp z then (match sget o (sgetD [] z s.map.rings) with | some h => gotBuf s h | none => if s.zrwp z ≤ o then .zeros else .lost true)
  else .zeros

def got (s : State) (ns lba : Nat) (bad : Bool) : Got := if s.nsZoned ns then gotZone s ns lba bad else gotConv s ns lba bad

/-- Plaintext of a block: a 512-byte block stands in the low 4 096 bits. -/
def State.plain (s : State) (x : Cmd) (lba : Nat) : Got → Block
  | .data b => if s.nsLbaf x.sqe.nsid.toNat = 2 then (s.secDec x lba (sector b (lba % 8))).setWidth 32768 else s.xtsDec x lba b
  | _ => 0

/-- A new loss of a block is recorded: SPECIAL 1 in the map, or the filled mark of a zone offset (R277, R329). -/
def State.loseBlock (s : State) (ns lba : Nat) : State :=
  if s.nsZoned ns then
    let k := s.zoneOf ns lba * 2 ^ 21 + lba % 2 ^ s.nsLogZsze ns
    { s with map := { s.map with voids := k :: s.map.voids }, ecc := { s.ecc with integrity := s.ecc.integrity + 1 } }
  else s.markLost (s.mapIndex ns lba)

/-- Offsets of a zoned range whose codeword on media is not the block's (R328): CHK, NSIDX, LBA or LGEN16 disagrees. -/
def wrongZoned (s : State) (ns first n : Nat) : List Nat :=
  (List.range n).filter fun o =>
    let z := s.zoneOf ns (first + o)
    let q := (first + o) % 2 ^ s.nsLogZsze ns
    let (d, sl) := s.zoneSlot z q
    decide (q < s.zmwp z) && !s.map.voids.contains (z * 2 ^ 21 + q) && !s.map.zeroed.contains (z * 2 ^ 21 + q) &&
      match s.codeword d sl with
      | some p =>
        let w := Payload.oob20 p
        let b := Oob.of w
        !chkOk w || b.nsidx + 1 != ns || b.lba != first + o || b.lgen != s.zlgen z % 65536
      | none => false

/-- A read meets an undefined map entry: it is read as unrecovered, and a Fault entry is raised (R230; its kind 0x15 is PRESUMED). -/
def State.badEntry (s : State) (w : Word64) : State :=
  let n := w.toNat % 2 ^ 40
  s.when (Place.of w == .unrecovered && n != Place.unrecovered.word.toNat) (·.entry 0x15 sevFault)

/-- Read `n` blocks (R20, R242): lines are accessed (R513), codewords that are not the block's are reported (R328), new losses recorded.
`bad` lists the offsets whose media read is not recovered. The second part is false when a block is lost. -/
def State.readBlocks (s : State) (x : Cmd) (first n : Nat) (bad : List Nat) : List Block × Bool × State :=
  let ns := x.sqe.nsid.toNat
  let idxs := if s.nsZoned ns then [] else ((List.range n).map fun o => s.mapIndex ns (first + o)).dedup
  let s := s.each idxs fun s i =>
    let (hit, s) := s.touchLine (mapLine i)
    let media := match Place.of (s.mapEntry i) with | .media _ _ => true | _ => false
    (s.badEntry (s.mapEntry i)).when (hit && media && s.flag F.MAP_CTRL.SPEC_EN) (·.countMod F.MAP_SPEC_ISSUED.COUNT)
  let s := s.when (s.nsZoned ns) fun s => s.each (zonesOf s ns first n) (·.access 2 ·)
  let wrong := idxs.filter fun i => match Place.of (s.mapEntry i) with
    | .media d sl => (match s.codeword d sl with | some p => (wrongSlot s d sl p).contains i | none => false)
    | _ => false
  let s := s.oobMismatch wrong
  let wz := if s.nsZoned ns then wrongZoned s ns first n else []
  let s := if wz.isEmpty then s else (({ s with map := { s.map with voids := wz.map (fun o => s.zoneOf ns (first + o) * 2 ^ 21 + (first + o) % 2 ^ s.nsLogZsze ns) ++ s.map.voids }
                                                ecc := { s.ecc with integrity := s.ecc.integrity + wz.length } }).raise F.ECC_EVT.OOB_MISMATCH).criticalData 0x2B
  let gots := (List.range n).map fun o => got s ns (first + o) (bad.contains o)
  let lostNew := (List.range n).filter fun o => decide (gots.getD o .zeros = .lost true)
  let s := s.each lostNew fun s o => match got s ns (first + o) true with | .lost true => s.loseBlock ns (first + o) | _ => s
  let ok := gots.all fun g => match g with | .lost _ => false | _ => true
  (gots.zipIdx.map fun (g, o) => s.plain x (first + o) g, ok, s)

/-- A read waits for reserved zone blocks that have not committed (R242). -/
def waitsReserved (s : State) (c ns first n : Nat) : Bool :=
  s.nsZoned ns && s.map.reserved.any fun (z, x, a, k) =>
    x != c && (List.range n).any fun o => s.zoneOf ns (first + o) == z &&
      (let q := (first + o) % 2 ^ s.nsLogZsze ns; decide (a ≤ q) && decide (q < a + k))

/-- Some zone of the range is offline (R242, R245). -/
def anyOffline (s : State) (ns first n : Nat) : Bool := s.nsZoned ns && (zonesOf s ns first n).any fun z => s.zs z == zsOffline

/-- Run the reading part of a command: range, zone state, lock and barriers, then `k` on the plaintext, or an unrecovered read
(R153, R242, R245). -/
def State.reading (s : State) (c : Nat) (x : Cmd) (first n : Nat) (bad : List Nat) (k : List Block → State → State) : State :=
  let ns := x.sqe.nsid.toNat
  if outOfRange s x.sqe first n then s.finish c 0 0x80
  else if anyOffline s ns first n then s.finish c 1 0xBB
  else if s.nsZoned ns && (zonesOf s ns first n).any (barred s x) then s
  else
    let (free, s) := s.takeLock c
    if !free || waitsReserved s c ns first n then s
    else
      let (l, ok, s) := (s.mapWork 0 c).readBlocks x first n bad
      if ok then k l s else s.failed c 2 0x81

/-! ### Filling buffers (R23 step 2, R189, R225, R231) -/

/-- What goes into one buffer: its block, the sectors it holds, and ciphertext. -/
structure Piece where
  lba : Nat
  mask : BitVec 8
  data : Block

/-- The buffers' contents for plaintext blocks at an LBA: one per logical block, or one per unit of eight 512-byte blocks. A whole block
of a 16 KiB unit that is not wholly written carries bit 0 alone (R300). -/
def pieces (s : State) (x : Cmd) (first : Nat) (data : List Block) : List Piece :=
  let ns := x.sqe.nsid.toNat
  let n := data.length
  match s.nsLbaf ns with
  | 2 => (List.range ((first + n + 7) / 8 - first / 8)).map fun u =>
      let base := (first / 8 + u) * 8
      (List.range 8).foldl (fun (p : Piece) i =>
        let lba := base + i
        if first ≤ lba && lba < first + n then
          { p with mask := p.mask ||| (1#8 <<< i), data := setSector p.data i (s.secEnc x lba ((data.getD (lba - first) 0).setWidth 4096)) }
        else p) { lba := base, mask := 0, data := 0 }
  | 1 => data.zipIdx.map fun (b, o) =>
      let lba := first + o
      let whole := decide (first ≤ lba / 4 * 4) && decide (lba / 4 * 4 + 4 ≤ first + n)
      { lba := lba, mask := if whole then 0xFF else 1, data := s.xtsEnc x lba b }
  | _ => data.zipIdx.map fun (b, o) => { lba := first + o, mask := 0xFF, data := s.xtsEnc x (first + o) b }

/-- Draw buffers of a command from its reservation and fill them (R25, R189). -/
def State.fillBufs (s : State) (c account ns : Nat) (l : List Piece) : List Nat × State :=
  l.foldl (fun (acc : List Nat × State) p =>
    let (hs, s) := acc
    let h := s.freeHandle
    (hs ++ [h], (s.setBuf h { cmd := c, account := account, nsid := ns, lba := p.lba, data := p.data, mask := p.mask }).heal 8 h)) ([], s)

/-- Fill the buffers of a command from the host's data. -/
def State.fillCmd (s : State) (c : Nat) (x : Cmd) (data : List Block) : State :=
  let ps := pieces s x x.first data
  let (hs, s) := s.fillBufs c (s.tenAccount x.func) x.sqe.nsid.toNat ps
  (match hs with | h :: _ => s.inject 8 h | [] => s).modCmd c fun x => { x with bufs := hs, resv := x.resv - hs.length, dma := true, st := .executing }

/-! ### Step 1 of R234 -/

/-- Partial units of a range whose entry is in the pool already: the write waits (R231). -/
def partialWaits (s : State) (ns first n : Nat) : Bool :=
  let iu := s.nsIu ns
  !s.nsZoned ns && iu != 1 && ((List.range n).map fun o => (first + o) / iu).dedup.any fun u =>
    (decide (u * iu < first) || decide (first + n < u * iu + iu)) &&
    match Place.of (s.mapEntry (s.nsBase ns + u)) with | .buffer _ | .pending _ => true | _ => false

/-- Lowest descriptor handle not in use. -/
def State.freePending (s : State) : Nat := s.host.pendings.foldl (fun n (k, _) => if k = n then n + 1 else n) 0

/-- The entry of each unit becomes POOL: a buffer, or a pending descriptor for several buffers or part of a unit (R231, R234). -/
def State.placeBufs (s : State) (ns : Nat) (bufs : List Nat) : State :=
  let iu := s.nsIu ns
  let unit (s : State) (h : Nat) : Nat := ((s.buf h).map (·.lba)).getD 0 / iu
  s.each (bufs.map (unit s)).dedup fun s u =>
    let mine := bufs.filter fun h => unit s h == u
    let index := s.nsBase ns + u
    let mask : BitVec 32 := mine.foldl (fun m h => match s.buf h with
      | some b => if s.nsLbaf ns = 1 then m ||| (0xFF#32 <<< (8 * (b.lba % 4))) else b.mask.setWidth 32
      | none => m) 0
    match mine with
    | [h] =>
      if s.nsLbaf ns ≠ 1 && (s.nsLbaf ns ≠ 2 || mask = 0xFF) then s.tjrn 1 index 0 (Place.buffer h).word.toNat
      else
        let d := s.freePending
        ({ s with host := { s.host with pendings := sput d ⟨s.mapEntry index, mine, mask⟩ s.host.pendings } }).tjrn 1 index 0 (Place.pending d).word.toNat
    | _ =>
      let d := s.freePending
      ({ s with host := { s.host with pendings := sput d ⟨s.mapEntry index, mine, mask⟩ s.host.pendings } }).tjrn 1 index 0 (Place.pending d).word.toNat

/-! ### Zone reservation (R239, R240, R27) -/

/-- A command of lower FSN writes to the zone and has not reserved yet: ZONE activations of a zone go in FSN order (R240). -/
def zoneBehind (s : State) (x : Cmd) (z : Nat) : Bool :=
  s.host.cmds.any fun (k, y) => decide (y.fsn < x.fsn) && !y.admin && !y.committed && (y.sqe.opcode == 0x01 || y.sqe.opcode == 0x7D) &&
    y.sqe.nsid == x.sqe.nsid && s.zoneOf y.sqe.nsid.toNat y.sqe.slba == z && y.assigned.isNone && y.bufs.isEmpty &&
    !s.map.reserved.any fun (_, c, _, _) => c == k

/-- Statuses of R245 for a write of `n` blocks to a zone; `o` the offset a Write names, none for an Append. -/
def zoneStatus (s : State) (ns z n : Nat) (o : Option Nat) (aligned : Bool) : Option (Nat × Nat) :=
  let st := s.zs z
  let start := match o with | some k => k | none => s.zrwp z
  if st = zsOffline then some (1, 0xBB)
  else if st = zsReadOnly then some (1, 0xBA)
  else if st = zsFull then some (1, 0xB9)
  else if !aligned then some (1, 0xBC)
  else if 2 ^ s.nsLogZsze ns < start + n then some (1, 0xB8)
  else if (match o with | some k => k != s.zrwp z | none => false) then some (1, 0xBC)
  else if s.nsZcap ns < start + n then some (1, 0xB9)
  else if st = zsEmpty && decide (s.nsMar ns ≤ nsActive s ns) then some (1, 0xBD)
  else if (st = zsEmpty || st = zsClosed) && decide (s.nsMar ns ≤ nsOpen s ns) then some (1, 0xBE)
  else none

/-- What a reservation answers. -/
inductive Reserve
  | status (sct sc : Nat)
  | wait
  | ok (s : State)

/-- Reserve `n` blocks at the zone's reserved pointer (R239, R240): the zone becomes open, RWP advances, a full zone is ZSF, and an
Append's LBA is fixed. The first sequence number of the reservation is the blocks' WSN. -/
def State.zoneReserve (s : State) (c : Nat) (x : Cmd) (n : Nat) (append : Bool) : Reserve :=
  let ns := x.sqe.nsid.toNat
  let z := s.zoneOf ns x.sqe.slba
  let o := x.sqe.slba % 2 ^ s.nsLogZsze ns
  let busy := match s.zlock z with | (held, l) => held || !l.isEmpty
  if busy || zoneBehind s x z || barred s x z then .wait
  else match zoneStatus s ns z n (if append then none else some o) (!append || o == 0) with
    | some (t, e) => .status t e
    | none =>
      let rwp := s.zrwp z
      if s.zmwp z + 4096 < rwp + n then .wait
      else match (if s.zs z = zsEmpty then s.activateZone z else some s) with
        | none => .wait
        | some s =>
          let s := if zOpen (s.zs z) then s else s.setZs z zsImplOpen
          let s := s.tjrn 2 z 1 (setBits (s.zw z 1) 0 21 (rwp + n))
          let s := if rwp + n = s.nsZcap ns then s.setZs z zsFull else s
          let s := { s with map := { s.map with reserved := s.map.reserved ++ [(z, c, rwp, n)] } }
          .ok (if append then s.modCmd c fun x => { x with assigned := some (x.sqe.slba + rwp) } else s)

/-- The filled buffers of a zoned write go to the zone's pending ring (R242); the newest sequence number is their WSN. -/
def State.ringBufs (s : State) (ns : Nat) (bufs : List Nat) : State :=
  let n := s.lastSeq
  s.each bufs fun s h => match s.buf h with
    | some b =>
      let z := s.zoneOf ns b.lba
      let s := s.setBuf h { b with wsn := n }
      { s with map := { s.map with rings := sput z (sput (b.lba % 2 ^ s.nsLogZsze ns) h (sgetD [] z s.map.rings)) s.map.rings } }
    | none => s

/-! ### The commit point of a write (R23 step 3, R24, R166) -/

/-- CQE dwords of a write: the assigned LBA of a Zone Append (R27). -/
def Cmd.lbaDw (x : Cmd) : Word × Word := let a := x.assigned.getD 0; (BitVec.ofNat 32 a, BitVec.ofNat 32 (a / 2 ^ 32))

/-- Commit a placed write once dirty data stays within the Dirty Ceiling (R24); one that adds none is not held. -/
def State.commitWrite (s : State) (c : Nat) : State :=
  match s.cmd c with
  | none => s
  | some x =>
    if x.bufs.isEmpty || withinCeiling s x.bufs.length then (s.setCmd c { x with ceilWait := false }).finish c 0 0 x.lbaDw.1 x.lbaDw.2
    else s.setCmd c { x with ceilWait := true }

/-- Journal a filled write and commit it (R23 step 3); its PLACE activation is requested (R83). -/
def State.placeCmd (s : State) (c : Nat) : State :=
  match s.cmd c with
  | none => s
  | some x =>
    let ns := x.sqe.nsid.toNat
    let s := s.mapActivate 1 c
    let s := if s.nsZoned ns then s.ringBufs ns x.bufs else s.placeBufs ns x.bufs
    (s.modCmd c fun x => { x with placed := true }).commitWrite c

/-! ### Deallocation and marks (R235) -/

/-- Whole units of a range, and the blocks of partial units at its ends. -/
def wholeUnits (iu first n : Nat) : List Nat × List Nat :=
  let us := ((List.range n).map fun o => (first + o) / iu).dedup
  let whole := us.filter fun u => decide (first ≤ u * iu) && decide (u * iu + iu ≤ first + n)
  (whole, ((List.range n).map (first + ·)).filter fun l => !whole.contains (l / iu))

/-- Write an entry of every whole unit of a range (R235). -/
def State.markUnits (s : State) (ns : Nat) (units : List Nat) (w : Word64) : State :=
  s.each units fun s u => s.tjrn 1 (s.nsBase ns + u) 0 w.toNat

/-- Runs of consecutive numbers of a rising list: (first, count). -/
def blockRuns : List Nat → List (Nat × Nat)
  | [] => []
  | a :: t => match blockRuns t with
    | (b, n) :: r => if b = a + 1 then (a, n + 1) :: r else (a, 1) :: (b, n) :: r
    | [] => [(a, 1)]

/-- Ranges a Write Zeroes or a deallocating command names. -/
def Cmd.dealRanges (x : Cmd) : List (Nat × Nat) := if x.sqe.opcode = 0x08 then [(x.sqe.slba, x.sqe.nlb)] else x.sqe.ranges

/-- Runs of blocks of partial units in the ranges of a command (R235). -/
def partialRuns (s : State) (x : Cmd) (ranges : List (Nat × Nat)) : List (Nat × Nat) :=
  ranges.flatMap fun (f, n) => blockRuns (wholeUnits (s.nsIu x.sqe.nsid.toNat) f n).2

/-- The write of a run of zero blocks that a Dataset Management makes, which carries no key tag (R19, R375): its keys are settled as those of a Write
without a tag. -/
def Cmd.zeroRun (x : Cmd) (first n : Nat) : Cmd :=
  { x with sqe := { x.sqe with opc := 0x08, keyTag := 0, ranges := [], cdw10 := BitVec.ofNat 32 first, cdw11 := BitVec.ofNat 32 (first / 2 ^ 32)
                               cdw12 := BitVec.ofNat 32 (n - 1) } }

/-- Status that the keys of such runs give (R375). -/
def zeroRefused (s : State) (x : Cmd) (ranges : List (Nat × Nat)) : Option (Nat × Nat) :=
  (partialRuns s x ranges).findSome? fun (f, n) => match s.settleKeys (x.zeroRun f n) with | .error e => some e | .ok _ => none

/-- Blocks of partial units are to be written as zeros (R235, R231), encrypted as any write (R19): buffers are drawn for the command's account
and filled. -/
def State.zeroFill (s : State) (c : Nat) (x : Cmd) (ranges : List (Nat × Nat)) : State :=
  let a := s.tenAccount x.func
  let ns := x.sqe.nsid.toNat
  s.each (partialRuns s x ranges) fun s (first, n) =>
    let x := if x.sqe.opcode = 0x09 then
        let y := x.zeroRun first n
        { y with keys := (match s.settleKeys y with | .ok k => k | .error _ => []), assigned := none }
      else x
    let ps := pieces s x first (List.replicate n 0)
    let (hs, s) := (s.reserve a ps.length).fillBufs c a ns ps
    s.modCmd c fun x => { x with bufs := x.bufs ++ hs }

/-- Whole units of the ranges become unwritten, and the filled blocks of partial units are journaled (R235). -/
def State.dealloc (s : State) (ns : Nat) (ranges : List (Nat × Nat)) (bufs : List Nat) : State :=
  (s.each ranges fun s (f, n) => s.markUnits ns (wholeUnits (s.nsIu ns) f n).1 0).placeBufs ns bufs

/-- A Write Zeroes of a zone (R152, R235): its blocks read as zeros with no buffer allocated, once they are below WP. -/
def State.zeroZone (s : State) (c : Nat) : State :=
  let mine := s.map.reserved.filter fun (_, x, _, _) => x == c
  (s.each mine fun s (z, _, first, n) =>
    { s with map := { s.map with zeroed := s.map.zeroed ++ ((List.range n).map (z * 2 ^ 21 + first + ·)).filter fun k => !s.map.zeroed.contains k } }).modCmd c
    fun x => { x with placed := true }

/-- The effect of a write-type command whose lock is held and whose data is in the pool, up to its commit point (R23, R235). -/
def State.applyCmd (s : State) (c : Nat) : State :=
  match s.cmd c with
  | none => s
  | some x =>
    let ns := x.sqe.nsid.toNat
    match x.sqe.opcode with
    | 0x04 =>
      if s.nsZoned ns then (s.voidZone c).finish c 0 0
      else (s.markUnits ns (wholeUnits (s.nsIu ns) x.sqe.slba x.sqe.nlb).1 Place.writeUncorr.word).finish c 0 0
    | 0x08 | 0x09 =>
      if s.nsZoned ns then (s.zeroZone c).commitWrite c
      else ((s.dealloc ns x.dealRanges x.bufs).modCmd c fun x => { x with placed := true }).commitWrite c
    | _ => s.placeCmd c

end Sys2Proof.Machine
end

