-- ==== Sys2Proof/Machine/OpsIntake.lean ====
section
/-! DEFINITION. Doorbells, admission and the fetch arbiter, classification, Abort (R154 to R162, R168, R169, R189 to R191, R201 to R205). -/
namespace Sys2Proof.Machine

/-! ### Doorbells (R154, R155) -/

/-- A function answers on its BAR0: it is present, and no FLR is in progress (R180, R195). -/
def bar0 (s : State) (f : Nat) : Bool := (s.func f).present && !(s.func f).flr

/-- Traffic of a function brings its port's link out of L1. -/
def State.l1Exit (s : State) (f : Nat) : State :=
  if s.x4x4 && decide (2048 ≤ f) then { s with host := { s.host with l1Port1 := 0 } } else { s with host := { s.host with l1Port0 := 0 } }

/-- VQ or VI resources a function holds (R178): each has at least one. DESIGN CHOICE: until Primary Flexible Allocation says otherwise a PF holds
what a function may have, 1 024 I/O queue pairs beside its admin queue, and 2 048 vectors (R145, R154). -/
def held (s : State) (vi : Bool) (g : Nat) : Nat :=
  let n := if vi then (s.func g).vi else (s.func g).vq
  if n ≠ 0 then n else if s.isPf g then (if vi then 2048 else 1025) else 1

/-- I/O queue pairs a function may have (R154, R178): its VQ resources less the admin queue's. -/
def queueLimit (s : State) (f : Nat) : Nat := min 1024 (held s false f - 1)
/-- Vectors a function may use (R145, R178). -/
def vectorLimit (s : State) (f : Nat) : Nat := min 2048 (held s true f)

/-- An invalid doorbell write (R154): HIU_EVT.DOORBELL_ERR and an Error event; `info`: 0 register, 1 value. -/
def State.badDoorbell (s : State) (f info : Nat) : State := (s.raise F.HIU_EVT.DOORBELL_ERR).aen f 0 info

/-- Keep the stamp of a doorbell write: four are kept, a fifth replaces the newest; one whose SQEs are all admitted is done (R155). -/
def keepStamp (l : List (Nat × Word64)) (x : Nat × Word64) : List (Nat × Word64) :=
  if l.length < 4 then l ++ [x] else l.dropLast ++ [x]

/-- Arrival time of the head SQE: the stamp of the earliest kept write whose tail covers it (R155). -/
def Sq.arrival (q : Sq) : Word64 := ((q.stamps.find? fun (n, _) => decide (q.admitted < n)).map (·.2)).getD 0

/-! ### Admission (R156, R189 to R191) -/

/-- Logical blocks a second half of a fused pair adds to the buffers of its first (R159, R189). -/
def pairBuffers (q : Sqe) (next : Option Sqe) : Nat :=
  if q.fuse = 1 then (match next with | some n => if n.fuse = 2 then n.buffers else 0 | none => 0) else q.buffers

/-- Fetch is stopped for a function: reset, activation, flush, CSTS.CFS, shutdown, or the controller is not ready (R156). -/
def fetchStopped (s : State) (f : Nat) : Bool :=
  let g := s.func f
  s.host.stopAll || s.flushing || !g.rdy || g.stop || g.cfs || g.resetting || g.flr || g.heldReset || g.shutdown || !coreOn s

/-- The account conditions of R190 hold a write-type SQE back. -/
def accountHolds (s : State) (f n : Nat) : Bool :=
  let a := s.tenAccount f
  hardWarn s a || decide (share s a < usage s a + n) ||
    (globalLow s && s.flag (F.TEN_QOS.BEST_EFFORT.ix (s.tenClass f)))

/-- The head SQE of a queue needs the pool. -/
def poolHead (q : Sq) : Option (Sqe × Nat) :=
  match q.sqes with
  | [] => none
  | e :: t => if e.writeType || (e.fuse = 1 && t.head?.any fun y => y.fuse == 2 && y.writeType) then some (e, pairBuffers e t.head?) else none

/-- The head of a queue is a fused pair, which takes two contexts in one decision (R159). -/
def Sq.pair (q : Sq) : Bool :=
  match q.sqes with
  | a :: b :: _ => a.fuse == 1 && b.fuse == 2
  | _ => false

/-- The head SQE may be admitted but for the pool: fetch, contexts, order, deletion (R153, R156, R160). -/
def headFree (s : State) (f qid : Nat) (q : Sq) : Bool :=
  !q.sqes.isEmpty && q.deleting.isNone && !fetchStopped s f && decide (s.host.cmds.length + (if qid ≠ 0 && q.pair then 2 else 1) ≤ 131072) &&
  (qid == 0 || !ioAsleep s) &&
  !(q.ordered && (match q.lastCmd with
    | some c => (s.cmd c).any fun x => x.func == f && x.sqid == qid && !x.committed
    | none => false))

/-- The head SQE is held back by F alone (R191). -/
def heldByPool (s : State) (f qid : Nat) (q : Sq) : Bool :=
  headFree s f qid q && qid != 0 && (match poolHead q with
    | some (_, n) => !accountHolds s f n && decide (freeBufs s < n)
    | none => false)

/-- The claim (R191): the claimant until its SQE is admitted or its function is reset, else the oldest SQE held back by F. -/
def claimNow (s : State) : Option (Nat × Nat) :=
  let keep := match s.host.claim with
    | some (f, q) => (s.sq f q).any fun x => (poolHead x).isSome
    | none => false
  if keep then s.host.claim
  else
    let l := s.host.sqs.filter fun (k, q) => heldByPool s (k / 65536) (k % 65536) q
    (l.foldl (fun (b : Option (Nat × Sq)) ((k, q) : Nat × Sq) => match b with
      | some (_, p) => if q.arrival.toNat < p.arrival.toNat then some (k, q) else b
      | none => some (k, q)) none).map fun (k, _) => (k / 65536, k % 65536)

/-- The claim lets a buffer-needing SQE of a queue through (R191): another function's waits; once F covers the claimant, it alone goes. -/
def claimAllows (s : State) (f qid : Nat) : Bool :=
  match s.host.claim with
  | none => true
  | some (g, q) => g == f && (q == qid || !(match (s.sq g q).bind poolHead with | some (_, n) => decide (n ≤ freeBufs s) | none => false))

/-- The head SQE of a queue is admissible (R156, R190, R191). -/
def admissible (s : State) (f qid : Nat) (q : Sq) : Bool :=
  headFree s f qid q && (qid == 0 || match poolHead q with
    | none => true
    | some (_, n) => !accountHolds s f n && decide (n ≤ freeBufs s) && (n == 0 || claimAllows s f qid))

/-- Admin commands of R151 and R175, and whether only a PF takes them. -/
def adminOps : List (Nat × Bool) :=
  [(0x00, false), (0x04, false), (0x01, false), (0x05, false), (0x02, false), (0x06, false), (0x08, false), (0x09, false), (0x0A, false),
   (0x0C, false), (0x0D, true), (0x15, true), (0x10, true), (0x11, true), (0x14, true), (0x1C, true), (0x1D, true), (0x1E, true), (0x80, true),
   (0x81, true), (0x82, true), (0x84, true), (0xC1, true), (0xC2, true), (0xC5, true), (0xC9, true), (0xCA, true)]

/-- Status of an SQE whose fields no command takes: Invalid Command Opcode for an admin opcode outside R151 or one for PFs on a VF (PF0 alone takes
Firmware Commit and Image Download), Invalid Field for an undefined action or a reserved bit of Tenant Set-up (R153, R175, R183, R184), and SGL
Descriptor Type Invalid (0 / 0x11, PRESUMED: NVMe) for a data pointer of an unsupported form (R149). An admitted SQE that passes runs as the command its opcode names: the sender's commands follow
the SQEs (DESIGN CHOICE). -/
def sqeRefused (s : State) (f qid : Nat) (e : Sqe) : Option (Nat × Nat) :=
  if qid = 0 then
    match adminOps.find? fun (o, _) => o == e.opcode with
    | none => some (0, 0x01)
    | some (o, pf) =>
      if (pf && !s.isPf f) || ((o = 0x10 || o = 0x11) && f ≠ 0) then some (0, 0x01)
      else if o = 0xC9 && (e.cdw10.toNat = 0 || 8 < e.cdw10.toNat || e.cdw11.toNat / 4096 ≠ 0) then some (0, 0x02)
      else if e.badSgl then some (0, 0x11) else none
  else if e.badSgl then some (0, 0x11) else none

/-- Zones a zone-management command's barrier covers (R243): Close 1, Finish 2, Reset 4, Offline 5. -/
def barrierZones (s : State) (q : Sqe) : List Nat :=
  let act := q.cdw13.toNat % 256
  if q.opcode ≠ 0x79 || !(act = 1 || act = 2 || act = 4 || act = 5) || !s.nsZoned q.nsid.toNat then []
  else if q.cdw13.getLsbD 8 then (List.range (s.nsZones q.nsid.toNat)).map (s.nsBase q.nsid.toNat + ·)
  else if q.slba < s.nsSize q.nsid.toNat then [s.zoneOf q.nsid.toNat q.slba] else []

/-- Lowest free context. -/
def freeCmdIx (s : State) : Nat := s.host.cmds.foldl (fun n (k, _) => if k = n then n + 1 else n) 0

/-- The writes a Flush covers (R170): those of its function that have completed and have not reached R23 step 6. -/
def covered (s : State) (f : Nat) (q : Sqe) : List Nat :=
  (s.host.cmds.filter fun (_, x) => x.func == f && decide (x.st = .posted) &&
    (q.nsid == 0xFFFFFFFF || x.sqe.nsid == q.nsid)).map (·.1)

/-- Admit the head SQE of a queue (R156): context, FSN, range-lock request, buffers, zone barrier, the writes a Flush covers. `pair`: the
context of the first half, when this is the second half of a fused pair. -/
def State.admitSqe (s : State) (f qid : Nat) (pair : Option Nat) : Nat × State :=
  match s.sq f qid with
  | none => (0, s)
  | some q =>
    match q.sqes with
    | [] => (0, s)
    | e :: t =>
      let c := freeCmdIx s
      let n := if qid = 0 then 0 else e.buffers
      let x : Cmd := { func := f, sqid := qid, admin := qid == 0, sqe := e, fsn := s.host.fsn, arrival := q.arrival, resv := n, fused := pair
                       st := if qid = 0 then .executing else .admitted }
      let q := { q with sqes := t, head := (q.head + 1) % max 1 q.size, admitted := q.admitted + 1, lastCmd := some c
                        stamps := q.stamps.filter fun (m, _) => decide (q.admitted + 1 < m) }
      let s := s.setSq f qid q
      let s := { s with host := { s.host with fsn := s.host.fsn + 1, cmds := sput c x s.host.cmds } }
      let s := s.when (n != 0) (·.reserve (s.tenAccount f) n)
      let s := s.when (qid != 0 && pair.isNone && e.ranged) fun s =>
        { s with host := { s.host with rlt := s.host.rlt ++ [mkLock s c x.fsn (qkey f qid) e] } }
      let s := s.when (qid != 0) fun s =>
        { s with host := { s.host with barriers := s.host.barriers ++ (barrierZones s e).map fun z => (z, x.fsn, c) } }
      let s := s.when (qid != 0 && e.opcode == 0) fun s =>
        let g := s.func f
        s.setFunc f { g with flushes := g.flushes ++ [(c, covered s f e)] }
      let s := if s.host.claim = some (f, qid) then { s with host := { s.host with claim := none } } else s
      let s := s.inflightMax
      match sqeRefused s f qid e with
      | some (t, k) => (c, if qid = 0 then s.adminDone f e.cid t k else s.finish c t k)
      | none => (c, s.when (qid == 0) (·.cmdActivate 0x01 c))

/-- Admit up to `n` SQEs of a queue; a fused pair is admitted in one decision, and a half without its other ends with Command Aborted
due to Missing Fused Command (R159, 0 / 0x0A PRESUMED). A pair that would pass the burst waits for the next decision unless it is the first of this one
(DESIGN CHOICE: R157 and R159 meet at a burst of 1); a pair of other opcodes than Compare and Write is outside FUSES (R150, DEDUCED). -/
def State.admitRun (s : State) (f qid : Nat) (n : Nat) (first : Bool := true) : State :=
  match n with
  | 0 => s
  | n + 1 =>
    match s.sq f qid with
    | none => s
    | some q =>
      if !admissible s f qid q then s
      else
        let e := q.sqes.headD {}
        let next := (q.sqes.drop 1).head?
        if qid ≠ 0 && q.pair then
          if n = 0 && !first then s
          else
            let (a, s) := s.admitSqe f qid none
            let (b, s) := s.admitSqe f qid (some a)
            let s := s.modCmd a fun x => { x with fused := some b }
            let s := if e.opcode = 0x05 && next.any (fun y => y.opcode == 0x01) then s else (s.finish a 0 0x02).finish b 0 0x02
            s.admitRun f qid (n - 1) false
        else
          let (c, s) := s.admitSqe f qid none
          let s := s.when (qid != 0 && e.fuse != 0) (·.finish c 0 0x0A)
          s.admitRun f qid n false

/-! ### Arbiter (R157) -/

/-- Queues of a function, in identifier order. -/
def funcQueues (s : State) (f : Nat) : List (Nat × Sq) :=
  (s.host.sqs.filter fun (k, _) => k / 65536 == f).map fun (k, q) => (k % 65536, q)

/-- Admissible queues of a function. -/
def admQueues (s : State) (f : Nat) : List (Nat × Sq) := (funcQueues s f).filter fun (q, x) => admissible s f q x

/-- e_f: the function's weight with its urgency and buffer warning (R157). -/
def effWeight (s : State) (f : Nat) (ages : List Nat) : Nat :=
  let c := s.tenClass f
  let w := max 1 (s.fld (F.TEN_QOS.WEIGHT.ix c))
  let t := s.fld (F.TEN_QOS.TARGET_US.ix c)
  let a := ages.foldl max 0
  let u := if !s.flag F.CMD_FETCH_CTRL.URG_EN || t = 0 then 0
    else if 3 * t ≤ 4 * a then 3 else if t ≤ 2 * a then 2 else if t ≤ 4 * a then 1 else 0
  let e := w * 2 ^ u
  if softWarn s (s.tenAccount f) then max 1 (e / 2) else e

/-- Age in µs of a queue's head SQE. -/
def headAge (s : State) (q : Sq) : Nat := (s.now - q.arrival.toNat) / 1000

/-- SQEs per decision: 2^BURST, limited by the Arbitration Burst feature (0x01), 7 no limit; a feature never set gives no limit. -/
def burstOf (s : State) (g : Func) : Nat :=
  let ab := (sgetD 7 0x01 g.feats).toNat % 8
  let b := 2 ^ s.fld F.CMD_FETCH_CTRL.BURST
  if ab = 7 then b else min b (2 ^ ab)

/-- One decision (R157). -/
def State.arbitrate (s : State) : State :=
  let claim := claimNow s
  let s := { s with host := { s.host with claim := claim } }
  let s := s.setBit F.BPM_STATUS.CLAIM claim.isSome
  let fs := (s.host.sqs.map fun (k, _) => k / 65536).dedup.filter fun f => !(admQueues s f).isEmpty
  let es : List (Nat × Nat) := fs.map fun f => (f, effWeight s f ((admQueues s f).map fun (_, q) => headAge s q))
  let total := (es.map (·.2)).sum
  let s := s.each es fun s (f, e) => s.setFunc f { s.func f with cur := (s.func f).cur + (e : Int) }
  let best := es.foldl (fun (b : Option Nat) ((f, _) : Nat × Nat) => match b with
    | none => some f
    | some g => if (s.func g).cur < (s.func f).cur || ((s.func g).cur = (s.func f).cur && f < g) then some f else some g) none
  match best with
  | none => s
  | some f =>
    let g := s.func f
    let qs := admQueues s f
    let q := ((qs.find? fun (q, _) => decide (g.rr ≤ q)).getD (qs.headD (0, { size := 2, cq := 0 }))).1
    let s := s.setFunc f { g with cur := g.cur - (total : Int), rr := q + 1 }
    let s := s.admitRun f q (burstOf s g)
    s.setBit F.BPM_STATUS.CLAIM s.host.claim.isSome

/-! ### Classification (R201 to R205, R215, R375) -/

/-- Commands that carry a key tag (R375). -/
def Sqe.tagged (op : Nat) : Bool := [0x01, 0x02, 0x05, 0x08, 0x0C, 0x19, 0x7D, 0x82].contains op
/-- Opcodes of R152. -/
def ioOpcode (op : Nat) : Bool :=
  [0x00, 0x01, 0x02, 0x04, 0x05, 0x08, 0x09, 0x0C, 0x12, 0x1D, 0x19, 0x79, 0x7A, 0x7D, 0x82].contains op

/-- Count a command on its key slots (R374). -/
def State.takeKeys (s : State) (x : Cmd) : State :=
  s.each x.slots fun s k => { s with sec := { s.sec with counts := sputD 0 k (sgetD 0 k s.sec.counts + 1) s.sec.counts } }

/-- Classify an admitted I/O command with a search result and request INTAKE (R176, R204, R205). -/
def State.classify (s : State) (c : Nat) (x : Cmd) (scr : Word64) : State :=
  let x := { x with scr := scr, classified := true, waitBank := false, st := if x.sqe.ranged && x.sqe.fuse != 2 then .lockWait else .executing }
  let img := if x.filterId ≠ 0 && x.filterId = tenFilter s x.func then sget x.func s.sc.filters else none
  let x := { x with filter := img }
  let s := s.setCmd c x
  if x.deny then s.denied c
  else if !Sqe.tagged x.sqe.opcode then s.cmdActivate 0x00 c
  else match gateStatus s true x with
    | some (t, e) => s.failed c t e
    | none => match s.settleKeys x with
      | .error (t, e) => s.failed c t e
      | .ok keys =>
        let x := { x with keys := keys }
        ((s.setCmd c x).takeKeys x).cmdActivate 0x00 c

/-! ### Ending commands early (R153, R169) -/

/-- Squash the speculative reads of the contexts bound to a command (R169, R171). -/
def State.squashCmd (s : State) (c : Nat) : State :=
  s.each (s.zyn.ctxs.filter fun (_, x) => x.cmd == some c) fun s (k, _) => s.discardSpecs (CtxId.ofKey k)

/-- An Intake context runs for a command, or a request for one waits: it may still reach CQPOST or a transfer. -/
def cmdBusy (s : State) (c : Nat) : Bool :=
  (s.zyn.ctxs.any fun (k, x) => decide (k < 512) && x.cmd == some c && decide (x.st ≠ .idle)) ||
  ((s.zyn.queues ++ s.zyn.stalled).any fun (p, l) => decide (p < 16) && l.any fun r => r.cmd == some c)

/-- Mark a command aborted before its commit point (R169, R176): a waiting lock request is withdrawn, speculation squashed, staging
freed; it ends at once unless an activation of it is still to reach CQPOST. -/
def State.abortCmd (s : State) (c : Nat) : State :=
  let s := (s.modCmd c fun x => { x with abort := true, st := .ending }).squashCmd c
  let s := match s.lock c with | some r => if r.held then s else s.dropLock c | none => s
  let s := s.freeCmdSlots c
  if cmdBusy s c then s else s.finish c 0 0x07

/-- Set Features Ordered Submission (R151, R160): feature 0xC2, for an SQ the function owns, its admin SQ among them. -/
def State.setOrdered (s : State) (f : Nat) (cid : BitVec 16) (v : Word) : State :=
  let q := v.toNat % 65536
  match s.sq f q with
  | none => s.adminDone f cid 0 0x02
  | some x => (s.setSq f q { x with ordered := v.getLsbD 16 }).ok f cid

end Sys2Proof.Machine
end

