-- ==== Sys2Proof/Machine/OpsReady.lean ====
section
/-! DEFINITION. CSTS.RDY, normal shutdown and the drain of an activation: what the device does once its conditions hold (R172, R173,
R179, R438 to R440). -/
namespace Sys2Proof.Machine

/-- The PF a function belongs to (R177). -/
def pfOf (s : State) (f : Nat) : Nat := if s.x4x4 && decide (2048 ≤ f) then 2048 else 0

/-- What CSTS.RDY of a function waits for, but for TT_CTRL.EN (R179, R438 to R440): a VF waits for PF0 too, unless it is ready already. -/
def readyWait (s : State) (f : Nat) : Bool :=
  let g := s.func f
  g.present && g.en && !g.resetting && !g.flr && !g.heldReset && s.boot.recovered && !s.boot.noReady &&
    (s.isPf f || (g.online && (s.tenState f == 1 || s.tenState f == 2) && (g.rdy || (s.func 0).rdy)))

/-- CSTS.RDY of every function, held at 0 while TT_CTRL.EN = 0; a reset under way clears it at its last step alone (R171, R194); NO_TT tells that some function waits for that alone (R439). -/
def State.readyEval (s : State) : State :=
  let en := s.flag F.TT_CTRL.EN
  let s := s.each s.funcList fun s f =>
    let g := s.func f
    let r := if g.resetting || g.flr || g.heldReset then g.rdy else en && readyWait s f
    if r == g.rdy then s else s.setFunc f { g with rdy := r, enabling := g.enabling && !r }
  s.setBit F.BOOT_STATUS.NO_TT (!en && s.funcList.any (readyWait s))

/-- The shutdown of a function covers the whole device (R172): PF0 in x8 mode; in x4+x4 mode the PF whose shutdown leaves no other PF
enabled (DEDUCED). -/
def wholeShutdown (s : State) (f : Nat) : Bool :=
  if s.x4x4 then s.isPf f && (let o := s.func (2048 - f); !o.en || o.shutdown || o.shst == 2) else f == 0

/-- The context of an outstanding Asynchronous Event Request: no rule ends one but an event or a reset, and nothing waits for it (DEDUCED). -/
def waitsEvent (s : State) (x : Cmd) : Bool := x.admin && (s.func x.func).aers.contains x.sqe.cid

/-- Dirty pool data of a function, or of all (R172). -/
def shutdownDirty (s : State) (f : Nat) : Bool :=
  s.host.bufs.any fun (x : Nat × Buf) => !x.2.fenced && (wholeShutdown s f || x.2.account == s.tenAccount f)

/-- The checkpoint of a device shutdown is written: every page covered, no image on its way (R172, R306). -/
def checkpointDone (s : State) : Bool := s.jnl.firstDirty.isEmpty && s.jnl.images.isEmpty && s.jnl.openRecs.isEmpty

/-- Request the images that a device shutdown still needs (R172, R306). -/
def State.checkpointAll (s : State) : State :=
  let asked (p : Nat) : Bool := s.zyn.queues.any fun (x : Nat × List Request) => x.2.any fun r => r.kind == 5 && r.arg0.toNat == p
  let run (p : Nat) : Bool := s.zyn.ctxs.any fun (x : Nat × Ctx) => x.2.kind == 5 && x.2.arg0.toNat == p && decide (x.2.st ≠ .idle)
  s.each (s.jnl.firstDirty.filter fun (x : Nat × Nat) => !asked x.1 && !run x.1 && !s.jnl.images.any fun im => im.page == x.1) fun s (p, _) => s.requestImage p

/-- A normal shutdown goes on and ends (R172): the function's commands have completed and its dirty data is programmed; a device
shutdown writes the checkpoint too, and SHUTDOWN becomes CLEAN, the threshold offsets are saved (R269) and the interval closes (R447). -/
def State.shutdownEval (s : State) : State :=
  s.each (s.funcList.filter fun f => (s.func f).shutdown && (s.func f).shst == 1) fun s f =>
    if (s.host.cmds.any fun (x : Nat × Cmd) => x.2.func == f && !waitsEvent s x.2) || shutdownDirty s f then s
    else
      let s := s.seal
      if wholeShutdown s f && !checkpointDone s then s.checkpointAll
      else
        let s := s.when (wholeShutdown s f) fun s =>
          let s := { s with mram := { s.mram with ring := [], tailSlot := s.mram.headSlot, tailSeq := s.mram.headSeq, offsets := s.media.offsets } }
          (s.fillUpdate.setShutdown sdClean).gbClose 4
        s.setFunc f { s.func f with shst := 2, shutdown := false }

/-- The Firmware Commit ends without a switch: the next bundle is dropped and fetch resumes (R173, R403). -/
def State.fwRefuse (s : State) (sct sc : Nat) : State :=
  match s.host.fwCommit with
  | none => s
  | some (f, cid) =>
    let s := { s with
      host := { s.host with fwCommit := none, fwRecorded := false, stopAll := s.flushing }
      zyn := { s.zyn with next := none, held := false } }
    s.adminDone f cid sct sc

/-- Steps 3 to 5 of an activation without reset (R173): once every other admitted command has completed, the ledger record of the image is
written and the switch is asked for; a full ledger refuses it (R403). -/
def State.fwEval (s : State) : State :=
  match s.host.fwCommit with
  | none => s
  | some (f, cid) =>
    let others := s.host.cmds.any fun (x : Nat × Cmd) => !(x.2.admin && x.2.func == f && x.2.sqe.cid == cid) && decide (x.2.st ≠ .posted) && !waitsEvent s x.2
    if s.host.fwRecorded || others then s
    else
      let img := if s.host.fwSlot then s.boot.slotB else s.boot.slotA
      if ledgerOpen s && ledgerFull s then s.fwRefuse 1 0x13
      else
        let s := s.when (ledgerOpen s) fun s =>
          s.ledgerPut (s.ledgerMake 2 0 img.digest img.svn img.bundle.id (if s.host.fwSlot then 1 else 0))
        ({ s with host := { s.host with fwRecorded := true } }).gcRequest .activation

end Sys2Proof.Machine
end

