-- ==== Sys2Proof/Machine/OpsReset.lean ====
section
/-! DEFINITION. The warm and the cold reset (R8 to R10), and the end of one function's reset (R171, R194). -/
namespace Sys2Proof.Machine

/-- Registers that a warm reset keeps: the cold domain and the fuses (R8, R9). -/
def coldRegs (s : State) : Sparse Word := s.regs.filter fun (x : Nat × Word) => match findReg x.1 with | some (d, _) => d.cold | none => false

/-- Contents of the MRAM at a reset: the counters it holds for start-up are up to date (R9, reset domains of the map). -/
def mramKept (s : State) : Mram :=
  { s.mram with
    retired := BitVec.ofNat 32 (max s.mram.retired.toNat (s.reg R.MED_RETIRED_CNT).toNat)
    lost := BitVec.ofNat 32 (max s.mram.lost.toNat (s.reg R.JNL_LOST_CNT).toNat) }

/-- What the Crypto Module keeps through every reset: fuses, key blocks on the media, the ledger in MRAM (R372, R373, R394). A checkpoint
request dies with its command. -/
def secKept (s : State) : Crypto := { fuses := s.sec.fuses, blocks := s.sec.blocks, ledger := { s.sec.ledger with cpReq := [] } }

/-- What the Gradebook keeps: its region of MRAM (R441, R449, R451). The open interval is lost (R443), and so is a summary being written (R449). -/
def gbKept (s : State) : Gradebook :=
  { slots := s.gb.slots, nextNo := s.gb.nextNo, lost := s.gb.lost, lostSev := s.gb.lostSev, diagNext := s.gb.diagNext, diags := s.gb.diags
    cur := { openAt := s.stamp, afterLost := true } }

/-- Namespace attachments stand through every reset (DEDUCED: R198 keeps them through an FLR, and no rule ends them). -/
def funcsKept (s : State) : Sparse Func :=
  (s.host.funcs.filter fun (x : Nat × Func) => !x.2.attached.isEmpty).map fun (x : Nat × Func) => (x.1, ({ attached := x.2.attached } : Func))

/-- Levels on the balls and the content of the xSPI device, which no reset of this device changes. -/
def bootKept (s : State) (cause : Nat) : BootSt :=
  { perst := s.boot.perst, coldHeld := s.boot.coldHeld, gpio0 := s.boot.gpio0, gpio1 := s.boot.gpio1, gpio2 := s.boot.gpio2
    bootSlot := s.boot.bootSlot, roleHint := s.boot.roleHint, bell := s.boot.bell, cause := cause
    sel0 := s.boot.sel0, sel1 := s.boot.sel1, slotA := s.boot.slotA, slotB := s.boot.slotB, badBlocks := s.boot.badBlocks }

/-- Mirrored namespaces whose bitmap of marks is lost: every region counts as marked (R469). -/
def marksLost (s : State) : List Nat := (List.range 64).filter fun i => thState s i == thSole || s.th.allMarked.contains i

/-- The state that both resets leave: nonvolatile contents and the outside world; everything else at its reset value (R9). -/
def resetState (s : State) (cause : Nat) : State :=
  { variant := s.variant
    media := { nand := s.media.nand }
    map := { voids := s.map.voids, zeroed := s.map.zeroed }
    mram := mramKept s
    dmc := { saved := s.dmc.saved }
    host := { funcs := funcsKept s }
    sec := secKept s
    gb := gbKept s
    th := { allMarked := marksLost s }
    boot := bootKept s cause
    out := s.out, freeCtr := s.freeCtr, pending := s.pending }

/-- Warm reset (R9): TT_PNUM keeps its number while TT_GEOM_ACT returns to 1 ms, so the two differ until the next boundary renumbers the
Periods when L was another (DESIGN CHOICE: R9 and R46 settle no earlier instant). The cold domain, the AON retention SRAM, the thermal model's state and THERMTRIP# are kept too. With no source
configured the Timetable is in FREERUN (R42, R45); row activity of the DRAM is lost (R355). -/
def State.warmReset (s : State) (cause : Nat) : State :=
  let t := resetState s cause
  let t := { t with
    regs := coldRegs s
    ttu := { time := s.ttu.time, elapsed := s.ttu.elapsed, frac := s.ttu.frac, pnum := s.ttu.pnum, referenced := s.ttu.referenced }
    pwr := { banks := s.pwr.banks, tiles := s.pwr.tiles, sink := s.pwr.sink, dSeen := s.pwr.dSeen, thermTrip := s.pwr.thermTrip }
    tst := { tap := s.tst.tap, trst := s.tst.trst, cells := s.tst.cells, driven := s.tst.driven, extest := s.tst.extest
             bypassBit := s.tst.bypassBit, bistFail := s.tst.bistFail } }
  let t := { t with dmc := { t.dmc with trackerUntil := some (s.ttu.elapsed + 32000000) } }
  ((t.setFld F.TT_STATUS.STATE ttFreerun).raise F.DMC_STATUS.TRACKER_RESET).raise F.DMC_EVT.RP_TRACKER_LOST

/-- Cold reset (R9): only nonvolatile contents are kept; the reset holds until the AON power-on detector releases it (R430). -/
def State.coldReset (s : State) (brownOut : Bool) : State :=
  let t := resetState s (if brownOut then 3 else 1)
  { t with boot := { t.boot with coldHeld := true } }

end Sys2Proof.Machine
end

