-- ==== Sys2Proof/Machine/OpsCtl.lean ====
section
/-! DEFINITION. Controller reset, link down and Function Level Reset (R147, R171, R194 to R198). -/
namespace Sys2Proof.Machine

/-! ### What every reset of a function ends -/

/-- Contexts bound to a command go IDLE, and requests for it are dropped (R73, R194 step 2). -/
def State.dropActs (s : State) (c : Nat) : State :=
  let s := s.each (s.zyn.ctxs.filter fun (x : Nat × Ctx) => x.2.cmd == some c && decide (x.2.st ≠ .idle)) fun s (k, _) =>
    let i := CtxId.ofKey k
    ((s.abandonOps i).releaseZones i).idle i
  let keep (l : Sparse (List Request)) : Sparse (List Request) :=
    (l.map fun (x : Nat × List Request) => (x.1, x.2.filter fun r => r.cmd != some c)).filter fun (x : Nat × List Request) => !x.2.isEmpty
  let s := { s with zyn := { s.zyn with queues := keep s.zyn.queues, stalled := keep s.zyn.stalled } }
  s.each (s.zyn.stalled.map (·.1)) fun s p => s.refill p

/-- All of a write's data is in the pool, and its step-1 records are still to be written. -/
def allFilled (x : Cmd) : Bool := x.dma && !x.placed && !x.bufs.isEmpty && x.resv == 0

/-- A command of a function under reset (R171 steps 2 to 4, R176, R194): an admin command or a committed one leaves its context; with host DMA
under way it drains where `drain` says so; a write whose data is all in the pool stands; anything else goes. -/
def State.quitCmd (s : State) (drain : Bool) (c : Nat) (x : Cmd) : State :=
  if x.admin || x.st = .posted then (s.dropActs c).freeCmd c
  else if drain && x.dma && cmdBusy s c then s.setCmd c { x with st := .draining }
  else
    let s := s.dropActs c
    let s := if allFilled x then s.placeCmd c else s
    s.vanish c

/-- What the function's admin commands own beyond their contexts (R370, R399, R378, R173, R485): the CO session of a PF ends, a Device
Self-test ends with result 2, a waiting checkpoint or slot clearing goes on with nobody to answer, and an activation that has not come to
the switch is given up (DEDUCED: no rule names a Firmware Commit whose controller is reset). -/
def State.dropOwners (s : State) (f : Nat) : State :=
  let s := s.when ((match s.tst.selfTest with | some t => t.func == f | none => false)) (·.stEnd 2)
  let l := s.sec.ledger
  let s := { s with sec := { s.sec with
    session := if s.sec.session = some f then none else s.sec.session
    clearing := s.sec.clearing.map fun (x : Nat × Option (Nat × BitVec 16)) => match x.2 with
      | some (g, _) => if g = f then (x.1, none) else x
      | none => x
    unbinds := s.sec.unbinds.map fun (u : Unbind) => { u with owner := u.owner.filter fun (x : Nat × BitVec 16) => x.1 != f }
    ledger := { l with cpReq := l.cpReq.filter fun (x : Nat × BitVec 16) => x.1 != f } } }
  match s.host.fwCommit with
  | some (g, _) =>
    if g ≠ f then s
    else if s.host.fwRecorded then { s with host := { s.host with fwCommit := none } }
    else { s with
      host := { s.host with fwCommit := none, stopAll := s.flushing }
      zyn := { s.zyn with next := none, held := false } }
  | none => s

/-- SQEs not admitted are discarded, and a claim of the function ends (R171 step 1, R194 step 1). -/
def State.dropSqes (s : State) (f : Nat) : State :=
  { s with host := { s.host with
    sqs := s.host.sqs.map fun (x : Nat × Sq) => if x.1 / 65536 = f then (x.1, { x.2 with sqes := [], stamps := [] }) else x
    claim := match s.host.claim with | some (g, q) => if g = f then none else some (g, q) | none => none } }.setBit F.BPM_STATUS.CLAIM
      (s.host.claim.any fun (x : Nat × Nat) => x.1 != f)

/-- Steps 1 to 5 of R171 for one function; its last context ends the reset. An FLR of it that is under way is taken over (R10): no FLR_DONE
follows, and the tenant record leaves RESETTING here (DEDUCED: no later step would return it). -/
def State.ctlReset (s : State) (f : Nat) (drain : Bool := true) : State :=
  let g := s.func f
  let s := s.setFunc f { g with resetting := true, stop := true, enabling := false, heldReset := false, flr := false }
  let s := s.when (g.flr && s.tenState f == 3) fun s => s.tjrn 5 f 0 (setBits (s.tenWord f 0) 0 2 (if g.online then 2 else 1))
  let s := (s.dropSqes f).dropOwners f
  let s := s.each (s.host.cmds.filter fun (x : Nat × Cmd) => x.2.func == f) fun s (c, x) => s.quitCmd drain c x
  (s.when ((s.func f).resetting && s.ctxCount f == 0) (·.resetDone f)).readyEval

/-- A reset of a function is held until the halt or freeze ends (R103). -/
def State.holdReset (s : State) (f : Nat) : State := s.setFunc f { s.func f with heldReset := true, stop := true }

/-- The DMC leaves its freeze trained anew, or stays frozen for good (R364, R365). -/
def State.unfreeze (s : State) (trainOk : Bool) : State :=
  if s.fld F.DMC_STATUS.STATE ≠ 4 then s
  else if trainOk then s.setFld F.DMC_STATUS.STATE 2
  else { s.raise F.DMC_EVT.TRAIN_FAIL with boot := { s.boot with noReady := true } }

/-- CC.EN 1→0 of a function (R171); while HALTED, or with the DMC frozen, the first one of a PF starts the flush of R314, and every other is
held until that ends (R103, R364). -/
def State.controllerReset (s : State) (f : Nat) (trainOk : Bool) (drain : Bool := true) : State :=
  let halted := s.fld F.ZYN_STATUS.STATE == 4
  let frozen := s.fld F.DMC_STATUS.STATE == 4
  if !halted && !frozen then s.ctlReset f drain
  else
    let s := s.holdReset f
    if !s.isPf f || s.flushing || s.boot.noReady then s
    else
      let s := s.unfreeze trainOk
      if s.fld F.DMC_STATUS.STATE = 4 then s else s.flushStart false

/-! ### Ports (R142, R147) -/

/-- Functions of a port. -/
def portFuncs (s : State) (port : Bool) : List Nat := s.funcList.filter fun f => if s.x4x4 then decide (2048 ≤ f) == port else !port

/-- Hot Reset, Link Down or containment (R147): every function of the port takes a controller reset in which host DMA under way fails, and the
port's configuration space, with VF Enable in it, returns to its reset values. PTM_VALID goes with port 0 (DEDUCED: the device has one
PTM Requester). -/
def State.linkDown (s : State) (port trainOk : Bool) : State :=
  let fs := portFuncs s port
  let s := s.each fs fun s f => s.controllerReset f trainOk false
  let s := s.each (fs.filter fun f => !s.isPf f) fun s f => s.setFunc f { s.func f with present := false }
  let s := { s with host := { s.host with
    numVfs0 := if port then s.host.numVfs0 else 0, numVfs1 := if port then 0 else s.host.numVfs1
    l1Port0 := if port then s.host.l1Port0 else 0, l1Port1 := if port then 0 else s.host.l1Port1 } }
  if port then (((s.setFld F.HIU_PORT_STATUS.P1_RATE 0).setFld F.HIU_PORT_STATUS.P1_WIDTH 0).setFld F.HIU_PORT_STATUS.P1_FLIT 0).raise F.HIU_EVT.P1_LINK_DOWN
  else ((((s.setFld F.HIU_PORT_STATUS.P0_RATE 0).setFld F.HIU_PORT_STATUS.P0_WIDTH 0).setFld F.HIU_PORT_STATUS.P0_FLIT 0).clear F.HIU_PORT_STATUS.PTM_VALID).raise
    F.HIU_EVT.P0_LINK_DOWN

/-! ### Function Level Reset (R194 to R198) -/

/-- Host DMA of a write that a reset overtakes ends with its data in the pool (R194 step 4): the blocks that no buffer holds yet are filled
from the command's data. -/
def State.lateData (s : State) (c : Nat) (x : Cmd) (data : List Block) : State :=
  let have' := x.bufs.filterMap fun h => (s.buf h).map (·.lba)
  let ps := (pieces s x x.first data).filter fun p => !have'.contains p.lba
  let (hs, s) := s.fillBufs c (s.tenAccount x.func) x.sqe.nsid.toNat ps
  s.modCmd c fun x => { x with bufs := x.bufs ++ hs, resv := x.resv - hs.length }

/-- Transfers to the host that have begun for a command end here: the DMA finishes, and the contexts end after it (R194 step 3). -/
def State.drainReads (s : State) (c : Nat) : State :=
  s.each (s.zyn.ctxs.filter fun (x : Nat × Ctx) => x.2.cmd == some c) fun s (k, x) =>
    s.each (x.xfers.filter fun (y : Xfer) => match Desc.of y.dst with | some (.host _) => y.blocks != 0 | _ => false) fun s y =>
      match execXferComplete (CtxId.ofKey k) (BitVec.ofNat 4 y.tag) false [] s with
      | .next s => s
      | _ => s

/-- A command of a function under FLR (R194 steps 2 to 5, R196): its contexts go IDLE; a read whose transfer to the host has begun drains; a write
whose DMA had begun gets its data and stands. -/
def State.flrCmd (s : State) (late : List (BitVec 17 × List Block)) (c : Nat) (x : Cmd) : State :=
  if x.admin || x.st = .posted then (s.dropActs c).freeCmd c
  else
    let s := (s.drainReads c).dropActs c
    let s := match late.find? fun p => p.1.toNat == c with
      | some (_, data) => if x.dma && x.sqe.writeType && !x.placed then s.lateData c x data else s
      | none => s
    let s := match s.cmd c with | some y => if allFilled y then s.placeCmd c else s | none => s
    s.vanish c

/-- Steps 1 to 5 of an FLR of one function (R194), which a controller reset under way absorbs (R10); `leaving`: the VF is removed (R198). -/
def State.flrOne (s : State) (f : Nat) (late : List (BitVec 17 × List Block)) (leaving : Bool) : State :=
  if !(s.func f).present then s
  else if (s.func f).resetting then s.setFunc f { s.func f with leaving := leaving || (s.func f).leaving }
  else
    let g := s.func f
    let s := s.setFunc f { g with flr := true, leaving := leaving || g.leaving, stop := true }
    let s := (s.dropSqes f).dropOwners f
    let s := s.when (s.tenState f != 0) fun s => s.tjrn 5 f 0 (setBits (s.tenWord f 0) 0 2 3)
    s.each (s.host.cmds.filter fun (x : Nat × Cmd) => x.2.func == f) fun s (c, x) => s.flrCmd late c x

/-- VFs of a PF that are present, from number `n` + 1 on. -/
def vfsAbove (s : State) (pf : Bool) (n : Nat) : List Nat :=
  s.funcList.filter fun f => let base := if pf then 2048 else 0
    !s.isPf f && (s.func f).present && (if s.x4x4 then decide (2048 ≤ f) == pf else !pf) && decide (base + n < f)

def State.setNumVfs (s : State) (pf : Bool) (n : Nat) : State :=
  { s with host := { s.host with numVfs0 := if pf then s.host.numVfs0 else n, numVfs1 := if pf then n else s.host.numVfs1 } }

/-- VF Enable cleared, or NumVFs lowered to `n` (R198): each VF removed takes an FLR, in parallel. -/
def State.removeVfs (s : State) (pf : Bool) (n : Nat) (late : List (BitVec 17 × List Block)) : State :=
  (s.each (vfsAbove s pf n) fun s f => s.flrOne f late true).setNumVfs pf n

/-- An FLR of a function; that of a PF clears VF Enable (R194, R198). -/
def State.flr (s : State) (f : Nat) (late : List (BitVec 17 × List Block)) : State :=
  let s := s.flrOne f late false
  if s.isPf f then s.removeVfs (f == 2048) 0 late else s

/-- Step 6 of an FLR, once no command of the function holds a context (R194, R198): the tenant is back to ONLINE or OFFLINE. -/
def State.flrDone (s : State) (f : Nat) : State :=
  let g := s.func f
  if !g.flr || s.ctxCount f ≠ 0 then s
  else
    let s := s.setFunc f { g with flr := false, shutdown := false }
    let s := s.resetDone f
    let s := s.setFunc f { sgetD {} f s.host.funcs with present := !g.leaving, leaving := false }
    let s := s.when (s.tenState f == 3) fun s => s.tjrn 5 f 0 (setBits (s.tenWord f 0) 0 2 (if g.online then 2 else 1))
    ((s.raise F.TEN_EVT.FLR_DONE).when g.leaving (·.raise F.TEN_EVT.VF_REMOVED)).readyEval

end Sys2Proof.Machine
end

