-- ==== Sys2Proof/Machine/OpsTest.lean ====
section
/-! DEFINITION. Loop-backs, PRBS and margin points (R475 to R480), and the Device Self-test's log (R484, R485). -/
namespace Sys2Proof.Machine

def State.setLoops (s : State) (l : List Loop) : State :=
  { s with tst := { s.tst with loops := l } }

/-- RUNNING follows the list of loop-backs. -/
def State.loopsEval (s : State) : State := s.setBit F.TST_LB_STATUS.RUNNING (!s.tst.loops.isEmpty)

/-- The loop-back that runs on an interface instance: at most one (R475). -/
def State.loop (s : State) (iface inst : Nat) : Option Loop := s.tst.loops.find? fun l => l.iface == iface && l.inst == inst

/-- No data transfer is in progress on a channel (R475). -/
def channelQuiet (s : State) (chan : Nat) : Bool :=
  !(s.media.decoding.any fun d => (Pa.of d.req.addr).die / 32 == chan) &&
  !(s.media.luns.any fun (x : Nat × Lun) => x.1 / 32 == chan && x.2.unit.isSome)

/-- Entry condition of a loop-back (R475). `via1687`: started through the IEEE 1687 network; otherwise the PF of port `pf` wrote the
register. The host port is looped through BAR2 only by the manager of the other port. -/
def loopAllowed (s : State) (pf via1687 : Bool) (iface inst depth lun : Nat) : Bool :=
  let d := inst * 32 + lun
  match iface with
  | 0 => decide (1 ≤ depth) && decide (depth ≤ 4) && (inst == 0 || (inst == 1 && s.x4x4)) &&
      (via1687 || (s.x4x4 && (inst == 1) != pf))
  | 1 => decide (1 ≤ depth) && decide (depth ≤ 4) && decide (inst ≤ 1) && !s.flag F.TH_CTRL.EN
  | 2 => s.media.dies.any (fun d => d / 32 == inst) && (match depth with
      | 1 => channelQuiet s inst
      | 2 => (s.findSlots inst 1).isSome
      | 3 => s.inService d && (s.lun d).idle && (s.lun d).queue.isEmpty
      | _ => false)
  | 3 => inst == 0 && (match depth with
      | 1 => via1687 && s.fld F.DMC_STATUS.STATE != 2
      | 2 => s.fld F.DMC_STATUS.STATE == 2
      | _ => false)
  | 4 | 5 => inst == 0
  | _ => false

/-- START (R475, R476): BUSY where the instance runs one already, REFUSED where the entry condition is not met. -/
def State.loopStart (s : State) (pf via1687 trainOk : Bool) : State :=
  let iface := s.fld F.TST_LB_CTRL.IFACE
  let inst := s.fld F.TST_LB_CTRL.INST
  let depth := s.fld F.TST_LB_CTRL.DEPTH
  let lun := s.fld F.TST_LB_CTRL.LUN
  if (s.loop iface inst).isSome then s.setFld F.TST_LB_STATUS.RESULT 4
  else if !loopAllowed s pf via1687 iface inst depth lun then s.setFld F.TST_LB_STATUS.RESULT 5
  else
    let slot := if iface = 2 && depth = 2 then (s.findSlots inst 1).map (stKey inst) else none
    let l : Loop := { iface := iface, inst := inst, depth := depth, lun := lun, master := s.flag F.TST_LB_CTRL.MASTER
                      bursts := max 1 (s.fld F.TST_LB_ARG.BURSTS), inBurst := iface == 2 && depth == 1, slot := slot }
    let s := match slot with | some k => s.putSlot k { acc := true } | none => s
    let s := (((s.setLoops (l :: s.tst.loops)).loopsEval).setFld F.TST_LB_STATUS.RESULT 0).setFld F.TST_LB_STATUS.ERRORS 0
    s.when (iface == 0) fun s => s.linkDown (inst == 1) trainOk

/-- A loop-back leaves its instance: its staging slot is free and its channel is served again (R475, R476). -/
def State.loopGone (s : State) (l : Loop) : State :=
  let s := (s.setLoops (s.tst.loops.filter fun x => !(x.iface == l.iface && x.inst == l.inst))).loopsEval
  let s := match l.slot with | some k => { s with media := { s.media with slots := sdel k s.media.slots } } | none => s
  if l.iface = 2 then s.serveAll else s

/-- A loop-back ends with a result and a count of mismatches (R475, R477). -/
def State.loopEnd (s : State) (l : Loop) (result errors : Nat) : State :=
  ((s.loopGone l).setFld F.TST_LB_STATUS.RESULT result).setFld F.TST_LB_STATUS.ERRORS errors

/-- STOP ends the running loop-back of the instance that TST_LB_CTRL names; the RESULT it leaves is stated nowhere: a free value. -/
def State.loopStop (s : State) : State :=
  match s.loop (s.fld F.TST_LB_CTRL.IFACE) (s.fld F.TST_LB_CTRL.INST) with
  | none => s
  | some l => let (n, s) := s.draw; (s.loopGone l).setFld F.TST_LB_STATUS.RESULT (n % 8)

/-- A pad burst ends; the next one begins once no class-1 or class-2 request is queued on the channel (R476). -/
def State.burstEnd (s : State) (chan : Nat) : State :=
  match s.loop 2 chan with
  | none => s
  | some l =>
    if l.depth ≠ 1 then s
    else
      let put (s : State) (x : Loop) : State := s.setLoops (s.tst.loops.map fun y => if y.iface = 2 && y.inst = chan then x else y)
      let m : Loop := { l with inBurst := false, bursts := if l.inBurst then l.bursts - 1 else l.bursts }
      let s := (put s m).each (s.media.dies.filter fun d => d / 32 == chan) (·.serve ·)
      let queued := s.media.luns.any fun (x : Nat × Lun) => x.1 / 32 == chan && x.2.queue.any fun r => decide (r.cls ≤ 2)
      if m.bursts ≠ 0 && !queued then put s { m with inBurst := true } else s

/-- A pattern completes (R477): no mismatch passes. A pad loop-back completes after its last burst. -/
def State.loopComplete (s : State) (iface inst errors : Nat) : State :=
  match s.loop iface inst with
  | none => s
  | some l => if l.iface = 2 && l.depth = 1 && (l.inBurst || l.bursts ≠ 0) then s else s.loopEnd l (if errors = 0 then 1 else 2) errors

/-- A DMC capture or freeze ends a loop-back through the DRAM's controller with FAIL (R478). -/
def State.dmcLoopFail (s : State) : State :=
  match s.loop 3 0 with
  | some l => if l.depth = 2 then s.loopGone l |>.setFld F.TST_LB_STATUS.RESULT 2 else s
  | none => s

/-! ### Lanes (R479, R480) -/

/-- A high-speed lane is in loop-back depth 1, 3 or 4 (R479): lanes 0 to 7 PCIe, 8 to 11 Tether with West first. -/
def laneLooped (s : State) (k : Nat) : Bool :=
  let i := if k < 8 then (0, if s.x4x4 && decide (4 ≤ k) then 1 else 0) else (1, (k - 8) / 2)
  match s.loop i.1 i.2 with | some l => l.depth != 2 | none => false

/-- Errors counted by a checker, saturating (R479). -/
def State.prbsCount (s : State) (k n : Nat) : State := s.count (F.TST_PRBS_ERR.COUNT.ix k) n

/-- MARGIN START (R480): a point begins on the lane that the register names; DONE clears. -/
def State.marginStart (s : State) : State :=
  let lane := s.fld F.TST_MARGIN_CTRL.LANE
  if 12 ≤ lane then s else { s.clear F.TST_MARGIN_CTRL.DONE with tst := { s.tst with margin := some lane } }

/-! ### Device Self-test (R484, R485) -/

/-- A segment of the running test ends: the next one begins, or the test ends with result 0; a failed one ends it with result 7, and a
CAST failure enters the error state (R388). -/
def State.stSegment (s : State) (pass : Bool) (lba : Option Nat) : State :=
  match s.tst.selfTest with
  | none => s
  | some t =>
    let code := if t.ext then 2 else 1
    let log (s : State) (e : StLog) : State := { s with tst := { s.tst with selfTest := none, stLog := (e :: s.tst.stLog).take 20 } }
    if !pass then (log s { code := code, result := 7, seg := t.seg, lba := lba }).when (t.seg == 3) (·.secError 1)
    else if t.seg = (if t.ext then 9 else 6) then log s { code := code, result := 0 }
    else { s with tst := { s.tst with selfTest := some { t with seg := t.seg + 1 } } }

/-- Start a test, or end its running segment (R484). -/
def State.selfTestRow (s : State) (f : Nat) (cid : BitVec 16) (ext : Bool) (nsid : Nat) (seg : Option (Bool × Option Nat)) : State :=
  match seg with
  | some (pass, lba) => (match s.tst.selfTest with | some t => if t.ext = ext then s.stSegment pass lba else s | none => s)
  | none => s.pfOnly f cid fun s =>
    if s.tst.selfTest.isSome then s.adminDone f cid 1 0x1D
    else if nsid ≠ 0 && nsid ≠ 0xFFFFFFFF && s.nsState nsid = 0 then s.adminDone f cid 0 0x0B
    else ({ s with tst := { s.tst with selfTest := some { func := f, ext := ext, nsid := nsid } } }).ok f cid

end Sys2Proof.Machine
end

