-- ==== Sys2Proof/Machine/OpsView.lean ====
section
/-! DEFINITION. What a read of a register shows where its content has a home elsewhere in the state (19_registers.md). -/
namespace Sys2Proof.Machine

/-! ### Register view -/

/-- Waiting requests and wide-list entries in use of CMD_RLT_STATUS: a wide request past the 256th holds no entry (R163). -/
def rltStatus (s : State) : Nat :=
  (s.host.rlt.filter fun r => r.armed && !r.held).length % 2 ^ 18 + min 256 (s.host.rlt.filter (·.wide)).length * 2 ^ 18

/-- Free 4 KiB pages of the filter store (R217, R220). -/
def storeFree (s : State) : Nat :=
  2048 - storePages s

/-- GB_STATUS. -/
def gbStatus (s : State) : Nat :=
  s.gb.cur.sev % 4 + (if s.gb.writing.isSome then 4 else 0) + (if s.gb.deferred.isSome then 8 else 0)
    + (s.gb.slots.filter fun (k, u) => decide (k < 48) && u.body.sev == 3).length * 16
    + (s.gb.slots.filter fun (k, _) => decide (48 ≤ k)).length * 1024

/-- PMU_DOM_STATE: two bits per domain. -/
def domState (s : State) : Nat := (List.range 14).foldl (fun n d => n + s.dom d % 4 * 4 ^ d) 0

/-- The value of a register: summaries and counters with a home elsewhere are computed, write-only and pulse bits read 0. -/
def State.view (s : State) (off : Nat) : Word :=
  let lo (n : Nat) : Word := BitVec.ofNat 32 n
  let hi (n : Nat) : Word := BitVec.ofNat 32 (n / 2 ^ 32)
  let led := s.sec.ledger
  if off = R.GLB_SERIAL_LO then lo Config.serial.toNat
  else if off = R.GLB_SERIAL_HI then hi Config.serial.toNat
  else if off = R.GLB_STATUS then glbStatus s
  else if off = R.GLB_EVT_SUM then evtSum s
  else if off = R.GLB_LOCK_STATUS then lockStatus s
  else if off = R.TT_TIME_LO then lo s.ttu.time.toNat
  else if off = R.TT_TIME_HI then hi s.ttu.time.toNat
  else if off = R.TT_PNUM_LO then lo s.ttu.pnum.toNat
  else if off = R.TT_PNUM_HI then hi s.ttu.pnum.toNat
  else if off = R.TT_STATUS then ((s.setFld F.TT_STATUS.PTYPE s.ptype).setBit F.TT_STATUS.COMMIT_BUSY s.ttu.gc.isSome).reg off
  else if off = R.CMD_INFLIGHT then lo s.host.cmds.length
  else if off = R.CMD_RLT_STATUS then lo (rltStatus s)
  else if R.TEN_FUNC_STATE ≤ off && off < R.TEN_FUNC_STATE + 4 * 4096 then
    let f := (off - R.TEN_FUNC_STATE) / 4
    let a := s.tenAccount f
    lo (s.tenState f + s.tenClass f * 4 + (if softWarn s a then 32 else 0) + (if hardWarn s a then 64 else 0) + s.ctxCount f % 2 ^ 18 * 2 ^ 14)
  else if R.BPM_USED ≤ off && off < R.BPM_USED + 4 * 4097 then
    let a := (off - R.BPM_USED) / 4
    ((s.setBit (F.BPM_USED.SOFT.ix a) (softWarn s a)).setBit (F.BPM_USED.HARD.ix a) (hardWarn s a)).reg off
  else if off = R.ZYN_STATUS then (s.setFld F.ZYN_STATUS.FQ_LEVEL s.zyn.faultQ.length).reg off
  else if off = R.JNL_SEQ_LO then lo s.jnl.next
  else if off = R.JNL_SEQ_HI then hi s.jnl.next
  else if off = R.JNL_SEALED_LO then lo s.jnl.sealed
  else if off = R.JNL_SEALED_HI then hi s.jnl.sealed
  else if off = R.SEC_LEDGER_HEAD_LO then lo led.head
  else if off = R.SEC_LEDGER_HEAD_HI then hi led.head
  else if off = R.SEC_LEDGER_TAIL_LO then lo led.tail
  else if off = R.SEC_LEDGER_TAIL_HI then hi led.tail
  else if off = R.SEC_LEDGER_ACK_LO then lo led.ack
  else if off = R.SEC_LEDGER_ACK_HI then hi led.ack
  else if off = R.SEC_LEDGER_MISC then lo (led.missed % 65536 + (if led.ovf.isSome then 65536 else 0) + led.cpSlot % 32 * 2 ^ 17)
  else if off = R.PMU_DOM_STATE then lo (domState s)
  else if R.PMU_PL_TABLE ≤ off && off < R.PMU_PL_TABLE + 24 then
    s.reg off ||| BitVec.ofNat 32 (levelCore ((off - R.PMU_PL_TABLE) / 4))
  else if R.PMU_VOTE ≤ off && off < R.PMU_VOTE + 40 then lo (Machine.voteWord s ((off - R.PMU_VOTE) / 4))
  else if off = R.MED_ENV_STATUS then ((s.setFld F.MED_ENV_STATUS.SUM (min 65535 (envSum s))).setFld F.MED_ENV_STATUS.WAITING (min 4095 s.media.envQ.length)).reg off
  else if off = R.MAP_ZONE_RESV then (s.setFld F.MAP_ZONE_RESV.MAR_SUM ((s.nsids.filter s.nsZoned).map s.nsMar).sum).reg off
  else if off = R.JNL_CP_STATUS then (s.setFld F.JNL_CP_STATUS.BLOCKS s.mram.cpSet.length).reg off
  else if off = R.SC_FREE then
    lo ((freeIndices s 1).length % 65536 + (freeIndices s 2).length % 16384 * 65536)
  else if off = R.PAU_STATUS then
    ((s.setFld F.PAU_STATUS.BUSY (s.sc.engines.foldl (fun (n : Nat) (x : Nat × Nat) => n + 2 ^ x.1) 0)).setFld F.PAU_STATUS.WAITING s.sc.pauWait.length).reg off
  else if off = R.PAU_STORE then
    lo (storeFree s % 4096 + (storeImages s).length % 65536 * 4096)
  else if off = R.ECC_STATUS then (s.setFld F.ECC_STATUS.REBUILD_WAIT s.ecc.rebuilds.length).reg off
  else if off = R.SEC_STATUS then
    ((((s.setFld F.SEC_STATUS.LIFECYCLE s.lifecycle).setBit F.SEC_STATUS.CO_SESSION s.sec.session.isSome).setBit F.SEC_STATUS.LEDGER_POLICY led.policy).setFld
      F.SEC_STATUS.EPOCH s.sec.fuses.epoch).reg off
  else if off = R.SEC_SVN then (s.setFld F.SEC_SVN.FUSED s.sec.fuses.svn).reg off
  else if off = R.SEC_KEYSLOTS then lo s.sec.slots.length
  else if off = R.MAP_STATUS then
    ((s.setBit F.MAP_STATUS.RECOVERING (s.nsids.any fun n => s.nsState n == 2)).setFld F.MAP_STATUS.PINNED
      ((s.map.cache.map fun (x : Nat × List CacheLine) => (x.2.filter fun c => decide (c.pins ≠ 0)).length).sum)).reg off
  else if 0xA00000 ≤ off && off < 0xC00000 && off % 0x10000 = 4 then
    let ch := (off - 0xA00000) / 0x10000
    lo (s.media.luns.foldl (fun (n : Nat) (x : Nat × Lun) => if x.1 / 32 = ch && decide (x.2.run ≠ .none) then n + 2 ^ (x.1 % 32) else n) 0)
  else if 0xA00000 ≤ off && off < 0xC00000 && off % 0x10000 = 0x10 then
    (match sget ((off - 0xA00000) / 0x10000) s.media.stripes with
    | some t => lo (1 + t.members.length % 32 * 2 + (if t.bg then 64 else 0) + (if t.slc then 128 else 0))
    | none => 0)
  else if off = R.GB_STATUS then lo (gbStatus s)
  else if off = R.GB_NEXT_LO then lo s.gb.nextNo
  else if off = R.GB_NEXT_HI then hi s.gb.nextNo
  else if off = R.GB_LOST then lo s.gb.lost
  else match findReg off with
    | some (d, _) => s.reg off &&& ~~~(BitVec.ofNat 32 (d.wo ||| d.w1p))
    | none => 0


end Sys2Proof.Machine
end

