-- ==== Sys2Proof/Machine/OpsThermal.lean ====
section
/-! DEFINITION. The thermal model, diodes, thresholds and throttling (R422 to R425). -/
namespace Sys2Proof.Machine

/-- Tile of diode `j` (R423). -/
def diodeTile (j : Nat) : Nat := [1, 3, 4, 6, 9, 11, 12, 14].getD j 0
/-- Tiles that share an edge. -/
def tileAdj (i : Nat) : List Nat :=
  (List.range 16).filter fun j => (i / 4 == j / 4 && (i + 1 == j || j + 1 == i)) || (i % 4 == j % 4 && (i + 4 == j || j + 4 == i))
/-- Tiles that touch at an edge or a corner (R423). -/
def tileTouch (i j : Nat) : Bool :=
  i != j && decide (i / 4 ≤ j / 4 + 1) && decide (j / 4 ≤ i / 4 + 1) && decide (i % 4 ≤ j % 4 + 1) && decide (j % 4 ≤ i % 4 + 1)

def State.tile (s : State) (i : Nat) : Rat := s.pwr.tiles.toList.getD i 0
def State.setTile (s : State) (i : Nat) (v : Rat) : State :=
  if h : i < 16 then { s with pwr := { s.pwr with tiles := s.pwr.tiles.set i v h } } else s

/-- A 12-bit signed field in steps of 0.125 °C. -/
def eighths (n : Nat) : Rat := (((if 2048 ≤ n % 4096 then (n % 4096 : Int) - 4096 else n % 4096) : Int) : Rat) / 8
/-- The field of a temperature, rounded down to a step and held in range. -/
def toEighths (t : Rat) : Nat := ((max (-2048) (min 2047 (t * 8).floor)) % 4096).toNat

def diodeBad (s : State) (j : Nat) : Bool := s.flag (F.TMU_DIODE.BAD.ix j)
def diodeTemp (s : State) (j : Nat) : Rat := eighths (s.fld (F.TMU_DIODE.READING.ix j))
/-- Residual of a diode (R422). -/
def residual (s : State) (j : Nat) : Rat := diodeTemp s j - s.tile (diodeTile j)

/-- Good neighbours of a diode (R423). -/
def goodNeighbours (s : State) (j : Nat) : List Nat :=
  (List.range 8).filter fun k => tileTouch (diodeTile j) (diodeTile k) && !diodeBad s k && s.pwr.dSeen.getLsbD k

/-- A diode is judged in native mode: COMPAT = 0, or fewer than 2 good neighbours (R423). -/
def nativeJudged (s : State) (j : Nat) : Bool := !s.flag F.TMU_CTRL.COMPAT || decide ((goodNeighbours s j).length < 2)

/-- A tile is taken as at least THROTTLE: its diode is bad and judged in native mode (R423). -/
def tileForced (s : State) (i : Nat) : Bool := (List.range 8).any fun j => diodeTile j == i && diodeBad s j && nativeJudged s j

/-- Value of a tile for threshold decisions. -/
def tileValue (s : State) (i : Nat) : Rat :=
  if tileForced s i then max (s.tile i) (s.fld F.TMU_THRESH.THROTTLE : Rat) else s.tile i

/-- The tile that gives the composite: the hottest, the lowest-numbered of equals. -/
def hotTile (s : State) : Nat := (List.range 16).foldl (fun b i => if tileValue s b < tileValue s i then i else b) 0

/-- Composite temperature: the highest tile value rounded to whole kelvin, in °C above 273 K (R423; the thresholds in kelvin are
their °C values plus 273). -/
def composite (s : State) : Int := (tileValue s (hotTile s) + 27315 / 100 + 1 / 2).floor - 273

/-- BAND of a composite: 0 below WARN, 1 WARN, 2 THROTTLE, 3 CRIT. -/
def thermalBand (s : State) (t : Int) : Nat :=
  if (s.fld F.TMU_THRESH.CRIT : Int) ≤ t then 3 else if (s.fld F.TMU_THRESH.THROTTLE : Int) ≤ t then 2
  else if (s.fld F.TMU_THRESH.WARN : Int) ≤ t then 1 else 0

/-- Floor of the throttle level by Host Controlled Thermal Management (R425); 0 K disables a threshold. -/
def hctmFloor (s : State) (t : Int) : Nat :=
  if s.pwr.tmt2 ≠ 0 && decide ((s.pwr.tmt2 : Int) ≤ t + 273) then 4
  else if s.pwr.tmt1 ≠ 0 && decide ((s.pwr.tmt1 : Int) ≤ t + 273) then 1 else 0

/-- Set the throttle level: the level cap goes through R406, rates and the Envelope factor wait for the next Period boundary (R425). -/
def State.setThrottle (s : State) (l : Nat) : State :=
  if l = s.fld F.TMU_STATUS.LEVEL then s
  else
    let s := s.setFld F.TMU_STATUS.LEVEL l
    let s := { s with
      sc := { s.sc with
        nextRate := some (if 5 ≤ l then 2 else if l = 4 then 1 else 0)
        nextPau := some (if 7 ≤ l then 2 else if l = 6 then 1 else 0) }
      pwr := { s.pwr with nextFactor := some (if l = 9 then 50 else if l = 8 then 75 else 100) } }
    s.plEval

/-- Temperature Threshold of the SMART log: over or under, with its event (R423; the type and information of the event are NVMe's). -/
def State.tempEvent (s : State) (t : Int) : State :=
  let k := t + 273
  let hit := (s.pwr.tmpOver ≠ 0 && decide ((s.pwr.tmpOver : Int) ≤ k)) || decide (k ≤ (s.pwr.tmpUnder : Int)) && s.pwr.tmpUnder != 0
  s.when hit fun s => s.aen 0 1 1

/-- Evaluate the thresholds against the composite (R424, R425): crossings, the level's immediate rules, and SHUT. -/
def State.thermalEval (s : State) : State :=
  let t := composite s
  let old := s.fld F.TMU_STATUS.BAND
  let new := thermalBand s t
  let hot := hotTile s
  let s := s.each (List.range 16) fun s i =>
    (s.setFld (F.TMU_TILE.TEMP.ix i) (toEighths (s.tile i))).setBit (F.TMU_TILE.FORCED.ix i) (tileForced s i)
  let s := ((s.setFld F.TMU_STATUS.BAND new).setFld F.TMU_STATUS.HOT_TILE hot).setFld F.TMU_STATUS.TMAX (toEighths (t : Rat))
  let up (b : Nat) : Bool := decide (old < b) && decide (b ≤ new)
  let down (b : Nat) : Bool := decide (b ≤ old) && decide (new < b)
  let s := s.when (up 1) fun s => ((s.raise F.TMU_EVT.WARN).entry 0x0A sevNotice).wakeAdmin
  let s := s.when (up 2) (·.raise F.TMU_EVT.THROTTLE)
  let s := s.when (up 3) fun s => ((s.raise F.TMU_EVT.CRIT).entry 0x28 sevCritical).setThrottle 9
  let s := s.each ([1, 2, 3] : List Nat) fun s b => s.when (up b || down b) (·.policy 0x06 (hot + b * 256))
  let s := { s with pwr := { s.pwr with wctemp := decide (1 ≤ new), cctemp := decide (new = 3) } }
  let l := s.fld F.TMU_STATUS.LEVEL
  let l := max l (max (hctmFloor s t) (if 2 ≤ new then 1 else 0))
  let s := (s.setThrottle l).tempEvent t
  s.when (decide ((s.fld F.TMU_THRESH.SHUT : Int) ≤ t)) fun s => (s.raise F.TMU_EVT.SHUT).flushStart true

/-- One step of the level after UP_MS or DOWN_MS (R425). -/
def State.throttleStep (s : State) : State :=
  let t := composite s
  let thr : Int := s.fld F.TMU_THRESH.THROTTLE
  let l := s.fld F.TMU_STATUS.LEVEL
  let floor := max (hctmFloor s t) (if thr ≤ t then 1 else 0)
  if thr + 2 ≤ t then s.setThrottle (min 9 (l + 1))
  else if t < thr - s.fld F.TMU_THR_CFG.HYST_C then s.setThrottle (max floor (l - 1))
  else s

/-- Median of a list of residuals. -/
def median (l : List Rat) : Rat :=
  let m := l.mergeSort (fun a b => decide (a ≤ b))
  let n := m.length
  if n % 2 = 1 then m.getD (n / 2) 0 else (m.getD (n / 2 - 1) 0 + m.getD (n / 2) 0) / 2

/-- |x| of a rational. -/
def ratAbs (x : Rat) : Rat := if x < 0 then -x else x

end Sys2Proof.Machine
end

