-- ==== Sys2Proof/Machine/Power.lean ====
section
/-! DEFINITION. Commands of the PMU and TMU (14_power_thermal.md). -/
namespace Sys2Proof.Machine

/-! ### Supplies and levels (R406 to R408) -/

/-- AVSBUS_STATUS_READ (R407, R408): VDone acknowledges the request in progress. -/
def execAvsbusStatusRead (vdone : Bool) (s : State) : Res := done (if vdone then s.avsDone else s)
/-- AVSBUS_TIMEOUT (R407, R408). -/
def execAvsbusTimeout (s : State) : Res := done s.avsTimeout
/-- PMU_PL_CAP_WRITE (R406): 6 and 7 act as 5. -/
def execPmuPlCapWrite (v : Word) (s : State) : Res := done ((s.storeReg R.PMU_PL_CAP v).plEval)

/-! ### Power states (R409 to R412) -/

/-- Set Features Power Management (R409, R411): FID 0x02; Workload Hint is accepted and ignored. -/
def State.setPowerFeature (s : State) (f : Nat) (cid : BitVec 16) (v : Word) : State :=
  let p := v.toNat % 32
  if !s.isPf f then (if p = 0 then s.ok f cid else s.adminDone f cid 0 0x02)
  else if 4 < p then s.adminDone f cid 0 0x02
  else
    let s := s.setFunc f { s.func f with feats := sputD 0 0x02 (BitVec.ofNat 32 p) (s.func f).feats }
    let s := { s with pwr := { s.pwr with ps0 := if f = 0 then p else s.pwr.ps0, ps1 := if f = 0 then s.pwr.ps1 else p } }
    (s.psTarget (devicePs s)).ok f cid

/-- POWER_MANAGEMENT (R411). -/
def execPowerManagement (f : BitVec 12) (cid : BitVec 16) (v : Word) (s : State) : Res := done (s.setPowerFeature f.toNat cid v)

/-- POWER_STATE_STEP (R410, R411). -/
def execPowerStateStep (s : State) : Res := done s.psStep

/-- PS4_ADMIN_IDLE_RETURN (R412): no admin command has been outstanding for 10 ms. -/
def execPs4AdminIdleReturn (s : State) : Res :=
  done (s.when (s.pwr.adminWake && s.pwr.trans.isNone && !s.host.cmds.any fun (_, x) => x.admin) (·.sleepAdmin))

/-- APST_TRANSITION (R409): with Autonomous Power State Transition enabled, idle time is over and the device enters PS3 or PS4. -/
def execApstTransition (ps4 : Bool) (s : State) : Res :=
  let p := if ps4 then 4 else 3
  done (s.when ((sgetD 0 0x0C (s.func 0).feats).getLsbD 0 && decide (s.fld F.PMU_STATUS.PS_CUR < p) && s.pwr.trans.isNone) (·.psTarget p))

/-! ### Sleep states (R413) -/

/-- The conditions of S3 (R413): the dwell in PS4, S3_EN, L1.2, no Key Per I/O slot loaded, no CO session, no Tether ring. -/
def s3Ready (s : State) : Bool :=
  s.fld F.PMU_STATUS.PS_CUR == 4 && s.pwr.trans.isNone && !s.pwr.adminWake && s.flag F.PMU_CTRL.S3_EN &&
  decide (s.pwr.ps4Since + max 1 (s.fld F.PMU_CTRL.S3_DWELL_S) * 1000000000 ≤ s.ttu.elapsed) &&
  s.host.l1Port0 == 3 && (!s.x4x4 || s.host.l1Port1 == 3) && s.kpioSlots.isEmpty && s.sec.session.isNone && !s.flag F.TH_CTRL.EN

/-- S3_ENTRY: CORE logic, CRYPTO, HIU and the channel groups go OFF with CORE's list and bank 6 saved, VDD_CORE is switched off. Keys in
the CRYPTO domain are lost with it. -/
def execS3Entry (s : State) : Res :=
  if s.pwr.s3 || !s3Ready s then done s
  else
    let s := ((s.saveDomain 10).saveDomain 12).raise F.PMU_EVT.S3_ENTER
    let s := s.each ([0, 10, 12] : List Nat) fun s d => s.setDom d 2
    let s := s.each ((List.range 8).map (· + 1)) fun s d => s.gateDomain d 3
    done { s with
      pwr := { s.pwr with s3 := true }
      sec := { s.sec with slots := [], keks := [], keysReady := false, opalAuth := [] } }

/-- Leave S3: every domain is restored, RESTORE is dispatched, keys are derived and MEKs unwrapped again, LockOnReset ranges lock; no
ledger record is written (R413). -/
def State.leaveS3 (s : State) (bad : List Nat) : State :=
  let s := { s with pwr := { s.pwr with s3 := false } }
  let s := s.each ([0, 10, 12] ++ (List.range 8).map (· + 1)) fun s d => s.restoreDomain d bad
  let s := { s with sec := { s.sec with keysReady := !s.secHalted && s.lifecycle != lcDecommissioned } }.lockRanges.loadMeks
  let s := (s.psVotes false true).dmcWake
  { s with pwr := { s.pwr with adminWake := true } }

/-- S3_EXIT. -/
def execS3Exit (bad : List Nat) (s : State) : Res := done (if s.pwr.s3 then s.leaveS3 bad else s)

/-- S4_ENTRY (R413): with PERST# low the board leaves only AON powered. -/
def execS4Entry (s : State) : Res :=
  if s.boot.perst || s.pwr.s4 then done s
  else done { s with pwr := { s.pwr with s4 := true, s3 := false, doms := (List.range 13).map fun d => (d, 3) } }

/-! ### Votes and domains (R414 to R420) -/

/-- PMU_VOTE_HOST_WRITE (R414). -/
def execPmuVoteHostWrite (v : BitVec 4) (w : Word) (s : State) : Res :=
  if 10 ≤ v.toNat then noUnit
  else
    let s := s.storeReg (R.PMU_VOTE + 4 * v.toNat) w
    done (s.when (v == 8 && voted s 8) (·.dmcWake))

/-- DOMAIN_ENTRY (R416): the last vote on a vote domain is gone and its entry runs; a vote or request that arrives on the way abandons it
at the next abort point. DMC goes no deeper than S2. `off`: to OFF with nothing saved. -/
def execDomainEntry (d : BitVec 4) (off request : Bool) (s : State) : Res :=
  match domVote d.toNat with
  | none => done s
  | some v =>
    let d := d.toNat
    if s.dom d ≠ 0 then done s
    else if voted s v || request then done (s.raise F.PMU_EVT.ABANDON)
    else if off && d ≠ 9 then
      let s := s.gateDomain d 3
      done (s.when (d == 11) fun s => (s.clear (F.TH_LINK.UP.ix 0)).clear (F.TH_LINK.UP.ix 1))
    else
      let s := (s.saveDomain d).gateDomain d 2
      done (s.when (d == 9) fun s =>
        (({ s with dmc := { s.dmc with wq := [], sr := .selfRefresh, residency := false, waiting := false } }).setFld F.DMC_STATUS.STATE 5).setFld F.DMC_STATUS.PD 0)

/-- DOMAIN_RESTORE (R419, R420): a request reaches a gated domain. -/
def execDomainRestore (d : BitVec 4) (bad : List Nat) (s : State) : Res :=
  if 13 < d.toNat then noUnit
  else if s.pwr.s3 || s.pwr.s4 then done s
  else done (s.restoreDomain d.toNat bad)

/-! ### Thermal (R422 to R425) -/

/-- THERMAL_MODEL_UPDATE (R422): 20 µs of the RC model; `cnt`: the activity counters of each tile. -/
def execThermalModelUpdate (cnt : List (List (BitVec 32))) (s : State) : Res :=
  let dt : Rat := 1 / 50000
  let v := levelCore (s.fld F.PMU_STATUS.PL_CUR)
  let s := s.each (List.range 16) fun s i =>
    let c := cnt.getD i []
    let act := (c.zipIdx).foldl (fun (a : Rat) ((n, k) : BitVec 32 × Nat) => a + (n.toNat : Rat) * Config.energy i k) 0
    let p := s.pwr.gain * act / dt + Config.leak i v (s.tile i)
    let q := (tileAdj i).foldl (fun (a : Rat) j => a + (s.tile i - s.tile j) / Config.rTile i j) 0 + (s.tile i - s.pwr.sink) / Config.rSink i
    s.setTile i (s.tile i + dt * (p - q) / Config.cTile i)
  done s.thermalEval

/-- SINK_UPDATE (R422): from the mean of the residuals of the good diodes. -/
def execSinkUpdate (s : State) : Res :=
  let good := (List.range 8).filter fun j => !diodeBad s j && s.pwr.dSeen.getLsbD j
  if good.isEmpty then done s
  else
    let m := (good.foldl (fun (a : Rat) j => a + residual s j) 0) / (good.length : Rat)
    done { s with pwr := { s.pwr with sink := s.pwr.sink + m / 64 } }

/-- GAIN_UPDATE (R422): `reads`: READ_VOUT × READ_IOUT of the two regulators, in the unit of the model's power; none: a read failed. -/
def execGainUpdate (reads : Option (BitVec 32)) (model : BitVec 32) (s : State) : Res :=
  match reads with
  | none =>
    let n := s.pwr.iFails + 1
    let s := { s with pwr := { s.pwr with iFails := n } }
    done (s.when (n == 3) fun s => ((s.raise F.TMU_GAIN.FROZEN).raise F.TMU_EVT.IOUT_LOST).entry 0x0B sevNotice)
  | some p =>
    let s := ({ s with pwr := { s.pwr with iFails := 0 } }).clear F.TMU_GAIN.FROZEN
    if model = 0 then done s
    else
      let g := s.pwr.gain + ((p.toNat : Rat) / (model.toNat : Rat) - s.pwr.gain) / 8
      let g : Rat := max (4 / 5) (min (5 / 4) g)
      done (({ s with pwr := { s.pwr with gain := g } }).setFld F.TMU_GAIN.GAIN (g * 16384).floor.toNat)

/-- The first readings of all diodes since cold reset fix the sink, and with it the tiles (R422; the tiles' start is the model's). -/
def State.firstReadings (s : State) : State :=
  let m := ((List.range 8).foldl (fun (a : Rat) j => a + diodeTemp s j) 0) / 8
  { s with pwr := { s.pwr with sink := m, tiles := Vector.replicate 16 m } }

/-- DIODE_READING (R423): `v`: the reading in steps of 0.125 °C, its lowest bit 0; `fault`: open or short. -/
def execDiodeReading (j : BitVec 3) (fault : Bool) (v : BitVec 12) (s : State) : Res :=
  let j' := j.toNat
  let t := eighths (v.toNat / 2 * 2)
  let seen := s.pwr.dSeen.getLsbD j'
  let implausible := fault || decide (t < -40) || decide (150 < t) || (seen && decide (5 < ratAbs (t - diodeTemp s j')))
  let s := s.setFld (F.TMU_DIODE.READING.ix j') (v.toNat / 2 * 2)
  if s.pwr.dSeen != 0xFF then
    let s := { s with pwr := { s.pwr with dSeen := s.pwr.dSeen ||| (1#8 <<< j') } }
    done (s.when (s.pwr.dSeen == 0xFF) (·.firstReadings))
  else
    let r := residual s j'
    let other := (goodNeighbours s j').map (residual s)
    let counts := implausible || decide (10 < ratAbs r)
    let counts := counts && (nativeJudged s j' || decide (10 < ratAbs (r - median other)))
    let bad := if counts then s.pwr.dBad[j'] + 1 else 0
    let good := if !implausible && decide (ratAbs r ≤ 5) then s.pwr.dGood[j'] + 1 else 0
    let s := { s with pwr := { s.pwr with dBad := s.pwr.dBad.set j' bad, dGood := s.pwr.dGood.set j' good } }
    if 3 ≤ bad && !diodeBad s j' then
      let s := ((s.raise (F.TMU_DIODE.BAD.ix j')).setFld (F.TMU_DIODE.CAUSE.ix j') (if implausible then 1 else 2))
      let s := s.setFld F.TMU_STATUS.DIODE_BAD (Nat.lor (s.fld F.TMU_STATUS.DIODE_BAD) (2 ^ j'))
      done ((s.raise F.TMU_EVT.DIODE_BAD).entry 0x14 sevFault)
    else if 60000 ≤ good && diodeBad s j' then
      let s := (s.clear (F.TMU_DIODE.BAD.ix j')).setFld (F.TMU_DIODE.CAUSE.ix j') 0
      done (s.setFld F.TMU_STATUS.DIODE_BAD (s.fld F.TMU_STATUS.DIODE_BAD - 2 ^ j'))
    else done s

/-- THROTTLE_STEP (R425). -/
def execThrottleStep (s : State) : Res := done s.throttleStep

/-- TMU_THRESH_WRITE (R424): ignored while the block is locked (R6); accepted only if WARN < THROTTLE < CRIT < SHUT and SHUT is at most the
variant's default. -/
def execTmuThreshWrite (v : Word) (s : State) : Res :=
  let n := v.toNat
  let b (k : Nat) : Nat := n / 256 ^ k % 256
  let limit := match s.variant with | .af => 120 | .ae => 122
  if s.flag F.TMU_CTRL.LOCK then done s
  else if b 0 < b 1 && b 1 < b 2 && b 2 < b 3 && b 3 ≤ limit then done ((s.storeReg R.TMU_THRESH v).thermalEval)
  else done (s.raise F.TMU_EVT.THRESH_REJECT)

/-- Set Features Host Controlled Thermal Management (R425): FID 0x10, TMT1 in [31:16] and TMT2 in [15:0], kelvin, 0 disabled. -/
def State.setHctm (s : State) (f : Nat) (cid : BitVec 16) (v : Word) : State :=
  let t1 := v.toNat / 65536
  let t2 := v.toNat % 65536
  if !s.isPf f || (t1 ≠ 0 && t2 ≠ 0 && decide (t2 ≤ t1)) then s.adminDone f cid 0 0x02
  else
    let s := s.setFunc f { s.func f with feats := sputD 0 0x10 v (s.func f).feats }
    let s := { s with pwr := { s.pwr with tmt1 := t1, tmt2 := t2 } }
    (s.setThrottle (max (s.fld F.TMU_STATUS.LEVEL) (hctmFloor s (composite s)))).ok f cid

/-- HOST_CONTROLLED_THERMAL_MANAGEMENT (R425). -/
def execHostControlledThermalManagement (f : BitVec 12) (cid : BitVec 16) (v : Word) (s : State) : Res := done (s.setHctm f.toNat cid v)

/-- Set Features Temperature Threshold (R409, R423): FID 0x04 on the composite temperature alone: TMPTH [15:0], TMPSEL [19:16], THSEL [21:20]. -/
def State.setTempThreshold (s : State) (f : Nat) (cid : BitVec 16) (v : Word) : State :=
  let n := v.toNat
  let sel := n / 65536 % 16
  let th := n / 2 ^ 20 % 4
  if !s.isPf f || (sel ≠ 0 && sel ≠ 15) || 1 < th then s.adminDone f cid 0 0x02
  else
    let s := s.setFunc f { s.func f with feats := sputD 0 (0x04 + 256 * th) (BitVec.ofNat 32 (n % 65536)) (s.func f).feats }
    let s := { s with pwr := { s.pwr with tmpOver := if th = 0 then n % 65536 else s.pwr.tmpOver, tmpUnder := if th = 1 then n % 65536 else s.pwr.tmpUnder } }
    (s.tempEvent (composite s)).ok f cid

/-- TEMPERATURE_THRESHOLD (R423). -/
def execTemperatureThreshold (f : BitVec 12) (cid : BitVec 16) (v : Word) (s : State) : Res := done (s.setTempThreshold f.toNat cid v)

end Sys2Proof.Machine
end

