-- ==== Sys2Proof/Machine/OpsTether.lean ====
section
/-! DEFINITION. The Tether's shared operations: receiving, peers and mirror states, lock home, sending a write, pieces, resync (R454 to
R474). Payloads of messages whose layout the spec does not give are the model's own (assumption 5). -/
namespace Sys2Proof

/-- Ring ID of a message's source. -/
def TetherHdr.srcN (h : TetherHdr) : Nat := h.src.toNat

end Sys2Proof

namespace Sys2Proof.Machine

def State.setPeer (s : State) (k : Nat) (p : Peer) : State :=
  match k with
  | 0 => { s with th := { s.th with peer0 := p } }
  | 1 => { s with th := { s.th with peer1 := p } }
  | 2 => { s with th := { s.th with peer2 := p } }
  | _ => { s with th := { s.th with peer3 := p } }

/-- Ring size (TH_CTRL.RING_SIZE_M1; 0 acts as 1). -/
def ringSize (s : State) : Nat := max 1 (s.fld F.TH_CTRL.RING_SIZE_M1) + 1
/-- Other ring IDs of the ring. -/
def ringPeers (s : State) : List Nat := (List.range (ringSize s)).filter fun k => k != ringId s

/-- The link layer delivers a message of another device (R457): it counts as received, goes on around the ring when it is for another
device, and is handled when it is for this one. -/
def State.receive (s : State) (h : TetherHdr) (ty : Nat) (body : List Word64) (k : State → State) : State :=
  if !linkUp s h.link || h.srcN = ringId s then s
  else
    let s := s.setLink h.link { s.link h.link with expect := ((s.link h.link).expect + 1) % 4096 }
    if h.dst.toNat = ringId s then k s
    else s.sendOn (!h.link) { ty := ty, src := h.srcN, dst := h.dst.toNat, tag := h.tag.toNat, body := body }

/-- A message to every device: handled here and sent on away from its origin (R459, R472, R473). -/
def State.receiveAll (s : State) (h : TetherHdr) (ty : Nat) (body : List Word64) (k : State → State) : State :=
  if !linkUp s h.link || h.srcN = ringId s then s
  else
    let s := s.setLink h.link { s.link h.link with expect := ((s.link h.link).expect + 1) % 4096 }
    (k s).when (decide (2 < ringSize s)) fun s =>
      s.sendOn (!h.link) { ty := ty, src := h.srcN, dst := h.srcN, tag := h.tag.toNat, body := body }

/-! ### Events and marks (R469, R470) -/

/-- Post a Tether event to PF0, and to PF1 in x4+x4 mode; while the same one is not acknowledged it waits (R470). -/
def State.tetherEvent (s : State) (info : Nat) : State :=
  if (s.func 0).reported.contains (7, info) || (s.func 0).events.contains (7, info) then
    { s with th := { s.th with events := s.th.events ++ [BitVec.ofNat 8 info] } }
  else (s.aen 0 7 info).when s.x4x4 (·.aen 2048 7 info)

/-- Regions left to resync (TH_NS_STATE.MARKED). -/
def State.markCount (s : State) (i : Nat) : State :=
  s.setFld (F.TH_NS_STATE.MARKED.ix i) ((s.th.marks ++ s.th.copying).filter fun (k, _) => k == i).length

/-- Blocks of a namespace in a region of 1 MiB (R469). -/
def regionBlocks (s : State) (ns : Nat) : Nat := if s.nsLbaf ns = 2 then 2048 else 256

/-- Mark the regions of a range (R469). -/
def State.markRange (s : State) (i lba n : Nat) : State :=
  let r := regionBlocks s (s.fld (F.TH_NSCFG.NSID.ix i))
  let l := (List.range ((lba + n - 1) / r + 1 - lba / r)).map fun k => (i, lba / r + k)
  ({ s with th := { s.th with marks := s.th.marks ++ l.filter fun x => !s.th.marks.contains x } }).markCount i

/-- Regions a write-type command touches. -/
def Cmd.wrote (x : Cmd) : List (Nat × Nat) := match x.sqe.opcode with
  | 0x09 => x.sqe.ranges
  | _ => [(x.first, x.sqe.nlb)]

/-- While SOLE, a write commit marks its regions (R469). -/
def State.soleMark (s : State) (x : Cmd) : State :=
  match thEntry s x.sqe.nsid.toNat with
  | some i => if s.fld (F.TH_NSCFG.MODE.ix i) = 1 && thState s i == thSole then s.each x.wrote fun s (a, n) => s.markRange i a n else s
  | none => s

/-- Every region of an entry that counts as marked after a reset (R469) is marked by name. -/
def State.expandMarks (s : State) (i : Nat) : State :=
  if !s.th.allMarked.contains i then s
  else
    let ns := s.fld (F.TH_NSCFG.NSID.ix i)
    ({ s with th := { s.th with allMarked := s.th.allMarked.filter (· != i) } }).markRange i 0 (max 1 (s.nsSize ns))

/-! ### States of a mirrored entry (R468) -/

/-- Entries that mirror with a peer. -/
def mirrorsWith (s : State) (p : Nat) : List Nat :=
  (List.range 64).filter fun i => s.fld (F.TH_NSCFG.MODE.ix i) == 1 && s.fld (F.TH_NSCFG.NSID.ix i) != 0 &&
    (thMembers s i).contains p && (thMembers s i).contains (ringId s)

def State.setThState (s : State) (i st : Nat) : State := s.setFld (F.TH_NS_STATE.STATE.ix i) st
/-- An entry enters SOLE (R468, R470). -/
def State.enterSole (s : State) (i : Nat) : State := ((s.setThState i thSole).raise F.TH_EVT.SOLE).tetherEvent 0xD5
/-- This device decides locks of an entry (R462): it is the lock home, or serves alone. -/
def lockHome (s : State) (i : Nat) : Bool := thState s i == thSole || s.fld (F.TH_NSCFG.PRIMARY.ix i) == ringId s

/-! ### Writes across the ring (R462, R463, R466) -/

/-- Words of a block. -/
def blockWords (b : Block) : List Word64 := (List.range 512).map fun k => b.extractLsb' (64 * k) 64

/-- Send a command's filled buffers, and what the peer needs to apply the command (R463 step 3, R466). -/
def State.sendWrite (s : State) (c : Nat) (x : Cmd) (dst lba n : Nat) (piece : Bool) : State :=
  let mine := x.bufs.filterMap fun h => (s.buf h).bind fun b => if lba ≤ b.lba && b.lba < lba + n || !piece then some b else none
  s.tSend 0x05 dst c ([BitVec.ofNat 64 (x.sqe.opcode + (if piece then 256 else 0)), x.sqe.nsid.setWidth 64, BitVec.ofNat 64 lba, BitVec.ofNat 64 n] ++
    mine.flatMap fun b => BitVec.ofNat 64 (b.lba + b.mask.toNat * 2 ^ 40) :: blockWords b.data)

/-- Key in the Range-Lock Table of a lock a front asked for (R462). -/
def peerKey (src tag : Nat) : Nat := 2 ^ 20 + src * 2 ^ 17 + tag % 2 ^ 17

/-- The lock home grants a front's request: its FSN order is the order of entry (R162, R462). `assigned`: the first LBA of a zoned
write. -/
def State.grantPeer (s : State) (src tag assigned : Nat) : State :=
  let k := peerKey src tag
  (s.modLock k fun r => { r with held := true }).tSend 0x04 src tag [0, BitVec.ofNat 64 assigned]

/-- A zone follows a reservation decided at the lock home (R462): active if it was empty, RWP past the blocks, full at ZCAP. -/
def State.followZone (s : State) (ns lba n : Nat) : State :=
  let z := s.zoneOf ns lba
  let stop := lba % 2 ^ s.nsLogZsze ns + n
  let s := if s.zs z = zsEmpty then (s.activateZone z).getD s else s
  let s := if zOpen (s.zs z) || s.zs z = zsFull then s else s.setZs z zsImplOpen
  let s := s.tjrn 2 z 1 (setBits (s.zw z 1) 0 21 (max (s.zrwp z) stop))
  if s.zrwp z = s.nsZcap ns then s.setZs z zsFull else s

/-- WP of a zone past blocks that are in the pool (R240). -/
def State.zoneWp (s : State) (ns lba n : Nat) : State :=
  let z := s.zoneOf ns lba
  s.tjrn 2 z 0 (setBits (s.zw z 0) 32 21 (max (s.zwp z) (lba % 2 ^ s.nsLogZsze ns + n)))

/-- Account of data received from peers (R188). -/
def peerAccount : Nat := 4096
/-- Buffers of received blocks belong to no command of this device. -/
def noCmd : Nat := 2 ^ 20

/-- Put received blocks (LBA, sectors, ciphertext) in buffers and journal them (R463 step 4, R466): they count as dirty data from the
ack. -/
def State.storePeer (s : State) (ns : Nat) (l : List Piece) : State :=
  let (hs, s) := (s.reserve peerAccount l.length).fillBufs noCmd peerAccount ns l
  let s := if s.nsZoned ns then s.ringBufs ns hs else s.placeBufs ns hs
  s.ackBufs hs

/-- Units of a range of a command that carries no data change here as at the front (R235). -/
def State.applyPeer (s : State) (ns op lba n : Nat) : State :=
  if s.nsZoned ns then s
  else
    let units := (wholeUnits (s.nsIu ns) lba n).1
    match op with
    | 0x04 => s.markUnits ns units Place.writeUncorr.word
    | 0x08 | 0x09 => s.markUnits ns units 0
    | _ => s

/-- A local command holds a lock that conflicts with a peer's work on a range (R162, R463 step 4). -/
def localConflict (s : State) (ns lba n key : Nat) (mode : LockMode) : Bool :=
  let (f, k) := lockUnits s ns lba n
  let q : LockReq := { cmd := key, fsn := s.host.fsn, nsid := ns, sq := 0, ranges := [(f, k, mode)] }
  s.host.rlt.any fun r => r.held && r.cmd != key && r.peer.isNone && lockConflict r q

/-! ### Spans (R465, R466) -/

/-- Owner ring ID of a block of a spanned entry. -/
def spanOwner (s : State) (i ns lba : Nat) : Nat :=
  let m := thMembers s i
  let u := if s.nsZoned ns then lba / 2 ^ s.nsLogZsze ns else lba / 2 ^ (max 9 (s.fld (F.TH_NSCFG.SPAN_SHIFT.ix i)))
  m.getD (u % max 1 m.length) 0

/-- Pieces of a range in LBA order: owner, first block, count. -/
def spanPieces (s : State) (i ns first n : Nat) : List (Nat × Nat × Nat) :=
  let owners := (List.range n).map fun o => spanOwner s i ns (first + o)
  let rec go : List Nat → Nat → List (Nat × Nat × Nat)
    | [], _ => []
    | k :: t, a => match go t (a + 1) with
      | (k', b, m) :: r => if k' = k then (k, a, m + 1) :: r else (k, a, 1) :: (k', b, m) :: r
      | [] => [(k, a, 1)]
  go owners first

/-- The entry that spans a namespace. -/
def spanOf (s : State) (ns : Nat) : Option Nat := (thEntry s ns).filter fun i => s.fld (F.TH_NSCFG.MODE.ix i) == 2
/-- The entry that mirrors a namespace with a peer to be served too. -/
def mirrorOf (s : State) (ns : Nat) : Option Nat :=
  (thEntry s ns).filter fun i => s.fld (F.TH_NSCFG.MODE.ix i) == 1 && thState s i == thMirrored

/-- Give the first open piece of an owner its status. -/
def setFirst (owner : Nat) (st : Nat × Nat) : List (Nat × Option (Nat × Nat)) → List (Nat × Option (Nat × Nat))
  | [] => []
  | (o, v) :: t => if o == owner && v.isNone then (o, some st) :: t else (o, v) :: setFirst owner st t

/-- A piece of an owner completes with a status; after the last one the front reaches its commit point with the status of the first
failing piece in LBA order (R466). -/
def State.pieceDone (s : State) (c owner sct sc : Nat) : State :=
  match s.cmd c with
  | none => s
  | some x =>
    let ps := setFirst owner (sct, sc) x.pieces
    let x := { x with pieces := ps }
    let s := s.setCmd c x
    if ps.any (·.2.isNone) then s
    else match ps.findSome? fun (_, st) => st.filter (· != (0, 0)) with
      | some (t, e) => s.failed c t e
      | none =>
        let local_ := x.bufs.filter fun h => (s.buf h).any (·.wsn != 0)
        let s := s.each (x.bufs.filter fun h => !local_.contains h) fun s h => s.freeBuf h
        (s.modCmd c fun y => { y with bufs := local_, placed := true }).commitWrite c

/-! ### Resync (R471) -/

/-- Copy one marked region of an entry to its peer: reads of kind 1, in Recess. -/
def State.resyncSend (s : State) (i : Nat) : State :=
  let s := s.expandMarks i
  match s.th.marks.find? fun (k, _) => k == i with
  | none => s
  | some (_, r) =>
    let ns := s.fld (F.TH_NSCFG.NSID.ix i)
    let size := regionBlocks s ns
    let n := min size (s.nsSize ns - r * size)
    let blocks := (List.range n).filterMap fun o => match got s ns (r * size + o) false with
      | .data b => some (BitVec.ofNat 64 (r * size + o) :: blockWords b) | _ => none
    let s := { s with th := { s.th with marks := s.th.marks.filter (· != (i, r)), copying := s.th.copying ++ [(i, r)] } }
    (s.tSend 0x0D (thPeer s i) r ([BitVec.ofNat 64 i, BitVec.ofNat 64 r] ++ blocks.flatten)).markCount i

/-- A SOLE entry whose peer is back copies on in Recess. -/
def State.resyncAll (s : State) : State :=
  s.each (List.range 64) fun s i =>
    s.when (s.fld (F.TH_NSCFG.MODE.ix i) == 1 && thState s i == thSole && !(s.peer (thPeer s i)).lost && s.flag F.TH_STATUS.FORMED
      && recessOpen s && !s.th.copying.any fun (k, _) => k == i) (·.resyncSend i)

/-- Copies that the peer has acknowledged are done; with no region left the entry is mirrored again (R468, R471). -/
def State.resyncAcked (s : State) : State :=
  if (s.th.east.unacked ++ s.th.west.unacked).any (·.ty == 0x0D) then s
  else
    let done := (s.th.copying.map (·.1)).dedup
    let s := { s with th := { s.th with copying := [] } }
    s.each done fun s i =>
      let s := s.markCount i
      if s.th.marks.any fun (k, _) => k == i then s
      else (((s.setThState i thMirrored).raise F.TH_EVT.RESYNC_DONE).tetherEvent 0xD6).tSend 0x0D (thPeer s i) 0 [BitVec.ofNat 64 i]

end Sys2Proof.Machine
end

