-- ==== Sys2Proof/Machine/Tether.lean ====
section
/-! DEFINITION. Commands of the Tether: frames received and sent, timers, links and the manager's takeover (17_tether.md). -/
namespace Sys2Proof.Machine

/-! ### Ring and heartbeat (R458, R459) -/

/-- BUNDLE_ID, ring identity and the TH_NSCFG table go out in HELLO (R458). -/
def State.sendHello (s : State) (e : Bool) : State :=
  s.sendOn e { ty := 2, src := ringId s, dst := ringId s, tag := 0, body :=
    [BitVec.ofNat 64 (ringId s), BitVec.ofNat 64 (s.fld F.TH_CTRL.RING_SIZE_M1), (s.reg R.ZYN_BUNDLE_ID).setWidth 64] ++
      (List.range 64).map fun i => (s.reg (R.TH_NSCFG + 4 * i)).setWidth 64 }

/-- An entry is agreed once every other member's table holds it unchanged (R460). -/
def State.agreeEval (s : State) : State :=
  s.each (List.range 64) fun s i =>
    let own := (s.reg (R.TH_NSCFG + 4 * i)).toNat % 2 ^ 28
    let same (k : Nat) : Bool := match (s.peer k).hello with
      | some h => (h.nscfg.getD i 0).toNat % 2 ^ 28 == own | none => false
    let used := own % 2 ^ 15 != 0 && (thMembers s i).contains (ringId s)
    s.setBit (F.TH_NSCFG.AGREED.ix i) (used && ((thMembers s i).filter (· != ringId s)).all same)

/-- The ring is formed once every other ring ID has been heard with an equal size (R458). -/
def State.formEval (s : State) : State :=
  let ok := (ringPeers s).all fun k => match (s.peer k).hello with | some h => max 1 h.sizeM1 + 1 == ringSize s | none => false
  if s.flag F.TH_CTRL.EN && ok && !s.flag F.TH_STATUS.CONFLICT then
    { s.raise F.TH_STATUS.FORMED with th := { (s.raise F.TH_STATUS.FORMED).th with forming := false } }
  else s.clear F.TH_STATUS.FORMED

/-- A peer is heard (R459, R468): it is present; `sole` tells which entries it serves alone, so that this device rejoins them. -/
def State.peerHeard (s : State) (k : Nat) (sole : BitVec 64) : State :=
  let s := s.setPeer k { s.peer k with lost := false, missed := 0 }
  let s := s.setFld F.TH_STATUS.PRESENT (s.fld F.TH_STATUS.PRESENT ||| 2 ^ k)
  s.each (mirrorsWith s k) fun s i =>
    s.when (sole.getLsbD i && (thState s i == thFenced || (thState s i == thMirrored && !lockHome s i))) (·.setThState i thRejoin)

/-- HELLO (R458): a duplicate ID or a differing size is a conflict. -/
def execHello (h : TetherHdr) (id : BitVec 2) (sizeM1 : BitVec 2) (bundle : Word) (nscfg : List Word) (s : State) : Res :=
  if !s.flag F.TH_CTRL.EN then done s
  else if id.toNat = ringId s || max 1 sizeM1.toNat + 1 ≠ ringSize s then
    done (((s.raise F.TH_STATUS.CONFLICT).raise F.TH_EVT.CONFLICT).clear F.TH_STATUS.FORMED)
  else done (s.receiveAll h 2 ([id.setWidth 64, sizeM1.setWidth 64, bundle.setWidth 64] ++ nscfg.map (·.setWidth 64)) fun s =>
    (s.setPeer id.toNat { s.peer id.toNat with hello := some { sizeM1 := sizeM1.toNat, bundle := bundle, nscfg := nscfg } }).agreeEval.formEval)

/-- HEARTBEAT (R459): it marks its origin present on its path; `sole`: the entries the origin serves alone. -/
def execHeartbeat (h : TetherHdr) (sole : BitVec 64) (s : State) : Res :=
  done (s.receiveAll h 1 [sole] fun s =>
    let p := s.peer h.srcN
    (s.setPeer h.srcN (if h.link then { p with heardE := true } else { p with heardW := true })).peerHeard h.srcN sole)

/-- HEARTBEAT_SEND (R459): on every link that is up. -/
def execHeartbeatSend (s : State) : Res :=
  let sole : BitVec 64 := BitVec.ofNat 64 ((List.range 64).foldl (fun n i =>
    if s.fld (F.TH_NSCFG.MODE.ix i) = 1 && thState s i == thSole then n + 2 ^ i else n) 0)
  if s.flag F.TH_CTRL.EN then done (s.ringSend 1 [sole]) else done s

/-! ### Loss of a peer (R459, R468, R469) -/

/-- What a front does with its own mirrored write when the peer is lost (R469). -/
def State.lossWrite (s : State) (i c : Nat) (x : Cmd) (home : Bool) : State :=
  if x.committed || x.mirror = .none then s
  else if home then
    match x.mirror with
    | .sent => ((s.soleMark x).modCmd c fun y => { y with mirror := .acked }).applyCmd c
    | _ => s.modCmd c fun y => { y with mirror := .none }
  else
    let s := s.when (decide (x.mirror = .sent)) fun s => s.each x.wrote fun s (a, n) => s.markRange i a n
    s.finish c 0 0x82

/-- A peer is lost: mirrored entries go SOLE or FENCED, work in flight is settled, pieces of the lost owner are not ready (R468, R469,
R465). Locks the lost front held at this lock home go. -/
def State.losePeer (s : State) (k : Nat) : State :=
  let s := s.setPeer k { s.peer k with lost := true, hello := none }
  let s := (s.setFld F.TH_STATUS.PRESENT (s.fld F.TH_STATUS.PRESENT &&& (15 - 2 ^ k))).raise F.TH_EVT.PEER_LOST
  let s := s.tetherEvent 0xD4
  let s := { s with host := { s.host with rlt := s.host.rlt.filter fun r => r.peer != some k } }
  let s := s.each (mirrorsWith s k) fun s i =>
    if thState s i ≠ thMirrored then s
    else
      let home := s.fld (F.TH_NSCFG.PRIMARY.ix i) == ringId s
      let s := if home then s.enterSole i else s.setThState i thFenced
      let s := s.each (s.th.rx.filter fun w => w.src == k && w.entry == i) fun s w => s.markRange i w.lba w.n
      let ns := s.fld (F.TH_NSCFG.NSID.ix i)
      s.each (s.host.cmds.filter fun (_, x) => x.sqe.nsid.toNat == ns && x.sqe.writeType) fun s (c, x) => s.lossWrite i c x home
  let s := { s with th := { s.th with rx := s.th.rx.filter fun w => w.src != k } }
  s.each (s.host.cmds.filter fun (_, x) => x.pieces.any fun (o, st) => o == k && st.isNone) fun s (c, x) =>
    s.each (x.pieces.filter fun (o, st) => o == k && st.isNone) fun s _ => s.pieceDone c k 0 0x82

/-- PEER_LOSS (R459): an interval of 100 µs of a peer ends; the third one without its heartbeat declares it lost, and an interval that
misses one path alone reports the path. -/
def execPeerLoss (k : BitVec 2) (s : State) : Res :=
  let k := k.toNat
  let p := s.peer k
  if !s.flag F.TH_CTRL.EN || k = ringId s || ringSize s ≤ k then done s
  else
    let s := s.setPeer k { p with heardW := false, heardE := false, missed := if p.heardW || p.heardE then 0 else p.missed + 1 }
    if p.heardW || p.heardE then done (s.when (p.heardW != p.heardE) (·.raise F.TH_EVT.PATH_LOST))
    else if 3 ≤ p.missed + 1 && !p.lost && p.hello.isSome then done (s.losePeer k)
    else done s

/-! ### Mirrored writes (R462, R463) -/

/-- LOCK_REQUEST (R462): the lock home enters a front's request in its FSN order and grants it when nothing conflicts; a zone's
decisions are made here. -/
def execLockRequest (h : TetherHdr) (op : BitVec 8) (ns : BitVec 15) (lba : BitVec 40) (n : BitVec 17) (s : State) : Res :=
  let nsid := ns.toNat
  let src := h.srcN
  let tag := h.tag.toNat
  done (s.receive h 3 [op.setWidth 64, ns.setWidth 64, lba.setWidth 64, n.setWidth 64] fun s =>
    match thEntry s nsid with
    | none => s
    | some i =>
      let decides := match spanOf s nsid with | some j => spanOwner s j nsid lba.toNat == ringId s | none => lockHome s i
      if !decides then s
      else
        let zoned := s.nsZoned nsid
        let append := op == 0x7D
        let z := s.zoneOf nsid lba.toNat
        let write := op == 0x01 || append
        let o := lba.toNat % 2 ^ s.nsLogZsze nsid
        let st := if zoned && write then zoneStatus s nsid z n.toNat (if append then none else some o) (!append || o == 0) else none
        match st with
        | some (t, e) => s.tSend 4 src tag [BitVec.ofNat 64 (t * 256 + e), 0]
        | none =>
          let first := if append then lba.toNat + s.zrwp z else lba.toNat
          let s := if zoned && write then s.followZone nsid first n.toNat else s
          let fsn := s.host.fsn
          let (f, k) := lockUnits s nsid first n.toNat
          let r : LockReq := { cmd := peerKey src tag, fsn := fsn, nsid := nsid, sq := peerKey src 0, ranges := if append then [] else [(f, k, .excl)]
                               armed := true, peer := some src }
          let s := { s with host := { s.host with fsn := fsn + 1, rlt := s.host.rlt ++ [r] } }
          if lockFree s r then s.grantPeer src tag first else s)

/-- LOCK_GRANT (R462). `out`: this lock home grants the waiting request of a front; otherwise the grant arrives at the front, with the
status and the first LBA that the lock home has decided for a zone. -/
def execLockGrant (out : Bool) (h : TetherHdr) (sct sc : BitVec 8) (assigned : BitVec 40) (s : State) : Res :=
  let tag := h.tag.toNat
  if out then
    match s.lock (peerKey h.srcN tag) with
    | some r => if lockFree s r then done (s.grantPeer h.srcN tag ((r.ranges.map fun x => x.1).headD 0)) else done s
    | none => done s
  else done (s.receive h 4 [BitVec.ofNat 64 (sct.toNat * 256 + sc.toNat), assigned.setWidth 64] fun s =>
    match s.cmd tag with
    | none => s
    | some x =>
      if x.mirror ≠ .waitGrant then s
      else if sct ≠ 0 || sc ≠ 0 then s.finish tag sct.toNat sc.toNat
      else s.setCmd tag { x with mirror := .granted, assigned := if x.sqe.opcode = 0x7D then some assigned.toNat else x.assigned })

/-- WRITE_DATA (R463 step 4, R466): the blocks are buffered and journaled under the local lock and within the Dirty Ceiling, and the ack
or the piece's completion is sent; until the lock and the ceiling allow it the message waits. -/
def execWriteData (h : TetherHdr) (piece : Bool) (op : BitVec 8) (ns : BitVec 15) (lba : BitVec 40) (n : BitVec 17)
    (blocks : List (BitVec 40 × BitVec 8 × Block)) (s : State) : Res :=
  let nsid := ns.toNat
  let src := h.srcN
  let tag := h.tag.toNat
  let body := [BitVec.ofNat 64 (op.toNat + if piece then 256 else 0), ns.setWidth 64, lba.setWidth 64, n.setWidth 64] ++
    blocks.flatMap fun (a, m, b) => BitVec.ofNat 64 (a.toNat + m.toNat * 2 ^ 40) :: blockWords b
  let wait := h.dst.toNat = ringId s && (localConflict s nsid lba.toNat n.toNat (peerKey src tag) .excl ||
    !withinCeiling s blocks.length || decide (freeBufs s < blocks.length) || partialWaits s nsid lba.toNat n.toNat)
  if wait then done s
  else done (s.receive h 5 body fun s =>
    match thEntry s nsid with
    | none => s
    | some i =>
      let l : List Piece := blocks.map fun (a, m, b) => { lba := a.toNat, mask := m, data := b }
      let write := op == 0x01 || op == 0x7D
      if piece then
        let z := s.zoneOf nsid lba.toNat
        let st := if s.nsZoned nsid && op == 0x01 then zoneStatus s nsid z n.toNat (some (lba.toNat % 2 ^ s.nsLogZsze nsid)) true else none
        match st with
        | some (t, e) => s.tSend 0x0A src tag [BitVec.ofNat 64 (t * 256 + e)]
        | none =>
          let s := if s.nsZoned nsid && write then s.followZone nsid lba.toNat n.toNat else s
          let s := (s.storePeer nsid l).applyPeer nsid op.toNat lba.toNat n.toNat
          let s := if s.nsZoned nsid && write then s.zoneWp nsid lba.toNat n.toNat else s
          s.tSend 0x0A src tag [0]
      else
        let s := if s.nsZoned nsid && write then s.followZone nsid lba.toNat n.toNat else s
        let s := (s.storePeer nsid l).applyPeer nsid op.toNat lba.toNat n.toNat
        let s := if s.nsZoned nsid && write then s.zoneWp nsid lba.toNat n.toNat else s
        ({ s with th := { s.th with rx := s.th.rx ++ [({ src := src, tag := tag, entry := i, lba := lba.toNat, n := n.toNat } : PeerWrite)] } }).tSend 6 src tag [])

/-- WRITE_ACK (R463 step 5): the front journals and commits the write, and sends the commit notice. -/
def execWriteAck (h : TetherHdr) (s : State) : Res :=
  let tag := h.tag.toNat
  done (s.receive h 6 [] fun s =>
    match s.cmd tag with
    | none => s
    | some x =>
      if x.mirror ≠ .sent then s
      else ((s.setCmd tag { x with mirror := .acked }).applyCmd tag).tSend 7 h.srcN tag [])

/-- COMMIT_NOTICE (R463): the lock-home lock is released, and the received write is settled. -/
def execCommitNotice (h : TetherHdr) (s : State) : Res :=
  let tag := h.tag.toNat
  done (s.receive h 7 [] fun s =>
    { s.dropLock (peerKey h.srcN tag) with
      th := { s.th with rx := s.th.rx.filter fun w => !(w.src == h.srcN && w.tag == tag) } })

/-! ### Spanned pieces (R466) -/

/-- READ_REQUEST (R466): the owner executes a read piece under its own lock and returns confirmed ciphertext, or the piece's status. -/
def execReadRequest (h : TetherHdr) (ns : BitVec 15) (lba : BitVec 40) (n : BitVec 17) (bad : List Nat) (s : State) : Res :=
  let nsid := ns.toNat
  let src := h.srcN
  let tag := h.tag.toNat
  if h.dst.toNat = ringId s && localConflict s nsid lba.toNat n.toNat (peerKey src tag) .shared then done s
  else done (s.receive h 8 [ns.setWidth 64, lba.setWidth 64, n.setWidth 64] fun s =>
    if s.nsZoned nsid && anyOffline s nsid lba.toNat n.toNat then s.tSend 0x0A src tag [0x1BB]
    else
      let gots := (List.range n.toNat).map fun o => got s nsid (lba.toNat + o) (bad.contains o)
      let lost := (List.range n.toNat).filter fun o => decide (gots.getD o .zeros = .lost true)
      let s := s.each lost fun s o => s.loseBlock nsid (lba.toNat + o)
      if gots.any fun g => match g with | .lost _ => true | _ => false then s.tSend 0x0A src tag [0x281]
      else
        let l := gots.zipIdx.map fun (g, o) => match g with
          | .data b => BitVec.ofNat 64 (lba.toNat + o) :: blockWords b | _ => [BitVec.ofNat 64 (2 ^ 40 + lba.toNat + o)]
        (s.tSend 9 src tag l.flatten).tSend 0x0A src tag [0])

/-- READ_DATA (R466): ciphertext of confirmed blocks reaches a staging slot of the front and is decrypted to the host; a block with no
content was never written. -/
def execReadData (h : TetherHdr) (blocks : List (BitVec 40 × Option Block)) (s : State) : Res :=
  let tag := h.tag.toNat
  done (s.receive h 9 (blocks.flatMap fun (a, b) => match b with | some b => a.setWidth 64 :: blockWords b | none => [BitVec.ofNat 64 (2 ^ 40 + a.toNat)]) fun s =>
    match s.cmd tag with
    | none => s
    | some x =>
      if x.committed || x.sqe.opcode ≠ 0x02 then s
      else s.each blocks fun s (a, b) =>
        s.emit (.data x.func x.sqe.cid (a.toNat - x.first) [match b with | some b => s.plain x a.toNat (.data b) | none => 0]))

/-- PIECE_COMPLETION (R466). -/
def execPieceCompletion (h : TetherHdr) (sct sc : BitVec 8) (s : State) : Res :=
  done (s.receive h 0x0A [BitVec.ofNat 64 (sct.toNat * 256 + sc.toNat)] fun s => s.pieceDone h.tag.toNat h.srcN sct.toNat sc.toNat)

/-! ### Roll Call and Bell (R472, R473) -/

/-- The arrival of another device's members is recorded in a call of ring scope, with its cut or value (R63, R472). -/
def RollCall.hear (r : RollCall) (k : Nat) (v : Word64) : RollCall :=
  { r with ringWait := r.ringWait.filter (· != k), ringGot := sput k v r.ringGot }

/-- Record an arrival in the open or queued call of an identifier; one that no call takes is kept for the call to come (R62, R472). -/
def State.rcHear (s : State) (ident : BitVec 16) (k : Nat) (v : Word64) : State :=
  let same (r : RollCall) : Bool := r.ring && r.ident == ident
  if s.ttu.rc.any same then { s with ttu := { s.ttu with rc := s.ttu.rc.map (·.hear k v) } }
  else if s.ttu.rcQueue.any same then
    { s with ttu := { s.ttu with rcQueue := s.ttu.rcQueue.map fun r => if same r then r.hear k v else r } }
  else { s with th := { s.th with rcHeard := s.th.rcHeard ++ [(ident, k, v)] } }

/-- Of two devices that opened a call before they heard of each other, the lower ring ID counts as its origin (DESIGN CHOICE). -/
def State.rcFrom (s : State) (ident : BitVec 16) (k : Nat) : State :=
  let f (r : RollCall) : RollCall := if r.ring && r.ident == ident then { r with origin := min r.origin k } else r
  { s with ttu := { s.ttu with rc := s.ttu.rc.map f, rcQueue := s.ttu.rcQueue.map f } }

/-- ROLL_CALL_FRAME (R61, R472): a device has opened a call of ring scope, or its members have all arrived. The frame opens the call on this
device's tree too; an arrival counts for the whole device, with its cut or value. -/
def execRollCallFrame (h : TetherHdr) (ident : BitVec 16) (b : CallBody) (s : State) : Res :=
  done (s.receiveAll h 0x0B [ident.setWidth 64, b.mask, BitVec.ofNat 64 (b.kind.toNat + (if b.arrived then 4 else 0)), b.v] fun s =>
    match RcKind.of b.kind.toNat with
    | none => s
    | some k =>
      let r : RollCall := { ident := ident, kind := k, mask := b.mask, arrived := 0, ring := true, origin := h.srcN }
      let s := (s.rcJoin r).getD s
      if b.arrived then s.rcHear ident h.srcN b.v else s.rcFrom ident h.srcN)

/-- BELL_BEAT (R473): device time of the origin, corrected by half the measured round trip, is a sample of source 3. -/
def execBellBeat (h : TetherHdr) (time : Word64) (roundTrip : BitVec 32) (s : State) : Res :=
  done (s.receiveAll h 0x0C [time] fun s => s.sample 3 ((time.toNat : Int) + (roundTrip.toNat / 2 : Nat) - (s.now : Int)))

/-- BELL_BEAT_SEND (R473): a device LOCKED to BELL or PTM sends its time. -/
def execBellBeatSend (s : State) : Res :=
  if s.flag F.TH_CTRL.EN && s.fld F.TT_STATUS.STATE = ttLocked && (s.fld F.TT_STATUS.ACTIVE_SRC = 1 || s.fld F.TT_STATUS.ACTIVE_SRC = 2) then
    done (s.ringSend 0x0C [s.ttu.time])
  else done s

/-! ### Resync (R471) -/

/-- RESYNC_DATA (R471): the target programs the region's blocks as host data and journals them; `stop`: the source has no region left. -/
def execResyncData (h : TetherHdr) (i : BitVec 6) (stop : Bool) (blocks : List (BitVec 40 × Block)) (s : State) : Res :=
  let ns := s.fld (F.TH_NSCFG.NSID.ix i.toNat)
  let body := i.setWidth 64 :: blocks.flatMap fun (a, b) => a.setWidth 64 :: blockWords b
  if h.dst.toNat = ringId s && decide (freeBufs s < blocks.length) then done s
  else done (s.receive h 0x0D body fun s =>
    if thState s i.toNat ≠ thRejoin then s
    else
      let s := s.storePeer ns (blocks.map fun (a, b) => { lba := a.toNat, mask := 0xFF, data := b })
      if stop then (s.setThState i.toNat thMirrored).tetherEvent 0xD6 else s)

/-! ### Links (R455, R457, R458) -/

/-- Resend what a link has not had acknowledged, its oldest message first. -/
def State.replay (s : State) (e : Bool) : State :=
  let l := s.link e
  (s.setLink e { l with tries := l.tries + 1 }).each l.unacked fun s f => s.emit (.frame (linkIx e) f.ty f.src f.body)

/-- A link retrains: a lost path, whose traffic moves to the other one (R457). -/
def State.retrain (s : State) (e : Bool) : State :=
  let l := s.link e
  let k := linkIx e
  let s := (((s.setFld (F.TH_LINK.UP.ix k) 0).setFld (F.TH_LINK.RETRAIN.ix k) 1).raise F.TH_EVT.PATH_LOST).setLink e { l with unacked := [], tries := 0 }
  s.each l.unacked fun s f => s.sendOn (!e) f

/-- IDLE_FRAME (R456, R457): it acknowledges the `acked` oldest messages of its link, or asks for a replay. -/
def execIdleFrame (link : Bool) (acked : BitVec 12) (nak : Bool) (s : State) : Res :=
  if !linkUp s link then done s
  else
    let l := s.link link
    let s := (s.setLink link { l with unacked := l.unacked.drop acked.toNat, tries := if acked = 0 then l.tries else 0 }).resyncAcked
    done (if nak && !(s.link link).unacked.isEmpty then (s.replay link).count (F.TH_LINK.REPLAYS.ix (linkIx link)) else s)

/-- REPLAY_TIMEOUT (R457): 1 µs without an acknowledgement; the fourth replay in a row retrains the link. -/
def execReplayTimeout (link : Bool) (s : State) : Res :=
  let l := s.link link
  if !linkUp s link || l.unacked.isEmpty then done s
  else
    let s := (s.replay link).count (F.TH_LINK.REPLAYS.ix (linkIx link))
    done (if 4 ≤ l.tries + 1 then s.retrain link else s)

/-- LINK_RETRAIN_COMPLETE (R455, R458): the link carries frames at a rate (true 64 GT/s) and width (true x2), and sends HELLO. -/
def execLinkRetrainComplete (link rate width : Bool) (s : State) : Res :=
  if !s.flag F.TH_CTRL.EN then done s
  else
    let k := linkIx link
    let s := ((s.setFld (F.TH_LINK.UP.ix k) 1).setFld (F.TH_LINK.RETRAIN.ix k) 0).setFld (F.TH_LINK.RATE.ix k) (if rate then 1 else 0)
    done ((s.setFld (F.TH_LINK.WIDTH.ix k) (if width then 1 else 0)).sendHello link)

/-! ### Timers and the manager (R458, R468) -/

/-- FENCE_TIMEOUT (R468): a FENCED entry goes SOLE when automatic takeover is set and the peer is still lost. -/
def execFenceTimeout (i : BitVec 6) (s : State) : Res :=
  let i := i.toNat
  if thState s i = thFenced && s.fld (F.TH_NSCFG.MODE.ix i) = 1 && s.flag F.TH_CTRL.TAKEOVER && (s.peer (thPeer s i)).lost then done (s.enterSole i)
  else done s

/-- FORMATION_TIMEOUT (R468): FORM_MS has passed since the start without a formed ring; mirrored entries serve alone at their lock home
and are fenced elsewhere. Every region of an entry that serves alone counts as marked (R469). -/
def execFormationTimeout (s : State) : Res :=
  if !s.th.forming || s.flag F.TH_STATUS.FORMED then done s
  else
    let l := (List.range 64).filter fun i => s.fld (F.TH_NSCFG.MODE.ix i) == 1 && s.fld (F.TH_NSCFG.NSID.ix i) != 0
    let s := { s with th := { s.th with forming := false } }
    done (s.each l fun s i =>
      if s.fld (F.TH_NSCFG.PRIMARY.ix i) = ringId s then
        let s := s.enterSole i
        { s with th := { s.th with allMarked := i :: s.th.allMarked.filter (· != i) } }
      else s.setThState i thFenced)

/-- TH_CTRL_EN_WRITE (R458): the register stores by its access codes; setting EN trains the links and starts formation. -/
def execThCtrlEnWrite (v : Word) (s : State) : Res :=
  let was := s.flag F.TH_CTRL.EN
  let s := s.storeReg R.TH_CTRL v
  if s.flag F.TH_CTRL.EN && !was then
    let s := { s with th := { s.th with forming := true } }
    done (s.each [0, 1] fun s k => s.setFld (F.TH_LINK.RETRAIN.ix k) 1)
  else if was && !s.flag F.TH_CTRL.EN then
    done (s.each [0, 1] fun s k => (s.setFld (F.TH_LINK.UP.ix k) 0).setFld (F.TH_LINK.RETRAIN.ix k) 0)
  else done s

/-- TH_NS_CMD_TAKEOVER (R468): a FENCED entry whose peer is still lost goes SOLE. -/
def execThNsCmdTakeover (v : Word) (s : State) : Res :=
  let s := s.storeReg R.TH_NS_CMD v
  let i := v.toNat % 64
  if v.getLsbD 6 && s.fld (F.TH_NSCFG.MODE.ix i) = 1 && thState s i = thFenced && (s.peer (thPeer s i)).lost then done (s.enterSole i) else done s

end Sys2Proof.Machine
end

