-- ==== Sys2Proof/Machine/Timetable.lean ====
section
/-! DEFINITION. Commands of the Timetable Unit but for global commits (02_timetable.md). -/
namespace Sys2Proof.Machine

/-- Phase error at a BELL edge: the distance from device time to the nearest multiple of the interval (R38, R39). -/
def bellError (s : State) : Int :=
  let iv := max 1 (s.fld F.TT_SRC.BELL_INTERVAL_MS) * 1000000
  let r := s.now % iv
  if 2 * r ≤ iv then -(r : Int) else (iv - r : Int)

/-- The level of the BELL pin changes (R40). -/
def State.bellTurns (s : State) : State := { s with boot := { s.boot with bell := !s.boot.bell } }

/-- BELL_EDGE (R39, R40): the pin rises or falls, and only the edge that BELL_EDGE selects is active; while LOCKED one more than 10 µs off is
rejected; otherwise it is a phase sample, and a pending whole-second count is applied unless PTM or the Tether relay gives one. -/
def execBellEdge (s : State) : Res :=
  let err := bellError s
  let active := s.flag F.TT_SRC.BELL_EDGE == s.boot.bell
  let s := s.bellTurns
  if !(sources s).contains 1 || !active then done s
  else if s.fld F.TT_STATUS.STATE = ttLocked && decide (10000 < err.natAbs) then done (s.srcMiss 1)
  else
    let t := s.sample 1 err
    match s.ttu.setSec with
    | some n =>
      let t := { t with ttu := { t.ttu with setSec := none } }
      if (t.src 2).valid || (t.src 3).valid then done t else done (t.removeError ((n.toNat * 1000000000 : Nat) - (s.now : Int)))
    | none => done t

/-- BELL_EDGE_TIMEOUT (R40). -/
def execBellEdgeTimeout (s : State) : Res :=
  done (s.when (sources s |>.contains 1) (·.srcInvalid 1))

/-- PTM_DIALOG (R38, R39): `root` is the root's time at the dialog. -/
def execPtmDialog (root : Word64) (s : State) : Res :=
  done ((s.raise F.HIU_PORT_STATUS.PTM_VALID).sample 2 ((root.toNat : Int) - s.now))

/-- PTM_INTERVAL_MISS (R40). -/
def execPtmIntervalMiss (s : State) : Res :=
  done (s.when (sources s |>.contains 2) fun s =>
    let t := s.srcMiss 2
    t.when (!(t.src 2).valid) (·.clear F.HIU_PORT_STATUS.PTM_VALID))

/-- HOLDOVER_TIMEOUT (R42, R44): FREERUN unless a source is valid in the same cycle. -/
def execHoldoverTimeout (s : State) : Res :=
  done (s.when (s.fld F.TT_STATUS.STATE = ttHoldover && bestSource s == 0) (·.freerun))

/-- TT_SRC_WRITE (R42, R45): sources no longer configured lose their samples. -/
def execTtSrcWrite (v : Word) (s : State) : Res :=
  if s.locked R.TT_SRC then done s
  else
    let old := s.fld F.TT_STATUS.STATE
    let s := s.storeReg R.TT_SRC v
    let s := s.each [1, 2, 3] fun s c => s.when (!(sources s).contains c) (·.setSrc c {})
    if (sources s).isEmpty then
      done (({ s with ttu := { s.ttu with holdover := false, lockRun := 0 } }.setFld F.TT_STATUS.ACTIVE_SRC 0).ttState ttFreerun)
    else if old = ttFreerun then done (s.ttState (if s.ttu.referenced then ttFreerun else ttUnlocked))
    else if s.fld F.TT_STATUS.ACTIVE_SRC ≠ 0 && !(s.src (s.fld F.TT_STATUS.ACTIVE_SRC)).valid then done s.activeLost
    else done (s.ttState old)

/-- TT_CTRL_EN_WRITE (R49): a write of 1 to EN while it is 0 validates the staged set and installs it at the next boundary;
a set that fails leaves EN at 0. -/
def execTtCtrlEnWrite (v : Word) (s : State) : Res :=
  if s.locked R.TT_CTRL then done s
  else
    let en := s.flag F.TT_CTRL.EN
    if v.getLsbD 0 && !en then
      let t := s.storeReg R.TT_CTRL (v &&& 0x80000000)
      if stagedValid t then done ({ t with ttu := { t.ttu with enPending := true } }.clear F.TT_GC_STATUS.INVALID)
      else done (t.raise F.TT_GC_STATUS.INVALID)
    else
      let t := s.storeReg R.TT_CTRL v
      done ({ t with ttu := { t.ttu with enPending := t.ttu.enPending && v.getLsbD 0 } }).readyEval

/-- TT_SET_SEC_WRITE (R39): ignored while PTM or the Tether relay is active. -/
def execTtSetSecWrite (sec : Word) (s : State) : Res :=
  let act := s.fld F.TT_STATUS.ACTIVE_SRC
  if act = 2 || act = 3 then done s else done { s with ttu := { s.ttu with setSec := some sec } }

/-- TT_GC_CTRL_REQ (R64, R68). -/
def execTtGcCtrlReq (s : State) : Res := done (s.gcRequest .timetable)

/-- TT_NAMED_CTRL_ARM (R56, R57). -/
def execTtNamedCtrlArm (s : State) : Res := done (s.armNamed (BitVec.ofNat 64 (s.pair R.TT_NAMED_PNUM_LO)))

/-- TIMETABLE_COMMAND (R39, R56): the vendor command arms a named Assembly at Period `v`, or sets the time to `v` seconds.
The status of an arm refused as late is stated nowhere: a free value. -/
def execTimetableCommand (f : BitVec 12) (cid : BitVec 16) (setTime : Bool) (v : Word64) (s : State) : Res :=
  done (s.pfOnly f.toNat cid fun s =>
    if setTime then
      let act := s.fld F.TT_STATUS.ACTIVE_SRC
      (s.when (!(act == 2 || act == 3)) fun s => { s with ttu := { s.ttu with setSec := some (v.setWidth 32) } }).ok f.toNat cid
    else
      let late := !decide (s.now + periodNs s < v.toNat * periodNs s)
      let s := s.armNamed v
      if late then
        let (n, s) := s.draw
        s.adminDone f.toNat cid (n / 256 % 8) (n % 256)
      else s.ok f.toNat cid)

/-- Apply what waits for a Period boundary before the new Period is numbered: a step of device time (R43). -/
def boundaryStep (s : State) : State :=
  match s.ttu.step with
  | none => s
  | some d =>
    let t := { s with ttu := { s.ttu with step := none, time := BitVec.ofInt 64 ((s.now : Int) + d) } }
    (t.raise F.TT_EVT.STEPPED).entry 0x01 sevNotice

/-- The Timetable governs again: a commit that waited in flight while EN was 0 takes a new B (R49; DESIGN CHOICE). -/
def State.gcAgain (s : State) : State :=
  match s.ttu.gc with
  | none => s
  | some g => match commitB s s.ttu.time with
    | none => s
    | some b => { s with ttu := { s.ttu with gc := some { g with b := b, armed := false } } }

/-- Install a requested Timetable and set EN; a set changed since the write and no longer valid fails (R49). -/
def boundaryEnable (s : State) : State :=
  s.when s.ttu.enPending fun s =>
    let t := { s with ttu := { s.ttu with enPending := false } }
    if stagedValid t then ((installTimetable t (stagedNow t)).raise F.TT_CTRL.EN).gcAgain else t.raise F.TT_GC_STATUS.INVALID

/-- The named Assembly at the start of Period `n` (R56, R57). A Period entered again after a step back is what its table type says. While
EN = 0 the arm of P fires in P like any other (DESIGN CHOICE: R49 makes the Period a Recess for R50 only). -/
def boundaryNamed (s : State) (n : Nat) : State :=
  let again : Bool := match s.ttu.namedFired with | some p => decide (n ≤ p.toNat) | none => false
  let s := s.when again fun s => { s with ttu := { s.ttu with namedFired := none } }
  match s.ttu.named with
  | none => s
  | some p =>
    let fire (s : State) : State :=
      ({ s with ttu := { s.ttu with named := none, namedLate := false } }.clear F.TT_NAMED_CTRL.ARMED).raise F.TT_NAMED_CTRL.FIRED
    if p.toNat = n then fire { s with ttu := { s.ttu with namedFired := some p } }
    else if p.toNat < n then
      if tableType s n = 2 && s.flag F.TT_CTRL.EN then ((fire s).raise F.TT_NAMED_CTRL.LATE).vendorEvent 0xC5
      else { s with ttu := { s.ttu with namedLate := true } }
    else s

/-- Rates and the thermal factor staged for the next boundary (R213, R217, R425). -/
def boundaryStaged (s : State) : State :=
  let s := match s.sc.nextRate with
    | some r => { (s.setFld F.SC_STATUS.RATE r) with sc := { s.sc with nextRate := none } }
    | none => s
  let s := match s.sc.nextPau with
    | some r => { (s.setFld F.PAU_STATUS.RATE r) with sc := { s.sc with nextPau := none } }
    | none => s
  match s.pwr.nextFactor with
  | some f => { s with pwr := { s.pwr with factor := f, nextFactor := none } }
  | none => s

/-- Periods are numbered anew from device time at the start of a Period or of a new geometry (R46). -/
def State.renumber (s : State) : State :=
  let n := s.now / periodNs s
  boundaryNamed { s with ttu := { s.ttu with pnum := BitVec.ofNat 64 n } } n

/-- PERIOD_BOUNDARY (R43, R46, R49, R56, R83, R86, R306, R407): device time reaches the next multiple of the Period length. A pending
step is applied first, whatever the types; Periods are numbered from the new device time; the Period-start activation of the
new type is requested and event 24 set. -/
def execPeriodBoundary (s : State) : Res :=
  let stop := (s.now / periodNs s + 1) * periodNs s
  let s := boundaryStep (s.advance (stop - s.now))
  let s := (boundaryStaged (boundaryEnable s).renumber).avsBoundary
  let s := s.when s.zynRuns fun s => s.policy s.ptype s.ttu.pnum.toNat
  done (((s.when s.zynRuns (·.forceCheckpoints)).zynEventAll 24).movesRun.readyEval.shutdownEval.fwEval)

/-- ROLL_CALL_RELEASE (R60, R63, R127): every member is released with the result of its kind; the next call opens. Over the ring a broadcast
delivers the value of the device that opened it, and the cuts of all devices form the vector. -/
def execRollCallRelease (s : State) : Res :=
  let s := s.rcArrive
  match s.ttu.rc with
  | none => done s
  | some r =>
    if !rcComplete s r then done s
    else
      let m := rcMask s r
      let own := s.fld F.TH_CTRL.RING_ID
      let cut := r.cut.getD s.lastSeq
      let v : Word64 := match r.kind with
        | .barrier => m
        | .broadcast => if r.ring && r.origin != own then sgetD 0 r.origin r.ringGot else rcValue s r
        | .snapshot => BitVec.ofNat 64 cut
      let s := s.each r.waiters fun s k => s.rcResult k v true m
      let s := s.when (r.ring && r.kind == .snapshot) fun s =>
        { s with ttu := { s.ttu with cutVec := sput own (BitVec.ofNat 64 cut) r.ringGot } }
      let s := if r.kind = .snapshot then
          if cut ≤ s.jnl.sealed then s.each r.waiters fun s k => s.zynEvent (CtxId.ofKey k) 26
          else { s with ttu := { s.ttu with cutWait := s.ttu.cutWait ++ [(cut, r.waiters)] } }
        else s
      done s.rcNext

/-- Timeout of a Roll Call in ns (R61, R62): over a ring of k devices the bound of R61 is added. -/
def rcTimeout (s : State) (r : RollCall) : Nat :=
  max 200 (s.fld F.TT_RC_TIMEOUT.TIMEOUT_NS) + (if r.ring then 3000 * (((ringOthers s).length + 1) / 2) else 0)

/-- ROLL_CALL_TIMEOUT (R62): unless the last member arrived in the same cycle, the call fails and its arrived members are
released with the failure predicate. -/
def execRollCallTimeout (s : State) : Res :=
  match s.ttu.rc with
  | none => done s
  | some r =>
    if rcComplete s r then done s
    else match s.reach (r.since + rcTimeout s r) with
      | none => done s
      | some s =>
        let m := rcMask s r
        let s := s.each r.waiters fun s k => s.rcResult k 0 false m
        done (s.rcNext.raise F.TT_EVT.RC_TIMEOUT)

end Sys2Proof.Machine
end

