-- ==== Sys2Proof/Machine/OpsRegs.lean ====
section
/-! DEFINITION. BAR2 reads and writes, and what a write of a register does beyond storing it (R4 to R7, R488 to R494). -/
namespace Sys2Proof.Machine

/-- The state that an answer leaves. -/
def after (s : State) (r : Res) : State := match r with | .next t => t | _ => s

/-- Every LOCK bit goes to 1 in one cycle; measurement 6 is extended in ascending base order (R494, R495). -/
def State.lockAll (s : State) : State :=
  s.each lockList fun s (b, r, _) =>
    if (s.reg r).getLsbD 31 then s else (s.setReg r (s.reg r ||| 0x80000000)).extendM6 b

/-- A write of BPM_SHARE (R192): the share in force, and SHARE of every record that names the account. -/
def State.shareWrite (s : State) (a : Nat) (v : Word) : State :=
  let s := s.storeReg (R.BPM_SHARE + 4 * a) v
  let s := s.each (s.tenants.filter fun f => s.tenAccount f == a) fun s f => s.tjrn 5 f 1 (share s a)
  s.bpmEval a

/-- A write of TH_NSCFG: the agreement of the ring is evaluated again and HELLO carries the new configuration (R458, R467). -/
def State.nscfgWrite (s : State) (off : Nat) (v : Word) : State :=
  ((s.storeReg off v).agreeEval.sendHello false).sendHello true

/-- One 32-bit write of a register (R4), with what it starts. A START of a port loop-back meets no operand for retraining: a free
value decides. -/
def State.regWrite (s : State) (off : Nat) (v : Word) (pf : Bool := false) (via1687 : Bool := false) : State :=
  let bit (k : Nat) : Bool := v.getLsbD k
  if off = R.GLB_CTRL then (s.storeReg off v).when (bit 0) (·.lockAll)
  else if off = R.TT_CTRL then after s (execTtCtrlEnWrite v s)
  else if off = R.TT_SRC then after s (execTtSrcWrite v s)
  else if off = R.TT_SET_SEC then after s (execTtSetSecWrite v s)
  else if off = R.TT_GC_CTRL then s.when (bit 0) (·.gcRequest .timetable)
  else if off = R.TT_NAMED_CTRL then
    (s.storeReg off v).when (bit 0) fun s => s.armNamed (BitVec.ofNat 64 (s.pair R.TT_NAMED_PNUM_LO))
  else if off = R.MED_ENV_STAGE then (s.storeReg off v).when (bit 31) (·.gcRequest .envelope)
  else if off = R.PMU_PL_CAP then (s.storeReg off v).plEval
  else if R.PMU_VOTE ≤ off && off < R.PMU_VOTE + 40 then
    let s := s.storeReg off v
    s.when (off == R.PMU_VOTE + 32 && voted s 8) (·.dmcWake)
  else if off = R.TMU_THRESH then after s (execTmuThreshWrite v s)
  else if off = R.TMU_CTRL || off = R.TMU_THR_CFG then (s.storeReg off v).thermalEval
  else if R.BPM_SHARE ≤ off && off < R.BPM_SHARE + 4 * 4097 then s.shareWrite ((off - R.BPM_SHARE) / 4) v
  else if off = R.BPM_LOW_WM then (s.storeReg off v).bpmEval 0
  else if off = R.TH_CTRL then after s (execThCtrlEnWrite v s)
  else if off = R.TH_NS_CMD then after s (execThNsCmdTakeover v s)
  else if R.TH_NSCFG ≤ off && off < R.TH_NSCFG + 256 then s.nscfgWrite off v
  else if off = R.SC_CTRL then let t := s.storeReg off v; t.setBit F.SC_STATUS.PREFILTER (preFilterMode t)
  else if off = R.JNL_DIRTY_CEIL || off = R.JNL_HOLDUP || off = R.JNL_FLUSH_PARAM then (s.storeReg off v).ceilEval
  else if off = R.ECC_INJECT then (s.storeReg off v).when (bit 6) (·.raise F.ECC_INJECT.ARMED)
  else if off = R.GB_CTRL then (s.storeReg off v).when (bit 0) (·.gbClose 5)
  else if off = R.MED_BALLAST || off = R.TT_BALLAST_HYST then (s.storeReg off v).each s.media.dies (·.ballastCheck ·)
  else if off = R.MED_SPARE then (s.storeReg off v).spareEval
  else if off = R.TST_LB_CTRL then
    let (n, t) := s.draw
    let s := (if s.fld F.DMC_STATUS.STATE = 4 then t else s).storeReg off v
    let s := s.when (bit 18) fun s => s.loopStart pf via1687 (n % 2 == 1)
    s.when (bit 19) (·.loopStop)
  else if R.TST_PRBS ≤ off && off < R.TST_PRBS + 48 then
    let k := (off - R.TST_PRBS) / 4
    let s := s.storeReg off v
    if s.flag (F.TST_PRBS.CHK_EN.ix k) then s else s.clear (F.TST_PRBS.LOCKED.ix k)
  else if off = R.TST_MARGIN_CTRL then (s.storeReg off v).when (bit 28) (·.marginStart)
  else s.storeReg off v

/-! ### Accesses (R433, R437, R488, R490, R491) -/

/-- What an access of one DW meets. -/
inductive Access
  | unmapped | notLoaded
  /-- An SEQ block of an unpopulated channel. -/
  | absent
  | mapped
deriving DecidableEq, Repr

/-- A channel has a populated die. -/
def channelPopulated (s : State) (n : Nat) : Bool := s.media.dies.any fun d => d / 32 == n

def accessOf (s : State) (off : Nat) : Access :=
  if 0x1700000 ≤ off then .unmapped
  else if off / 0x100000 ≠ 22 && s.fld F.BOOT_STATUS.STATE ≠ 1 then .notLoaded
  else if 0xA00000 ≤ off && off < 0xC00000 && !channelPopulated s ((off - 0xA00000) / 0x10000) then .absent
  else if (findReg off).isSome then .mapped else .unmapped

/-- Domain of the block that holds an offset; AON blocks have none. -/
def regDomain (off : Nat) : Option Nat :=
  let base := if 0xA00000 ≤ off && off < 0xC00000 then off / 0x10000 * 0x10000 else off / 0x100000 * 0x100000
  (List.range 13).find? fun d => (domBlocks d).contains base

/-- An access restores the domain of its block first (R491); its retained image is taken as sound (a bad one is met by DOMAIN_RESTORE). -/
def State.regWake (s : State) (off : Nat) : State :=
  match regDomain off with
  | some d => if 2 ≤ s.dom d then s.restoreDomain d [] else s
  | none => s

/-- An access error; GLB_ERR_ADDR keeps the first DW concerned (R488). -/
def State.accessError (s : State) (pf : Bool) (f : Field) (off : Nat) (first : Bool) : State :=
  let s := s.raise f
  if first then (s.setFld F.GLB_ERR_ADDR.OFFSET off).setBit F.GLB_ERR_ADDR.PF pf else s

/-- Write one DW; the flag tells whether an error has been recorded for this access. -/
def State.writeDw (s : State) (pf : Bool) (off : Nat) (v : Word) (seen : Bool) : State × Bool :=
  match accessOf s off with
  | .unmapped => (s.accessError pf F.GLB_ERR.UNMAPPED off (!seen), true)
  | .notLoaded => (s.accessError pf F.GLB_ERR.NOT_LOADED off (!seen), true)
  | .absent => (s, seen)
  | .mapped => ((s.regWake off).regWrite off v pf, seen)

/-- A write access of consecutive DWs (R488). -/
def State.writeRegs (s : State) (pf : Bool) (off : Nat) (words : List Word) (be : Bool) : State :=
  if pf && !s.x4x4 then s
  else if words.isEmpty then s
  else
    let s := s.l1Exit (if pf then 2048 else 0)
    if 2 < words.length || !be then s.accessError pf F.GLB_ERR.BAD_WIDTH off true
    else (words.zipIdx.foldl (fun (acc : State × Bool) p => acc.1.writeDw pf (off + 4 * p.2) p.1 acc.2) (s, false)).1

/-- Key of a latched HI register of a PF. -/
def latchKey (pf : Bool) (hi : Nat) : Nat := (if pf then 67108864 else 0) + hi

/-- The offset is a LO register whose read latches the next register (R490). -/
def isLatchLo (off : Nat) : Bool := latchLo.any fun (lo, st, n) => decide (lo ≤ off) && (off - lo) % st == 0 && decide ((off - lo) / st < n)

/-- Fields cleared by a read (R4); CMD_INFLIGHT_MAX goes to the current count. -/
def State.readClear (s : State) (off : Nat) : State :=
  if off = R.CMD_INFLIGHT_MAX then s.setFld F.CMD_INFLIGHT_MAX.MAX s.host.cmds.length
  else match findReg off with
    | some (d, _) => if d.rc = 0 then s else s.setReg off (s.reg off &&& ~~~(BitVec.ofNat 32 d.rc))
    | none => s

/-- Read one DW: its value leaves the block, a LO read latches HI, an rc field clears. -/
def State.readDw (s : State) (pf : Bool) (off : Nat) (seen : Bool) : State × Bool :=
  match accessOf s off with
  | .unmapped => ((s.accessError pf F.GLB_ERR.UNMAPPED off (!seen)).emit (.reg pf off 0), true)
  | .notLoaded => ((s.accessError pf F.GLB_ERR.NOT_LOADED off (!seen)).emit (.reg pf off 0), true)
  | .absent => (s.emit (.reg pf off (if off % 0x10000 = 0 then 3 else 0)), seen)
  | .mapped =>
    let s := s.regWake off
    let v := if isLatchLo (off - 4) then sgetD 0 (latchKey pf off) s.host.latch else s.view off
    let s := s.when (isLatchLo off) fun s =>
      { s with host := { s.host with latch := sput (latchKey pf (off + 4)) (s.view (off + 4)) s.host.latch } }
    ((s.readClear off).emit (.reg pf off v), seen)

/-- A read access of `n` consecutive DWs (R488): past 16, zeros with no side effect. -/
def State.readRegs (s : State) (pf : Bool) (off n : Nat) : State :=
  if pf && !s.x4x4 then s
  else
    let s := s.l1Exit (if pf then 2048 else 0)
    let s := s.when (decide (16 < n)) fun s => s.accessError pf F.GLB_ERR.BAD_WIDTH off true
    let s := ((List.range (min n 16)).foldl (fun (acc : State × Bool) i => acc.1.readDw pf (off + 4 * i) acc.2) (s, decide (16 < n))).1
    s.each (List.range (n - 16)) fun s i => s.emit (.reg pf (off + 4 * (16 + i)) 0)

/-- Byte offset of a DW-aligned access. -/
def dwOff (off : BitVec 26) : Nat := off.toNat / 4 * 4

end Sys2Proof.Machine
end

