-- ==== Sys2Proof/Machine/OpsBoot.lean ====
section
/-! DEFINITION. The ROM boot: image checks, steps B1 to B11 and what a failed one leaves (R95, R384, R390, R430 to R437). -/
namespace Sys2Proof.Machine

/-! ### Image checks (B5, B6) -/

/-- Kinds a class must supply (R83). -/
def mandatoryKinds : Nat → List Nat
  | 0 => [0, 1, 2, 3, 0x1F]
  | 1 => [0, 1, 2, 3, 4, 5, 0x1F]
  | 2 => [0, 1, 3, 0x1F]
  | _ => [1, 2, 3, 4, 5, 6, 7, 8, 9, 0xA, 0x1F]

/-- Cap on BUDGET per class (R97). -/
def budgetCap : Nat → Nat | 0 => 4096 | 1 => 8192 | 2 => 16384 | _ => 4194304

/-- Code and entry table of each class of a bundle. -/
def bundleClasses (b : Bundle) : List (Nat × List Word × List Entry) :=
  [(0, b.code0, b.entries0), (1, b.code1, b.entries1), (2, b.code2, b.entries2), (3, b.code3, b.entries3)]

/-- Directory entries in use: the first SECTION_COUNT (R93). -/
def Image.sectionList (img : Image) : List DirEntry := img.dir.take img.sections.toNat

/-- Length in bytes of the section of a type, if the bundle has one. -/
def Image.sectionLen (img : Image) (type : Nat) : Option Nat :=
  (img.sectionList.find? fun (e : DirEntry) => e.type.toNat == type).map fun e => e.length.toNat

/-- Two directory entries that share a byte. -/
def DirEntry.overlaps (a b : DirEntry) : Bool :=
  decide (a.offset.toNat < b.offset.toNat + b.length.toNat) && decide (b.offset.toNat < a.offset.toNat + a.length.toNat)

/-- Check 4 of R95 on the directory: entries within TOTAL_LEN, none overlapping, code sections of at most 1 MiB in whole words, a PARAM image of
0x0350 to 65 536 whole entries. -/
def Image.dirOk (img : Image) : Bool :=
  let l := img.sectionList
  (l.all fun e => decide (e.offset.toNat + e.length.toNat ≤ img.totalLen.toNat)) &&
  decide (l.Pairwise fun a b => a.overlaps b = false) &&
  (l.all fun e => !(decide (1 ≤ e.type.toNat) && decide (e.type.toNat ≤ 4)) || (decide (e.length.toNat ≤ 1048576) && e.length.toNat % 4 == 0)) &&
  (match img.sectionLen 0x20 with
   | some n => n % 8 == 0 && decide (0x350 * 8 ≤ n) && decide (n ≤ 65536 * 8)
   | none => false)

/-- Check 3 of R95: the attestation names this bundle, its digest of each code section is that section's, and it covers every property of
R97 for every entry point. DESIGN CHOICE: an attestation that leaves a property of R97 out fails this check; R97 gives it no number. -/
def Image.attestOk (img : Image) : Bool :=
  img.attest.bundleId == img.bundle.id &&
  ((img.sectionList.filter fun e => decide (1 ≤ e.type.toNat) && decide (e.type.toNat ≤ 4)).all fun e =>
    (sget e.type.toNat img.attest.code).isSome && sget e.type.toNat img.attest.code == sget e.type.toNat img.codeHash) &&
  (bundleClasses img.bundle).all fun c => c.2.2.all fun e => sget (c.1 * 256 + e.kind.toNat) img.attest.props == some 0x7F

/-- The first check of R95 that a bundle fails; 0: none. Code words are those of the code section of the class. -/
def bundleCheck (img : Image) (rom : Nat) : Nat :=
  let b := img.bundle
  let cs := bundleClasses b
  let words (c : Nat) : Nat := (img.sectionLen (c + 1)).getD 0 / 4
  let kindsOk (c : Nat × List Word × List Entry) : Bool :=
    let ks := c.2.2.map fun e => e.kind.toNat
    ks.length ≤ 64 && decide ks.Nodup && ((mandatoryKinds c.1).all fun k => ks.contains k) &&
      c.2.2.all fun e => decide (e.codeOffset.toNat < words c.1) && (match e.vector with | some v => decide (v < words c.1) | none => true)
  let budgetOk (c : Nat × List Word × List Entry) : Bool :=
    c.2.2.all fun e => match sget (c.1 * 256 + e.kind.toNat) img.attest.worst with
      | some w => decide (w ≤ e.budget.toNat) && decide (e.budget.toNat ≤ budgetCap c.1)
      | none => false
  if !(img.magic == 0x424E595A && img.bformat == 2 && img.totalLen.toNat % 4096 == 0 && decide (img.totalLen.toNat ≤ 8388608) &&
      decide (1 ≤ img.sections.toNat) && decide (img.sections.toNat ≤ 16) && decide (img.minRom.toNat ≤ rom)) then 1
  else if !(img.contentDigest == img.contentHash && img.attestDigest == img.attestHash) then 2
  else if !img.attestOk then 3
  else if !img.dirOk then 4
  else if !(cs.all kindsOk) then 5
  else if !(cs.all budgetOk) then 6
  else 0

/-- The fields of a signature block have the values R389 gives them: the magic bytes 5A 49 4D 47, FORMAT 1, FLAGS 0, an SVN of at most 64, a
payload of whole 4 096 bytes and at most 8 MiB. -/
def SigBlock.formatOk (k : SigBlock) : Bool :=
  k.magic == 0x474D495A && k.format == 1 && k.flags == 0 && decide (k.svn.toNat ≤ 64) && k.payloadLen.toNat % 4096 == 0 &&
    decide (k.payloadLen.toNat ≤ 8388608)

/-- Section 0x0030's block verifies against the vendor key hash fuses (R390); its payload length is not held to whole 4 096 bytes, since a
section has no such bound (DEDUCED). -/
def Image.vendorOk (s : State) (img : Image) : Bool :=
  img.vendor.magic == 0x474D495A && img.vendor.format == 1 && img.vendor.flags == 0 && img.vendor.keyHash == s.sec.fuses.vendor &&
    img.vendor.ecdsaOk && img.vendor.mldsaOk && img.vendor.payloadDigest == img.vendorHash

/-- The code that B5 and B6 give an image (R390, R432, R435); 0: accepted. In Blank the owner key hash is not compared. -/
def imageCode (s : State) (img : Image) (rom : Nat) : Nat :=
  if !(img.block.formatOk && img.bundle.svn == img.block.svn) then 0x30
  else if s.lifecycle ≠ lcBlank && img.keyHash ≠ s.sec.fuses.owner then 0x31
  else if !img.block.ecdsaOk then 0x32
  else if !img.block.mldsaOk then 0x33
  else if img.block.payloadDigest != img.payloadHash then 0x34
  else if !Image.vendorOk s img then 0x35
  else if img.svn < s.sec.fuses.svn then 0x36
  else match bundleCheck img rom with | 0 => 0 | k => 0x40 + k

/-- Image of a slot: false A, true B. -/
def State.slotImage (s : State) (slot : Bool) : Image := if slot then s.boot.slotB else s.boot.slotA

/-- The valid selector copy of the higher GEN (R434). -/
def State.selector (s : State) : Option Selector :=
  match s.boot.sel0.ok, s.boot.sel1.ok with
  | true, true => some (if s.boot.sel0.gen < s.boot.sel1.gen then s.boot.sel1 else s.boot.sel0)
  | true, false => some s.boot.sel0
  | false, true => some s.boot.sel1
  | false, false => none

/-- The bundle takes effect: code, entry tables, PARAM image and the identity registers (R96, R432 B10). -/
def State.loadBundle (s : State) (b : Bundle) : State :=
  let p : Sparse Word64 := (b.param.zipIdx.filter fun (x : Word64 × Nat) => x.1 != 0).map fun (x : Word64 × Nat) => (x.2, x.1)
  let s := { s with zyn := { s.zyn with bundle := b, tab := { s.zyn.tab with param := p } } }
  (s.setReg R.ZYN_BUNDLE_ID b.id).setReg R.ZYN_BUNDLE_SVN b.svn

/-! ### B1 to B4 -/

/-- Straps (R430): GPIO[2] sampled 1 sets BAD and acts as 0; RING_ID takes the role hint (R458). The content of the NOR device is what the
board has left there. The regulators are trimmed to the fused PL0 value (R427). -/
def State.bootStart (s : State) (b : BootIn) : State :=
  let k := s.boot
  let k : BootSt := { k with gpio0 := b.gpio0, gpio1 := b.gpio1, gpio2 := b.gpio2, bootSlot := b.bootSlot, roleHint := b.roleHint }
  let k : BootSt := match b.nor with
    | some n => { k with sel0 := n.sel0, sel1 := n.sel1, slotA := n.slotA, slotB := n.slotB }
    | none => k
  let s := { s with boot := k }
  let s := (((s.setBit F.BOOT_STRAPS.PORT_MODE b.gpio0).setBit F.BOOT_STRAPS.XSPI_MODE b.gpio1).setBit F.BOOT_STRAPS.BOOT_SLOT b.bootSlot)
  let s := ((s.setBit F.BOOT_STRAPS.TETHER_ROLE_HINT b.roleHint).setBit F.BOOT_STRAPS.BAD b.gpio2).setBit F.HIU_PORT_STATUS.MODE b.gpio0
  let s := s.setFld F.TH_CTRL.RING_ID (if b.roleHint then 1 else 0)
  let s := ((s.setFld F.BOOT_ROM_REV.ROM_REV b.romRev.toNat).setFld F.BOOT_ROM_REV.CAUSE s.boot.cause).setFld F.BOOT_STATUS.STATE 0
  let r : AvsReq := { rail := 0, mv := levelCore 0, oldCore := 880, oldSram := levelSram s 0 }
  { (s.emit (.avs (levelCore 0) (levelSram s 0))) with pwr := { s.pwr with avs := some r } }

/-- B1 and B2 (R387, R388, R432): a failure is the error state, and the boot goes on. -/
def State.bootTests (s : State) (b : BootIn) : State :=
  let s := s.setFld F.BOOT_STATUS.STEP 2
  let s := if !b.fusesOk then (s.setFld F.BOOT_STATUS.CODE 0x10).secError 7
    else if !b.castOk then (s.setFld F.BOOT_STATUS.CODE 0x11).secError 1
    else if !b.entropyOk then (s.setFld F.BOOT_STATUS.CODE 0x12).secError 3
    else s.setFld F.SEC_STATUS.STATE 1
  s.setBit F.TST_STATUS.JTAG_CRYPTO ((s.lifecycle == lcBlank && !s.sec.fuses.jtagOff) || s.lifecycle == lcRma)

/-- Complete the lifecycle transition that the fuses show (R384). -/
def State.lifecycleRepair (s : State) : State :=
  let f := s.lifecycle
  if s.sec.ledger.lifecycle.toNat = f then s
  else
    let s := if f = lcMission then s.renewMeks
      else if f = lcRma then s.zeroizeAll false
      else if f = lcDecommissioned then (s.zeroizeAll true).setFuses { (s.zeroizeAll true).sec.fuses with udsKilled := true, uds := 0 }
      else s
    let written := s.sec.ledger.ring.any fun (x : Nat × LedgerRec) => x.2.kind == 5 && x.2.lifecycle == f
    let s := if written || f = lcBlank || ledgerFull s then s else s.ledgerPut (s.ledgerMake 5 0 0 0 0 0)
    s.setLedger { s.sec.ledger with lifecycle := BitVec.ofNat 8 f }

/-- B3: critical words, the power-cycle count, the lifecycle (R336, R384, R432). -/
def State.bootWords (s : State) : State :=
  let s := s.setFld F.BOOT_STATUS.STEP 3
  let s := s.when s.mram.valid (·.voteAll)
  let s := s.setLedger { s.sec.ledger with cycles := s.sec.ledger.cycles + 1 }
  s.lifecycleRepair

/-- The boot ends in FAILED (R433). -/
def State.bootFail (s : State) (step code : Nat) (b : BootIn) : State :=
  (((s.setFld F.BOOT_STATUS.STATE 2).setFld F.BOOT_STATUS.STEP step).setFld F.BOOT_STATUS.CODE code).setFld F.BOOT_TIME.MS b.ms.toNat

/-- The slot tried first (R430, R434). -/
def State.firstSlot (s : State) (b : BootIn) : Bool × State :=
  match s.selector with
  | some x => (x.next != b.bootSlot, s)
  | none => (false, s.setFld F.BOOT_STATUS.CODE 0x21)

/-- B5 and B6 on the chosen slot and, once, on the other (R432, R433). -/
def State.bootChoose (s : State) (b : BootIn) : Option Bool × State :=
  let rom := b.romRev.toNat
  let step (c : Nat) : Nat := if c < 0x40 then 5 else 6
  let (slot, s) := s.firstSlot b
  match imageCode s (s.slotImage slot) rom with
  | 0 => (some slot, s.setFld F.BOOT_STATUS.STEP 6)
  | c =>
    let s := s.setFld F.BOOT_STATUS.CODE c
    match imageCode s (s.slotImage (!slot)) rom with
    | 0 =>
      let s := ((s.raise F.BOOT_STATUS.FALLBACK).setFld F.BOOT_STATUS.STEP 6).setFld F.BOOT_ROM_REV.CAUSE 4
      (some (!slot), { s with boot := { s.boot with cause := 4 } })
    | d => (none, s.bootFail (step d) d b)

/-! ### B7, B8 -/

/-- The image is accepted: its identity, the keys and the boot record (R392, R395 to R397, R402, R432, R435). -/
def State.bootIdentity (s : State) (slot : Bool) : State :=
  let img := s.slotImage slot
  let s := { s with boot := { s.boot with slot := slot }, sec := { s.sec with image := img.digest, sec30 := img.sec30 } }
  let s := ((s.setBit F.BOOT_STATUS.SLOT slot).setFld F.SEC_SVN.RUNNING img.svn).setBit F.SEC_SVN.SLOT slot
  let s := (s.setReg R.ZYN_BUNDLE_ID img.bundle.id).setReg R.ZYN_BUNDLE_SVN img.bundle.svn
  if s.secHalted then s
  else
    let s := s.setFld F.BOOT_STATUS.STEP 8
    let s := if s.lifecycle = lcDecommissioned then s
      else
        let a := Config.digest [s.sec.fuses.uds.toNat, img.digest.toNat, img.svn, s.lifecycle, s.fld F.BOOT_ROM_REV.ROM_REV]
        { s with sec := { s.sec with keysReady := true, aliasId := BitVec.ofNat 64 a.toNat } }
    let s := s.compactResume
    let s := s.when (ledgerOpen s) fun s => s.ledgerBoot s.boot.cause
    s.ledgerEval.ledgerCheckpoint

/-! ### B9: DRAM and media -/

/-- The DMC_CFG that a DRAM configuration record asks for (R342, R436); none: invalid. -/
def dmcConfig (rec : Nat) : Option Nat :=
  let pop := rec % 2
  let dens := rec / 2 % 2
  let two := rec / 4 % 2
  let rate := rec / 8 % 8
  if rec / 128 ≠ 0 || 4 < rate || (pop = 0 && two = 1) then none
  else
    let gib := (if dens = 0 then 32 else 48) * (if pop = 0 then 2 else 1) * (two + 1)
    some (rec % 128 + gib * 128)

/-- Training (R365): the fast path with a saved set of the same configuration, else the full one, whose results are saved. -/
def State.train (s : State) (b : BootIn) : State × Bool :=
  let cfg := s.reg R.DMC_CFG
  let s := s.setFld F.DMC_TRAIN.MS b.trainMs.toNat
  if s.dmc.saved == some cfg && b.fastOk then ((s.setFld F.DMC_TRAIN.LAST 1).setFld F.DMC_STATUS.STATE 2, true)
  else if b.trainOk then ({ ((s.setFld F.DMC_TRAIN.LAST 2).setFld F.DMC_STATUS.STATE 2) with dmc := { s.dmc with saved := some cfg } }, true)
  else
    let s := ((s.setFld F.DMC_TRAIN.LAST 3).setFld F.DMC_TRAIN.STEP b.trainStep.toNat).setFld F.DMC_STATUS.STATE 0
    ({ (s.raise F.DMC_EVT.TRAIN_FAIL) with boot := { s.boot with noReady := true } }, false)

/-- Die numbers of the population (R256): channel × 32 + target × 4 + LUN. -/
def bootDies (b : BootIn) : List Nat :=
  (List.range b.channels).flatMap fun c => (List.range b.targets).flatMap fun t => (List.range b.luns).map fun l => c * 32 + t * 4 + l

/-- Geometry, interfaces and dies found at start-up (R256): a LUN of another geometry is a failed die. The channel groups without a
populated channel stay OFF (R491). -/
def State.bootMedia (s : State) (b : BootIn) : State :=
  let s := ((s.setFld F.MED_GEO0.PPB b.ppb).setFld F.MED_GEO0.PLANES b.planes).setFld F.MED_GEO0.CPP b.cpp
  let s := (((s.setFld F.MED_GEO1.BLOCKS b.blocks).setFld F.MED_GEO1.CHANNELS b.channels).setFld F.MED_GEO1.TARGETS b.targets).setFld F.MED_GEO1.LUNS b.luns
  let s := s.each (List.range 32) fun s ch =>
    if b.channels ≤ ch then s.setFld (F.SEQ_IFCFG.IFTYPE.ix ch) 3
    else
      let (ty, rate) := ((b.iface.find? fun (x : Nat × Nat × Nat) => x.1 == ch).map fun (x : Nat × Nat × Nat) => x.2).getD (0, 4)
      ((((s.setFld (F.SEQ_IFCFG.IFTYPE.ix ch) ty).setFld (F.SEQ_IFCFG.RATE.ix ch) rate).setFld (F.SEQ_IFCFG.TGT_M1.ix ch) (b.targets - 1)).setFld
        (F.SEQ_IFCFG.LUN_M1.ix ch) (b.luns - 1))
  let s := s.each (List.range 8) fun s g => if b.channels ≤ 4 * g then s.setDom (g + 1) 3 else s
  { s with
    media := { s.media with dies := bootDies b }
    boot := { s.boot with badBlocks := b.badBlocks } }

/-! ### Keys at start-up -/

/-! ### B10, B11 -/

/-- Register presets, in list order (R437). -/
def State.presets (s : State) : Nat → List Word64 → State
  | 0, _ => s
  | _, [] => s
  | n + 1, e :: t =>
    let off := e.toNat % 2 ^ 32
    let v : Word := BitVec.ofNat 32 (e.toNat / 2 ^ 32)
    let blk := off / 0x100000
    if off = 0xFFFFFFFF then s
    else if off % 4 ≠ 0 || blk = 0 || blk = 2 || 22 ≤ blk then (s.count F.BOOT_STATUS.PRESET_SKIP).presets n t
    else (s.regWrite off v).presets n t

/-- B10 and B11: stores, PARAM, presets, INIT; STATE LOADED (R83, R432, R437). SRAM macro failures found by BIST are reported (R483). -/
def State.bootLoad (s : State) (b : BootIn) : State :=
  let bu := (s.slotImage s.boot.slot).bundle
  let s := s.loadBundle bu
  let s := s.setFld F.SC_STATUS.OFFLINE 0xFFFF
  let s := s.raise F.SC_STATUS.PREFILTER
  let s := s.presets 64 (bu.param.drop 0x310)
  let s := { s with media := { s.media with weights := s.reg R.MED_ENV_WEIGHT } }
  let s := s.lockRanges.loadMeks
  let s := s.each s.tst.bistFail fun s _ => s.entry 0x15 sevFault
  let s := { s with tst := { s.tst with bistFail := [] } }
  let s := (s.setFld F.ZYN_STATUS.STATE 2).policy 9 bu.id.toNat
  ((s.setFld F.BOOT_STATUS.STATE 1).setFld F.BOOT_STATUS.STEP 11).setFld F.BOOT_TIME.MS b.ms.toNat

/-- The ROM boot from the strap-sampling edge (R430 to R437). -/
def State.romBoot (s : State) (b : BootIn) : State :=
  let s := ((s.bootStart b).bootTests b).bootWords
  if !b.xspiOk then s.bootFail 4 0x20 b
  else match s.bootChoose b with
    | (none, s) => s
    | (some slot, s) =>
      let s := s.bootIdentity slot
      match dmcConfig (((s.slotImage slot).bundle.param.getD 0x300 0).toNat) with
      | none => s.bootFail 9 0x61 b
      | some cfg =>
        let (s, ok) := (s.setReg R.DMC_CFG (BitVec.ofNat 32 cfg)).train b
        if !ok then s.bootFail 9 0x60 b
        else
          let s := (s.bootMedia b).bootLoad b
          s.each b.oddDies fun s d => if s.populated d then s.failDie d else s

end Sys2Proof.Machine
end

