-- ==== Sys2Proof/Machine/OpsRun.lean ====
section
/-! DEFINITION. The first CC.EN, the phases of recovery, and the ends of the flush path (R187, R311 to R315, R345, R438). -/
namespace Sys2Proof.Machine

/-! ### The first CC.EN of PF0 (R187, R200, R345, R438, R492) -/

/-- COUNT taken from BPM_POOL_CFG, in range (R187). -/
def poolClamp (n : Nat) : Nat := max 262144 (min 2097152 (n / 1024 * 1024))

/-- Regions of DRAM in MiB: pool, table space and map region, each as (base, size) (R345). -/
def regions (cap count tbl map : Nat) : (Nat × Nat) × (Nat × Nat) × (Nat × Nat) :=
  let pool := (count * 4352 + 2 ^ 20 - 1) / 2 ^ 20
  let t := (16 + pool + 1023) / 1024 * 1024
  let m := t + tbl * 1024
  ((16, pool), (t, tbl * 1024), (m, min (map * 1024) (cap * 1024 - m)))

/-- Latch what is read at this instant: the pool, the regions, the Seating Chart layout; recovery starts. -/
def State.configure (s : State) : State :=
  let want := s.fld F.BPM_POOL_CFG.COUNT
  let n := poolClamp want
  let s := (s.setBit F.BPM_STATUS.CFG_CLAMPED (n != want)).setFld F.BPM_FREE.FREE n
  let s := { s with host := { s.host with poolCount := n, configured := true } }
  let map := max 1 (min 64 (s.fld F.MAP_REGION_CFG.SIZE_GIB))
  let (p, t, m) := regions (s.fld F.DMC_CFG.CAP_GIB) n (max 1 (min 8 (s.fld F.DMC_TBL_CFG.TBL_GIB))) map
  let s := (s.setFld F.DMC_REGION_POOL.BASE_MIB p.1).setFld F.DMC_REGION_POOL.SIZE_16M ((p.2 + 15) / 16)
  let s := (s.setFld F.DMC_REGION_TBL.BASE_MIB t.1).setFld F.DMC_REGION_TBL.SIZE_16M ((t.2 + 15) / 16)
  let s := (s.setFld F.DMC_REGION_MAP.BASE_MIB m.1).setFld F.DMC_REGION_MAP.SIZE_16M ((m.2 + 15) / 16)
  let s := s.when (decide (m.2 < map * 1024)) (·.raise F.DMC_STATUS.REGION_CLAMPED)
  let s := s.scLayout
  { s with jnl := { s.jnl with phase := some 0, recovAt := s.ttu.elapsed } }

/-! ### Recovery -/

/-- First start (R438): blocks with factory marks are retired, blocks are erased until every in-service die has FLOOR + 8 free ones, and the
rest are closed with VALID 0. These words take no sequence number: R293 does not list them among the journaled writes. -/
def State.firstStart (s : State) : State :=
  let want := s.fld F.MED_BALLAST.FLOOR + 8
  let s := s.each (s.media.dies.filter s.inService) fun s d =>
    let bad (b : Nat) : Bool := s.boot.badBlocks.contains (d * 2 ^ 15 + b)
    let free := ((List.range (geoBlocks s)).filter fun b => !bad b).take want
    s.each (List.range (geoBlocks s)) fun s b =>
      if free.contains b then (s.wipeBlock d b).rawWord 4 (d * geoBlocks s + b) 0 (2 ^ 20)
      else s.rawWord 4 (d * geoBlocks s + b) 0 ((if bad b then 3 else 2) * 65536)
  let spare := (s.media.dies.filter s.inService).map fun d => (d, spareOf s d)
  { s with media := { s.media with spare0 := spare }, mram := { s.mram with spare0 := spare, blockRec := s.zyn.tab.block } }

/-- Counters and offsets that start-up takes from the MRAM (reset domains of the register map, R269, R289). -/
def State.restoreCounters (s : State) : State :=
  let s := (s.setReg R.MED_RETIRED_CNT s.mram.retired).setReg R.JNL_LOST_CNT s.mram.lost
  { s with media := { s.media with offsets := s.mram.offsets, spare0 := s.mram.spare0 } }

/-- Phase 4 up to the activations it queues (R315, R438). -/
def State.settle (s : State) : State :=
  let last := s.fld F.JNL_STATUS.LAST_SHUTDOWN
  let s := if last = 3 then s.firstStart else if last = 0 then s else s.settleDirty
  ((s.rebuildHeaps.rearm).setShutdown sdRunning).zoneCounts.spareEval

/-- Word 0 of a tenant record: STATE, CLASS, ACCOUNT (R182). -/
def tenWord0 (st cls acct : Nat) : Nat := st % 4 + cls % 8 * 4 + acct % 8192 * 32

/-- Tenant records at start-up (R179, R192): VFs go OFFLINE, the PFs have their records and are ONLINE, and every share in force is the record's. -/
def State.tenantsStart (s : State) : State :=
  let s := s.each (s.tenants.filter fun f => !s.isPf f && (s.tenState f == 2 || s.tenState f == 3)) fun s f =>
    s.tjrn 5 f 0 (setBits (s.tenWord f 0) 0 2 1)
  let s := s.each ((if s.x4x4 then [0, 2048] else [0]).filter fun f => s.tenState f == 0) fun s f =>
    (s.tjrn 5 f 0 (tenWord0 2 0 f)).tjrn 5 f 1 0x200000
  let s := s.each ((if s.x4x4 then [0, 2048] else [0]).filter fun f => s.tenState f != 2) fun s f => s.tjrn 5 f 0 (setBits (s.tenWord f 0) 0 2 2)
  s.each s.tenants fun s f => (s.setFld (F.BPM_SHARE.SHARE.ix (s.tenAccount f)) (s.tenWord f 1)).bpmEval (s.tenAccount f)

/-- The end of phase 4 (R315, R439): MARK kind 2 is sealed, and CSTS.RDY may follow. -/
def State.recoverEnd (s : State) : State :=
  let s := ((s.tenantsStart).journal (recMark 2 0)).2.seal
  let s := (s.setFld F.JNL_STATUS.RECOV_PHASE 7).raise F.MAP_STATUS.READY
  let s := s.setFld F.JNL_RECOV_MS.MS (min 65535 ((s.ttu.elapsed - s.jnl.recovAt) / 1000000))
  ({ s with jnl := { s.jnl with phase := none }, boot := { s.boot with recovered := true } }).readyEval

/-- The work of the phase that is due, and the start of the next one (R315). `bad`: codewords that do not decode. -/
def State.recoverPhase (s : State) (bad : List Nat) : State :=
  let next (s : State) (p : Nat) : State :=
    let s := { s with jnl := { s.jnl with phase := some p } }
    if p ≤ 4 then (s.setFld F.JNL_STATUS.RECOV_PHASE p).recoverEntry p else s
  let last := s.fld F.JNL_STATUS.LAST_SHUTDOWN
  match s.jnl.phase with
  | none => s
  | some 0 => next s.recover0.restoreCounters 1
  | some 1 => next (s.recover1 bad) 2
  | some 2 => next s.recover2 3
  | some 3 => next (if last = 0 || last = 3 then s else s.recover3 bad) 4
  | some 4 => next s.settle 5
  | some _ => if recoverBusy s then s else s.recoverEnd

/-! ### Ends of the flush path (R311 to R314) -/

/-- Pool contents that the flush has put on media leave the pool (R314): buffers with a write number, pending descriptors, rings. -/
def State.dropPool (s : State) : State :=
  let s := s.each s.host.bufs fun s (h, b) => if b.wsn = 0 then s else s.freeBuf h
  { s with
    host := { s.host with pendings := [] }
    map := { s.map with rings := [], reserved := [], ringSlots := [] } }

/-- HALTED ends (R314): contexts, queues, mailboxes and scratch are cleared, and INIT is dispatched (DESIGN CHOICE: the dispatch and fault queues
are emptied, since no context they belong to is left). -/
def State.zynRestart (s : State) : State :=
  let z := s.zyn
  let s := { s with
    zyn := { bundle := z.bundle, tab := z.tab, uprog := z.uprog }
    host := { s.host with stopAll := false }
    ttu := { s.ttu with rc := none, rcQueue := [], rcBlocked := [], cutWait := [], gc := none } }
  ((s.setFld F.ZYN_STATUS.STATE 2).clear F.ZYN_STATUS.DOUBLE_FAULT).policy 9 z.bundle.id.toNat

/-- Step 8 of a flush without power loss (R314): phases 3 and 4 of recovery run against the live tables, and the device runs again;
resets held by R103 and R364 take place. -/
def State.flushLive (s : State) : State :=
  let s := s.raise F.JNL_EVT.FLUSH_DONE
  let s := (s.liveApplied.recover3 []).settleDirty
  let s := (s.rebuildHeaps.rearm).dropPool
  let s := ((s.setFld F.JNL_STATUS.FLUSH_STATE 0).setShutdown sdRunning).zynRestart
  let held := s.funcList.filter fun f => (s.func f).heldReset
  (s.each held fun s f => s.ctlReset f).seal

/-- Step 9 of a flush on power loss (R311, R313): no further MRAM write; with PFAIL# high again every function gets CSTS.CFS; a latched PERST#
takes its warm reset, and the boot follows if PERST# has risen. -/
def State.flushStop (s : State) : State :=
  let s := { s with jnl := { s.jnl with inhibit := true } }.setFld F.JNL_STATUS.FLUSH_STATE 3
  let s := s.when s.jnl.pfailRose (·.cfsAll)
  if s.jnl.perstLatched then
    let w := s.boot.waiting
    let s := s.warmReset 2
    match w with | some b => s.romBoot b | none => s
  else s

/-- The end of tier 2 (R311). -/
def State.tierTwoEnd (s : State) : State :=
  if s.fld F.JNL_STATUS.FLUSH_STATE ≠ 2 || !flushIdle s then s
  else if !s.jnl.flushPower then s.flushLive
  else if s.gb.writing.isSome || !lunsIdle s then s
  else s.flushStop

end Sys2Proof.Machine
end

