-- ==== Sys2Proof/Machine/Commit.lean ====
section
/-! DEFINITION. Global commits: service, deadline and switch (R64 to R69, R85, R96, R173, R292). -/
namespace Sys2Proof.Machine

/-- Report a rollback (R65, R66). -/
def State.rolledBack (s : State) (fails : Word64) : State :=
  let s := (s.setFld F.TT_GC_STATUS.RESULT 2).setPair R.TT_GC_FAIL_LO fails.toNat
  ((s.raise F.TT_EVT.COMMIT_ROLLBACK).entry 0x05 sevNotice).vendorEvent 0xC4

/-- Write the selector copy of the lower GEN (R434). -/
def State.writeSelector (s : State) (slot : Bool) : State :=
  let a := s.boot.sel0
  let b := s.boot.sel1
  let ga := if a.ok then a.gen else 0
  let gb := if b.ok then b.gen else 0
  let x : Selector := { gen := max ga gb + 1, next := slot, ok := true }
  if b.ok && (!a.ok || decide (ga < gb)) then { s with boot := { s.boot with sel0 := x } }
  else { s with boot := { s.boot with sel1 := x } }

/-- COMMIT_REQUEST_SERVICE (R64 step 2, R66 to R68): the oldest request is served while no commit is in flight and the Timetable governs. The
Prepare is a Roll Call broadcast, so it waits while the tree carries another call (R62); the model lets it pass the tree in the cycle of
the service, and a PREPARE activation goes to the head of each Policy Core's queue (R85). An activation writes the selector first (R434). -/
def execCommitRequestService (s : State) : Res :=
  match s.ttu.gcQueue with
  | [] => done s
  | r :: rest =>
    if s.ttu.gc.isSome || s.ttu.rc.isSome || !s.flag F.TT_CTRL.EN || s.flushing then done s
    else
      let t := ({ s with ttu := { s.ttu with gcQueue := rest } }.countMod F.TT_GC_STATUS.COUNT).setFld F.TT_GC_STATUS.KIND r.kind.code
      let t := t.when (decide (r.kind = .timetable)) (·.setBit F.TT_GC_STATUS.INVALID (!stagedValid s))
      if r.kind = .timetable && !stagedValid s then done (t.rolledBack 0)
      else match commitB s r.since with
        | none => done s
        | some b =>
          let staged := match r.kind with
            | .timetable => stagedNow s
            | .envelope => [(R.MED_ENV_STAGE, s.reg R.MED_ENV_STAGE), (R.MED_ENV_WEIGHT, s.reg R.MED_ENV_WEIGHT)]
            | _ => []
          let t := t.when (decide (r.kind = .activation)) (·.writeSelector s.host.fwSlot)
          let g : GcFlight := { kind := r.kind, arg := r.arg, b := b, members := s.poweredMask, staged := staged }
          let t := { t with ttu := { t.ttu with gc := some g } }.setFld F.TT_GC_STATUS.RESULT 3
          done (t.each ((List.range 4).filter fun e => s.powered (partDom (56 + e))) fun t e =>
            t.setQueue (56 + e) ({ kind := 8, arg0 := BitVec.ofNat 64 r.kind.code } :: t.queue (56 + e)))

/-- Every context of an engine is idle, but for a PREPARE one (R96). -/
def engineQuiet (s : State) (p : Nat) : Bool :=
  let (cls, e) := partEngine p
  (List.range 8).all fun k => let c := s.ctx ⟨cls, e, k⟩; decide (c.st = .idle) || (cls == .pol && c.kind == 8)

/-- A member has acked by D (R64, R65, R85, R96, R292): Policy Cores vote; the rest answer in hardware. A Sequencer nacks an Envelope whose
BUDGET is below the largest staged weight. -/
def acked (s : State) (g : GcFlight) (p : Nat) : Bool :=
  let quiet := decide (g.kind ≠ .activation) || decide (60 ≤ p) || engineQuiet s p
  if 56 ≤ p && p < 60 then g.acks.getLsbD p && quiet
  else if 24 ≤ p && p < 56 && decide (g.kind = .envelope) then
    let budget := ((g.staged.lookup R.MED_ENV_STAGE).getD 0).toNat % 65536
    let w := ((g.staged.lookup R.MED_ENV_WEIGHT).getD 0).toNat
    (List.range 4).all fun k => decide (w / 2 ^ (8 * k) % 256 ≤ budget)
  else quiet

/-- Members that nacked or had not acked (R65). -/
def commitFails (s : State) (g : GcFlight) : Word64 :=
  (List.range 64).foldl (fun m p => if g.members.getLsbD p && !acked s g p then m ||| (1#64 <<< p) else m) 0

/-- A switch is rolled back (R173, R397): the old bundle continues, and the Firmware Commit completes with Firmware Activation Prohibited. -/
def State.fwRollback (s : State) : State :=
  let s := s.when (ledgerOpen s && !ledgerFull s) fun s => s.ledgerPut (s.ledgerOwn 3 0 (s.fld F.SEC_SVN.RUNNING))
  let t := s.fwRefuse 1 0x13
  { t with
    zyn := { t.zyn with next := none, held := false }
    host := { t.host with stopAll := t.flushing, fwRecorded := false } }

/-- COMMIT_DEADLINE (R64 step 4, R65): D = B − 2 µs; a commit waits while EN = 0 (R49). The Abort broadcast passes the tree in the same
cycle (DESIGN CHOICE). -/
def execCommitDeadline (s : State) : Res :=
  match s.ttu.gc with
  | none => done s
  | some g =>
    if g.armed || !s.flag F.TT_CTRL.EN then done s
    else
      let s := s.advance (g.b.toNat - 2000 - s.now)
      let f := commitFails s g
      if f = 0 then done { s with ttu := { s.ttu with gc := some { g with armed := true } } }
      else
        let s := ({ s with ttu := { s.ttu with gc := none } }).rolledBack f
        done (s.when (decide (g.kind = .activation)) (·.fwRollback))

/-- The activation switch (R96, R173, R209): PREPARE contexts end, code, tables and PARAM are the new bundle's, scratch is cleared, INIT is
dispatched before the held requests, and fetch resumes. -/
def State.switchBundle (s : State) : State :=
  match s.zyn.next with
  | none => s
  | some b =>
    let prep := s.zyn.ctxs.filter fun (x : Nat × Ctx) => x.2.kind == 8 && decide (x.2.st ≠ .idle)
    let s := s.each prep fun s (k, _) => (s.abandonOps (CtxId.ofKey k)).idle (CtxId.ofKey k)
    let s := s.loadBundle b
    let s := { s with zyn := { s.zyn with scratch := [], next := none, held := false } }
    let q := s.queue 56
    let s := s.setQueue 56 ({ kind := 9, arg0 := b.id.setWidth 64 } :: q)
    let s := s.when s.sc.layout.isSome (·.installDefaults)
    let slot := s.host.fwSlot
    let img := s.slotImage slot
    let s := { s with
      boot := { s.boot with slot := slot }
      sec := { s.sec with image := img.digest, sec30 := img.sec30 } }
    let s := (s.setFld F.SEC_SVN.RUNNING img.svn).setBit F.SEC_SVN.SLOT slot
    let who := s.host.fwCommit
    let s := { s with host := { s.host with fwCommit := none, fwRecorded := false, stopAll := s.flushing } }
    let s := match who with | some (f, cid) => s.ok f cid | none => s
    s.aen 0 2 1

/-- COMMIT_APPLY (R64 step 5): at B the staged mode takes effect; a commit waits while EN = 0 (R49). A new Timetable renumbers the Periods from
device time (R46, R66). -/
def execCommitApply (s : State) : Res :=
  match s.ttu.gc with
  | none => done s
  | some g =>
    if !g.armed || !s.flag F.TT_CTRL.EN || decide (s.now < g.b.toNat) then done s
    else
      let s := { s with ttu := { s.ttu with gc := none } }.setFld F.TT_GC_STATUS.RESULT 1
      match g.kind with
      | .timetable =>
        done (installTimetable s g.staged).renumber
      | .perfLevel => done (s.plApply g.arg).plEval
      | .envelope =>
        let s := s.setFld F.MED_ENV_ACT.BUDGET (((g.staged.lookup R.MED_ENV_STAGE).getD 0).toNat % 65536)
        done ({ s with media := { s.media with weights := (g.staged.lookup R.MED_ENV_WEIGHT).getD 0 } }).serveAll
      | .activation => done s.switchBundle

end Sys2Proof.Machine
end

