-- ==== Sys2Proof/Machine/Gradebook.lean ====
section
/-! DEFINITION. The Gradebook: closes, summaries and their bytes, and Gradebook Read (16_gradebook.md). -/
namespace Sys2Proof.Machine

/-! ### Closes (R447 to R449) -/

/-- INTERVAL_CLOSE: operating seconds reach a multiple of 3 600. The threshold offsets are saved too (R269). -/
def execIntervalClose (s : State) : Res :=
  done (({ s with mram := { s.mram with offsets := s.media.offsets } }).gbClose 1)

/-- GB_CTRL_CLOSE: the manager writes GB_CTRL.CLOSE. -/
def execGbCtrlClose (s : State) : Res := done (s.gbClose 5)

/-- SUMMARY_WRITE_COMPLETE: the header is written last, then the head word with NEXT_NO + 1; a deferred close is taken (R447, R449). -/
def execSummaryWriteComplete (s : State) : Res :=
  match s.gb.writing with
  | none => done s
  | some (k, u) =>
    let s := { s with gb := { s.gb with slots := sput k u s.gb.slots, nextNo := u.no + 1, writing := none } }
    let s := ((s.raise F.GB_EVT.CLOSED).when (decide (48 ≤ k)) (·.raise F.GB_EVT.OVERFLOW)).inject 12 (k * 4096)
    match s.gb.deferred with
    | none => done s
    | some c => done (({ s with gb := { s.gb with deferred := none } }).gbTake c)

/-! ### Bytes (R442, R444, R445) -/

/-- A list cut or filled with zeros to a length. -/
def padTo (n : Nat) (l : List Nat) : List Nat := (l ++ List.replicate n 0).take n
def toBytes (l : List Nat) : List Byte := l.map (BitVec.ofNat 8)
/-- A timestamp: operating seconds, then the power-cycle count. -/
def stampBytes (t : Nat × Nat) : List Nat := leBytes (t.1 % 2 ^ 32) 4 ++ leBytes (t.2 % 2 ^ 32) 4
def counterBytes (c : Counter) : List Nat := leBytes c.count 4 ++ [c.sev, 0, 0, 0] ++ stampBytes c.first ++ stampBytes c.last
def domBytes (d : DomExt) : List Nat :=
  leBytes (d.tMax % 65536).toNat 2 ++ leBytes (d.tMin % 65536).toNat 2 ++ leBytes d.vMax 2 ++ leBytes d.vMin 2 ++ leBytes d.pMax 4 ++ leBytes d.pAvg 4 ++
    stampBytes d.tMaxAt ++ leBytes d.onS 4 ++ leBytes d.sleepS 4

/-- The value of an 8-bit function bin (R445). -/
def binValue (c : Nat) : Nat := if c / 8 = 0 then c % 8 else (8 + c % 8) * 2 ^ (c / 8 - 1)
/-- The largest code whose value does not exceed a count (R445). -/
def binCode (n : Nat) : Nat := (List.range 256).foldl (fun b c => if binValue c ≤ n then c else b) 0

/-- The 256-byte header of a summary or diagnostic record; `crc` is 0 while the code is taken. -/
def gbHeader (kind sev no : Nat) (openAt closeAt : Nat × Nat) (cause flags len bell bundle svn crc : Nat) : List Nat :=
  [0x5A, 0x47, 0x42, 0x53] ++ leBytes 1 2 ++ [kind, sev] ++ leBytes no 8 ++ stampBytes openAt ++ stampBytes closeAt ++ [cause, 0] ++ leBytes flags 2 ++
    leBytes len 4 ++ leBytes bell 8 ++ leBytes bundle 4 ++ leBytes svn 4 ++ List.replicate 192 0 ++ leBytes crc 4 ++ [0, 0, 0, 0]

/-- What follows the header (R442): gauges and domain extremes, then the rest of the full or of the compact layout. `func`: function
histograms are shown. In compact form the counters are the non-zero kinds in code order. -/
def gbBody (b : Interval) (compact func : Bool) : List Nat :=
  let gauges := (List.range 96).flatMap fun i => leBytes (sgetD 0 i b.gauges) 8
  let doms := (List.range 16).flatMap fun i => if 14 ≤ i then List.replicate 32 0 else domBytes (sgetD {} i b.doms)
  let all := (List.range 256).filterMap fun k => sget k b.counters
  if compact then gauges ++ doms ++ padTo 2560 ((all.take 106).flatMap counterBytes)
  else
    let lat := (List.range 512).flatMap fun i => leBytes (sgetD 0 i b.lat) 4
    let ecc := (List.range 1024).flatMap fun i => leBytes (sgetD 0 i b.ecc) 4
    let cnt := (List.range 256).flatMap fun k => counterBytes (sgetD {} k b.counters)
    let fl := (List.range 131072).map fun i => if func then binCode (sgetD 0 i b.flat) else 0
    gauges ++ doms ++ lat ++ ecc ++ cnt ++ List.replicate 18944 0 ++ fl

/-- Bytes of a stored summary, its CRC-32C with them. -/
def Summary.bytes (u : Summary) (func : Bool) : List Nat :=
  let kind := if u.compact then 2 else 1
  let flags := (if u.body.afterLost then 1 else 0) + (if u.truncated then 2 else 0)
  let len := if u.compact then 4096 else 163840
  let head (crc : Nat) := gbHeader kind u.body.sev u.no u.body.openAt u.closeAt u.cause flags len u.bellClose u.bundle.toNat u.svn.toNat crc
  let stored := gbBody u.body u.compact true
  head (crc32c (head 0 ++ stored)) ++ gbBody u.body u.compact func

/-- Bytes of the open interval: full layout, CLOSE_AT = 0, no CRC. -/
def openBytes (s : State) (func : Bool) : List Nat :=
  let b := s.gb.cur
  gbHeader 1 b.sev s.gb.nextNo b.openAt (0, 0) 0 (if b.afterLost then 1 else 0) 163840 0 (s.reg R.ZYN_BUNDLE_ID).toNat (s.reg R.ZYN_BUNDLE_SVN).toNat 0 ++
    gbBody b false func

/-- The directory: 112 entries of 32 B. -/
def dirBytes (s : State) : List Nat :=
  padTo 4096 ((List.range 112).flatMap fun k => match sget k s.gb.slots with
    | some u => [1, if u.compact then 2 else 1, u.body.sev, u.cause, 0, 0, 0, 0] ++ leBytes u.no 8 ++ stampBytes u.body.openAt ++ stampBytes u.closeAt
    | none => List.replicate 32 0)

/-- A diagnostic record (R451): the header with KIND 3, then what the capture kept, in a layout the spec does not give. -/
def diagBytes (d : Diag) : List Nat :=
  gbHeader 3 0 0 d.stamp d.stamp 0 0 16384 0 0 0 0 ++ padTo 16128 ((Config.bytes 0x16 [d.kind, d.addr.toNat]).map (·.toNat))

/-! ### Gradebook Read (R452, R453) -/

/-- Deliver the answer of an admin command that also comes by NVMe-MI: data and a CQE, or an MCTP response of NVMe-MI's own form. -/
def State.answer (s : State) (mi : Bool) (f : Nat) (cid : BitVec 16) (sct sc : Nat) (data : List Byte) (dw0 dw1 : Word) : State :=
  if mi then s.emit (.mctp (Config.bytes 0x4D49 [sct, sc, dw0.toNat, dw1.toNat] ++ data))
  else (s.when (!data.isEmpty) (·.emit (.bytes f cid data))).adminDone f cid sct sc dw0 dw1

/-- Function histograms are shown on this path (R453). -/
def showFunc (s : State) (mi : Bool) : Bool := !mi || s.flag F.GB_CTRL.MI_FUNC

/-- A Gradebook Read of `off` and `len` units of a selection of `size` units; by NVMe-MI it wakes the
device and is accepted from step B3 on (R412, R453). -/
def State.gbRead (s : State) (mi : Bool) (f : Nat) (cid : BitVec 16) (ok : Bool) (off len size : Nat) (content : List Nat) (no : Nat) (changed : Bool) : State :=
  let s := if mi then s.wakeAdmin else s
  if mi && s.fld F.BOOT_STATUS.STEP < 3 then s
  else if !mi && !s.isPf f then s.adminDone f cid 0 0x01
  else if !ok || len = 0 || size < off + len then s.answer mi f cid 0 0x02 [] 0 0
  else
    let (n, t) := s.draw
    let data := if changed then (List.range (len * 4096)).map fun i => BitVec.ofNat 8 (Config.freeNat (n + i))
      else toBytes ((content.drop (off * 4096)).take (len * 4096))
    (if changed then t else s).answer mi f cid 0 0 data (BitVec.ofNat 32 no) (if changed then 1 else 0)

/-- GRADEBOOK_READ_DIRECTORY (R452). -/
def execGradebookReadDirectory (mi : Bool) (f : BitVec 12) (cid : BitVec 16) (index : BitVec 8) (off len : BitVec 6) (s : State) : Res :=
  done (s.gbRead mi f.toNat cid (index == 0) off.toNat len.toNat 1 (dirBytes s) 0 false)

/-- GRADEBOOK_READ_SUMMARY: a slot without a valid summary returns zeros; CHANGED when the slot is being written, and the data is then
undefined: free values. -/
def execGradebookReadSummary (mi : Bool) (f : BitVec 12) (cid : BitVec 16) (index : BitVec 8) (off len : BitVec 6) (s : State) : Res :=
  let k := index.toNat
  let size := if k < 48 then 40 else 1
  let changed := match s.gb.writing with | some (j, _) => j == k | none => false
  let (content, no) := match sget k s.gb.slots with
    | some u => (u.bytes (showFunc s mi), u.no)
    | none => (List.replicate (size * 4096) 0, 0)
  done (s.gbRead mi f.toNat cid (decide (k < 112)) off.toNat len.toNat size content no changed)

/-- GRADEBOOK_READ_OPEN_INTERVAL (R452). -/
def execGradebookReadOpenInterval (mi : Bool) (f : BitVec 12) (cid : BitVec 16) (index : BitVec 8) (off len : BitVec 6) (s : State) : Res :=
  done (s.gbRead mi f.toNat cid (index == 0) off.toNat len.toNat 40 (openBytes s (showFunc s mi)) s.gb.nextNo false)

/-- GRADEBOOK_READ_DIAGNOSTIC (R451, R452). -/
def execGradebookReadDiagnostic (mi : Bool) (f : BitVec 12) (cid : BitVec 16) (index : BitVec 8) (off len : BitVec 6) (s : State) : Res :=
  let content := match sget index.toNat s.gb.diags with | some d => diagBytes d | none => List.replicate 16384 0
  done (s.gbRead mi f.toNat cid (decide (index.toNat < 8)) off.toNat len.toNat 4 content 0 false)

/-- GRADEBOOK_READ_STATUS (R452). -/
def execGradebookReadStatus (mi : Bool) (f : BitVec 12) (cid : BitVec 16) (index : BitVec 8) (off len : BitVec 6) (s : State) : Res :=
  let content := padTo 4096 (leBytes s.gb.nextNo 8 ++ leBytes s.gb.lost 4 ++ [s.gb.lostSev, s.gb.cur.sev] ++ leBytes (gbStatus s) 4)
  done (s.gbRead mi f.toNat cid (index == 0) off.toNat len.toNat 1 content 0 false)

end Sys2Proof.Machine
end

