-- ==== Sys2Proof/Machine/Intake.lean ====
section
/-! DEFINITION. Command intake: doorbells, arbitration, classification, timeouts, DMA errors, interrupt aggregation (05_command_intake.md). -/
namespace Sys2Proof.Machine

/-- SQ_TAIL_DOORBELL (R154, R155, R412): the SQEs from the old tail on, as the fetch window reads them, and the stamp; in a sleep
state the write wakes the device. An SQE beyond the operand's list reads as zeros. -/
def execSqTailDoorbell (f : BitVec 12) (qid : BitVec 16) (tail : BitVec 32) (sqes : List Sqe) (s : State) : Res :=
  let f := f.toNat
  let s := s.l1Exit f
  if !bar0 s f then done s
  else match s.sq f qid.toNat with
    | none => done (s.badDoorbell f 0)
    | some q =>
      if q.size ≤ tail.toNat then done (s.badDoorbell f 1)
      else
        let n := (tail.toNat + q.size - q.tail) % q.size
        let q := { q with tail := tail.toNat, submitted := q.submitted + n
                          sqes := q.sqes ++ (List.range n).map fun i => sqes.getD i {}
                          stamps := keepStamp q.stamps (q.submitted + n, s.ttu.time) }
        let s := s.setSq f qid.toNat q
        done (if qid = 0 then s.wakeAdmin else s.wakeIo)

/-- CQ_HEAD_DOORBELL (R154): frees entries; a head that would free unposted ones is ignored. -/
def execCqHeadDoorbell (f : BitVec 12) (qid : BitVec 16) (head : BitVec 32) (s : State) : Res :=
  let f := f.toNat
  let s := s.l1Exit f
  if !bar0 s f then done s
  else match s.cq f qid.toNat with
    | none => done (s.badDoorbell f 0)
    | some q =>
      let posted := (q.tail + q.size - q.head) % q.size
      if q.size ≤ head.toNat || decide (posted < (head.toNat + q.size - q.head) % q.size) then done (s.badDoorbell f 1)
      else
        let s := s.setCq f qid.toNat { q with head := head.toNat }
        done (if qid = 0 then s.adminDrain f q.size else s)

/-- ARBITER_DECISION (R156, R157, R191). -/
def execArbiterDecision (s : State) : Res := done s.arbitrate

/-- CLASSIFICATION (R201 to R205, R214, R215): an opcode outside R152 ends the command; with a bank offline a clear pre-filter bit
classifies as no match and a set one waits, with PF_FORCE as if a bank were offline. While the queue of its Command Engine has a stalled producer
the classifier stalls (R82). -/
def execClassification (c : BitVec 17) (s : State) : Res :=
  let c := c.toNat
  match s.cmd c with
  | none => done s
  | some x =>
    if x.admin || x.classified || x.committed || x.cqWait.isSome || !coreOn s || !(s.stalled (c % 16)).isEmpty then done s
    else if !ioOpcode x.sqe.opcode then done (s.failed c 0 0x01)
    else if preFilterMode s && !preHit s x.func x.sqe.opcode then done (s.classify c x 0xFFFFFFFFFFFFFFFF)
    else if preFilterMode s || s.fld F.SC_STATUS.OFFLINE ≠ 0 then done (s.setCmd c { x with waitBank := true })
    else done (s.classify c x (scSearch s (commandKey x.func x.sqid x.sqe) 2))

/-- COMMAND_TIMEOUT (R174): once per command, before its commit point, unless its class has no limit. -/
def execCommandTimeout (c : BitVec 17) (s : State) : Res :=
  let c := c.toNat
  match s.cmd c with
  | none => done s
  | some x =>
    if x.committed || x.timedOut || s.fld (F.CMD_TIMEOUT.LIMIT_MS.ix (s.cmdClass x)) = 0 then done s
    else done ((s.setCmd c { x with timedOut := true }).cmdActivate 0x03 c)

/-- DMA_ERROR (R148): of write data (0), read data (1), a CQE write (2) of a command, or an SQE fetch (3) of a function. -/
def execDmaError (f : BitVec 12) (kind : BitVec 2) (c : BitVec 17) (s : State) : Res :=
  let s := (s.raise F.HIU_EVT.DMA_ERR).emit (.aer f.toNat)
  let s := s.setFunc f.toNat { s.func f.toNat with errors := (0, 0x04) :: (s.func f.toNat).errors }
  if kind = 3 then done (s.setFunc f.toNat { s.func f.toNat with cfs := true, stop := true })
  else match s.cmd c.toNat with
    | none => done s
    | some x => if x.func ≠ f.toNat || (kind = 0 && x.placed) then done s else done ((s.squashCmd c.toNat).finish c.toNat 0 0x04)

/-- INTERRUPT_AGGREGATION_TIMEOUT (R176): the message for the CQEs a vector holds is sent. -/
def execInterruptAggregationTimeout (f : BitVec 12) (vector : BitVec 16) (s : State) : Res :=
  let held := s.host.cqs.filter fun (k, q) => k / 65536 == f.toNat && q.vector == vector.toNat && q.held != 0
  if held.isEmpty then done s
  else done ((s.each held fun s (k, q) => { s with host := { s.host with cqs := sput k { q with held := 0 } s.host.cqs } }).emit (.msix f.toNat vector.toNat))

/-- DELETE_IO_SQ (R153): fetch from the queue stops, its uncommitted commands end, a write whose data is in the pool first stands as
committed; the command completes once no context of the queue is left. -/
def execDeleteIoSq (f : BitVec 12) (cid qid : BitVec 16) (s : State) : Res :=
  let f := f.toNat
  let q := qid.toNat
  match s.sq f q with
  | none => done (s.adminDone f cid 1 0x01)
  | some x =>
    if q = 0 || x.deleting.isSome then done (s.adminDone f cid 1 0x01)
    else
      let s := s.setSq f q { x with sqes := [], stamps := [], deleting := some cid }
      let mine := s.host.cmds.filter fun (_, x) => x.func == f && x.sqid == q && !x.committed
      let s := s.each mine fun s (c, x) =>
        let s := s.squashCmd c
        (if x.placed then s.zoneCommit c else s).finish c 0 0x08
      done (s.deletesDone f)

/-- DELETE_IO_CQ (R151): refused while an SQ uses it. -/
def execDeleteIoCq (f : BitVec 12) (cid qid : BitVec 16) (s : State) : Res :=
  let f := f.toNat
  let q := qid.toNat
  if q = 0 || (s.cq f q).isNone then done (s.adminDone f cid 1 0x01)
  else if (funcQueues s f).any fun (_, x) => x.cq == q then done (s.adminDone f cid 1 0x0C)
  else done ({ s with host := { s.host with cqs := sdel (qkey f q) s.host.cqs } }.ok f cid)

/-- CREATE_IO_CQ (R150, R151): `size` 0-based; contiguous. -/
def execCreateIoCq (f : BitVec 12) (cid qid size vector : BitVec 16) (irq contig : Bool) (s : State) : Res :=
  let f := f.toNat
  let q := qid.toNat
  if q = 0 || queueLimit s f < q || (s.cq f q).isSome then done (s.adminDone f cid 1 0x01)
  else if size = 0 then done (s.adminDone f cid 1 0x02)
  else if !contig then done (s.adminDone f cid 0 0x02)
  else if irq && decide (vectorLimit s f ≤ vector.toNat) then done (s.adminDone f cid 1 0x08)
  else done ((s.setCq f q { size := size.toNat + 1, vector := vector.toNat, irq := irq }).ok f cid)

/-- CREATE_IO_SQ (R150, R151). -/
def execCreateIoSq (f : BitVec 12) (cid qid size cq : BitVec 16) (contig : Bool) (s : State) : Res :=
  let f := f.toNat
  let q := qid.toNat
  if cq = 0 || (s.cq f cq.toNat).isNone then done (s.adminDone f cid 1 0x00)
  else if q = 0 || queueLimit s f < q || (s.sq f q).isSome then done (s.adminDone f cid 1 0x01)
  else if size = 0 then done (s.adminDone f cid 1 0x02)
  else if !contig then done (s.adminDone f cid 0 0x02)
  else done ((s.setSq f q { size := size.toNat + 1, cq := cq.toNat }).ok f cid)

/-- An admin command that an Abort can still end (R168): admitted, its completion not waiting, and no Asynchronous Event Request, Abort or Firmware
Commit whose drain has begun. -/
def abortable (s : State) (f : Nat) (cid tcid : BitVec 16) : Bool :=
  let g := s.func f
  tcid != cid && (s.host.cmds.any fun (x : Nat × Cmd) => x.2.admin && x.2.func == f && x.2.sqe.cid == tcid) && !g.aers.contains tcid &&
    !g.aborts.any (fun x => x.1 == tcid) && s.host.fwCommit != some (f, tcid) &&
    !((s.cq f 0).any fun q => q.wait.any fun x => x.1 == tcid)

/-- An admin command ends aborted (R168): what goes on for it has nobody to answer, and a deletion of a queue that waits is given up (DESIGN
CHOICE: the rule gives the status alone). -/
def State.abortAdmin (s : State) (f : Nat) (tcid : BitVec 16) : State :=
  let mine : Option (Nat × BitVec 16) := some (f, tcid)
  let c := (s.host.cmds.find? fun (x : Nat × Cmd) => x.2.admin && x.2.func == f && x.2.sqe.cid == tcid).map (·.1)
  let s := match c with | some c => s.dropActs c | none => s
  let l := s.sec.ledger
  let s := { s with
    host := { s.host with sqs := s.host.sqs.map fun (x : Nat × Sq) => if x.1 / 65536 = f ∧ x.2.deleting = some tcid then (x.1, { x.2 with deleting := none }) else x }
    sec := { s.sec with
      clearing := s.sec.clearing.map fun (x : Nat × Option (Nat × BitVec 16)) => if x.2 = mine then (x.1, none) else x
      unbinds := s.sec.unbinds.map fun (u : Unbind) => { u with owner := if u.owner = mine then none else u.owner }
      ledger := { l with cpReq := l.cpReq.filter fun (x : Nat × BitVec 16) => some x != mine } } }
  s.adminDone f tcid 0 0x07

/-- ABORT (R168, R169): of a command of the issuing function before its commit point; the Abort completes with its target's CQE. -/
def execAbort (f : BitVec 12) (cid sqid tcid : BitVec 16) (s : State) : Res :=
  let f := f.toNat
  let g := s.func f
  if 256 ≤ g.aborts.length then done (s.adminDone f cid 1 0x03)
  else if sqid = 0 && abortable s f cid tcid then done (((s.abortAdmin f tcid).ok f cid).count F.CMD_ABORT_CNT.ABORTED)
  else match s.host.cmds.find? fun (_, x) => x.func == f && x.sqid == sqid.toNat && x.sqe.cid == tcid && !x.admin && !x.committed with
    | none => done ((s.adminDone f cid 0 0 1).count F.CMD_ABORT_CNT.NOT_ABORTED)
    | some (c, _) => done ((s.setFunc f { g with aborts := g.aborts ++ [(cid, c)] }).abortCmd c)

/-- ASYNCHRONOUS_EVENT_REQUEST (R150, R151, R153): a waiting event completes it at once. -/
def execAsynchronousEventRequest (f : BitVec 12) (cid : BitVec 16) (s : State) : Res :=
  let f := f.toNat
  let g := s.func f
  if 16 ≤ g.aers.length then done (s.adminDone f cid 1 0x05)
  else match g.events with
    | [] => done (s.setFunc f { g with aers := g.aers ++ [cid] })
    | (ty, info) :: t =>
      done ((s.setFunc f { g with events := t, reported := (ty, info) :: g.reported }).adminDone f cid 0 0 (BitVec.ofNat 32 (ty + info * 256)))

/-- ORDERED_SUBMISSION (R151, R160). -/
def execOrderedSubmission (f : BitVec 12) (cid : BitVec 16) (v : Word) (s : State) : Res := done (s.setOrdered f.toNat cid v)

end Sys2Proof.Machine
end

