-- ==== Sys2Proof/Machine/Io.lean ====
section
/-! DEFINITION. I/O commands of conventional and zoned namespaces up to their commit points (R20 to R28, R152, R159, R170, R221 to R224,
R235, R246). Each acts on a command context that is admitted and classified; it changes nothing while its lock, its zone, a barrier or the
Dirty Ceiling holds it back, and runs when it is sent again. -/
namespace Sys2Proof.Machine

/-- Context index of a command (R156). -/
abbrev CmdIx := BitVec 17

/-- Data of at most 2 MiB (MDTS, R150). -/
def overMdts (s : State) (q : Sqe) : Bool :=
  if s.nsLbaf q.nsid.toNat = 2 then decide (4096 < q.nlb) else decide (512 < q.nlb)

/-! ### Read (R20, R26, R242, R466) -/

/-- Put a block read in a host buffer. -/
def State.sendData (s : State) (x : Cmd) (off : Nat) (l : List Block) : State := s.emit (.data x.func x.sqe.cid off l)

/-- Status of a piece whose owner is lost (R468). -/
def ownerGone (s : State) (k : Nat) : Bool := k != ringId s && (s.peer k).lost

/-- Cut a command over the owners of its blocks: `here` executes a piece of this device, `away` sends one (R466). -/
def State.spanRun (s : State) (c i first n : Nat) (here : Nat → Nat → State → State) (away : Nat → Nat → Nat → State → State) : State :=
  match s.cmd c with
  | none => s
  | some x =>
    if !x.pieces.isEmpty then s
    else
      let ps := spanPieces s i x.sqe.nsid.toNat first n
      let s := s.setCmd c { x with pieces := ps.map fun (o, _, _) => (o, none) }
      s.each ps fun s (o, a, m) =>
        if o = ringId s then here a m s
        else if ownerGone s o then s.pieceDone c o 0 0x82
        else away o a m s

/-- READ (R20): blocks are looked up, confirmed under the lock, decrypted and sent. `bad` lists the offsets whose media read neither the
retry ladder nor outer recovery saves. -/
def execRead (c : CmdIx) (bad : List Nat) (s : State) : Res :=
  let c := c.toNat
  done (s.ioRun c 0x02 true fun x s =>
    if overMdts s x.sqe then s.finish c 0 0x02
    else match spanOf s x.sqe.nsid.toNat with
      | none => s.reading c x x.sqe.slba x.sqe.nlb bad fun l s => (s.sendData x 0 l).finish c 0 0
      | some i =>
        if outOfRange s x.sqe x.sqe.slba x.sqe.nlb then s.finish c 0 0x80
        else
          let (free, s) := s.takeLock c
          if !free then s
          else (s.mapWork 0 c).spanRun c i x.sqe.slba x.sqe.nlb
            (fun a n s =>
              let off := a - x.sqe.slba
              let (l, ok, s) := s.readBlocks x a n ((bad.filter (off ≤ ·)).map (· - off))
              if ok then (s.sendData x off l).pieceDone c (ringId s) 0 0 else s.pieceDone c (ringId s) 2 0x81)
            (fun o a n s => s.tSend 8 o c [x.sqe.nsid.setWidth 64, BitVec.ofNat 64 a, BitVec.ofNat 64 n]))

/-- Read a command's blocks, those of other owners as ciphertext that their owners have returned (R466); until all have come the command
waits, and the first time the owners are asked. -/
def State.readingFar (s : State) (c : Nat) (x : Cmd) (bad : List Nat) (far : List (BitVec 40 × Option Block))
    (k : List Block → State → State) : State :=
  match spanOf s x.sqe.nsid.toNat with
  | none => s.reading c x x.sqe.slba x.sqe.nlb bad k
  | some i =>
    let ns := x.sqe.nsid.toNat
    let ps := spanPieces s i ns x.sqe.slba x.sqe.nlb
    let away := ps.filter fun (o, _, _) => o != ringId s
    let have_ (a : Nat) : Option (Option Block) := (far.find? fun (b, _) => b.toNat == a).map (·.2)
    if outOfRange s x.sqe x.sqe.slba x.sqe.nlb then s.finish c 0 0x80
    else if away.any fun (o, _, _) => ownerGone s o then s.finish c 0 0x82
    else
      let (free, s) := s.takeLock c
      if !free then s
      else if away.any fun (_, a, n) => (List.range n).any fun j => (have_ (a + j)).isNone then
        if !x.pieces.isEmpty then s
        else (s.modCmd c fun y => { y with pieces := away.map fun (o, _, _) => (o, none) }).each away fun s (o, a, n) =>
          s.tSend 8 o c [x.sqe.nsid.setWidth 64, BitVec.ofNat 64 a, BitVec.ofNat 64 n]
      else
        let step (acc : List Block × Bool × State) (p : Nat × Nat × Nat) : List Block × Bool × State :=
          let (l, ok, s) := acc
          let (o, a, n) := p
          if o = ringId s then
            let off := a - x.sqe.slba
            let (l', ok', s) := s.readBlocks x a n ((bad.filter (off ≤ ·)).map (· - off))
            (l ++ l', ok && ok', s)
          else (l ++ (List.range n).map fun j => (match have_ (a + j) with | some (some b) => s.plain x (a + j) (.data b) | _ => 0), ok, s)
        let (l, ok, s) := ps.foldl step ([], true, s.mapWork 0 c)
        if ok then k l s else s.failed c 2 0x81

/-- VERIFY (R152): blocks are read and checked, nothing is transferred. -/
def execVerify (c : CmdIx) (bad : List Nat) (far : List (BitVec 40 × Option Block)) (s : State) : Res :=
  done (s.ioRun c.toNat 0x0C true fun x s => s.readingFar c.toNat x bad far fun _ s => s.finish c.toNat 0 0)

/-- The host's data of a command, one entry per block. -/
def hostData (s : State) (x : Cmd) (data : List Block) : List Block :=
  (List.range x.sqe.nlb).map fun o => let b := data.getD o 0
    if s.nsLbaf x.sqe.nsid.toNat = 2 then (b.setWidth 4096).setWidth 32768 else b

/-- COMPARE (R152): blocks that differ from the host's data end with Compare Failure (2 / 0x85, PRESUMED: NVM Command Set). -/
def execCompare (c : CmdIx) (data : List Block) (bad : List Nat) (far : List (BitVec 40 × Option Block)) (s : State) : Res :=
  let c := c.toNat
  done (s.ioRun c 0x05 true fun x s =>
    if x.fused.isSome then s
    else if overMdts s x.sqe then s.finish c 0 0x02
    else s.readingFar c x bad far fun l s => if l = hostData s x data then s.finish c 0 0 else s.failed c 2 0x85)

/-- FILTERED_READ (R221 to R224): the fields are checked before any read, the FILTER against the function's as it was at classification; with its
range locked it takes an engine, which scans the blocks, and its output alone is returned. -/
def execFilteredRead (c : CmdIx) (bad : List Nat) (far : List (BitVec 40 × Option Block)) (s : State) : Res :=
  let c := c.toNat
  done (s.ioRun c 0x82 true fun x s =>
    let q := x.sqe
    let mode := q.cdw13.toNat % 4
    let room := q.cdw15.toNat % 2 ^ 22
    if q.cdw12.toNat / 512 ≠ 0 || mode = 3 || q.cdw13.toNat / 4 ≠ 0 || 2 ^ 21 < room || (room = 0 && mode ≠ 2) || q.bitBucket
        || x.filter.isNone then s.finish c 0 0x02
    else if outOfRange s q q.slba q.nlb then s.finish c 0 0x80
    else
      let (free, s) := s.takeLock c
      if !free then s
      else
      let s := s.when (!(s.sc.engines.any fun (_, v) => v == c) && !s.sc.pauWait.contains c) (·.pauAssign c)
      if !(s.sc.engines.any fun (_, v) => v == c) then s
      else s.readingFar c x bad far fun l s =>
        let stream := l.flatMap fun b => (blockBytes b).take (if s.nsLbaf q.nsid.toNat = 2 then 512 else 4096)
        let (out, n, dw1) := pauScan (x.filter.getD []) stream mode room
        ((s.emit (.bytes x.func q.cid out)).pauRelease c).finish c 0 0 (BitVec.ofNat 32 n) (BitVec.ofNat 32 dw1))

/-! ### Write and Zone Append (R23, R27, R240, R463, R466) -/

/-- Placement stream of a write (R246): the Seating Chart's handle, the directive's placement handle, or 0; or a refusal. -/
def stream (s : State) (x : Cmd) : Option Nat :=
  let n := s.nsFdp x.sqe.nsid.toNat
  if x.phandle ≠ 0 then some x.phandle
  else if n ≠ 0 && x.sqe.cdw12.toNat / 2 ^ 20 % 16 = 2 then
    (let d := x.sqe.cdw13.toNat / 65536; if n ≤ d then none else some d)
  else some 0

/-- Blocks of a reclaim unit: 32 × BU (R246). -/
def ruBlocks (s : State) : Nat := max 1 (32 * blockSlots s)

/-- A write fills the open reclaim unit of its placement handle; a full one is followed by a fresh one (R246). -/
def State.fillRu (s : State) (x : Cmd) (handle : Nat) : State :=
  let ns := x.sqe.nsid.toNat
  if s.nsFdp ns = 0 then s
  else
    let k := s.nsRuhBase ns + handle
    { s with map := { s.map with ruh := sputD 0 k ((sgetD 0 k s.map.ruh + x.sqe.nlb) % ruBlocks s) s.map.ruh } }

/-- Fill, journal and commit. -/
def State.fillPlace (s : State) (c : Nat) (data : List Block) : State :=
  match s.cmd c with
  | none => s
  | some x => ((s.fillCmd c x data).soleMark x).placeCmd c

/-- A mirrored write at its front (R462, R463): the lock-home lock, the local lock, the buffers, and the data to the peer; the ack does
the rest. A partial write over a unit in the pool waits (R231). -/
def State.mirrorWrite (s : State) (c : Nat) (x : Cmd) (i : Nat) (append : Bool) (ranges : List (Nat × Nat)) (fill : State → State) : State :=
  let peer := thPeer s i
  let ns := x.sqe.nsid.toNat
  let send (s : State) : State := match s.cmd c with
    | some x => (s.sendWrite c x peer x.first x.sqe.nlb false).setCmd c { x with mirror := .sent }
    | none => s
  let waits := ranges.any fun (a, n) => partialWaits s ns a n
  match x.mirror with
  | .none =>
    if lockHome s i then
      let (free, s) := s.takeLock c
      if !free || waits then s
      else if s.nsZoned ns && (x.sqe.opcode = 0x01 || x.sqe.opcode = 0x7D) then
        match s.zoneReserve c x x.sqe.nlb append with
        | .status t e => s.finish c t e
        | .wait => s
        | .ok s => send (fill s)
      else send (fill s)
    else (s.tSend 3 peer c [BitVec.ofNat 64 x.sqe.opcode, x.sqe.nsid.setWidth 64, BitVec.ofNat 64 x.sqe.slba, BitVec.ofNat 64 x.sqe.nlb]).setCmd c
      { x with mirror := .waitGrant }
  | .granted =>
    let (free, s) := s.takeLock c
    if !free || waits then s
    else if s.nsZoned ns && (x.sqe.opcode = 0x01 || x.sqe.opcode = 0x7D) then
      let s := s.followZone ns x.first x.sqe.nlb
      let z := s.zoneOf ns x.first
      send (fill { s with map := { s.map with reserved := s.map.reserved ++ [(z, c, x.first % 2 ^ s.nsLogZsze ns, x.sqe.nlb)] } })
    else send (fill s)
  | _ => s

/-- A spanned write (R466): all blocks are filled here; pieces of this device are journaled here, others go to their owners. An append
to a zone of another owner asks it for the LBA first. -/
def State.spanWrite (s : State) (c : Nat) (x : Cmd) (i : Nat) (append : Bool) (data : List Block) : State :=
  let ns := x.sqe.nsid.toNat
  let owner := spanOwner s i ns x.sqe.slba
  if append && owner ≠ ringId s && x.mirror = .none then
    if ownerGone s owner then s.finish c 0 0x82
    else (s.tSend 3 owner c [0x7D, x.sqe.nsid.setWidth 64, BitVec.ofNat 64 x.sqe.slba, BitVec.ofNat 64 x.sqe.nlb]).setCmd c { x with mirror := .waitGrant }
  else if x.mirror = .waitGrant || !x.pieces.isEmpty then s
  else
    let (free, s) := s.takeLock c
    if !free || partialWaits s ns x.sqe.slba x.sqe.nlb then s
    else
      let start : Reserve := if s.nsZoned ns && owner = ringId s then s.zoneReserve c x x.sqe.nlb append else .ok s
      match start with
      | .status t e => s.finish c t e
      | .wait => s
      | .ok s => match s.cmd c with
        | none => s
        | some x =>
          let s := s.fillCmd c x data
          s.spanRun c i x.first x.sqe.nlb
            (fun a n s =>
              let mine := ((s.cmd c).map (·.bufs)).getD [] |>.filter fun h => (s.buf h).any fun b => decide (a ≤ b.lba + (if s.nsLbaf ns = 2 then 7 else 0)) && decide (b.lba < a + n)
              let s := if s.nsZoned ns then s.ringBufs ns mine else s.placeBufs ns mine
              s.pieceDone c (ringId s) 0 0)
            (fun o a n s => match s.cmd c with | some x => s.sendWrite c x o a n true | none => s)

/-- A Write or Zone Append (R23, R27). -/
def State.writeRun (s : State) (c : Nat) (x : Cmd) (data : List Block) (append : Bool) : State :=
  let q := x.sqe
  let ns := q.nsid.toNat
  let n := q.nlb
  if x.placed then s.commitWrite c
  else if overMdts s q then s.finish c 0 0x02
  else if append && !s.nsZoned ns then s.finish c 0 0x01
  else if (if s.nsZoned ns then decide (s.nsSize ns ≤ q.slba) else outOfRange s q q.slba n) then s.finish c 0 0x80
  else match stream s x with
    | none => s.finish c 0 0x02
    | some h =>
      let data := hostData s x data
      match spanOf s ns, mirrorOf s ns with
      | some i, _ => s.spanWrite c x i append data
      | none, some i => s.mirrorWrite c x i append [(x.first, n)] fun s => match s.cmd c with | some x => s.fillCmd c x data | none => s
      | none, none =>
        let (free, s) := s.takeLock c
        if !free then s
        else if s.nsZoned ns then
          let s := s.when append (·.mapWork 2 c)
          match s.zoneReserve c x n append with
          | .status t e => s.finish c t e
          | .wait => s
          | .ok s => s.fillPlace c data
        else if partialWaits s ns q.slba n then s
        else (s.fillRu x h).fillPlace c data

/-- WRITE (R23): data is buffered and encrypted, journaled, and committed within the Dirty Ceiling. -/
def execWrite (c : CmdIx) (data : List Block) (s : State) : Res :=
  done (s.ioRun c.toNat 0x01 true fun x s => if x.fused.isSome then s else s.writeRun c.toNat x data false)

/-- ZONE_APPEND (R27): the LBA is assigned under the zone lock and returned. -/
def execZoneAppend (c : CmdIx) (data : List Block) (s : State) : Res :=
  done (s.ioRun c.toNat 0x7D true fun x s => s.writeRun c.toNat x data true)

/-- FUSED_COMPARE_AND_WRITE (R159): the pair runs under one X lock, which passes to the Write; a Compare that does not succeed ends the Write
too (`State.finish`). -/
def execFusedCompareAndWrite (c : CmdIx) (old new : List Block) (bad : List Nat) (s : State) : Res :=
  let c := c.toNat
  done (s.ioRun c 0x05 true fun x s =>
    match x.fused with
    | none => s
    | some w => s.reading c x x.sqe.slba x.sqe.nlb bad fun l s =>
      if l ≠ hostData s x old then s.failed c 2 0x85
      else
        let s := (s.modLock c fun r => { r with cmd := w }).finish c 0 0
        let s := s.modCmd w fun y => { y with fused := none }
        s.ioRun w 0x01 true fun y s => s.writeRun w y new false)

/-! ### Marks and deallocation (R235) -/

/-- A command that marks or deallocates ranges (R235): under its X lock, with mirrored and spanned namespaces as for a write. -/
def State.markRun (s : State) (c : Nat) (x : Cmd) (ranges : List (Nat × Nat)) (fillZeros : Bool) : State :=
  let ns := x.sqe.nsid.toNat
  let zeros (s : State) : State := if fillZeros then s.zeroFill c x ranges else s
  if x.placed then s.commitWrite c
  else if ranges.any fun (a, n) => outOfRange s x.sqe a n then s.finish c 0 0x80
  else match spanOf s ns, mirrorOf s ns with
    | some i, _ =>
      let (free, s) := s.takeLock c
      if !free || !x.pieces.isEmpty || ranges.any fun (a, n) => fillZeros && partialWaits s ns a n then s
      else
        let ps := ranges.flatMap fun (a, n) => spanPieces s i ns a n
        let s := s.modCmd c fun y => { y with pieces := ps.map fun (o, _, _) => (o, none) }
        s.each ps fun s (o, a, n) =>
          if o = ringId s then
            let s := s.applyPeer ns x.sqe.opcode a n
            let s := if fillZeros then (let old := ((s.cmd c).map (·.bufs)).getD []
              let s := s.zeroFill c x [(a, n)]
              s.placeBufs ns ((((s.cmd c).map (·.bufs)).getD []).filter fun h => !old.contains h)) else s
            s.pieceDone c o 0 0
          else if ownerGone s o then s.pieceDone c o 0 0x82
          else s.tSend 5 o c [BitVec.ofNat 64 (x.sqe.opcode + 256), x.sqe.nsid.setWidth 64, BitVec.ofNat 64 a, BitVec.ofNat 64 n]
    | none, some i => s.mirrorWrite c x i false (if fillZeros then ranges else []) zeros
    | none, none =>
      let (free, s) := s.takeLock c
      if !free || ranges.any fun (a, n) => fillZeros && partialWaits s ns a n then s
      else ((zeros s).soleMark x).applyCmd c

/-- WRITE_UNCORRECTABLE (R235): whole units become SPECIAL 2; a partial unit is refused. Zoned blocks are taken and filled (R241). -/
def execWriteUncorrectable (c : CmdIx) (s : State) : Res :=
  let c := c.toNat
  done (s.ioRun c 0x04 true fun x s =>
    let ns := x.sqe.nsid.toNat
    if s.nsZoned ns then
      let (free, s) := s.takeLock c
      if !free then s
      else match s.zoneReserve c x x.sqe.nlb false with
        | .status t e => s.finish c t e
        | .wait => s
        | .ok s => s.applyCmd c
    else if !(wholeUnits (s.nsIu ns) x.sqe.slba x.sqe.nlb).2.isEmpty then s.finish c 0 0x02
    else s.markRun c x [(x.sqe.slba, x.sqe.nlb)] false)

/-- WRITE_ZEROES (R152, R235): as deallocate; a zone's blocks are reserved as a write's, and no buffer is allocated. -/
def execWriteZeroes (c : CmdIx) (s : State) : Res :=
  let c := c.toNat
  done (s.ioRun c 0x08 true fun x s =>
    if s.nsZoned x.sqe.nsid.toNat then
      if x.placed then s.commitWrite c
      else
        let (free, s) := s.takeLock c
        if !free then s
        else match s.zoneReserve c x x.sqe.nlb false with
          | .status t e => s.finish c t e
          | .wait => s
          | .ok s => s.applyCmd c
    else s.markRun c x [(x.sqe.slba, x.sqe.nlb)] true)

/-- DATASET_MANAGEMENT (R152, R235): with deallocate, entries of the ranges become unwritten; without it nothing changes. -/
def execDatasetManagement (c : CmdIx) (s : State) : Res :=
  let c := c.toNat
  done (s.ioRun c 0x09 true fun x s =>
    if 256 < x.sqe.ranges.length then s.finish c 0 0x02
    else if !x.sqe.dealloc || s.nsZoned x.sqe.nsid.toNat then s.finish c 0 0
    else match (if x.placed then none else zeroRefused s x x.sqe.ranges) with
      | some (t, e) => s.failed c t e
      | none => s.markRun c x x.sqe.ranges true)

/-- COPY (R149, R235): one source range of format 0 within the namespace; its data is written to the destination. -/
def execCopy (c : CmdIx) (bad : List Nat) (s : State) : Res :=
  let c := c.toNat
  done (s.ioRun c 0x19 true fun x s =>
    let q := x.sqe
    let ns := q.nsid.toNat
    match q.ranges with
    | [(src, m)] =>
      let n := m + 1
      let from_ : Sqe := { q with opc := 2, cdw10 := BitVec.ofNat 32 src, cdw11 := BitVec.ofNat 32 (src / 2 ^ 32), cdw12 := BitVec.ofNat 32 m, ranges := [] }
      if x.placed then s.commitWrite c
      else if q.cdw12.toNat / 256 % 16 ≠ 0 then s.finish c 0 0x02
      else if outOfRange s q src n || (!s.nsZoned ns && outOfRange s q q.slba n) || (s.nsZoned ns && decide (s.nsSize ns ≤ q.slba)) then s.finish c 0 0x80
      else
        let (free, s) := s.takeLock c
        if !free || waitsReserved s c ns src n || (!s.nsZoned ns && partialWaits s ns q.slba n) then s
        else match s.settleKeys { x with sqe := from_ } with
          | .error (t, e) => s.finish c t e
          | .ok keys =>
            let (l, ok, s) := (s.mapWork 0 c).readBlocks { x with sqe := from_, keys := keys } src n bad
            if !ok then s.failed c 2 0x81
            else if s.nsZoned ns then match s.zoneReserve c x n false with
              | .status t e => s.finish c t e
              | .wait => s
              | .ok s => s.fillPlace c l
            else s.fillPlace c l
    | _ => s.finish c 0 0x02)

/-! ### Flush (R170) -/

/-- FLUSH (R170): it completes once every covered write has reached R23 step 6. -/
def execFlush (c : CmdIx) (s : State) : Res :=
  let c := c.toNat
  match s.cmd c with
  | none => done s
  | some x =>
    if x.committed || x.admin || !x.classified || x.sqe.opcode ≠ 0 || x.cqWait.isSome || s.flushing then done s
    else if x.abort then done (s.finish c 0 0x07)
    else
      let g := s.func x.func
      if x.sqe.nsid ≠ 0xFFFFFFFF && !g.attached.contains x.sqe.nsid.toNat then done (s.finish c 0 0x0B)
      else if (g.flushes.find? fun (w, _) => w == c).any (!·.2.isEmpty) then done s
      else done ((s.setFunc x.func { g with flushes := g.flushes.filter fun (w, _) => w != c }).finish c 0 0)

/-! ### Flexible data placement (R152, R246) -/

/-- Little-endian bytes of a number. -/
def bytesLe (n v : Nat) : List Byte := (List.range n).map fun i => BitVec.ofNat 8 (v / 256 ^ i)

/-- IO_MANAGEMENT_RECEIVE (R152): Reclaim Unit Handle Status, management operation 1, in the NVMe layout (PRESUMED). A namespace without
placement handles answers FDP Disabled (0 / 0x29, PRESUMED). -/
def execIoManagementReceive (c : CmdIx) (s : State) : Res :=
  let c := c.toNat
  done (s.ioRun c 0x12 false fun x s =>
    let ns := x.sqe.nsid.toNat
    let n := s.nsFdp ns
    if x.sqe.cdw10.toNat % 256 ≠ 1 then s.finish c 0 0x02
    else if n = 0 then s.finish c 0 0x29
    else
      let desc (p : Nat) : List Byte :=
        let k := s.nsRuhBase ns + p
        bytesLe 2 p ++ bytesLe 2 k ++ bytesLe 4 0 ++ bytesLe 8 (ruBlocks s - sgetD 0 k s.map.ruh) ++ bytesLe 16 0
      (s.emit (.bytes x.func x.sqe.cid (bytesLe 14 0 ++ bytesLe 2 n ++ (List.range n).flatMap desc))).finish c 0 0)

/-- RECLAIM_UNIT_HANDLE_UPDATE (R246): the open reclaim unit of each placement handle listed is closed at the commit point. -/
def execReclaimUnitHandleUpdate (c : CmdIx) (handles : List (BitVec 16)) (s : State) : Res :=
  let c := c.toNat
  done (s.ioRun c 0x1D false fun x s =>
    let ns := x.sqe.nsid.toNat
    let n := s.nsFdp ns
    if x.sqe.cdw10.toNat % 256 ≠ 1 || handles.any fun h => decide (n ≤ h.toNat) then s.finish c 0 0x02
    else if n = 0 then s.finish c 0 0x29
    else (s.each handles fun s h =>
      { s with map := { s.map with ruh := sdel (s.nsRuhBase ns + h.toNat) s.map.ruh } }).finish c 0 0)

end Sys2Proof.Machine
end

