-- ==== Sys2Proof/Machine/Zones.lean ====
section
/-! DEFINITION. Zone Management Send and Receive (R239, R241, R243, R245). -/
namespace Sys2Proof.Machine

/-- CDW13 of Zone Management Send: bit 8 is Select All. -/
def Cmd.selectAll (x : Cmd) : Bool := x.sqe.cdw13.getLsbD 8

/-- All zones of a namespace. -/
def nsZoneList (s : State) (ns : Nat) : List Nat := (List.range (s.nsZones ns)).map (s.nsBase ns + ·)

/-- A zone has commands that hold it back: a reserved write before its commit point, or a barrier of a lower FSN (R240, R243). -/
def zoneBusy (s : State) (x : Cmd) (z : Nat) : Bool :=
  s.map.reserved.any (fun (y, _, _, _) => y == z) || barred s x z || zoneBehind s x z ||
    (match s.zlock z with | (held, l) => held || !l.isEmpty)

/-- Carry out a state change of a zone (R239): `act` on each zone the command names. With Select All, zones whose state does not admit it
are left; otherwise the first refusal is the command's status. A zone that cannot change yet makes the command wait. -/
def State.zoneRun (s : State) (c action : Nat) (can : State → Nat → Except (Nat × Nat) Bool) (act : State → Nat → State) : State :=
  s.ioRun c 0x79 false fun x s =>
    let ns := x.sqe.nsid.toNat
    if x.sqe.cdw13.toNat % 256 ≠ action then s
    else if !s.nsZoned ns then s.finish c 0 0x01
    else if !x.selectAll && s.nsSize ns ≤ x.sqe.slba then s.finish c 0 0x80
    else if !x.selectAll && x.sqe.slba % 2 ^ s.nsLogZsze ns ≠ 0 then s.finish c 0 0x02
    else
      let s := s.mapWork 2 c
      let zs := if x.selectAll then (nsZoneList s ns).filter fun z => (can s z).toOption.isSome else [s.zoneOf ns x.sqe.slba]
      match zs.findSome? fun z => (match can s z with | .error e => some e | .ok _ => none) with
      | some (t, e) => s.finish c t e
      | none =>
        if zs.any fun z => zoneBusy s x z || (match can s z with | .ok ready => !ready | .error _ => false) then s
        else (s.each zs act).finish c 0 0

/-- Invalid Zone State Transition (R245). -/
def badTransition : Except (Nat × Nat) Bool := .error (1, 0xBF)

/-- ZONE_OPEN (R239). -/
def execZoneOpen (c : CmdIx) (s : State) : Res :=
  done (s.zoneRun c.toNat 3
    (fun s z =>
      let ns := s.zw z 4 % 2 ^ 32
      let st := s.zs z
      if st = zsImplOpen || st = zsExplOpen then .ok true
      else if st = zsEmpty && decide (s.nsMar ns ≤ nsActive s ns) then .error (1, 0xBD)
      else if (st = zsEmpty || st = zsClosed) && decide (s.nsMar ns ≤ nsOpen s ns) then .error (1, 0xBE)
      else if st = zsEmpty then .ok (s.activateZone z).isSome
      else if st = zsClosed then .ok true
      else badTransition)
    fun s z => (if s.zs z = zsEmpty then (s.activateZone z).getD s else s).setZs z zsExplOpen)

/-- ZONE_CLOSE (R239): a zone with nothing written is empty again. -/
def execZoneClose (c : CmdIx) (s : State) : Res :=
  done (s.zoneRun c.toNat 1
    (fun s z => if zOpen (s.zs z) || s.zs z = zsClosed then .ok true else badTransition)
    fun s z =>
      if !zOpen (s.zs z) then s
      else if 0 < s.zwp z then s.setZs z zsClosed
      else ((s.each (zoneOwn s z) fun s (d, b) => s.returnBlock d b).freeZone z).setZs z zsEmpty)

/-- ZONE_FINISH (R239): WP := ZCAP; blocks with no page written return to the free heap, and their items name no block. -/
def execZoneFinish (c : CmdIx) (s : State) : Res :=
  done (s.zoneRun c.toNat 2
    (fun s z => if s.zs z = zsEmpty || zActive (s.zs z) || s.zs z = zsFull then .ok true else badTransition)
    fun s z =>
      if s.zs z = zsFull then s
      else
        let ns := s.zw z 4 % 2 ^ 32
        let items := zoneBlocks s z
        let kept := items.map fun (d, b) =>
          if (s.zmwp z = s.zrwp z) && s.nextRow d b = 0 then (1023, 32767) else (d, b)
        let s := s.each ((items.zip kept).filter fun (a, b) => a != b) fun s (a, _) => s.returnBlock a.1 a.2
        let s := if items.isEmpty then s else s.writeList (s.zw z 3 % 2 ^ 22) kept
        let s := s.tjrn 2 z 0 (setBits (setBits (s.zw z 0) 0 4 zsFull) 32 21 (s.nsZcap ns))
        if s.zmwp z = s.zrwp z && s.zw z 5 / 2 ^ 15 % 2 = 1 then
          { s.tjrn 2 z 5 0 with map := { (s.tjrn 2 z 5 0).map with ringSlots := (s.tjrn 2 z 5 0).map.ringSlots.filter (· != s.zw z 5 % 2 ^ 14) } }
        else s)

/-- ZONE_RESET (R239): once every block is on media; LGEN rises by 1, pointers are 0, the list's blocks wait for their erase. -/
def execZoneReset (c : CmdIx) (s : State) : Res :=
  done (s.zoneRun c.toNat 4
    (fun s z => if s.zs z = zsEmpty || zActive (s.zs z) || s.zs z = zsFull then .ok (s.zmwp z == s.zrwp z) else badTransition)
    fun s z =>
      let s := s.each (zoneOwn s z) fun s (d, b) => s.dropZoneBlock d b
      let s := if s.zw z 3 = 0 then s else s.freeZone z
      let s := s.tjrn 2 z 2 (setBits (s.zw z 2) 0 32 ((s.zlgen z + 1) % 2 ^ 32))
      let s := { s with map := { s.map with voids := s.map.voids.filter (fun k => k / 2 ^ 21 != z), zeroed := s.map.zeroed.filter (fun k => k / 2 ^ 21 != z) } }
      (s.tjrn 2 z 1 0).tjrn 2 z 0 zsEmpty)

/-- ZONE_OFFLINE (R239): a read-only zone goes offline and its list is freed. -/
def execZoneOffline (c : CmdIx) (s : State) : Res :=
  done (s.zoneRun c.toNat 5
    (fun s z => if s.zs z = zsReadOnly || s.zs z = zsOffline then .ok true else badTransition)
    fun s z =>
      if s.zs z = zsOffline then s
      else
        let s := s.each (zoneOwn s z) fun s (d, b) => s.dropZoneBlock d b
        (((if s.zw z 3 = 0 then s else s.freeZone z).setZs z zsOffline).raise F.MAP_EVT.ZONE_OFFLINE))

/-- A zone's state passes the reporting filter of Zone Management Receive (NVMe zone state filters, PRESUMED). -/
def reported (st filter : Nat) : Bool :=
  match filter with
  | 0 => true
  | 1 => st == zsEmpty
  | 2 => st == zsImplOpen
  | 3 => st == zsExplOpen
  | 4 => st == zsClosed
  | 5 => st == zsFull
  | 6 => st == zsReadOnly
  | 7 => st == zsOffline
  | _ => false

/-- A zone descriptor as Report Zones returns it (NVMe layout, PRESUMED). -/
def zoneDesc (s : State) (ns z : Nat) : List Byte :=
  let start := (z - s.nsBase ns) * 2 ^ s.nsLogZsze ns
  let attr := (if s.zw z 0 / 16 % 2 = 1 then 4 else 0) + (if s.zw z 0 / 32 % 2 = 1 then 2 else 0)
  bytesLe 1 2 ++ bytesLe 1 (s.zs z * 16) ++ bytesLe 1 attr ++ bytesLe 5 0 ++ bytesLe 8 (s.nsZcap ns) ++ bytesLe 8 start
    ++ bytesLe 8 (start + s.zwp z) ++ bytesLe 32 0

/-- REPORT_ZONES (R239): the zones from the SLBA's on whose state passes the filter; the count is of all of them, or with Partial of
those returned, as far as the buffer of CDW12 has room. -/
def execReportZones (c : CmdIx) (s : State) : Res :=
  let c := c.toNat
  done (s.ioRun c 0x7A false fun x s =>
    let ns := x.sqe.nsid.toNat
    let q := x.sqe
    if !s.nsZoned ns then s.finish c 0 0x01
    else if q.cdw13.toNat % 256 ≠ 0 || 7 < q.cdw13.toNat / 256 % 256 then s.finish c 0 0x02
    else if s.nsSize ns ≤ q.slba then s.finish c 0 0x80
    else
      let all := (nsZoneList s ns).filter fun z => decide (s.zoneOf ns q.slba ≤ z) && reported (s.zs z) (q.cdw13.toNat / 256 % 256)
      let room := ((q.cdw12.toNat + 1) * 4 - 64) / 64
      let out := all.take room
      let n := if q.cdw13.getLsbD 16 then out.length else all.length
      (s.emit (.bytes x.func q.cid (bytesLe 8 n ++ bytesLe 56 0 ++ out.flatMap (zoneDesc s ns)))).finish c 0 0)

end Sys2Proof.Machine
end

