-- ==== Sys2Proof/Machine/OpsAdmin.lean ====
section
/-! DEFINITION. Identify data and log pages, features, and what namespace commands do to the tables (R150, R151, R225 to R228, R235,
R236). Formats the spec leaves to the NVMe specifications are theirs, and bytes it says nothing of are left open. -/
namespace Sys2Proof.Machine

/-- Bytes put over others at an offset. -/
def overlay (l : List Nat) (off : Nat) (b : List Nat) : List Nat := l.take off ++ b ++ l.drop (off + b.length)
/-- A page of a standard's format with the fields the spec gives put in: (offset, bytes). -/
def page (kind n : Nat) (content : List Nat) (fields : List (Nat × List Nat)) : List Nat :=
  fields.foldl (fun l x => overlay l x.1 x.2) (padTo n ((Config.bytes kind content).map (·.toNat)))

/-! ### Identify (R149, R150, R180, R226, R238) -/

/-- MTFA in units of 100 ms (R69, R150). -/
def mtfaUnits (s : State) : Nat := (100000000 + longestGap s * periodNs s + 99999999) / 100000000

/-- ENLAT and EXLAT figures of the power states in µs (R409). -/
def latFigures : List (Nat × Nat) := [(0, 0), (1000, 1000), (1000, 1000), (25000, 2000), (30000, 5000)]
/-- Maximum power of the states in units of 0.01 W (R409). -/
def maxPower : List Nat := [2800, 2000, 1400, 350, 60]
/-- A power state descriptor: MP, NOPS, ENLAT, EXLAT. -/
def psDesc (s : State) (i : Nat) : List Nat :=
  let gap := longestGap s * periodNs s / 1000
  let (a, b) := latFigures.getD i (0, 0)
  leBytes (maxPower.getD i 0) 2 ++ [0, if 3 ≤ i then 2 else 0] ++ leBytes (a + gap) 4 ++ leBytes (b + gap) 4

/-- Identify Controller (R150, R409, R424). -/
def identifyController (s : State) (f : Nat) : List Nat :=
  let kelvin (n : Nat) : List Nat := leBytes (n % 256 + 273) 2
  let pf := s.isPf f
  let ps := (List.range (if pf then 5 else 1)).map fun i => (2048 + 32 * i, psDesc s i)
  page 0x1001 4096 [f, if pf then 1 else 0] ([(77, [9]), (78, leBytes f 2), (84, leBytes 2500000 4), (88, leBytes 1000000 4), (258, [255]), (259, [15]),
    (260, [2 * 2 + 16]), (263, [if pf then 4 else 0]), (266, kelvin (s.fld F.TMU_THRESH.WARN)), (268, kelvin (s.fld F.TMU_THRESH.CRIT)),
    (270, leBytes (mtfaUnits s) 2), (319, [1]), (512, [0x66]), (513, [0x44]), (516, leBytes 16384 4), (522, leBytes 1 2), (525, [0])] ++ ps)

/-- LBADS of a format: 512 B or 4 096 B (R225). -/
def lbads (lbaf : Nat) : Nat := if lbaf = 2 then 9 else 12

/-- Identify Namespace (R225): NSZE and NCAP, the format in use, and the four formats. -/
def identifyNamespace (s : State) (ns : Nat) : List Nat :=
  if s.nsState ns = 0 then List.replicate 4096 0
  else page 0x1000 4096 [ns] ([(0, leBytes (s.nsSize ns) 8),
    (8, leBytes (if s.nsZoned ns then s.nsZones ns * s.nsZcap ns else s.nsSize ns) 8), (25, [3]), (26, [s.nsLbaf ns]), (27, [0]), (29, [0])] ++
    (List.range 4).map fun k => (128 + 4 * k, [0, 0, lbads k, 0]))

/-- Identify Namespace of the Zoned command set: MAR and MOR, 0-based (R228). -/
def identifyZoned (s : State) (ns : Nat) : List Nat :=
  if s.nsState ns = 0 || !s.nsZoned ns then List.replicate 4096 0
  else page 0x1002 4096 [ns] [(4, leBytes (s.nsMar ns - 1) 4), (8, leBytes (s.nsMar ns - 1) 4),
    (2816 + 16 * 3, leBytes (2 ^ s.nsLogZsze ns) 8)]

/-- The list of 1 024 identifiers above one. -/
def idList (l : List Nat) (above : Nat) : List Nat :=
  padTo 4096 (((l.filter (decide <| above < ·)).mergeSort.take 1024).flatMap fun n => leBytes n 4)

/-- Namespaces a function may see (R151, R180): a VF those attached to it. -/
def seen (s : State) (f : Nat) : List Nat := if s.isPf f then s.nsids else (s.func f).attached

/-- Identify data by CNS; none: not a structure this device returns. -/
def identifyData (s : State) (f cns nsid csi : Nat) : Option (List Nat) :=
  let vis := (seen s f).contains nsid
  let mine := (s.func f).attached.contains nsid
  match cns with
  | 0x00 => some (if mine then identifyNamespace s nsid else List.replicate 4096 0)
  | 0x01 => some (identifyController s f)
  | 0x02 => some (idList (s.func f).attached nsid)
  | 0x03 => if mine then some (page 0x1003 4096 [nsid] []) else none
  | 0x05 => some (if !mine then List.replicate 4096 0 else if csi = 2 then identifyZoned s nsid else page 0x1005 4096 [nsid, csi] [])
  | 0x06 => some (page 0x1006 4096 [csi] [])
  | 0x07 => some (idList ((s.func f).attached.filter fun n => s.nsZoned n == decide (csi = 2)) nsid)
  | 0x08 => some (if mine then page 0x1008 4096 [nsid] [] else List.replicate 4096 0)
  | 0x10 => if s.isPf f then some (idList s.nsids nsid) else none
  | 0x11 => if s.isPf f then some (if vis then identifyNamespace s nsid else List.replicate 4096 0) else none
  | 0x12 => if s.isPf f then some (padTo 4096 (let l := s.funcList.filter fun g => (s.func g).attached.contains nsid
      leBytes l.length 2 ++ l.flatMap fun g => leBytes g 2)) else none
  | 0x13 => if s.isPf f then some (padTo 4096 (leBytes s.funcList.length 2 ++ s.funcList.flatMap fun g => leBytes g 2)) else none
  | 0x14 => if s.isPf f then some (page 0x1014 4096 [held s false f, held s true f] []) else none
  | 0x15 => if s.isPf f then some (padTo 4096 (let l := s.funcList.filter fun g => !s.isPf g
      [l.length % 256, 0, 0, 0] ++ List.replicate 28 0 ++ (l.take 127).flatMap fun g =>
        leBytes g 2 ++ leBytes (pfOf s g) 2 ++ [if (s.func g).online then 1 else 0, 0, 0, 0] ++ leBytes (g - pfOf s g) 2 ++
          leBytes (held s false g) 2 ++ leBytes (held s true g) 2 ++ List.replicate 18 0)) else none
  | 0x1C => some (padTo 4096 (leBytes 5 8))
  | _ => none

/-! ### Log pages (R55, R151, R180, R289, R423) -/

/-- Percentage Used: 100 × the highest mean erase count of a die ÷ ENDUR (R289). -/
def percentUsed (s : State) : Nat :=
  let mean (d : Nat) : Nat := ((List.range (geoBlocks s)).map fun b => blkErase (s.blockW0 d b)).sum / max 1 (geoBlocks s)
  min 255 (100 * ((s.media.dies.map mean).foldl max 0) / max 1 (s.fld F.MED_SPARE.ENDUR))

/-- Kelvin of a diode's reading, 0 for a bad one (R423). -/
def sensorKelvin (s : State) (j : Nat) : Nat := if diodeBad s j || !s.pwr.dSeen.getLsbD j then 0 else ((diodeTemp s j + 1 / 2).floor + 273).toNat

/-- SMART / Health Information. -/
def smartPage (s : State) : List Nat :=
  page 0x0202 512 [s.freeCtr] ([(0, [s.media.smart.toNat]), (1, leBytes (composite s + 273).toNat 2), (3, [s.fld F.MED_SPARE.AVAIL_PCT]),
    (4, [s.fld F.MED_SPARE.THRESH_PCT]), (5, [percentUsed s]), (112, leBytes s.sec.ledger.cycles 16), (128, leBytes (s.sec.ledger.seconds / 3600) 16),
    (160, leBytes s.ecc.integrity 16)] ++ (List.range 8).map fun j => (200 + 2 * j, leBytes (sensorKelvin s j) 2))

/-- Error Information: the newest 64 statuses of the function. -/
def errorPage (s : State) (f : Nat) : List Nat :=
  let l := (s.func f).errors.take 64
  padTo 4096 (l.zipIdx.flatMap fun (x : (Nat × Nat) × Nat) =>
    padTo 64 (leBytes (l.length - x.2) 8 ++ [0, 0, 0, 0] ++ leBytes (x.1.2 * 2 + x.1.1 * 512) 2))

/-- The Timetable log: each occurrence of Ballast override, with its die and Period number (R55). -/
def timetablePage (s : State) : List Nat := s.ttu.ovrLog.flatMap fun (x : Nat × Word64) => leBytes x.1 8 ++ leBytes x.2.toNat 8

/-- Device Self-test log: the operation under way and the 20 newest results. -/
def selfTestPage (s : State) : List Nat :=
  padTo 564 ([if s.tst.selfTest.isSome then (match s.tst.selfTest with | some t => if t.ext then 2 else 1 | none => 0) else 0, 0, 0, 0] ++
    s.tst.stLog.flatMap fun (x : StLog) => [x.result + 16 * x.code, x.seg] ++ List.replicate 26 0)

/-- Content of a log page for a function; none: not offered to it (R151: a VF reads its error and command-effects logs; the vendor logs
are for PFs). -/
def logPage (s : State) (f lid : Nat) : Option (List Nat) :=
  match lid with
  | 0x01 => some (errorPage s f)
  | 0x05 => some (page 0x0205 4096 [if s.isPf f then 1 else 0] [])
  | _ =>
    if !s.isPf f then none
    else match lid with
      | 0x02 => some (smartPage s)
      | 0x06 => some (selfTestPage s)
      | 0xC0 => some (timetablePage s)
      | _ =>
        if [0x00, 0x03, 0x04, 0x07, 0x08, 0x0D, 0x20, 0x21, 0x22, 0x23, 0x81, 0xBF].contains lid || (0xC1 ≤ lid && lid ≤ 0xCF) then
          some (page (0x0200 + lid) 4096 [f, s.freeCtr] [])
        else none

/-- Type of the events a log page acknowledges. -/
def logEvent (lid : Nat) : Nat := if lid = 0x01 then 0 else if lid = 0x02 then 1 else if 0xC0 ≤ lid then 7 else 2

/-- Reading a page acknowledges its events, and a Tether event that waited for that is posted (R55, R470). -/
def State.ackEvents (s : State) (f ty : Nat) : State :=
  let g := s.func f
  let s := s.setFunc f { g with reported := g.reported.filter fun (x : Nat × Nat) => x.1 != ty }
  let l := s.th.events
  s.when (ty == 7) fun s => ({ s with th := { s.th with events := [] } }).each l fun s i => s.tetherEvent i.toNat

/-! ### Features (R151, R409) -/

/-- Features a function has of its own, and those that hold for the device, set by a PF alone. -/
def ownFeatures : List Nat := [0x01, 0x05, 0x08, 0x09, 0x0A, 0x0B, 0x16]
def wideFeatures : List Nat := [0x0C, 0x0E, 0x17, 0x1D, 0x1E]
/-- Value of a feature that has not been set. -/
def featureDefault (s : State) (f fid : Nat) : Word :=
  match fid with | 0x01 => 7 | 0x07 => BitVec.ofNat 32 ((queueLimit s f - 1) * 65537) | _ => 0

/-! ### Map region (R226, R228, R236) -/

/-- What Namespace Management Create asks for. -/
structure NsSpec where
  size : Nat
  lbaf : Nat
  logZsze : Nat := 0
  logW : Nat := 0
  k : Nat := 0
  fdp : Nat := 0
  mar : Nat := 0
deriving DecidableEq, Repr

/-- Map lines of a conventional namespace, and zones of a zoned one. -/
def nsLines (lbaf size : Nat) : Nat := let iu := (match lbaf with | 1 => 4 | 2 => 8 | _ => 1); ((size + iu - 1) / iu + 11) / 12
def NsSpec.zones (n : NsSpec) : Nat := n.size / 2 ^ n.logZsze

/-- ZCAP (R236). -/
def zcapOf (s : State) (n : NsSpec) : Nat :=
  let z := min (2 ^ n.logZsze) (2 ^ n.logW * n.k * blockSlots s)
  z - z % max 1 (2 ^ n.logW * pageSlots s)

/-- Range checks of R226 and R236. -/
def NsSpec.ok (s : State) (n : NsSpec) : Bool :=
  n.size != 0 && decide (n.size < 2 ^ 40) && decide (n.lbaf ≤ 3) &&
  (if n.lbaf = 3 then
    decide (16 ≤ n.logZsze) && decide (n.logZsze ≤ 20) && decide (n.logW ≤ 5) && decide (1 ≤ n.k) && decide (n.k ≤ 64) && decide (2 ^ n.logW * n.k ≤ 64) &&
    decide (1 ≤ n.mar) && decide (n.mar ≤ 16384) && n.size % 2 ^ n.logZsze == 0 && zcapOf s n != 0 && decide (2 ^ n.logZsze ≤ 2 * zcapOf s n)
   else decide (n.fdp ≤ 128))

/-- Bytes of the map region that namespaces take: conventional lines, zone descriptors and list entries (R228). -/
def NsSpec.region (n : NsSpec) : Nat :=
  if n.lbaf = 3 then 64 * (n.zones + n.zones * ((2 ^ n.logW * n.k + 15) / 16)) else 64 * nsLines n.lbaf n.size
/-- The parameters of an existing namespace. -/
def nsSpec (s : State) (ns : Nat) : NsSpec :=
  { size := s.nsSize ns, lbaf := s.nsLbaf ns, logZsze := s.nsLogZsze ns, logW := s.nsLogW ns, k := s.nsK ns, fdp := s.nsFdp ns, mar := s.nsMar ns }
/-- Blocks of 4 096 B. -/
def NsSpec.blocks (n : NsSpec) : Nat := if n.lbaf = 2 then n.size / 8 else n.size

/-- Lowest start of a free range of `n` units below `limit`. -/
def lowestFree (used : List (Nat × Nat)) (n limit : Nat) : Option Nat :=
  let cand := ((0 :: used.map fun x => x.1 + x.2).filter fun a => decide (a + n ≤ limit) && used.all fun x => !spansMeet0 a n x.1 x.2)
  cand.foldl (fun m a => match m with | none => some a | some b => some (min a b)) none
where
  /-- Two spans meet. -/
  spansMeet0 (a n b m : Nat) : Bool := decide (a < b + m) && decide (b < a + n)

/-- The range a namespace gets: MAP index of its first line, or ZDESC index of its first zone; or the status, and whether the refusal is
for map space (R228), whose size is the region that the first CC.EN has fixed (R345). `old`: the namespace being formatted, whose range is free again. -/
def nsPlace (s : State) (old : Option Nat) (n : NsSpec) : Except (Nat × Nat × Bool) Nat :=
  let others := s.nsids.filter fun k => some k != old
  let bytes := s.fld F.DMC_REGION_MAP.SIZE_16M * 2 ^ 24
  let conv := (others.filter fun k => !s.nsZoned k).map fun k => (s.nsBase k / 12, nsLines (s.nsLbaf k) (s.nsSize k))
  let zoned := (others.filter s.nsZoned).map fun k => (s.nsBase k, s.nsZones k)
  if bytes < (others.map fun k => (nsSpec s k).region).sum + n.region then .error (1, 0x15, true)
  else if s.pair R.MED_CAP_LO < (others.map fun k => (nsSpec s k).blocks).sum + n.blocks then .error (1, 0x15, false)
  else if n.lbaf = 3 && 16384 < ((others.filter s.nsZoned).map s.nsMar).sum + n.mar then .error (1, 0x15, false)
  else match (if n.lbaf = 3 then lowestFree zoned n.zones 1048576 else (lowestFree conv (nsLines n.lbaf n.size) (bytes / 64)).map (· * 12)) with
    | some b => .ok b
    | none => .error (1, 0x15, true)

/-- Reclaim unit handles in use, and the lowest run that is free. -/
def ruhPlace (s : State) (n : Nat) : Option Nat :=
  lowestFree ((s.nsids.filter fun k => !s.nsZoned k && s.nsFdp k != 0).map fun k => (s.nsRuhBase k, s.nsFdp k)) n 128

/-! ### Records and ranges (R227, R235, R237) -/

/-- Empty a zone: its blocks wait for their erase, the generation rises, its pooled blocks are released (R235, R239). -/
def State.emptyZone (s : State) (z : Nat) : State :=
  let s := s.each (sgetD [] z s.map.rings) fun s (_, h) => s.bufDone h s.lastSeq
  let s := s.each (zoneOwn s z) fun s (d, b) => s.dropZoneBlock d b
  let s := if s.zw z 3 = 0 then s else s.freeZone z
  let s := s.tjrn 2 z 2 (setBits (s.zw z 2) 0 32 ((s.zlgen z + 1) % 2 ^ 32))
  let s := { s with map := { s.map with voids := s.map.voids.filter (fun k => k / 2 ^ 21 != z), zeroed := s.map.zeroed.filter (fun k => k / 2 ^ 21 != z) } }
  s.tjrn 2 z 1 0

/-- Descriptors of a zoned namespace, all empty (R235, R237). -/
def State.newZones (s : State) (ns base : Nat) (n : NsSpec) : State :=
  s.each (List.range n.zones) fun s i =>
    let z := base + i
    let s := s.tjrn 2 z 2 (s.zlgen z + n.logW * 2 ^ 32 + n.k % 64 * 2 ^ 35)
    ((s.tjrn 2 z 4 (ns + i * 2 ^ 32)).tjrn 2 z 1 0).tjrn 2 z 0 zsEmpty

/-- Clear every entry of a namespace's range (R235). `gone`: the namespace goes, and its descriptors with it; their generations stay, so
that no later zone takes one that its media has seen. -/
def State.clearNs (s : State) (ns : Nat) (gone : Bool) : State :=
  if s.nsZoned ns then
    s.each (List.range (s.nsZones ns)) fun s i =>
      let z := s.nsBase ns + i
      let s := s.emptyZone z
      if gone then ((s.tjrn 2 z 2 (s.zlgen z)).tjrn 2 z 4 0).tjrn 2 z 0 0 else s.tjrn 2 z 0 zsEmpty
  else s.clearLines (s.nsBase ns) (s.nsIus ns)

/-- Write a namespace's record (R227). -/
def State.putNs (s : State) (ns base : Nat) (n : NsSpec) (slot : Option Nat) (ruh : Nat) : State :=
  let i := ns - 1
  let z := decide (n.lbaf = 3)
  let s := (s.tjrn 6 i 1 n.size).tjrn 6 i 2 base
  let s := s.tjrn 6 i 3 (if z then n.logZsze + zcapOf s n * 32 + n.zones * 2 ^ 26 else 0)
  let s := s.tjrn 6 i 4 (if z then n.mar + n.logW * 2 ^ 15 + n.k * 2 ^ 18 else 0)
  let s := s.tjrn 6 i 5 (match slot with | some k => k + 65536 | none => 0)
  let s := s.tjrn 6 i 6 (if z then 0 else n.fdp + ruh * 256)
  s.tjrn 6 i 0 (1 + n.lbaf * 4)

/-- Delete a namespace (R235, R386): its map, attachments, ranges and keys go. -/
def State.deleteNs (s : State) (ns : Nat) : State :=
  let fs := s.funcList.filter fun f => (s.func f).attached.contains ns
  let s := s.each fs fun s f => s.setFunc f { s.func f with attached := (s.func f).attached.filter (· != ns) }
  let s := s.clearNs ns true
  let slots := (s.opalRanges ns).map fun (x : Nat × OpalRange) => x.2.slot
  let s := s.each slots (·.dropMek ·)
  let s := s.setBlocks { s.sec.blocks with ranges := s.sec.blocks.ranges.filter fun (x : Nat × OpalRange) => x.1 == 0 || x.2.nsid != ns }
  let s := match s.nsKeySlot ns with | some k => s.dropMek k | none => s
  let s := s.each (List.range 6) fun s w => s.tjrn 6 (ns - 1) (w + 1) 0
  (s.tjrn 6 (ns - 1) 0 0).spareEval

/-- A refusal for want of map space is reported (R228). -/
def State.nsRefuse (s : State) (f : Nat) (cid : BitVec 16) (e : Nat × Nat × Bool) : State :=
  (s.when e.2.2 (·.raise F.MAP_EVT.REGION_FULL)).adminDone f cid e.1 e.2.1

/-- Erase every block that holds host data and nothing live (R386: block erase): not key blocks, armed flush blocks or checkpoint blocks. -/
def State.eraseMedia (s : State) : State :=
  let idx := (s.zyn.tab.block.filter fun (x : Nat × Word64) => x.1 % 8 == 0 && (blkState x.2.toNat == 1 || blkState x.2.toNat == 2) && blkValid x.2.toNat == 0).map
    fun (x : Nat × Word64) => (x.1 / 8 / max 1 (geoBlocks s), x.1 / 8 % max 1 (geoBlocks s))
  let keep (x : Nat × Nat) : Bool :=
    s.sec.blocks.blks.contains (x.1 * 2 ^ 15 + x.2) || sget x.1 s.mram.plan == some x.2 ||
    s.mram.cpSet.contains (x.1 * 2 ^ 15 + x.2) || s.mram.openBlks.any (fun o => o.die == x.1 && o.block == x.2 && o.use == 3)
  s.each (idx.filter fun x => s.inService x.1 && !keep x) fun s (d, b) =>
    let e := blkErase (s.blockW0 d b) + 1
    let s := (s.wipeBlock d b).closeBlockEntry d b
    let s := s.tjrn 4 (d * geoBlocks s + b) 0 (e % 2 ^ 20 * 2 ^ 20)
    (s.setHeap d (heapInsert (e, b) (s.heap d))).ballastCheck d

/-- Sanitize (R149, R235, R386): every map entry is cleared, every MEK replaced, and every KPIO slot and tag KEK zeroized. -/
def State.sanitize (s : State) : State :=
  let s := s.stEnd 9
  (s.each s.nsids (·.clearNs · false)).renewMeks

end Sys2Proof.Machine
end

