-- ==== Sys2Proof/Machine/Admin.lean ====
section
/-! DEFINITION. Admin commands of NVMe: logs, Identify, features, namespaces, firmware, virtualization, Format and Sanitize (R149 to R151,
R173, R178, R179, R225 to R228, R235, R386, R434). -/
namespace Sys2Proof.Machine

/-! ### Logs, Identify, features (R150, R151) -/

/-- GET_LOG_PAGE (R151): `off` and `len` in bytes; `rae`: the page's events stay reported. -/
def execGetLogPage (f : BitVec 12) (cid : BitVec 16) (lid : BitVec 8) (rae : Bool) (off len : BitVec 32) (s : State) : Res :=
  let f := f.toNat
  match logPage s f lid.toNat with
  | none => done (s.adminDone f cid 1 0x09)
  | some l =>
    let s := s.emit (.bytes f cid (toBytes ((l.drop off.toNat).take len.toNat)))
    done ((s.when (!rae) (·.ackEvents f (logEvent lid.toNat))).ok f cid)

/-- IDENTIFY (R150, R151). -/
def execIdentify (f : BitVec 12) (cid : BitVec 16) (cns : BitVec 8) (nsid : Word) (csi : BitVec 8) (s : State) : Res :=
  let f := f.toNat
  match identifyData s f cns.toNat nsid.toNat csi.toNat with
  | none => done (s.adminDone f cid 0 0x02)
  | some l => done ((s.emit (.bytes f cid (toBytes l))).ok f cid)

/-- SET_FEATURES (R151, R409): a feature of the device is for PFs alone; one that the device does not have is an invalid field. -/
def execSetFeatures (f : BitVec 12) (cid : BitVec 16) (fid : BitVec 8) (v : Word) (s : State) : Res :=
  let f := f.toNat
  let k := fid.toNat
  done (match k with
    | 0x02 => s.setPowerFeature f cid v
    | 0x04 => s.setTempThreshold f cid v
    | 0x10 => s.setHctm f cid v
    | 0xC2 => s.setOrdered f cid v
    | 0x07 => s.adminDone f cid 0 0 (featureDefault s f 0x07)
    | _ =>
      if ownFeatures.contains k || (wideFeatures.contains k && s.isPf f) then
        (s.setFunc f { s.func f with feats := sput k v (s.func f).feats }).ok f cid
      else s.adminDone f cid 0 0x02)

/-- GET_FEATURES (R151): `v` is CDW11, which selects the threshold of feature 0x04 and the queue of 0xC2. -/
def execGetFeatures (f : BitVec 12) (cid : BitVec 16) (fid : BitVec 8) (v : Word) (s : State) : Res :=
  let f := f.toNat
  let k := fid.toNat
  let stored (j : Nat) : Word := sgetD (featureDefault s f j) j (s.func f).feats
  done (match k with
    | 0x04 => if s.isPf f then s.adminDone f cid 0 0 (stored (4 + 256 * (v.toNat / 2 ^ 20 % 2))) else s.adminDone f cid 0 0x02
    | 0x10 => if s.isPf f then s.adminDone f cid 0 0 (stored 0x10) else s.adminDone f cid 0 0x02
    | 0xC2 => (match s.sq f (v.toNat % 65536) with
      | some q => s.adminDone f cid 0 0 (BitVec.ofNat 32 (v.toNat % 65536 + if q.ordered then 65536 else 0))
      | none => s.adminDone f cid 0 0x02)
    | _ =>
      if k = 0x02 || k = 0x07 || ownFeatures.contains k || (wideFeatures.contains k && s.isPf f) then s.adminDone f cid 0 0 (stored k)
      else s.adminDone f cid 0 0x02)

/-! ### Namespaces (R226 to R228, R235, R374, R386, R435) -/

/-- NAMESPACE_CREATE (R226, R228, R236, R374, R435): the operands are NSZE, the format and bytes 3 072 to 3 077. -/
def execNamespaceCreate (f : BitVec 12) (cid : BitVec 16) (size : BitVec 64) (lbaf logZsze logW k fdp : BitVec 8) (mar : BitVec 16) (s : State) : Res :=
  let f := f.toNat
  let n : NsSpec := { size := size.toNat, lbaf := lbaf.toNat, logZsze := logZsze.toNat, logW := logW.toNat, k := k.toNat, fdp := fdp.toNat, mar := mar.toNat }
  done (s.pfOnly f cid fun s =>
    if s.boot.provisioned then s.adminDone f cid 0 0x0C
    else if !n.ok s then s.adminDone f cid 0 0x02
    else match ((List.range 16384).map (· + 1)).find? (fun i => s.nsState i == 0), nsPlace s none n, s.freeMekSlot, ruhPlace s n.fdp with
      | none, _, _, _ => s.adminDone f cid 1 0x16
      | _, .error e, _, _ => s.nsRefuse f cid e
      | _, _, none, _ => s.adminDone f cid 1 0x15
      | _, _, _, none => s.adminDone f cid 0 0x02
      | some ns, .ok base, some slot, some ruh =>
        let s := if n.lbaf = 3 then s.newZones ns base n else s.clearLines base ((n.size + (match n.lbaf with | 1 => 4 | 2 => 8 | _ => 1) - 1) /
          (match n.lbaf with | 1 => 4 | 2 => 8 | _ => 1))
        let s := (s.putNs ns base n (some slot) ruh).newMek slot
        s.spareEval.adminDone f cid 0 0 (BitVec.ofNat 32 ns))

/-- NAMESPACE_DELETE (R235, R386): 0xFFFFFFFF names every namespace. -/
def execNamespaceDelete (f : BitVec 12) (cid : BitVec 16) (nsid : Word) (s : State) : Res :=
  let f := f.toNat
  let ns := nsid.toNat
  done (s.pfOnly f cid fun s =>
    if ns = 0xFFFFFFFF then (s.each s.nsids (·.deleteNs ·)).ok f cid
    else if s.nsState ns = 0 then s.adminDone f cid 0 0x0B
    else (s.deleteNs ns).ok f cid)

/-- NAMESPACE_ATTACHMENT (R151): to or from each controller of the list, all or none. -/
def execNamespaceAttachment (f : BitVec 12) (cid : BitVec 16) (nsid : Word) (attach : Bool) (ctrls : List (BitVec 12)) (s : State) : Res :=
  let f := f.toNat
  let ns := nsid.toNat
  let l := ctrls.map (·.toNat)
  done (s.pfOnly f cid fun s =>
    if s.nsState ns = 0 then s.adminDone f cid 0 0x0B
    else if l.isEmpty then s.adminDone f cid 1 0x1C
    else if attach && l.any (fun g => (s.func g).attached.contains ns) then s.adminDone f cid 1 0x18
    else if !attach && l.any (fun g => !(s.func g).attached.contains ns) then s.adminDone f cid 1 0x1A
    else (s.each l fun s g =>
      let a := (s.func g).attached.filter (· != ns)
      let s := s.setFunc g { s.func g with attached := if attach then ns :: a else a }
      s.when ((s.func g).rdy) (·.aen g 2 0)).ok f cid)

/-- A namespace takes another format of the same command set: its own range is freed and placed anew (R225, R228, R235). -/
def State.reformat (s : State) (ns lbaf : Nat) : Except (Nat × Nat × Bool) State :=
  let old := nsSpec s ns
  let size := if old.lbaf = 2 then (if lbaf = 2 then old.size else old.size / 8) else if lbaf = 2 then old.size * 8 else old.size
  let n : NsSpec := { old with size := size, lbaf := lbaf }
  match nsPlace s (some ns) n with
  | .error e => .error e
  | .ok base =>
    let s := s.clearNs ns false
    .ok ((s.putNs ns base n (s.nsKeySlot ns) (s.nsRuhBase ns)).clearNs ns false)

/-- Format one namespace: the map is cleared, and with SES 1 or 2 its MEK, and those of its ranges, are replaced (R235, R386). -/
def State.formatOne (s : State) (ns lbaf ses : Nat) : Except (Nat × Nat × Bool) State :=
  let cleared := if s.nsLbaf ns = lbaf then .ok (s.clearNs ns false) else s.reformat ns lbaf
  match cleared with
  | .error e => .error e
  | .ok s =>
    let slots := (match s.nsKeySlot ns with | some k => [k] | none => []) ++ (s.opalRanges ns).map fun (x : Nat × OpalRange) => x.2.slot
    .ok (s.when (ses != 0) fun s => s.each slots fun s k => if s.mekSlots.contains k then s.newMek k (s.slotKey k).isSome else s)

/-- FORMAT_NVM (R151, R228, R235, R386): 0xFFFFFFFF names every namespace. A change between conventional and zoned has no parameters to work
from and is Invalid Format. -/
def execFormatNvm (f : BitVec 12) (cid : BitVec 16) (nsid : Word) (lbaf : BitVec 4) (ses : BitVec 3) (s : State) : Res :=
  let f := f.toNat
  let l := if nsid = 0xFFFFFFFF then s.nsids else [nsid.toNat]
  done (s.pfOnly f cid fun s =>
    if l.any fun n => s.nsState n == 0 then s.adminDone f cid 0 0x0B
    else if 2 < ses.toNat then s.adminDone f cid 0 0x02
    else if 3 < lbaf.toNat || l.any (fun n => s.nsZoned n != decide (lbaf.toNat = 3)) then s.adminDone f cid 1 0x0A
    else
      let r := l.foldl (fun (acc : Except (Nat × Nat × Bool) State) n => match acc with
        | .ok s => s.formatOne n lbaf.toNat ses.toNat
        | .error e => .error e) (.ok (s.stEnd 4))
      match r with
      | .ok s => s.spareEval.ok f cid
      | .error e => s.nsRefuse f cid e)

/-- SANITIZE_CRYPTO_ERASE (R149, R386). -/
def execSanitizeCryptoErase (f : BitVec 12) (cid : BitVec 16) (s : State) : Res :=
  let f := f.toNat
  done (s.pfOnly f cid fun s => s.sanitize.ok f cid)

/-- SANITIZE_BLOCK_ERASE (R149, R386): it erases the media too. -/
def execSanitizeBlockErase (f : BitVec 12) (cid : BitVec 16) (s : State) : Res :=
  let f := f.toNat
  done (s.pfOnly f cid fun s => s.sanitize.eraseMedia.ok f cid)

/-! ### Firmware (R151, R173, R390, R434) -/

/-- Firmware slot of a command: 1 slot A, 2 slot B, 0 the one that does not run. -/
def fwSlotOf (s : State) (slot : Nat) : Option Bool := match slot with | 0 => some (!s.boot.slot) | 1 => some false | 2 => some true | _ => none

/-- FIRMWARE_IMAGE_DOWNLOAD (R151, R434): the image reaches the slot that the running image does not occupy. -/
def execFirmwareImageDownload (f : BitVec 12) (cid : BitVec 16) (slot : Bool) (img : Image) (s : State) : Res :=
  let f := f.toNat
  done (if f ≠ 0 then s.adminDone f cid 0 0x01
    else if slot = s.boot.slot then s.adminDone f cid 0 0x02
    else { s with boot := if slot then { s.boot with slotB := img } else { s.boot with slotA := img } }.ok f cid)

/-- FIRMWARE_COMMIT_NEXT_RESET (R149, R173, R434): action 000b leaves the selector as it is; 001b and 010b write it. -/
def execFirmwareCommitNextReset (f : BitVec 12) (cid : BitVec 16) (action : BitVec 3) (slot : BitVec 3) (s : State) : Res :=
  let f := f.toNat
  done (if f ≠ 0 then s.adminDone f cid 0 0x01
    else match fwSlotOf s slot.toNat with
      | none => s.adminDone f cid 0 0x02
      | some b =>
        if 3 ≤ action.toNat then s.adminDone f cid 0 0x02
        else if action = 0 then s.ok f cid
        else (s.writeSelector b).ok f cid)

/-- ACTIVATION_WITHOUT_RESET (R153, R173, R390): steps 1 and 2; the drain, the record and the switch follow. The image must verify with an SVN
not below the fuses', and its bundle must be one that starts without a reset (FLAGS[0] = 1). -/
def execActivationWithoutReset (f : BitVec 12) (cid : BitVec 16) (slot : BitVec 3) (s : State) : Res :=
  let f := f.toNat
  done (if f ≠ 0 then s.adminDone f cid 0 0x01
    else match fwSlotOf s slot.toNat with
      | none => s.adminDone f cid 0 0x02
      | some b =>
        let img := s.slotImage b
        if s.host.fwCommit.isSome || s.secHalted || imageCode s img (s.fld F.BOOT_ROM_REV.ROM_REV) ≠ 0 then s.adminDone f cid 1 0x13
        else if !img.bundle.flags.getLsbD 0 then s.adminDone f cid 1 0x0B
        else
          let s := { s with
            host := { s.host with fwCommit := some (f, cid), fwSlot := b, fwRecorded := false, stopAll := true }
            zyn := { s.zyn with next := some img.bundle, held := false } }
          s.fwEval)

/-! ### Virtualization (R142, R178, R179) -/

/-- Queue pairs and vectors of a port (R142). -/
def portTotal (s : State) (vi : Bool) : Nat := if vi then (if s.x4x4 then 32768 else 65536) else (if s.x4x4 then 8192 else 16384)
/-- Resources of a port that functions other than one hold: each of its functions has at least one (R178). -/
def heldOthers (s : State) (vi : Bool) (g : Nat) : Nat :=
  let listed := s.funcList.filter fun k => pfOf s k == pfOf s g && k != g
  (listed.map (held s vi)).sum + ((if s.x4x4 then 2047 else 4095) - listed.length)
def State.setHeld (s : State) (vi : Bool) (g n : Nat) : State :=
  s.setFunc g (if vi then { s.func g with vi := n } else { s.func g with vq := n })

/-- SECONDARY_ONLINE (R179). -/
def execSecondaryOnline (f : BitVec 12) (cid : BitVec 16) (fn : BitVec 12) (s : State) : Res :=
  let f := f.toNat
  let g := fn.toNat
  done (s.pfOnly f cid fun s =>
    if s.isPf g || s.tenState g = 0 then s.adminDone f cid 0 0x02
    else
      let s := s.setFunc g { s.func g with online := true }
      let s := s.when (s.tenState g == 1) fun s => s.tjrn 5 g 0 (setBits (s.tenWord g 0) 0 2 2)
      s.readyEval.ok f cid)

/-- SECONDARY_OFFLINE (R179): the controller is reset, and an ONLINE record goes OFFLINE. -/
def execSecondaryOffline (f : BitVec 12) (cid : BitVec 16) (fn : BitVec 12) (s : State) : Res :=
  let f := f.toNat
  let g := fn.toNat
  done (s.pfOnly f cid fun s =>
    if s.isPf g then s.adminDone f cid 0 0x02
    else
      let s := s.setFunc g { s.func g with online := false }
      let s := if (s.func g).en && !(s.func g).resetting then s.controllerReset g true else s
      let s := s.when (s.tenState g == 2) fun s => s.tjrn 5 g 0 (setBits (s.tenWord g 0) 0 2 1)
      s.readyEval.ok f cid)

/-- PRIMARY_FLEXIBLE_ALLOCATION (R178): resources the primary keeps; `vi`: vectors. -/
def execPrimaryFlexibleAllocation (f : BitVec 12) (cid : BitVec 16) (vi : Bool) (n : BitVec 16) (s : State) : Res :=
  let f := f.toNat
  done (s.pfOnly f cid fun s =>
    if portTotal s vi < heldOthers s vi f + n.toNat then s.adminDone f cid 0 0x02
    else (s.setHeld vi f n.toNat).adminDone f cid 0 0 (n.setWidth 32))

/-- SECONDARY_ASSIGN (R178): resources beside the one of the admin queue; at most 1 024 I/O queue pairs and 2 048 vectors for a VF. -/
def execSecondaryAssign (f : BitVec 12) (cid : BitVec 16) (fn : BitVec 12) (vi : Bool) (n : BitVec 16) (s : State) : Res :=
  let f := f.toNat
  let g := fn.toNat
  done (s.pfOnly f cid fun s =>
    if s.isPf g || (if vi then 2047 else 1024) < n.toNat || portTotal s vi < heldOthers s vi g + n.toNat + 1 then s.adminDone f cid 0 0x02
    else if (s.func g).online then s.adminDone f cid 1 0x20
    else (s.setHeld vi g (n.toNat + 1)).adminDone f cid 0 0 (n.setWidth 32))

/-! ### NVMe-MI in band (R151, R412) -/

/-- NVME_MI_SEND: the message wakes the device as one of MCTP does; its result is the management interface's. -/
def execNvmeMiSend (f : BitVec 12) (cid : BitVec 16) (msg : List Byte) (s : State) : Res :=
  let f := f.toNat
  done (s.pfOnly f cid fun s =>
    let s := s.wakeAdmin
    let (k, s) := s.draw
    (s.emit (.mctp (Config.bytes 0x1D (msg.map (·.toNat))))).adminDone f cid 0 0 (BitVec.ofNat 32 k))

/-- NVME_MI_RECEIVE. -/
def execNvmeMiReceive (f : BitVec 12) (cid : BitVec 16) (msg : List Byte) (s : State) : Res :=
  let f := f.toNat
  done (s.pfOnly f cid fun s =>
    let (k, s) := s.draw
    (s.emit (.bytes f cid (Config.bytes 0x1E (k :: msg.map (·.toNat))))).adminDone f cid 0 0)

end Sys2Proof.Machine
end

