-- ==== Sys2Proof/Machine/Dispatching.lean ====
section
/-! DEFINITION. Dispatch of activations, wait limits and budgets (R70, R73, R82, R88, R96, R98, R102, R261). -/
namespace Sys2Proof.Machine

/-- Each Sequencer latches the microprogram table when INIT is dispatched (R261). -/
def State.latchUprog (s : State) : State :=
  let e : List (Nat × Word64) := (List.range 256).map fun k => (k, s.tabGet 7 (0x100 + k) 0)
  { s with zyn := { s.zyn with uprog := (List.range 32).foldl (fun m c => e.foldl (fun m (k, v) => sputD 0 (c * 256 + k) v m) m) [] } }

/-- A dispatch that finds no IDLE context wakes an ASLEEP one (R73, R417); where the engine's clocks were stopped, that is its power wake
(event 28, R86: DESIGN CHOICE, the spec does not say which contexts see the event). -/
def State.wakeOne (s : State) (cls : EngClass) (eng : Nat) : State :=
  match (List.range 8).find? fun k => decide ((s.ctx ⟨cls, eng, k⟩).st = .asleep) with
  | some k => s.modCtx ⟨cls, eng, k⟩ fun c => if 1 ≤ c.pwrMode.toNat then c.event 28 else { c with st := .ready }
  | none => s

/-- ACTIVATION_DISPATCH (R73): an engine takes its next request. A restored engine runs RESTORE first, and nothing else until it has ended
(R76); POL0 takes a queued fault record into context 7 first; while dispatch is held only PREPARE goes (R96). -/
def execActivationDispatch (part : BitVec 6) (s : State) : Res :=
  let p := part.toNat
  if !s.zynRuns || decide (60 ≤ p) || !s.powered (partDom p) then done s
  else
    let (cls, eng) := partEngine p
    if s.zyn.restore.contains p then done (if s.zyn.held then s else s.startRestore cls eng)
    else if (List.range 8).any fun k => (s.ctx ⟨cls, eng, k⟩).kind == 0x1F && decide ((s.ctx ⟨cls, eng, k⟩).st ≠ .idle) then done s
    else if p = 56 && !s.zyn.held && !s.zyn.faultQ.isEmpty && decide ((s.ctx ⟨.pol, 0, 7⟩).st = .idle) then done s.startFault
    else
      match (s.queue p).find? (notHeld s) with
      | none => done s
      | some r =>
        if (s.idleCtx cls eng).isNone then done (s.wakeOne cls eng)
        else done ((s.startNext cls eng).when (cls == .pol && r.kind == 9) (·.latchUprog))

/-- A CQPOST that waits for a CQ entry is given up with its context. -/
def State.dropWait (s : State) (w : Wait) (cmd : Option Nat) : State :=
  match w, cmd with
  | .cq _ _ _ _, some x => s.modCmd x fun m => { m with cqWait := none }
  | _, _ => s

/-- Wait limit of a class in ns (R88): values below 100 µs act as 100 µs. -/
def waitLimit (s : State) (c : EngClass) : Nat :=
  1000 * max 100 (s.fld (match c with
    | .cmd => F.ZYN_WAIT_LIMIT_CMD.LIMIT_US | .map => F.ZYN_WAIT_LIMIT_MAP.LIMIT_US
    | .seq => F.ZYN_WAIT_LIMIT_SEQ.LIMIT_US | .pol => F.ZYN_WAIT_LIMIT_POL.LIMIT_US))

/-- WAIT_LIMIT (R88): the wait of a blocked context reaches its class's limit and the context traps, but for one that waits on a line under
rebuild. -/
def execWaitLimit (i : CtxId) (s : State) : Res :=
  if !i.valid then noUnit
  else
    let c := s.ctx i
    match c.st with
    | .blocked (.rebuild _ _ _ _) => done s
    | .blocked w =>
      match s.reach (c.since + waitLimit s i.cls) with
      | none => done s
      | some s => done ((s.dropWait w c.cmd).trap i cWaitLimit c.last)
    | _ => done s

/-- BUDGET_TRAP (R98): `extra` further engine clocks are counted while the context is stalled in issue; at BUDGET it traps, with the PC of
the instruction issued last. Clocks spent BLOCKED or ASLEEP are not counted. -/
def execBudgetTrap (i : CtxId) (extra : BitVec 32) (s : State) : Res :=
  if !i.valid then noUnit
  else
    let c := s.ctx i
    match c.st with
    | .ready =>
      let s := s.setCtx i { c with used := c.used + extra.toNat }
      done (if c.budget ≤ c.used + extra.toNat then s.trap i cBudget c.last else s)
    | .blocked w => done (if c.budget ≤ c.used then (s.dropWait w c.cmd).trap i cBudget c.last else s)
    | .asleep => done (if c.budget ≤ c.used then s.trap i cBudget c.last else s)
    | _ => done s

end Sys2Proof.Machine
end

