-- ==== Sys2Proof/Machine/Dram.lean ====
section
/-! DEFINITION. DRAM controller: address decode, refresh, row protection, scheduling, power-down, self-refresh, errors (12_dram.md). -/
namespace Sys2Proof.Machine

/-- The DMC issues commands of its own: trained, and not in self-refresh (R353). -/
def dmcAwake (s : State) : Bool := s.fld F.DMC_STATUS.STATE != 0 && s.fld F.DMC_STATUS.STATE != 1 && s.fld F.DMC_STATUS.STATE != 5

/-- PD bit of a rank: 2 × channel + rank (DMC_STATUS). -/
def State.setPd (s : State) (k : Nat) (b : Bool) : State :=
  let v := s.fld F.DMC_STATUS.PD
  s.setFld F.DMC_STATUS.PD (if b then v ||| 2 ^ k else v - v / 2 ^ k % 2 * 2 ^ k)

/-- Where a DRAM address lies (R346). -/
structure DramLoc where
  ch : Nat
  sc : Nat
  rank : Nat
  bg : Nat
  ba : Nat
  row : Nat
  col : Nat
deriving DecidableEq, Repr

/-- Rows of a bank (R342). -/
def rowsPerBank (s : State) : Nat := if s.flag F.DMC_CFG.DENSITY then 98304 else 65536

/-- Decode of a DRAM physical address (R346). -/
def dramLoc (s : State) (a : Nat) : DramLoc :=
  let f := if s.flag F.DMC_CFG.POP then 0 else 1
  let off := a / 2 ^ (7 + f)
  let rest := off / 2 ^ 12
  let upper := s.flag F.DMC_CFG.RANKS && decide (rowsPerBank s ≤ rest)
  let row := if upper then rest - rowsPerBank s else rest
  { ch := Nat.xor (Nat.xor (a / 64 % 2) (row % 2)) (row / 16 % 2), sc := if f = 1 then a / 128 % 2 else 0, rank := if upper then 1 else 0
    bg := Nat.xor (off / 4 % 8) (row % 8), ba := Nat.xor (off / 32 % 4) (row / 8 % 4), row := row, col := off / 128 % 32 * 64 + off % 4 * 16 }

/-- Subchannel: 2 × channel + subchannel. Bank number: subchannel [8:7], rank [6], bank group [4:2], bank [1:0]; its row; and its rank's PD index. -/
def DramLoc.sub (l : DramLoc) : Nat := 2 * l.ch + l.sc
def DramLoc.bank (l : DramLoc) : Nat := l.sub * 128 + l.rank * 64 + l.bg * 4 + l.ba
def DramLoc.key (l : DramLoc) : Nat := l.bank * 2 ^ 17 + l.row
def bankPd (bank : Nat) : Nat := bank / 256 * 2 + bank / 64 % 2

/-- The address lies within the populated DRAM (R345): another one is never issued. -/
def dramHas (s : State) (a : Nat) : Bool := decide (a < s.fld F.DMC_CFG.CAP_GIB * 2 ^ 30)

/-- Urgency of a queued request: its age against its port's target (R351). -/
def urgency (s : State) (q : DramQ) : Nat :=
  let t := max 100 (s.fld (F.DMC_PORT_QOS.TARGET_NS.ix q.req.port.toNat))
  let age := s.ttu.elapsed - q.since
  if 2 * t ≤ age then 3 else if t ≤ age then 2 else if t ≤ 2 * age then 1 else 0

/-- Doubled bound of R355 ends 32 ms after the tracker state was lost. -/
def State.trackerTick (s : State) : State :=
  match s.dmc.trackerUntil with
  | some t => if t ≤ s.ttu.elapsed then { s with dmc := { s.dmc with trackerUntil := none } }.clear F.DMC_STATUS.TRACKER_RESET else s
  | none => s

/-- REFRESH (R353, R354): a same-bank refresh is due, which closes the bank's row. It may be postponed, at most 4 times, while requests of a
higher urgency wait on its subchannel, and is then made up; the end of a full refresh cycle clears the bank's activation counts. -/
def execRefresh (bank : BitVec 9) (postpone fullCycle : Bool) (s : State) : Res :=
  if !dmcAwake s then done s
  else
    let b := bank.toNat
    let p := sgetD 0 b s.dmc.postponed
    let s := s.trackerTick
    let urgent := (sgetD [] (b / 128) s.dmc.rq ++ sgetD [] (b / 128) s.dmc.wq).any fun q => decide (0 < urgency s q)
    if postpone && urgent && decide (p < 4) then done { s with dmc := { s.dmc with postponed := sput b (p + 1) s.dmc.postponed } }
    else
      let s := (s.setPd (bankPd b) false)
      let s := { s with dmc := { s.dmc with postponed := sputD 0 b 0 s.dmc.postponed, openRow := sdel b s.dmc.openRow } }
      done (if fullCycle then { s with dmc := { s.dmc with acts := s.dmc.acts.filter fun (k, _) => k / 2 ^ 17 != b } } else s)

/-- MR4_READ (R353): tREFI follows the rate that MR4 of the components names, read as `refi` ns. -/
def execMr4Read (refi : BitVec 14) (s : State) : Res :=
  if !dmcAwake s then done s else done { s with dmc := { s.dmc with refi := refi.toNat } }

/-- A row has been activated `n` more times: at THRESH its neighbours are refreshed and its count is cleared (R354). Values of THRESH below 256
act as 256. -/
def State.activate (s : State) (l : DramLoc) (n : Nat) : State :=
  let c := sgetD 0 l.key s.dmc.acts + n
  let s := s.setPd (bankPd l.bank) false
  if max 256 (s.fld F.DMC_RP_CFG.THRESH) ≤ c then
    { s with dmc := { s.dmc with acts := sputD 0 l.key 0 s.dmc.acts } }.count F.DMC_RP_CNT.COUNT
  else { s with dmc := { s.dmc with acts := sputD 0 l.key c s.dmc.acts } }

/-- ROW_PROTECTION_MITIGATION (R354): the row of an address has been activated `n` more times; an address beyond the capacity is never issued.
`rfm`: the component's mode registers require an RFM of the bank now, a mitigation of its own. -/
def execRowProtectionMitigation (addr : BitVec 37) (n : BitVec 14) (rfm : Bool) (s : State) : Res :=
  if !dmcAwake s || !dramHas s addr.toNat then done s
  else done ((s.activate (dramLoc s addr.toNat) n.toNat).when rfm (·.count F.DMC_RP_CNT.COUNT))

/-! ### Queues and the scheduler of a subchannel (R347 to R351) -/

/-- The 64 B unit of a request. -/
def dramUnit (r : DramReq) : Nat := r.addr.toNat / 64

/-- Longest service time of a port (R352): up to a write's acceptance or a read's issue (DESIGN CHOICE: the time of the DRAM access itself is left out). -/
def State.latMax (s : State) (p ns : Nat) : State :=
  s.setFld (F.DMC_PORT_LATMAX.MAX_NS.ix p) (max (s.fld (F.DMC_PORT_LATMAX.MAX_NS.ix p)) (min 0xFFFFF ns))

/-- A request leaves its port for the queue of its subchannel, if that has room (R348, R349): a read of a unit with a queued write is answered from
the queue; a full write replaces queued ones of its unit. -/
def State.dramAccept (s : State) (r : DramReq) : State :=
  let a := r.addr.toNat
  let k := (dramLoc s a).sub
  let rq := sgetD [] k s.dmc.rq
  let wq := sgetD [] k s.dmc.wq
  let q : DramQ := { req := r, since := s.ttu.elapsed - r.ageNs.toNat }
  if !dramHas s a then s
  else if r.write then
    let rest := if r.masked then wq else wq.filter fun x => dramUnit x.req != dramUnit r
    if rest.length < 64 then
      ({ s with dmc := { s.dmc with wq := sput k (rest ++ [q]) s.dmc.wq } }).latMax r.port.toNat r.ageNs.toNat
    else s
  else if wq.any fun x => dramUnit x.req == dramUnit r then s.latMax r.port.toNat r.ageNs.toNat
  else if rq.length < 64 then { s with dmc := { s.dmc with rq := sput k (rq ++ [q]) s.dmc.rq } }
  else s

/-- A write batch is over (R349, R351): the queue has fallen to its target, a read has come after 8 writes of one begun for lack of reads, or a read
of urgency 3 waits. -/
def batchOver (s : State) (k : Nat) (b : WBatch) : Bool :=
  let rq := sgetD [] k s.dmc.rq
  decide ((sgetD [] k s.dmc.wq).length ≤ b.target) || (b.lack && !rq.isEmpty && decide (8 ≤ b.issued)) || rq.any fun q => urgency s q == 3

/-- WBATCH shows whether some subchannel is in a write batch. -/
def State.setBatches (s : State) (l : Sparse WBatch) : State := { s with dmc := { s.dmc with batches := l } }.setBit F.DMC_STATUS.WBATCH (!l.isEmpty)
def State.batchEnd (s : State) (k : Nat) : State :=
  match sget k s.dmc.batches with
  | some b => if batchOver s k b then s.setBatches (sdel k s.dmc.batches) else s
  | none => s

/-- A write batch begins: on the watermark, for lack of reads, or by age (R349). One that begins at or below WR_LO empties the queue (DESIGN CHOICE). -/
def State.batchBegin (s : State) (k : Nat) : State :=
  let wq := sgetD [] k s.dmc.wq
  let hi := max 2 (s.fld F.DMC_WQ.WR_HI)
  let lo := min (s.fld F.DMC_WQ.WR_LO) (hi - 1)
  let lack := (sgetD [] k s.dmc.rq).isEmpty && !wq.isEmpty
  let old := wq.any fun q => decide (max 1 (s.fld F.DMC_WQ.WR_AGE_US) * 1000 ≤ s.ttu.elapsed - q.since)
  let full := decide (hi ≤ wq.length)
  let b : WBatch := { lack := lack && !full && !old, target := if lo < wq.length then lo else 0 }
  if full || lack || old then s.setBatches (sput k b s.dmc.batches) else s

/-- The entries of a list with the highest value. -/
def best (f : DramQ → Nat) (l : List DramQ) : List DramQ :=
  let m := l.foldl (fun m q => max m (f q)) 0
  l.filter fun q => f q == m

/-- Queued requests that may issue: of the writes to one unit only the first accepted (R348). -/
def issuable (s : State) (k : Nat) : List DramQ :=
  let first (l : List DramQ) : List DramQ := l.foldl (fun acc q => if acc.any fun x => dramUnit x.req == dramUnit q.req then acc else acc ++ [q]) []
  sgetD [] k s.dmc.rq ++ first (sgetD [] k s.dmc.wq)

/-- The row of a request is open in its bank. -/
def rowHit (s : State) (q : DramQ) : Bool := let l := dramLoc s q.req.addr.toNat; sget l.bank s.dmc.openRow == some l.row

/-- Port whose turn it is among those of a list, with what is left of its weight (R351): the port in turn while its weight lasts, else the next one. -/
def turnOf (s : State) (k : Nat) (l : List DramQ) : Option (Nat × Nat) :=
  let (p, left) := sgetD (7, 0) k s.dmc.turn
  let asks (p : Nat) : Bool := l.any fun q => q.req.port.toNat == p
  if left ≠ 0 && asks p then some (p, left)
  else (((List.range 8).map fun j => (p + 1 + j) % 8).find? asks).map fun n => (n, max 1 (s.fld (F.DMC_PORT_QOS.WEIGHT.ix n)))

/-- The request that a subchannel's scheduler chooses in a command slot, with the turn left (R351): highest urgency, the direction of the mode, row
hit, weighted round robin, oldest first. The SCRUB port is served at least once in 8 192 slots; one slot a network clock (DESIGN CHOICE). -/
def dramPick (s : State) (k : Nat) : Option (DramQ × Nat × Nat) :=
  let all := issuable s k
  let mode := (sget k s.dmc.batches).isSome
  match (if 8191 ≤ sgetD 0 k s.dmc.scrubAge then all.find? fun q => q.req.port.toNat == 6 else none) with
  | some q => some (q, sgetD (7, 0) k s.dmc.turn)
  | none =>
    let l := best (urgency s) all
    let l := best (fun q => if q.req.write == mode then 1 else 0) l
    let l := best (fun q => if rowHit s q then 1 else 0) l
    match turnOf s k l with
    | none => none
    | some (p, left) =>
      let mine := l.filter fun q => q.req.port.toNat == p
      (mine.find? fun q => mine.all fun x => decide (q.since ≤ x.since)).map fun q => (q, p, left - 1)

/-- Issue a request: it leaves its queue, its row is opened, and a masked write's read and write stay together (R347). -/
def State.dramIssue (s : State) (k : Nat) (q : DramQ) (turn : Nat × Nat) : State :=
  let l := dramLoc s q.req.addr.toNat
  let s := if rowHit s q then s.setPd (bankPd l.bank) false
    else { s.activate l 1 with dmc := { (s.activate l 1).dmc with openRow := sput l.bank l.row s.dmc.openRow } }
  let s := { s with dmc := { s.dmc with
    wq := if q.req.write then sputD [] k ((sgetD [] k s.dmc.wq).erase q) s.dmc.wq else s.dmc.wq
    rq := if q.req.write then s.dmc.rq else sputD [] k ((sgetD [] k s.dmc.rq).erase q) s.dmc.rq
    turn := sput k turn s.dmc.turn
    scrubAge := sputD 0 k (if q.req.port.toNat = 6 then 0 else sgetD 0 k s.dmc.scrubAge + 1) s.dmc.scrubAge
    batches := match sget k s.dmc.batches with
      | some b => if q.req.write then sput k { b with issued := b.issued + 1 } s.dmc.batches else s.dmc.batches
      | none => s.dmc.batches } }
  s.when (!q.req.write) (·.latMax q.req.port.toNat (s.ttu.elapsed - q.since))

/-- One command slot of a subchannel (R349, R351). -/
def State.dramSlot (s : State) (k : Nat) : State :=
  let s := if (sget k s.dmc.batches).isSome then s.batchEnd k else s.batchBegin k
  match dramPick s k with
  | none => { s with dmc := { s.dmc with scrubAge := sput k (sgetD 0 k s.dmc.scrubAge + 1) s.dmc.scrubAge } }
  | some (q, turn) => (s.dramIssue k q turn).batchEnd k

/-- Requests of one cycle leave their ports, lower port numbers first (R348), and a subchannel works through command slots (R349, R351). -/
def State.dramCycle (s : State) (sub : Nat) (reqs : List DramReq) (slots : Nat) : State :=
  (s.each ((List.range 8).flatMap fun p => reqs.filter fun r => r.port.toNat == p) (·.dramAccept ·)).each (List.range slots)
    fun s _ => s.dramSlot sub

/-- WRITE_BATCH (R348, R349, R351): requests of one cycle leave their ports, lower port numbers first, and a subchannel works through command slots:
it goes in and out of write batches, and each slot issues the request its scheduler chooses. `late` are requests that
arrive once the first `slots` slots have passed, as a read does during a batch (R349); `more` slots follow. -/
def execWriteBatch (sub : BitVec 2) (reqs : List DramReq) (slots : BitVec 8) (late : List DramReq) (more : BitVec 8) (s : State) : Res :=
  if s.fld F.DMC_STATUS.STATE ≠ 2 then done s
  else done ((s.dramCycle sub.toNat reqs slots.toNat).dramCycle sub.toNat late more.toNat)

/-- A request to a rank waits in a queue. -/
def rankAsked (s : State) (ch rank : Bool) : Bool :=
  (s.dmc.rq ++ s.dmc.wq).any fun (_, l) => l.any fun q => let x := dramLoc s q.req.addr.toNat; x.ch == (if ch then 1 else 0) && x.rank == (if rank then 1 else 0)

/-- POWER_DOWN_ENTRY (R356): a rank with no queued request, idle for PD_IDLE_NS, enters power-down, unless a refresh or a mitigation is due; 0 disables it. -/
def execPowerDownEntry (ch rank : Bool) (idleNs : BitVec 16) (due : Bool) (s : State) : Res :=
  let t := s.fld F.DMC_PWR.PD_IDLE_NS
  if s.fld F.DMC_STATUS.STATE = 2 && decide (t ≠ 0) && decide (t ≤ idleNs.toNat) && !due && !rankAsked s ch rank then
    done (s.setPd ((if ch then 2 else 0) + (if rank then 1 else 0)) true)
  else done s

/-- SELF_REFRESH_ENTRY (R357): by the withdrawal of the last vote, or by the idle timer. Queues drain and rows are closed; a request that comes
before SRE is issued abandons the entry. -/
def execSelfRefreshEntry (timer request : Bool) (s : State) : Res :=
  let go := if timer then s.fld F.DMC_PWR.SR_IDLE_US != 0 else !voted s 8
  if s.dmc.sr = .active && s.fld F.DMC_STATUS.STATE = 2 && go then
    let s := { s with dmc := { s.dmc with wq := [], rq := [], batches := [], openRow := [] } }.clear F.DMC_STATUS.WBATCH
    if request then done (s.raise F.DMC_EVT.SR_ABANDON)
    else done ((({ s with dmc := { s.dmc with sr := .selfRefresh, residency := false, waiting := false } }).setFld F.DMC_STATUS.STATE 5).setFld F.DMC_STATUS.PD 0)
  else done s

/-- MINIMUM_RESIDENCY_ELAPSED (R357, R358): with a request or vote waiting, the exit is issued. -/
def execMinimumResidencyElapsed (request : Bool) (s : State) : Res :=
  if s.dmc.sr = .selfRefresh then
    let s := { s with dmc := { s.dmc with residency := true } }
    done (if request || s.dmc.waiting || voted s 8 then s.dmcWake else s)
  else done s

/-- SELF_REFRESH_EXIT (R357): tXS has passed since the exit; waiting requests are served, then ZQ calibration. -/
def execSelfRefreshExit (s : State) : Res :=
  if s.dmc.sr = .exit then
    done ({ s with dmc := { s.dmc with sr := .active, residency := false, waiting := false, zqDone := s.dmc.zqDone + 1 } }.setFld F.DMC_STATUS.STATE 2)
  else done s

/-- A bus error reaches the requester of a DRAM read: a context that waits on a table, or the command whose pool data it was
(R15, R101, R361). -/
def State.dramError (s : State) (ctx : Option CtxId) (cmd : Option Nat) (addr : Nat) : State :=
  let s := match ctx with
    | some i => (match (s.ctx i).st with
      | .blocked (.table _ _ _ _) => s.busError i (s.ctx i).last (BitVec.ofNat 64 addr)
      | _ => s)
    | none => s
  match cmd with | some c => s.finish c 0 0x06 | none => s

/-- DRAM_CAPTURE (R361, R362, R364): an uncorrectable read on request. In freeze mode the DMC freezes; within the quiet time after a
capture the bus error comes at once; otherwise the capture writes its diagnostic record. `second`: another uncorrectable read
during the capture. The content is then handled by its location (R327). -/
def execDramCapture (addr : BitVec 37) (loc : StoreLoc) (poison : Bool) (ctx : Option CtxId) (cmd : Option (BitVec 17)) (second : Bool) (s : State) : Res :=
  if (match ctx with | some i => !i.valid | none => false) then noUnit
  else if !dmcAwake s then done s
  else
    let cls := if poison then 3 else 1
    let s := (s.count F.DMC_UE_CNT.COUNT (if second then 2 else 1)).raise F.DMC_EVT.UE
    let err (s : State) : State := s.dramError ctx (cmd.map (·.toNat)) addr.toNat
    if s.flag F.DMC_CTRL.ERR_MODE || s.fld F.DMC_STATUS.STATE = 4 then
      done (err ((s.uncorrected loc.store cls 0 addr.toNat).dmcFreeze addr.toNat)).dmcLoopFail
    else
      let quiet := match s.dmc.capEnd with
        | some t => decide (s.ttu.elapsed < t + s.fld F.DMC_ERR_CFG.CAP_QUIET_US * 1000)
        | none => false
      let s := if quiet then s
        else
          let s := (s.raise F.DMC_EVT.CAPTURE).entry 0x16 sevFault
          let s := (s.diag 0x16 (addr.setWidth 64)).setPair R.DMC_CAP_ADDR_LO addr.toNat
          { s with dmc := { s.dmc with capEnd := some s.ttu.elapsed } }
      let s := s.when second (·.eccLog loc.store 1 0 0 addr.toNat)
      done ((err (s.badWord loc cls)).when (!quiet) (·.dmcLoopFail))

/-- ALERT_N (R363, R364): with write CRC on, the writes of the last 40 ns are reissued; a second alert within 1 µs freezes the DMC. -/
def execAlertN (_sub : BitVec 2) (s : State) : Res :=
  if !s.flag F.DMC_CTRL.WCRC_EN || s.fld F.DMC_STATUS.STATE ≠ 2 then done s
  else
    let again := match s.dmc.reissue with | some t => decide (s.ttu.elapsed ≤ t + 1000) | none => false
    if again then done (s.dmcFreeze 0).dmcLoopFail
    else done ({ s with dmc := { s.dmc with reissue := some s.ttu.elapsed } }.raise F.DMC_EVT.ALERT_RETRY)

/-- ZQ_CALIBRATION (R366). -/
def execZqCalibration (s : State) : Res :=
  if dmcAwake s then done { s with dmc := { s.dmc with zqDone := s.dmc.zqDone + 1 } } else done s

/-- DQS_OSCILLATOR_MEASUREMENT (R366): the delays of a rank of a subchannel are updated. -/
def execDqsOscillatorMeasurement (sub : BitVec 2) (rank : Bool) (s : State) : Res :=
  let k := sub.toNat * 2 + (if rank then 1 else 0)
  if dmcAwake s then done { s with dmc := { s.dmc with oscDone := sput k (sgetD 0 k s.dmc.oscDone + 1) s.dmc.oscDone } } else done s

end Sys2Proof.Machine
end

