-- ==== Sys2Proof/Machine/Durability.lean ====
section
/-! DEFINITION. Batch sealing, and the events of the flush path (R294, R310 to R314). -/
namespace Sys2Proof.Machine

/-- BATCH_SEAL: the seal timer of R294; what waited for the seal goes on. -/
def execBatchSeal (s : State) : Res := done s.seal.movesRun.shutdownEval

/-- PFAIL: PFAIL# low for 1 µs or more (R310). PS4 takes the PS3 configuration first (R412), and a DMC freeze is lifted (R364). -/
def execPfail (s : State) : Res :=
  if s.flushing then done s
  else
    let s := s.wakeAdmin
    let s := s.when (s.fld F.DMC_STATUS.STATE == 4) (·.setFld F.DMC_STATUS.STATE 2)
    done (s.flushStart true)

/-- PFAIL_RELEASE: PFAIL# rises; a flush that runs completes (R313). -/
def execPfailRelease (s : State) : Res :=
  if s.flushing && s.jnl.flushPower then
    let s := { s with jnl := { s.jnl with pfailRose := true } }
    done (s.when s.jnl.inhibit (·.cfsAll))
  else done s

/-- FLUSH_PROGRAM_ABANDON: 5.003 ms after the start, a program that is not the flush's own is stopped by LUN reset; its page counts as lost to
replay (R311 step 6). -/
def execFlushProgramAbandon (die : BitVec 10) (s : State) : Res :=
  let d := die.toNat
  let l := s.lun d
  match l.run with
  | .program u =>
    if s.fld F.JNL_STATUS.FLUSH_STATE ≠ 1 || u.flush then done s
    else
      let s := s.setLun d { l with run := .none }
      let s := (s.setReg R.JNL_LOST_CNT (BitVec.ofNat 32 (min ((s.reg R.JNL_LOST_CNT).toNat + 1) 0xFFFFFFFF))).raise F.JNL_EVT.LOST_REPLAY
      done (s.serve d)
  | _ => done s

/-- TIER_1_END (R311 step 7). -/
def execTier1End (s : State) : Res := done s.tierOneEnd

/-- TIER_2_END (R311 step 9, R314). -/
def execTier2End (s : State) : Res := done s.tierTwoEnd

/-- THERMTRIP: the analog trip asserts THERMTRIP#, which holds until cold reset, and the flush path starts (R310, R424). -/
def execThermtrip (s : State) : Res :=
  if s.pwr.thermTrip then done s
  else
    let s := ({ s with pwr := { s.pwr with thermTrip := true } }.emit (.pin "THERMTRIP#" false)).wakeAdmin
    done (if s.flushing then s else s.flushStart true)

end Sys2Proof.Machine
end

