-- ==== Sys2Proof/Machine/Ledger.lean ====
section
/-! DEFINITION. The boot ledger's commands and events (R394 to R403). -/
namespace Sys2Proof.Machine

/-! ### Bytes (R395, R396, R398, R402) -/

/-- Bytes 0x00 to 0x9F of a record; a summary's 48 bytes from 0x70 hold FIRST_NO and the hash over the record hashes. -/
def LedgerRec.body (r : LedgerRec) : List Nat :=
  [0x5A, 0x4C, 0x44, 0x47] ++ leBytes 1 2 ++ [r.kind, r.cause] ++ leBytes r.no 8 ++ leBytes r.prev.toNat 48 ++ leBytes r.image.toNat 48 ++
    match r.sum with
    | some (n, d) => leBytes n 8 ++ leBytes (d.toNat % 2 ^ 256) 32 ++ List.replicate 8 0
    | none => leBytes r.svn 4 ++ leBytes r.bundle.toNat 4 ++ [r.lifecycle, r.slot] ++ leBytes r.romRev 2 ++ leBytes r.cycles 4 ++ leBytes r.seconds 8 ++
        leBytes r.bell 8 ++ leBytes r.flags.toNat 4 ++ leBytes r.aliasId.toNat 8 ++ [0, 0, 0, 0]
/-- The 256 bytes of a record, with its signature. -/
def LedgerRec.bytes (r : LedgerRec) : List Nat := r.body ++ padTo 96 ((Config.bytes 0x4C53 r.body).map (·.toNat))

/-- The 8 KiB of a checkpoint slot. -/
def cpBytes (n : Nat) (hash : Digest) (seconds : Nat) : List Nat :=
  let b := [0x5A, 0x4C, 0x43, 0x50] ++ leBytes 1 2 ++ [0, 0] ++ leBytes n 8 ++ leBytes hash.toNat 48 ++ leBytes seconds 8 ++ List.replicate 8 0
  padTo 8192 (b ++ padTo 4627 ((Config.bytes 0x4C43 b).map (·.toNat)))

/-- Record number of the newest checkpoint. -/
def newestCp (s : State) : Nat := match sget s.sec.ledger.cpSlot s.sec.ledger.cps with | some (n, _) => n | none => 0

/-! ### Events -/

/-- LEDGER_CHECKPOINT (R396). -/
def execLedgerCheckpoint (s : State) : Res := done s.ledgerCheckpoint
/-- LEDGER_COMPACTION (R401, R402). -/
def execLedgerCompaction (s : State) : Res := done s.compact

/-! ### Ledger Read and Acknowledge (R398, R399) -/

/-- Return ledger bytes and complete. -/
def State.ledgerAnswer (s : State) (f : Nat) (cid : BitVec 16) (b : List Nat) : State := (s.emit (.bytes f cid (toBytes b))).ok f cid

/-- LEDGER_READ_RECORDS: CDW10 and 11 the first record, CDW12 the count − 1. -/
def execLedgerReadRecords (f : BitVec 12) (cid : BitVec 16) (first : BitVec 64) (count : BitVec 13) (s : State) : Res :=
  let f := f.toNat
  let a := first.toNat
  let n := count.toNat + 1
  done (s.pfOnly f cid fun s =>
    if 4096 < n || a < s.sec.ledger.tail || s.sec.ledger.head < a + n then s.adminDone f cid 0 0x02
    else s.ledgerAnswer f cid ((List.range n).flatMap fun k => match s.ledgerRec (a + k) with | some r => r.bytes | none => List.replicate 256 0))

/-- LEDGER_READ_CHECKPOINTS: 8 KiB per slot, zeros where none is written. -/
def execLedgerReadCheckpoints (f : BitVec 12) (cid : BitVec 16) (slot : BitVec 64) (count : BitVec 13) (s : State) : Res :=
  let f := f.toNat
  let a := slot.toNat
  let n := count.toNat + 1
  done (s.pfOnly f cid fun s =>
    if 30 < a + n then s.adminDone f cid 0 0x02
    else s.ledgerAnswer f cid ((List.range n).flatMap fun k => match sget (a + k) s.sec.ledger.cps with
      | some (n, h, t) => cpBytes n h t
      | none => List.replicate 8192 0))

/-- LEDGER_READ_OVERFLOW: zeros while it is not valid. -/
def execLedgerReadOverflow (f : BitVec 12) (cid : BitVec 16) (s : State) : Res :=
  let f := f.toNat
  done (s.pfOnly f cid fun s => s.ledgerAnswer f cid (match s.sec.ledger.ovf with | some r => r.bytes | none => List.replicate 256 0))

/-- LEDGER_READ_STATUS. -/
def execLedgerReadStatus (f : BitVec 12) (cid : BitVec 16) (s : State) : Res :=
  let f := f.toNat
  let l := s.sec.ledger
  let bit (b : Bool) : Nat := if b then 1 else 0
  done (s.pfOnly f cid fun s => s.ledgerAnswer f cid (padTo 64
    (leBytes l.head 8 ++ leBytes l.tail 8 ++ leBytes l.ack 8 ++ leBytes (newestCp s) 8 ++ [bit l.ovf.isSome, bit l.policy, bit (s.flag F.SEC_STATUS.RESERVE)])))

/-- LEDGER_ACKNOWLEDGE (R399): refused outside TAIL to HEAD − 1, below ACK, or with another hash. -/
def execLedgerAcknowledge (f : BitVec 12) (cid : BitVec 16) (no : BitVec 64) (hash : Digest) (s : State) : Res :=
  let f := f.toNat
  done (s.pfOnly f cid fun s =>
    match s.ledgerRec no.toNat with
    | some r => if no.toNat < s.sec.ledger.ack || hash ≠ r.hash then s.adminDone f cid 0 0x02
      else (s.setLedger { s.sec.ledger with ack := no.toNat }).ok f cid
    | none => s.adminDone f cid 0 0x02)

/-- LEDGER_CHECKPOINT_REQUEST (R399): it completes when the checkpoint is written. Without a record there is nothing to cover, and in the
error state nothing can be signed. -/
def execLedgerCheckpointRequest (f : BitVec 12) (cid : BitVec 16) (s : State) : Res :=
  let f := f.toNat
  let l := s.sec.ledger
  done (s.pfOnly f cid fun s =>
    if l.head = 0 then s.adminDone f cid 0 0x02
    else if s.secHalted || !s.sec.keysReady then s.adminDone f cid 7 0x90
    else s.setLedger { l with cpDue := some (l.head - 1), cpReq := l.cpReq ++ [(f, cid)] })

end Sys2Proof.Machine
end

