-- ==== Sys2Proof/Machine/Protect.lean ====
section
/-! DEFINITION. The scrubbers and the table rebuild (R330 to R335). -/
namespace Sys2Proof.Machine

/-- Pass period of a scrubber in hours: values outside 1 to 24 act as 24 (ECC_SCRUB_CFG). -/
def passHours (s : State) (k : Nat) : Nat :=
  let h := match k with | 0 => s.fld F.ECC_SCRUB_CFG.SRAM_H | 1 => s.fld F.ECC_SCRUB_CFG.DRAM_H | _ => s.fld F.ECC_SCRUB_CFG.MRAM_H
  if 1 ≤ h && h ≤ 24 then h else 24

/-- Progress of a pass; its end later than its period sets LATE, and the next pass begins (R330). -/
def State.passProgress (s : State) (k pct : Nat) (last : Bool) : State :=
  let f := match k with | 0 => F.ECC_STATUS.SRAM_PCT | 1 => F.ECC_STATUS.DRAM_PCT | _ => F.ECC_STATUS.MRAM_PCT
  let s := s.setFld f (if last then 0 else min 100 pct)
  if !last then s
  else
    let t0 := match k with | 0 => s.ecc.pass0 | 1 => s.ecc.pass1 | _ => s.ecc.pass2
    let e := s.ttu.elapsed
    let s := s.when (decide (t0 + passHours s k * 3600000000000 < e)) (·.raise F.ECC_STATUS.LATE)
    { s with ecc := match k with | 0 => { s.ecc with pass0 := e } | 1 => { s.ecc with pass1 := e } | _ => { s.ecc with pass2 := e } }

/-- SCRUB (R330 to R332): one word is read, corrected and conditionally rewritten, or handled as uncorrectable. -/
def execScrub (loc : StoreLoc) (res : EccRes) (pct : BitVec 7) (last : Bool) (s : State) : Res :=
  if !s.flag F.ECC_CTRL.SCRUB_EN || s.flushing then done s
  else
    let s := match res with
      | .clean => (match loc with | .critical w b => s.badCritical w.toNat b.toNat | _ => s)
      | .corrected y => (s.corrected loc.store y.toNat loc.addr).when (loc.scrubber == 1) (·.dramCorrected (y.toNat % 128))
      | .uncorrectable => s.badWord loc 2
    done (s.passProgress loc.scrubber pct.toNat last)

/-- First index and count of the entries of a rebuild's line. -/
def Rebuild.range (r : Rebuild) : Nat × Nat := if r.tbl = 1 then (12 * r.line, 12) else (r.line, 1)

/-- Byte offset of a table word in its page's image (R301). -/
def imgOffset (tbl index word first : Nat) : Nat :=
  match tbl with
  | 1 => (index - first) / 12 * 64 + (index - first) % 12 * 5
  | 4 => (index - first) * 16 + word * 8
  | _ => (index - first) * 64 + word * 8

/-- A number compares greater than a tag by its low 32 bits (R302, R333). -/
def seqAfter (n tag : Nat) : Bool :=
  let d := (n + 2 ^ 32 - tag % 2 ^ 32) % 2 ^ 32
  d != 0 && decide (d < 2 ^ 31)

/-- Records of the live journal with their numbers, in order (R333 step 4). -/
def liveRecords (s : State) : List (Nat × BitVec 128) :=
  let l := (s.mram.ring.map (·.2)).mergeSort fun a b => decide (a.base ≤ b.base)
  (l.flatMap fun b => b.recs.zipIdx.map fun (r, i) => (b.base + i, r)) ++ s.jnl.openRecs.zipIdx.map fun (r, i) => (s.jnl.openBase + i, r)

/-- What a record writes to a word of a table, if anything (R296). -/
def recValue (tbl index word : Nat) (r : BitVec 128) : Option Nat :=
  let n := r.toNat
  match n / 2 ^ 124 with
  | 1 => if n / 2 ^ 120 % 16 = tbl && n / 2 ^ 77 % 2 ^ 40 = index && (tbl = 1 || n / 2 ^ 117 % 8 = word) then some (n % 2 ^ 64) else none
  | 2 => let first := n / 2 ^ 77 % 2 ^ 40
    if tbl = 1 && first ≤ index && index < first + 12 then some 0 else none
  | _ => none

/-- The rebuilt value of a word: image, then records after its tag; none: neither holds it (R333, R335). -/
def rebuiltWord (s : State) (tbl index word : Nat) (img : Option Block) (hasCopy : Bool) (pseq : Nat) : Option Nat :=
  let (_, first, _) := pageRange (pageOf tbl index)
  let base : Option Nat := match img with
    | some b => some (imgBytes b (imgOffset tbl index word first) (if tbl = 1 then 5 else 8))
    | none => if hasCopy then none else some 0
  let tag := match img with
    | some b => if tbl = 1 then imgBytes b ((index - first) / 12 * 64 + 60) 4 else pseq
    | none => if hasCopy then 0 else pseq
  (liveRecords s).foldl (fun o (n, r) => if (img.isNone && hasCopy) || seqAfter n tag then (match recValue tbl index word r with | some v => some v | none => o) else o) base

/-- TABLE_REBUILD_COMPLETE (R333 to R335): the rebuild that runs next ends: image, journal scan, queued writes. `ok`: the newest
copy of the page decodes. A line no copy or record gives becomes SPECIAL 1, or comes from the shadow. -/
def execTableRebuildComplete (ok : Bool) (s : State) : Res :=
  let head := match s.ecc.rebuilds.find? (·.awaited) with | some r => some r | none => s.ecc.rebuilds.head?
  match head with
  | none => done s
  | some r =>
    let (first, n) := r.range
    let page := pageOf r.tbl first
    let newest := sget page s.mram.cpNewest
    let load (k : Nat) : Option Block := (sget k s.media.nand).map Payload.data
    let (img, pseq) : Option Block × Nat := match newest with
      | none => (none, 0)
      | some (k, q) =>
        let img := if ok then load k else none
        let good : Bool := match img with
          | some b => r.tbl != 1 || !seqAfter (imgBytes b ((first - (pageRange page).2.1) / 12 * 64 + 60) 4) q
          | none => false
        if good then (img, q)
        else match olderCopy s page q [k] with | some (l, q') => (load l, q') | none => (none, q)
    let s := { s with ecc := { s.ecc with rebuilds := s.ecc.rebuilds.erase r } }
    let words : List (Nat × Nat) := (List.range n).flatMap fun i => (List.range (tabWords r.tbl)).map fun w => (first + i, w)
    let s := s.each words fun s (i, w) => match rebuiltWord s r.tbl i w img newest.isSome pseq with
      | some v => s.rawWord r.tbl i w v
      | none => match r.tbl with
        | 1 => if tabInBounds s 1 i then (s.markLost i).criticalData 0x15 else s
        | 5 => s.rawWord 5 i w (sgetD 0 (i * 8 + w) s.mram.tenant).toNat
        | 6 => s.rawWord 6 i w (sgetD 0 (i * 8 + w) s.mram.nsrec).toNat
        | 4 => s
        | _ => s.criticalData 0x15
    let s := s.each r.writes fun s (i, w, v, m) => s.applyWord r.tbl i w v m
    done (s.raise F.ECC_EVT.REBUILD_DONE)

end Sys2Proof.Machine
end

