-- ==== Sys2Proof/Machine/Regs.lean ====
section
/-! DEFINITION. BAR2 accesses (19_registers.md). -/
namespace Sys2Proof.Machine

/-- REGISTER_WRITE (R4, R488, R491). -/
def execRegisterWrite (pf : Bool) (off : BitVec 26) (words : List Word) (be : Bool) (s : State) : Res :=
  done (s.writeRegs pf (dwOff off) words be)

/-- LO_LATCH_READ (R490): a read that starts at a LO register. -/
def execLoLatchRead (pf : Bool) (off : BitVec 26) (n : BitVec 10) (s : State) : Res := done (s.readRegs pf (dwOff off) n.toNat)

/-- READ_CLEAR (R4): a read, with the rc fields it meets cleared. -/
def execReadClear (pf : Bool) (off : BitVec 26) (n : BitVec 10) (s : State) : Res := done (s.readRegs pf (dwOff off) n.toNat)

/-- LOCK_WRITE (R494): a write of 1 to the LOCK bit numbered `b` in GLB_LOCK_STATUS; the write's other rwl fields are stored first. -/
def execLockWrite (b : BitVec 5) (v : Word) (s : State) : Res :=
  match lockList.find? fun (_, _, k) => k == b.toNat with
  | some (_, r, _) => done ((s.regWake r).regWrite r (v ||| 0x80000000))
  | none => noUnit

/-- LOCK_ALL (R494): GLB_CTRL.LOCK_ALL. -/
def execLockAll (s : State) : Res := done s.lockAll

/-- BPM_SHARE_WRITE (R192). -/
def execBpmShareWrite (a : BitVec 13) (v : Word) (s : State) : Res :=
  if a.toNat ≤ 4096 then done ((s.regWake (R.BPM_SHARE + 4 * a.toNat)).shareWrite a.toNat v) else noUnit

end Sys2Proof.Machine
end

