-- ==== Sys2Proof/Machine/Reset.lean ====
section
/-! DEFINITION. Resets, start-up, shutdown, links and VF Enable (R9, R147, R171, R172, R194 to R198, R426 to R440). -/
namespace Sys2Proof.Machine

/-! ### PERST# and the AON supply (R9, R313, R430, R431) -/

/-- PERST_ASSERT: a warm reset, which a cold reset still held absorbs (R10), which a running flush latches and which pool data turns into a flush first (R10, R313, R433). -/
def execPerstAssert (s : State) : Res :=
  let low (s : State) : State := { s with boot := { s.boot with perst := false, waiting := none } }
  let latch (s : State) : State := { s with jnl := { s.jnl with perstLatched := true } }
  if !s.boot.perst then done s
  else if s.boot.coldHeld then done (low s)
  else if s.fld F.JNL_STATUS.FLUSH_STATE = 1 || s.fld F.JNL_STATUS.FLUSH_STATE = 2 then done (latch (low s))
  else if !s.jnl.inhibit && s.host.bufs.any fun (x : Nat × Buf) => x.2.wsn != 0 then
    done (latch ((low s).flushStart true))
  else done ((low s).warmReset 2)

/-- PERST_RELEASE: the straps are sampled and the ROM boots; `b` is what the boot meets. -/
def execPerstRelease (b : BootIn) (s : State) : Res :=
  if s.boot.perst then done s
  else
    let s := { s with boot := { s.boot with perst := true } }
    if s.jnl.perstLatched then done { s with boot := { s.boot with waiting := some b } }
    else if s.boot.coldHeld then done s
    else done (s.romBoot b)

/-- COLD_RESET: VDD_AON leaves its range (R9, R428). -/
def execColdReset (brownOut : Bool) (s : State) : Res := done (s.coldReset brownOut)

/-- COLD_RESET_RELEASE: 1 ms after VDD_AON enters its range; with no source configured the Timetable is in FREERUN (R42, R45), and the boot
starts if PERST# is high (R430). -/
def execColdResetRelease (b : BootIn) (s : State) : Res :=
  if !s.boot.coldHeld then done s
  else
    let s := { s with boot := { s.boot with coldHeld := false } }.setFld F.TT_STATUS.STATE ttFreerun
    done (if s.boot.perst then s.romBoot b else s)

/-! ### CC.EN and recovery (R438, R439) -/

/-- CC_EN_SET: CC.EN 0→1 with the sizes of the admin queues (0-based, 2 to 4 096 entries, R154; with another size the controller does not
start, DESIGN CHOICE: the spec states no effect). The first one of PF0 latches the configuration and starts recovery. -/
def execCcEnSet (f asqs acqs : BitVec 12) (s : State) : Res :=
  let n := f.toNat
  let g := s.func n
  let st := s.fld F.BOOT_STATUS.STATE
  if !g.present || g.flr || g.en || g.resetting || g.heldReset || asqs = 0 || acqs = 0 then done s
  else if st = 2 then done (s.setFunc n { g with cfs := true })
  else if st ≠ 1 then done s
  else
    let s := s.setFunc n { g with en := true, enabling := true, shst := 0, shutdown := false }
    let s := (s.setSq n 0 { size := asqs.toNat + 1, cq := 0 }).setCq n 0 { size := acqs.toNat + 1 }
    done ((s.when (n == 0 && !s.host.configured) (·.configure)).readyEval)

/-- RECOVERY_PHASE: the phase that is due does its work; `bad` lists the codewords (die × 2^28 + slot) that do not decode. -/
def execRecoveryPhase (bad : List Nat) (s : State) : Res := done (if s.flushing then s else s.recoverPhase bad)

/-- CONTROLLER_RESET: CC.EN 1→0 (R171, R103, R364); `trainOk`: the training that ends a DMC freeze passes. -/
def execControllerReset (f : BitVec 12) (trainOk : Bool) (s : State) : Res :=
  let g := s.func f.toNat
  done (if !g.present || !g.en || g.flr || g.resetting || g.heldReset then s else s.controllerReset f.toNat trainOk)

/-- NORMAL_SHUTDOWN: CC.SHN = 01b (R172). -/
def execNormalShutdown (f : BitVec 12) (s : State) : Res :=
  let g := s.func f.toNat
  done (if !g.present || g.flr || g.resetting || g.shutdown then s
    else (s.setFunc f.toNat { g with shutdown := true, shst := 1 }).shutdownEval)

/-- ABRUPT_SHUTDOWN: CC.SHN = 10b acts as R171 and then sets SHST = 10b (R172). -/
def execAbruptShutdown (f : BitVec 12) (s : State) : Res :=
  let g := s.func f.toNat
  done (if !g.present || g.flr || g.resetting then s else (s.setFunc f.toNat { g with shutdown := true }).ctlReset f.toNat)

/-! ### Links and functions -/

/-- HOT_RESET: Hot Reset, Link Down or containment of a port (R147). -/
def execHotReset (port trainOk : Bool) (s : State) : Res := done (if port && !s.x4x4 then s else s.linkDown port trainOk)

/-- FUNCTION_LEVEL_RESET: `late` holds the data of writes whose host DMA the reset meets (R194). -/
def execFunctionLevelReset (f : BitVec 12) (late : List (BitVec 17 × List Block)) (s : State) : Res := done (s.flr f.toNat late)

/-- FLR_COMPLETE: step 6 of R194. -/
def execFlrComplete (f : BitVec 12) (s : State) : Res := done (s.flrDone f.toNat)

/-- VF_ENABLE_SET: VFs 1 to NumVFs of a PF exist (R177, R179); a number beyond TotalVFs acts as TotalVFs. -/
def execVfEnableSet (pf : Bool) (n : BitVec 12) (s : State) : Res :=
  if pf && !s.x4x4 then done s
  else
    let total := if s.x4x4 then 2047 else 4095
    let base := if pf then 2048 else 0
    let n := min n.toNat total
    let s := s.each ((List.range n).map fun k => base + 1 + k) fun s f =>
      if (s.func f).present then s else s.setFunc f { s.func f with present := true }
    done (s.setNumVfs pf n)

/-- VF_ENABLE_CLEAR: VF Enable cleared (`n` = 0), or NumVFs lowered (R198). -/
def execVfEnableClear (pf : Bool) (n : BitVec 12) (late : List (BitVec 17 × List Block)) (s : State) : Res :=
  done (if pf && !s.x4x4 then s else s.removeVfs pf n.toNat late)

/-- PCIE_LINK_UP: a port trains at a rate (1 to 6) and width; 64 GT/s needs FLIT mode, and a x4 port has at most four lanes (R142, R143). On a
link in L0 a new width alone is what L0p does (R144). -/
def execPcieLinkUp (port : Bool) (rate : BitVec 3) (width : BitVec 4) (flit : Bool) (s : State) : Res :=
  let w := width.toNat
  let ok := decide (1 ≤ rate.toNat) && decide (rate.toNat ≤ 6) && (rate.toNat != 6 || flit) &&
    (w == 1 || w == 2 || w == 4 || (w == 8 && !s.x4x4)) && (!port || s.x4x4) && (s.loop 0 (if port then 1 else 0)).isNone
  if !ok then done s
  else if port then done (((s.setFld F.HIU_PORT_STATUS.P1_RATE rate.toNat).setFld F.HIU_PORT_STATUS.P1_WIDTH w).setBit F.HIU_PORT_STATUS.P1_FLIT flit)
  else done (((s.setFld F.HIU_PORT_STATUS.P0_RATE rate.toNat).setFld F.HIU_PORT_STATUS.P0_WIDTH w).setBit F.HIU_PORT_STATUS.P0_FLIT flit)

/-- ASPM_L1_ENTRY: a port enters L1 (`sub` = 0), L1.1 or L1.2, except while PTM is a configured source (R41, R144). -/
def execAspmL1Entry (l : LinkSleep) (s : State) : Res :=
  let l1 : BitVec 2 := if l.sub = 0 then 1 else if l.sub = 1 then 2 else 3
  if (sources s).contains 2 || (l.port && !s.x4x4) then done s
  else if l.port then done { s with host := { s.host with l1Port1 := l1 } }
  else done { s with host := { s.host with l1Port0 := l1 } }

end Sys2Proof.Machine
end

