-- ==== Sys2Proof/Machine/Security.lean ====
section
/-! DEFINITION. Roles, the Fjargohus protocol, key injection, Opal, lifecycle and self-tests (R368 to R392). -/
namespace Sys2Proof.Machine

/-! ### Shared steps of the messages -/

/-- A Security Send or Receive (R151, R376, R388): PF only, and Cryptographic Module Error while the module is in its error state. -/
def State.secCmd (s : State) (f : Nat) (cid : BitVec 16) (k : State → State) : State :=
  s.pfOnly f cid fun s => if s.secHalted then s.adminDone f cid 7 0x90 else k s

/-- A Fjargohus message of the session's PF restarts the 600 s of R370. -/
def State.fjargohus (s : State) (f : Nat) : State :=
  if s.sec.session = some f then { s with sec := { s.sec with lastMsg := s.ttu.elapsed } } else s

/-- A message that needs a live CO session (R380): Access Denied without one. -/
def State.coCmd (s : State) (f : Nat) (cid : BitVec 16) (k : State → State) : State :=
  s.secCmd f cid fun s => if s.sec.session = some f then k (s.fjargohus f) else s.adminDone f cid 2 0x86

/-- Answer a security protocol of TCG: success, and the method's status in the bytes returned (0 success, 1 not authorized,
0x0C invalid parameter). -/
def State.tcg (s : State) (f : Nat) (cid : BitVec 16) (status : Nat) : State :=
  (s.emit (.bytes f cid (Config.bytes 0x5443 [status]))).ok f cid

/-- Verifier of a CO credential (R369). -/
def coVerifier (cred : BitVec 256) : Digest := Config.digest [0x434F, cred.toNat]
/-- Verifier of an Opal password of an authority. -/
def opalVerifier (auth : Nat) (pin : BitVec 256) : Digest := Config.digest [0x4F50, auth, pin.toNat]
/-- Verifier in force of an Opal authority: the one it set, else that of MSID. -/
def opalStored (s : State) (auth : Nat) : Digest := (sget auth s.sec.blocks.opal).getD (Config.digest [0x4D534944, auth])

def State.setCo (s : State) (cred : BitVec 256) : State := s.keyGen { s.sec.blocks with co := some (coVerifier cred) }

/-- A lifecycle transition ends: the fuse and the MRAM copy, then the ledger record, written last (R384, R385). -/
def State.setLifecycle (s : State) (v : Nat) : State :=
  let s := s.setFuses { s.sec.fuses with lifecycle := BitVec.ofNat 8 v }
  let s := s.setLedger { s.sec.ledger with lifecycle := BitVec.ofNat 8 v }
  (s.ledgerPut (s.ledgerOwn 5 0 (s.fld F.SEC_SVN.RUNNING))).raise F.SEC_EVT.LIFECYCLE

/-- A transition asked for by the CO: from one of the states named, with room in the ledger, else Command Sequence Error (R380, R403). -/
def State.transition (s : State) (f : Nat) (cid : BitVec 16) (from' : List Nat) (k : State → State) : State :=
  if !from'.contains s.lifecycle || ledgerFull s then s.adminDone f cid 0 0x0C else (k s).ok f cid

/-! ### Sessions (R369, R370, R379) -/

/-- AUTHENTICATE (R369, R370): 5 consecutive failures lock it until warm reset; a session is bound to the PF that opened it. -/
def execAuthenticate (f : BitVec 12) (cid : BitVec 16) (cred : BitVec 256) (s : State) : Res :=
  let f := f.toNat
  done (s.secCmd f cid fun s =>
    let s := s.fjargohus f
    if 5 ≤ s.sec.failures then s.adminDone f cid 2 0x86
    else if s.sec.blocks.co = some (coVerifier cred) then
      { s with sec := { s.sec with session := some f, lastMsg := s.ttu.elapsed, failures := 0 } }.ok f cid
    else
      let n := s.sec.failures + 1
      let s := { s with sec := { s.sec with failures := n } }.raise F.SEC_EVT.AUTH_FAIL
      (s.when (n == 5) (·.raise F.SEC_STATUS.CO_LOCKOUT)).adminDone f cid 2 0x86)

/-- CO_SESSION_TIMEOUT (R370): 600 s have passed without a Fjargohus message of the session's PF. -/
def execCoSessionTimeout (s : State) : Res := done { s with sec := { s.sec with session := none } }

/-- CHANGE_CO_CREDENTIAL (R379, R386): of the CO, or of anyone while the credential is empty after a Zeroize All. -/
def execChangeCoCredential (f : BitVec 12) (cid : BitVec 16) (cred : BitVec 256) (s : State) : Res :=
  let f := f.toNat
  done (if s.sec.blocks.co.isNone && s.lifecycle != lcBlank then s.secCmd f cid fun s => ((s.fjargohus f).setCo cred).ok f cid
    else s.coCmd f cid fun s => (s.setCo cred).ok f cid)

/-! ### Lifecycle (R384, R385, R391, R403) -/

/-- PROVISION (R385, R435): on a Blank device, with the owner key hash of the running image. -/
def execProvision (f : BitVec 12) (cid : BitVec 16) (owner : Digest) (cred : BitVec 256) (s : State) : Res :=
  let f := f.toNat
  done (s.secCmd f cid fun s =>
    if s.lifecycle ≠ lcBlank || s.fld F.SEC_STATUS.STATE ≠ 1 then s.adminDone f cid 0 0x0C
    else if owner ≠ (s.slotImage s.boot.slot).keyHash then s.adminDone f cid 0 0x02
    else
      let (k, s) := s.freshKey
      let s := s.setFuses { s.sec.fuses with uds := k.setWidth 256, owner := owner, jtagOff := true }
      let s := (s.setCo cred).clear F.TST_STATUS.JTAG_CRYPTO
      let s := { s with
        sec := { s.sec with keysReady := true, ledger := { s.sec.ledger with policy := false } }
        boot := { s.boot with provisioned := true } }
      (s.setLifecycle lcProvisioned).ok f cid)

/-- ENTER_MISSION (R385): every MEK regenerated, KPIO slots cleared. -/
def execEnterMission (f : BitVec 12) (cid : BitVec 16) (s : State) : Res :=
  let f := f.toNat
  done (s.coCmd f cid fun s => s.transition f cid [lcProvisioned] fun s => s.renewMeks.setLifecycle lcMission)

/-- ENTER_RMA (R385): the token must verify under the owner keys over the device's challenge. -/
def execEnterRma (f : BitVec 12) (cid : BitVec 16) (tokenOk : Bool) (s : State) : Res :=
  let f := f.toNat
  done (s.coCmd f cid fun s =>
    if [lcProvisioned, lcMission].contains s.lifecycle && !tokenOk then s.adminDone f cid 2 0x86
    else s.transition f cid [lcProvisioned, lcMission] fun s => ((s.zeroizeAll false).raise F.TST_STATUS.JTAG_CRYPTO).setLifecycle lcRma)

/-- DECOMMISSION (R385): Zeroize All's actions, the UDS kill fuse blown, the DeviceID keys unavailable. -/
def execDecommission (f : BitVec 12) (cid : BitVec 16) (s : State) : Res :=
  let f := f.toNat
  done (s.coCmd f cid fun s => s.transition f cid [lcProvisioned, lcMission, lcRma] fun s =>
    let s := s.zeroizeAll true
    let s := s.setFuses { s.sec.fuses with uds := 0, udsKilled := true }
    let s := { s with sec := { s.sec with keysReady := false } }
    (s.clear F.TST_STATUS.JTAG_CRYPTO).setLifecycle lcDecommissioned)

/-- ZEROIZE_ALL (R386, R403): refused once the 32 epoch fuses are blown, or with a full ring. -/
def execZeroizeAll (f : BitVec 12) (cid : BitVec 16) (s : State) : Res :=
  let f := f.toNat
  done (s.coCmd f cid fun s =>
    if 32 ≤ s.sec.fuses.epoch || ledgerFull s then s.adminDone f cid 0 0x0C
    else
      let s := s.zeroizeAll true
      let s := s.ledgerPut (s.ledgerOwn 6 0 (s.fld F.SEC_SVN.RUNNING))
      (s.raise F.SEC_EVT.ZEROIZED).ok f cid)

/-- SET_LEDGER_POLICY (R403): 0 refuse I/O, 1 run. -/
def execSetLedgerPolicy (f : BitVec 12) (cid : BitVec 16) (run : Bool) (s : State) : Res :=
  let f := f.toNat
  done (s.coCmd f cid fun s => (s.setLedger { s.sec.ledger with policy := run }).ok f cid)

/-- COMMIT_SVN (R391, R403): the counter takes the running SVN if the other slot's image verifies with an SVN at least as high; the record
is written before the fuses are blown. -/
def execCommitSvn (f : BitVec 12) (cid : BitVec 16) (s : State) : Res :=
  let f := f.toNat
  done (s.coCmd f cid fun s =>
    let svn := s.fld F.SEC_SVN.RUNNING
    let other := s.slotImage (!s.boot.slot)
    if imageCode s other (s.fld F.BOOT_ROM_REV.ROM_REV) ≠ 0 || other.svn < svn || ledgerFull s then s.adminDone f cid 0 0x0C
    else
      let s := s.ledgerPut (s.ledgerOwn 7 0 svn)
      (s.setFuses { s.sec.fuses with svn := max s.sec.fuses.svn svn }).ok f cid)

/-! ### Self-tests (R387, R388) -/

/-- RUN_SELF_TESTS (R379, R387): the outcome of the CASTs, and the row of R371 that failed. -/
def execRunSelfTests (f : BitVec 12) (cid : BitVec 16) (pass : Bool) (alg : BitVec 4) (s : State) : Res :=
  let f := f.toNat
  done (s.coCmd f cid fun s => if pass then s.ok f cid else (s.secError 1 alg.toNat).adminDone f cid 7 0x90)

/-- PERIODIC_CAST (R387). -/
def execPeriodicCast (pass : Bool) (alg : BitVec 4) (s : State) : Res :=
  if s.secHalted then done s
  else
    let s := { s with sec := { s.sec with lastCast := s.ttu.elapsed } }
    done (if pass then s else s.secError 1 alg.toNat)

/-- ENTROPY_HEALTH_FAILURE (R387, R388): row 10 of R371, the entropy source. -/
def execEntropyHealthFailure (s : State) : Res := done (if s.secHalted then s else s.secError 3 10)

/-! ### Key Per I/O (R378, R382, R383) -/

/-- Key of a tag in the table of tag KEKs. -/
def kekKey (fn tag : Nat) : Nat := fn * 65536 + tag

/-- ESTABLISH_TAG_KEK (R383): the CO relays the User's ephemeral public key; the tag must be bound and the key valid. -/
def execEstablishTagKek (f : BitVec 12) (cid : BitVec 16) (fn : BitVec 12) (tag : BitVec 16) (pub : BitVec 776) (keyOk : Bool) (s : State) : Res :=
  let f := f.toNat
  done (s.coCmd f cid fun s =>
    if !keyOk || (s.tagSlot fn.toNat tag.toNat).isNone then s.adminDone f cid 0 0x02
    else
      let z := Config.deriveKey [0x4B4549, s.sec.fuses.uds.toNat, pub.toNat, fn.toNat, tag.toNat]
      { s with sec := { s.sec with keks := sput (kekKey fn.toNat tag.toNat) (z.setWidth 256) s.sec.keks } }.ok f cid)

/-- Answer a Key Per I/O message: success, and the KPIO status in the bytes returned (0 success, 1 Key Tag In Use, 2 Invalid Key). -/
def State.kpio (s : State) (f : Nat) (cid : BitVec 16) (status : Nat) : State :=
  (s.emit (.bytes f cid (Config.bytes 0x4B50 [status]))).ok f cid

/-- KEY_INJECTION (R369, R378, R383): a slot that holds a key keeps it; the blob must unwrap under the tag's KEK to two unequal halves. -/
def execKeyInjection (f : BitVec 12) (cid : BitVec 16) (fn : BitVec 12) (tag : BitVec 16) (key : XtsKey) (unwraps : Bool) (s : State) : Res :=
  let f := f.toNat
  done (s.secCmd f cid fun s =>
    match s.tagSlot fn.toNat tag.toNat with
    | none => s.adminDone f cid 0 0x02
    | some k =>
      if (s.slotKey k).isSome then s.kpio f cid 1
      else if !unwraps || (sget (kekKey fn.toNat tag.toNat) s.sec.keks).isNone || key.toNat / 2 ^ 256 == key.toNat % 2 ^ 256 then s.kpio f cid 2
      else (s.setSlot k key).kpio f cid 0)

/-- CLEAR_KEY (R378): from here on commands that name the slot are denied; it completes when the slot is zeroized. -/
def execClearKey (f : BitVec 12) (cid : BitVec 16) (fn : BitVec 12) (tag : BitVec 16) (s : State) : Res :=
  let f := f.toNat
  done (s.secCmd f cid fun s =>
    match s.tagSlot fn.toNat tag.toNat with
    | none => s.adminDone f cid 0 0x02
    | some k => { s with sec := { s.sec with clearing := s.sec.clearing ++ [(k, some (f, cid))] } })

/-- Tags bound to a slot: function and tag. -/
def slotTags (s : State) (k : Nat) : List (Nat × Nat) :=
  s.tenants.flatMap fun f => (s.bindings f).filterMap fun (a, n, j) => if j ≤ k && k < j + n then some (f, a + k - j) else none

/-- The tag KEKs of a function are zeroized but for those of tags it keeps. -/
def State.dropKeks (s : State) (f : Nat) (keep : Nat → Bool) : State :=
  { s with sec := { s.sec with keks := s.sec.keks.filter fun (x : Nat × BitVec 256) => x.1 / 65536 != f || keep (x.1 % 65536) } }

/-- A function's filter leaves its place; the image stays in the store until the last command bound to it ends (R220, R221). -/
def State.dropFilter (s : State) (f : Nat) : State :=
  match sget f s.sc.filters with
  | none => s
  | some _ => { s with sc := { s.sc with filters := sdel f s.sc.filters } }

/-- A Bind key tags or Remove whose slots are gone reaches its commit point (R184, R382): the binding words; a Remove frees the function's
Seating Chart entries and filter too, and STATE becomes NONE. -/
def State.unbindDone (s : State) (u : Unbind) : State :=
  let s := match u.words with
    | some (a, b) =>
      let s := (s.tjrn 5 u.func 2 a).tjrn 5 u.func 3 b
      s.dropKeks u.func fun t => (s.tagSlot u.func t).isSome
    | none =>
      let mine := managerEntries s u.func
      let s := s.when (!mine.isEmpty) (·.scUpdate u.func [] mine)
      let s := s.dropFilter u.func
      let s := (((s.tjrn 5 u.func 2 0).tjrn 5 u.func 3 0).tjrn 5 u.func 4 0).tjrn 5 u.func 0 (setBits (s.tenWord u.func 0) 0 2 0)
      s.dropKeks u.func fun _ => false
  match u.owner with | some (f, cid) => s.ok f cid | none => s

/-- Unbinding actions with no slot left complete. -/
def State.unbindsEval (s : State) : State :=
  let (now, later) := s.sec.unbinds.partition fun (u : Unbind) => u.slots.isEmpty
  ({ s with sec := { s.sec with unbinds := later } }).each now (·.unbindDone ·)

/-- SLOT_ZEROIZE (R378, R382, R386): once no admitted command names the slot, or at the longest CMD_TIMEOUT (`late`). The Clear Key of the
slot completes. -/
def execSlotZeroize (slot : BitVec 16) (late : Bool) (s : State) : Res :=
  let k := slot.toNat
  let (mine, rest) := s.sec.clearing.partition fun (x : Nat × Option (Nat × BitVec 16)) => x.1 == k
  if mine.isEmpty || (!late && sgetD 0 k s.sec.counts ≠ 0) then done s
  else
    let tags := (slotTags s k).map fun (x : Nat × Nat) => kekKey x.1 x.2
    let s := s.clearSlot k
    let s := { s with sec := { s.sec with
      clearing := rest
      keks := s.sec.keks.filter fun (x : Nat × BitVec 256) => !tags.contains x.1
      unbinds := s.sec.unbinds.map fun (u : Unbind) => { u with slots := u.slots.filter (· != k) } } }
    let s := s.each mine fun s (x : Nat × Option (Nat × BitVec 16)) => match x.2 with | some (f, cid) => s.ok f cid | none => s
    done s.unbindsEval

/-! ### Opal (R376, R377, R386) -/

/-- Authorities below 16 are the Admin SP's (0 is SID), the rest the Locking SP's. -/
def adminAuth (a : Nat) : Bool := decide (a < 16)
/-- Some authority of the SP has authenticated. -/
def spOpen (s : State) (locking : Bool) : Bool := s.sec.opalAuth.any fun a => adminAuth a != locking

/-- Load the MEKs of every locking range (R377). -/
def State.unlockMeks (s : State) : State :=
  let held := lockedSlots s
  let s := s.each s.sec.blocks.meks fun s (k, v) => if held.contains k then s.setSlot k v else s
  s.setBlocks { s.sec.blocks with ranges := s.sec.blocks.ranges.map fun (x : Nat × OpalRange) => (x.1, { x.2 with loaded := true }) }

/-- OPAL_AUTHENTICATE (R369, R377): password authentication, and a new password if one is set in the same session; an authority of the
Locking SP brings the MEKs of the ranges. -/
def execOpalAuthenticate (f : BitVec 12) (cid : BitVec 16) (auth : BitVec 8) (pin : BitVec 256) (newPin : Option (BitVec 256)) (s : State) : Res :=
  let f := f.toNat
  let a := auth.toNat
  done (s.secCmd f cid fun s =>
    if opalVerifier a pin ≠ opalStored s a then s.tcg f cid 1
    else
      let s := { s with sec := { s.sec with opalAuth := if s.sec.opalAuth.contains a then s.sec.opalAuth else a :: s.sec.opalAuth } }
      let s := match newPin with
        | some p => s.keyGen { s.sec.blocks with opal := sput a (opalVerifier a p) s.sec.blocks.opal }
        | none => s
      (if adminAuth a then s else s.unlockMeks).tcg f cid 0)

/-- Two spans of 4 KiB units meet. -/
def spansMeet (a n b m : Nat) : Bool := decide (a < b + m) && decide (b < a + n)

/-- A numbered range with its MEK: a new one takes a slot and a fresh key. -/
def State.putRange (s : State) (r : Nat) (x : OpalRange) : Option State :=
  match sget r s.sec.blocks.ranges with
  | some old => some (s.keyGen { s.sec.blocks with ranges := sput r { x with slot := old.slot, loaded := true } s.sec.blocks.ranges, lockingActive := true })
  | none => match s.freeMekSlot with
    | none => none
    | some k =>
      let s := s.newMek k
      some (s.keyGen { s.sec.blocks with ranges := sput r { x with slot := k, loaded := true } s.sec.blocks.ranges, lockingActive := true })

/-- LOCKING_RANGE_SET (R377): span and locks of a range, 0 Global; the first one activates the Locking SP. A numbered range lies within a
PF-owned namespace and meets no other. -/
def execLockingRangeSet (f : BitVec 12) (cid : BitVec 16) (range : BitVec 6) (nsid : BitVec 15) (start len : BitVec 40)
    (readLock writeLock lockOnReset : Bool) (s : State) : Res :=
  let f := f.toNat
  let r := range.toNat
  let ns := nsid.toNat
  done (s.secCmd f cid fun s =>
    if !spOpen s true then s.tcg f cid 1
    else
      let s := if (sget 0 s.sec.blocks.ranges).isSome then s
        else s.setBlocks { s.sec.blocks with ranges := sput 0 { nsid := 0, start := 0, len := 0, slot := 65536 } s.sec.blocks.ranges }
      let x : OpalRange := { nsid := ns, start := start.toNat, len := len.toNat, readLock := readLock, writeLock := writeLock, lockOnReset := lockOnReset, slot := 65536 }
      if r = 0 then
        (s.keyGen { s.sec.blocks with
          ranges := sput 0 { x with nsid := 0, start := 0, len := 0, loaded := true } s.sec.blocks.ranges, lockingActive := true }).tcg f cid 0
      else
        let units := if s.nsLbaf ns = 2 then s.nsSize ns / 8 else s.nsSize ns
        if s.nsState ns = 0 || !s.pfOwned ns || units < start.toNat + len.toNat ||
          (s.opalRanges ns).any (fun (x : Nat × OpalRange) => x.1 != r && spansMeet start.toNat len.toNat x.2.start x.2.len) then s.tcg f cid 0x0C
        else match s.putRange r x with
          | some s => s.tcg f cid 0
          | none => s.tcg f cid 0x0C)

/-- Replace the MEK of a slot; a loaded one is loaded anew (R386). -/
def State.renewMek (s : State) (k : Nat) : State := if s.mekSlots.contains k then s.newMek k (s.slotKey k).isSome else s

/-- GENKEY (R386): the MEK of a range is replaced; Global's is the default key of the namespace named. -/
def execGenkey (f : BitVec 12) (cid : BitVec 16) (range : BitVec 6) (nsid : BitVec 15) (s : State) : Res :=
  let f := f.toNat
  let slot := if range = 0 then s.nsKeySlot nsid.toNat else (sget range.toNat s.sec.blocks.ranges).map (·.slot)
  done (s.secCmd f cid fun s =>
    if !spOpen s true then s.tcg f cid 1
    else match slot with
      | some k => (s.renewMek k).tcg f cid 0
      | none => s.tcg f cid 0x0C)

/-- Revert the Locking SP, or with the Admin SP both (R386): the range MEKs and the verifiers concerned are zeroized; Global's MEKs are
replaced. -/
def State.revertSp (s : State) (admin : Bool) : State :=
  let slots := (s.sec.blocks.ranges.filter fun (x : Nat × OpalRange) => x.1 != 0).map (·.2.slot)
  let global := (s.nsids.filter s.pfOwned).filterMap s.nsKeySlot
  let active := s.sec.blocks.lockingActive
  let s := s.each slots (·.dropMek ·)
  let s := s.when active fun s => s.each global fun s k => s.newMek k
  let s := s.keyGen { s.sec.blocks with
    ranges := [], lockingActive := false, opal := s.sec.blocks.opal.filter fun (x : Nat × Digest) => !admin && adminAuth x.1 }
  { s with sec := { s.sec with opalAuth := s.sec.opalAuth.filter fun a => !admin && adminAuth a } }

/-- REVERTSP (R386): by an authority of the SP. -/
def execRevertsp (f : BitVec 12) (cid : BitVec 16) (admin : Bool) (s : State) : Res :=
  let f := f.toNat
  done (s.secCmd f cid fun s => if spOpen s (!admin) then (s.revertSp admin).tcg f cid 0 else s.tcg f cid 1)

/-- PSID_REVERT (R386): with the PSID printed on the device. -/
def execPsidRevert (f : BitVec 12) (cid : BitVec 16) (psid : BitVec 256) (s : State) : Res :=
  let f := f.toNat
  done (s.secCmd f cid fun s => if psid = Config.psid then (s.revertSp true).tcg f cid 0 else s.tcg f cid 1)

/-! ### Security Receive (R376, R379) -/

/-- Certificates and public keys: DeviceID, Alias and the KPIO agreement chain, and the owner's keys of the running image (R379, R435). -/
def certBytes (s : State) : List Byte :=
  Config.bytes 0x100 [s.sec.fuses.uds.toNat, s.sec.image.toNat, s.fld F.SEC_SVN.RUNNING, s.lifecycle, (s.slotImage s.boot.slot).keyHash.toNat]

/-- READ_CERTIFICATES (R379). -/
def execReadCertificates (f : BitVec 12) (cid : BitVec 16) (s : State) : Res :=
  let f := f.toNat
  done (s.secCmd f cid fun s => ((s.fjargohus f).emit (.bytes f cid (certBytes s))).ok f cid)

/-- SECURITY_RECEIVE (R376, R379): protocols 0x00, 0x01, 0x02 and 0xF0. -/
def execSecurityReceive (f : BitVec 12) (cid : BitVec 16) (protocol : BitVec 8) (spsp : BitVec 16) (s : State) : Res :=
  let f := f.toNat
  let p := protocol.toNat
  done (s.secCmd f cid fun s =>
    if p ≤ 2 then (s.emit (.bytes f cid (Config.bytes 0x82 [p, spsp.toNat]))).ok f cid
    else if p = 0xF0 && spsp.toNat = 0x0100 then ((s.fjargohus f).emit (.bytes f cid (certBytes s))).ok f cid
    else s.adminDone f cid 0 0x02)

end Sys2Proof.Machine
end

