-- ==== Sys2Proof/Machine/Spdm.lean ====
section
/-! DEFINITION. SPDM 1.3 over MCTP, and the MCTP echo (R392, R393, R475). The messages are those of DSP0274 and DSP0236. -/
namespace Sys2Proof.Machine

/-- Bindings: 0 PCIe VDM on PF0, 1 PCIe VDM on PF1, 2 SMBus; 3 names none. -/
def bindingOk (s : State) (b : Nat) : Bool := b == 0 || b == 2 || (b == 1 && s.x4x4)

/-- An MCTP message wakes the device: from S3 by SMBus, from PS4 by either path (R412, R413). -/
def State.mctpWake (s : State) (b : Nat) : State := if s.pwr.s3 then (if b = 2 then s.leaveS3 [] else s) else s.wakeAdmin

/-- Answers are unsigned errors: lifecycle Blank, boot STATE FAILED, the error state, or no Alias key (R385, R388, R433). -/
def spdmUnsigned (s : State) : Bool := s.lifecycle == lcBlank || s.fld F.BOOT_STATUS.STATE == 2 || s.secHalted || !s.sec.keysReady

/-- Send an SPDM message: its code and content. -/
def State.spdmSend (s : State) (code : Nat) (content : List Nat) : State := s.emit (.mctp (Config.bytes 0x5350 (code :: content)))
/-- ERROR: 1 InvalidRequest, 4 UnexpectedRequest, 5 Unspecified, 0x41 VersionMismatch. -/
def State.spdmError (s : State) (e : Nat) : State := s.spdmSend 0x7F [e]

def State.spdmState (s : State) (b : Nat) : Spdm := sgetD {} b s.sec.spdm
def State.setSpdm (s : State) (b : Nat) (x : Spdm) : State := { s with sec := { s.sec with spdm := sput b x s.sec.spdm } }

/-- A request on a binding: it wakes the device; an error state answers unsigned errors only. -/
def State.spdm (s : State) (b : Nat) (k : Spdm → State → State) : State :=
  if !bindingOk s b || (s.pwr.s3 && b != 2) then s
  else
    let s := s.mctpWake b
    if spdmUnsigned s then s.spdmError 5 else k (s.spdmState b) s

/-- A request that needs the whole negotiation first. -/
def State.spdmReady (s : State) (b : Nat) (k : State → State) : State :=
  s.spdm b fun x s => if x.version && x.caps && x.algs then k s else s.spdmError 4

/-- GET_VERSION: it starts the negotiation anew. -/
def execGetVersion (b : BitVec 2) (s : State) : Res :=
  done (s.spdm b.toNat fun _ s => (s.setSpdm b.toNat { version := true }).spdmSend 0x04 [0x13])

/-- GET_CAPABILITIES: after GET_VERSION, in version 1.3. -/
def execGetCapabilities (b : BitVec 2) (version : BitVec 8) (s : State) : Res :=
  done (s.spdm b.toNat fun x s =>
    if !x.version then s.spdmError 4
    else if version ≠ 0x13 then s.spdmError 0x41
    else (s.setSpdm b.toNat { version := true, caps := true }).spdmSend 0x61 [])

/-- NEGOTIATE_ALGORITHMS: ECDSA P-384 with SHA-384 and measurement hash SHA-384 are the only ones; `offered`: the requester offers them. -/
def execNegotiateAlgorithms (b : BitVec 2) (offered : Bool) (s : State) : Res :=
  done (s.spdm b.toNat fun x s =>
    if !(x.version && x.caps) then s.spdmError 4
    else if !offered then s.spdmError 1
    else (s.setSpdm b.toNat { version := true, caps := true, algs := true }).spdmSend 0x63 [])

/-- Certificate chain of slot 0: DeviceID, then Alias (R392, R393). -/
def spdmChain (s : State) : List Byte := Config.bytes 0x5343 [s.sec.fuses.uds.toNat, s.sec.image.toNat, s.fld F.SEC_SVN.RUNNING, s.lifecycle]

/-- GET_DIGESTS. -/
def execGetDigests (b : BitVec 2) (s : State) : Res :=
  done (s.spdmReady b.toNat fun s => s.spdmSend 0x01 [(Config.digest ((spdmChain s).map (·.toNat))).toNat])

/-- GET_CERTIFICATE: slot 0 alone holds a chain. -/
def execGetCertificate (b : BitVec 2) (slot : BitVec 8) (off len : BitVec 16) (s : State) : Res :=
  done (s.spdmReady b.toNat fun s =>
    let c := (spdmChain s).map (·.toNat)
    if slot ≠ 0 || c.length ≤ off.toNat then s.spdmError 1
    else s.spdmSend 0x02 ((c.drop off.toNat).take len.toNat))

/-- Measurements 1 to 6 (R393): the value measured of each. -/
def measurement (s : State) (i : Nat) : List Nat :=
  match i with
  | 1 => leBytes (s.fld F.BOOT_ROM_REV.ROM_REV) 2
  | 2 => leBytes s.sec.sec30.toNat 48
  | 3 => leBytes s.sec.image.toNat 48
  | 4 => [s.fld F.SEC_SVN.RUNNING, s.sec.fuses.svn, s.lifecycle]
  | 5 => leBytes (s.prevHash s.sec.ledger.head).toNat 48
  | _ => leBytes s.sec.m6.toNat 48

/-- Measurement blocks of an index: 0xFF all of them. -/
def measurements (s : State) (index : Nat) : List Nat :=
  if index = 0xFF then (List.range 6).flatMap fun k => (k + 1) :: measurement s (k + 1)
  else index :: measurement s index

/-- Signature by the Alias key over what is answered. -/
def aliasSign (s : State) (l : List Nat) : List Nat := (Config.bytes 0x5341 (s.sec.aliasId.toNat :: l)).map (·.toNat)

/-- CHALLENGE: signed with the Alias key. -/
def execChallenge (b : BitVec 2) (slot : BitVec 8) (nonce : BitVec 256) (s : State) : Res :=
  done (s.spdmReady b.toNat fun s =>
    if slot ≠ 0 then s.spdmError 1
    else
      let (k, s) := s.freshKey
      let l := (Config.digest ((spdmChain s).map (·.toNat))).toNat :: k.toNat :: nonce.toNat :: measurements s 0xFF
      s.spdmSend 0x03 (l ++ aliasSign s l))

/-- GET_MEASUREMENTS: index 0 asks how many there are, 1 to 6 one, 0xFF all; signed if asked. -/
def execGetMeasurements (b : BitVec 2) (index : BitVec 8) (sign : Bool) (nonce : BitVec 256) (s : State) : Res :=
  let i := index.toNat
  done (s.spdmReady b.toNat fun s =>
    if 6 < i && i ≠ 0xFF then s.spdmError 1
    else
      let (k, s) := s.freshKey
      let l := (if i = 0 then [6] else measurements s i) ++ [k.toNat, nonce.toNat]
      s.spdmSend 0x60 (if sign then l ++ aliasSign s l else l))

/-- MCTP_ECHO (R412, R475): a Fjargohus vendor-defined message comes back with its payload of at most 64 B. -/
def execMctpEcho (smbus : Bool) (payload : List Byte) (s : State) : Res :=
  if 64 < payload.length || (s.pwr.s3 && !smbus) then done s
  else done ((s.mctpWake (if smbus then 2 else 0)).emit (.mctp payload))

end Sys2Proof.Machine
end

