-- ==== Sys2Proof/Machine/Tenants.lean ====
section
/-! DEFINITION. Tenant Set-up (R182 to R184, R186, R192, R206 to R212, R220, R221, R381, R382). -/
namespace Sys2Proof.Machine

/-- A Tenant Set-up action on a function, by the order of checks of R184: `reserved`: a reserved bit of CDW10 or CDW11 is set. Every action but
Create and Read record needs a tenant; none but these two may find it RESETTING. -/
def State.tenantCmd (s : State) (f : Nat) (cid : BitVec 16) (fn : Nat) (reserved : Bool) (k : State → State) : State :=
  s.pfOnly f cid fun s =>
    if reserved then s.adminDone f cid 0 0x02
    else if s.tenState fn = 0 then s.adminDone f cid 7 0x80
    else if s.tenState fn = 3 then s.adminDone f cid 7 0x83
    else k s

/-- A share is within the pool (R184). -/
def shareOk (s : State) (n : Nat) : Bool := decide (n ≤ poolCount s)

/-- Set the share in force of an account, and SHARE of every record that names it (R192). -/
def State.setShare (s : State) (a n : Nat) : State :=
  let s := s.setFld (F.BPM_SHARE.SHARE.ix a) n
  (s.each (s.tenants.filter fun f => s.tenAccount f == a) fun s f => s.tjrn 5 f 1 n).bpmEval a

/-- CREATE_TENANT (R183): action 0x01; the account is the function's own. -/
def execCreateTenant (f : BitVec 12) (cid : BitVec 16) (fn : BitVec 12) (share : BitVec 32) (cls : BitVec 8) (reserved : Bool) (s : State) : Res :=
  let f := f.toNat
  let g := fn.toNat
  done (s.pfOnly f cid fun s =>
    if reserved then s.adminDone f cid 0 0x02
    else if s.tenState g ≠ 0 then s.adminDone f cid 7 0x81
    else if 7 < cls.toNat || !shareOk s share.toNat then s.adminDone f cid 0 0x02
    else
      let s := s.each ([2, 3, 4] : List Nat) fun s w => s.tjrn 5 g w 0
      let s := s.tjrn 5 g 0 (tenWord0 1 cls.toNat g)
      (s.setShare g share.toNat).ok f cid)

/-- SET_QOS_CLASS (R183, R186): action 0x02. -/
def execSetQosClass (f : BitVec 12) (cid : BitVec 16) (fn : BitVec 12) (cls : BitVec 8) (reserved : Bool) (s : State) : Res :=
  let f := f.toNat
  let g := fn.toNat
  done (s.tenantCmd f cid g reserved fun s =>
    if 7 < cls.toNat then s.adminDone f cid 0 0x02
    else (s.tjrn 5 g 0 (setBits (s.tenWord g 0) 2 3 cls.toNat)).ok f cid)

/-- SET_SHARE (R183, R192): action 0x03. -/
def execSetShare (f : BitVec 12) (cid : BitVec 16) (fn : BitVec 12) (share : BitVec 32) (reserved : Bool) (s : State) : Res :=
  let f := f.toNat
  let g := fn.toNat
  done (s.tenantCmd f cid g reserved fun s =>
    if !shareOk s share.toNat then s.adminDone f cid 0 0x02
    else (s.setShare (s.tenAccount g) share.toNat).ok f cid)

/-- A binding range: first tag, count, first slot (R381). -/
structure TagRange where
  first : BitVec 16 := 0
  count : BitVec 16 := 0
  slot : BitVec 16 := 0
deriving DecidableEq, Repr

def TagRange.of (w : BitVec 64) : TagRange := { first := w.setWidth 16, count := (w >>> 16).setWidth 16, slot := (w >>> 32).setWidth 16 }
/-- Bits [63:48] are 0, and the range ends within tag and slot 65 535; a used range starts at tag 1 or later. -/
def tagRangeOk (w : BitVec 64) : Bool :=
  let r := TagRange.of w
  w.toNat / 2 ^ 48 == 0 && (r.count == 0 || (decide (1 ≤ r.first.toNat) && decide (r.first.toNat + r.count.toNat ≤ 65536) &&
    decide (r.slot.toNat + r.count.toNat ≤ 65536)))
def TagRange.meets (a b : TagRange) : Bool :=
  a.count != 0 && b.count != 0 && (spansMeet a.first.toNat a.count.toNat b.first.toNat b.count.toNat || spansMeet a.slot.toNat a.count.toNat b.slot.toNat b.count.toNat)
/-- The range binds a tag to a slot. -/
def TagRange.binds (r : TagRange) (tag slot : Nat) : Bool :=
  decide (r.first.toNat ≤ tag) && decide (tag < r.first.toNat + r.count.toNat) && decide (slot + r.first.toNat = r.slot.toNat + tag)

/-- A slot of the range holds a MEK or is bound to another function (R382). -/
def TagRange.taken (s : State) (fn : Nat) (r : TagRange) : Bool :=
  s.mekSlots.any (fun k => decide (r.slot.toNat ≤ k) && decide (k < r.slot.toNat + r.count.toNat)) ||
  (s.tenants.filter (· != fn)).any fun g => (s.bindings g).any fun (_, n, k) => r.count != 0 && spansMeet r.slot.toNat r.count.toNat k n

/-- Unbind slots of a function (R378, R382): those with a key, or with admitted commands, wait for their zeroization. -/
def State.unbind (s : State) (fn : Nat) (slots : List Nat) (words : Option (Nat × Nat)) (owner : Nat × BitVec 16) : State :=
  let busy := slots.filter fun k => (s.slotKey k).isSome || sgetD 0 k s.sec.counts != 0
  let u : Unbind := { func := fn, slots := busy, words := words, owner := some owner }
  ({ s with sec := { s.sec with
    unbinds := s.sec.unbinds ++ [u]
    clearing := s.sec.clearing ++ busy.map fun k => (k, none) } }).unbindsEval

/-- BIND_KEY_TAGS (R183, R381, R382): action 0x04 with the new words 2 and 3. -/
def execBindKeyTags (f : BitVec 12) (cid : BitVec 16) (fn : BitVec 12) (word2 word3 : BitVec 64) (reserved : Bool) (s : State) : Res :=
  let f := f.toNat
  let g := fn.toNat
  let a := TagRange.of word2
  let b := TagRange.of word3
  done (s.tenantCmd f cid g reserved fun s =>
    if !tagRangeOk word2 || !tagRangeOk word3 || a.meets b then s.adminDone f cid 0 0x02
    else if a.taken s g || b.taken s g then s.adminDone f cid 7 0x82
    else
      let gone := (s.bindings g).flatMap fun (t, n, k) => (List.range n).filterMap fun i =>
        if a.binds (t + i) (k + i) || b.binds (t + i) (k + i) then none else some (k + i)
      s.unbind g gone (some (word2.toNat, word3.toNat)) (f, cid))

/-- Slots bound to a function's tags. -/
def slotBound (s : State) (fn k : Nat) : Bool := (s.bindings fn).any fun (_, n, a) => decide (a ≤ k) && decide (k < a + n)

/-- An Install Entries action (R183, R206 to R208): `badHeader`: the header's MODE, COUNT or zero bytes are wrong. -/
def State.installAction (s : State) (f : Nat) (cid : BitVec 16) (fn mode : Nat) (recs : List ScRec) (reserved badHeader : Bool) : State :=
  s.tenantCmd f cid fn reserved fun s =>
    if badHeader then s.adminDone f cid 0 0x02
    else match s.installEntries fn mode (slotBound s fn) recs with
      | .error (sct, sc) => s.adminDone f cid sct sc
      | .ok s => s.ok f cid

/-- INSTALL_ENTRIES_REPLACE (R206, R210): mode 0. -/
def execInstallEntriesReplace (f : BitVec 12) (cid : BitVec 16) (fn : BitVec 12) (recs : List ScRec) (reserved badHeader : Bool) (s : State) : Res :=
  done (s.installAction f.toNat cid fn.toNat 0 recs reserved badHeader)
/-- INSTALL_ENTRIES_ADD (R206, R210): mode 1. -/
def execInstallEntriesAdd (f : BitVec 12) (cid : BitVec 16) (fn : BitVec 12) (recs : List ScRec) (reserved badHeader : Bool) (s : State) : Res :=
  done (s.installAction f.toNat cid fn.toNat 1 recs reserved badHeader)
/-- INSTALL_ENTRIES_REMOVE (R206, R207, R210): mode 2. -/
def execInstallEntriesRemove (f : BitVec 12) (cid : BitVec 16) (fn : BitVec 12) (recs : List ScRec) (reserved badHeader : Bool) (s : State) : Res :=
  done (s.installAction f.toNat cid fn.toNat 2 recs reserved badHeader)

/-- Pages of 4 KiB of the filter store (R217). -/
def storeSize : Nat := 2048

/-- An assembly ends in failure: it is discarded. -/
def State.dropAssembly (s : State) (fn : Nat) : State := { s with host := { s.host with assembly := sdel fn s.host.assembly } }

/-- The assembled image is stored (R219, R220): its identifier is no other function's, and the store has room for it beside the old one. -/
def State.storeFilter (s : State) (f : Nat) (cid : BitVec 16) (fn : Nat) (bytes : List Byte) : State :=
  let img := bytes.take (imgLe bytes 0x18 4)
  let id := imgLe img 6 2
  let s := s.dropAssembly fn
  let t := s.dropFilter fn
  if !filterOk img || (s.tenants.filter (· != fn)).any (fun g => tenFilter s g == id) then s.adminDone f cid 0 0x02
  else if storeSize < storePages t + (img.length + 4095) / 4096 then s.adminDone f cid 7 0x82
  else ({ t with sc := { t.sc with filters := sput fn img t.sc.filters } }.tjrn 5 fn 4 (setBits (s.tenWord fn 4) 0 16 id)).ok f cid

/-- INSTALL_FILTER (R220): action 0x06; chunk 0 starts a new assembly, each later one continues it, and LAST ends it. -/
def execInstallFilter (f : BitVec 12) (cid : BitVec 16) (fn : BitVec 12) (chunk : BitVec 10) (last : Bool) (bytes : List Byte) (reserved : Bool) (s : State) : Res :=
  let f := f.toNat
  let g := fn.toNat
  let k := chunk.toNat
  let data := (bytes ++ List.replicate 4096 0).take 4096
  done (s.tenantCmd f cid g reserved fun s =>
    let old : List Byte := if k = 0 then [] else match sget g s.host.assembly with
      | some (n, l) => if n = k then l else []
      | none => []
    let all := old ++ data
    let len := imgLe all 0x18 4
    if (k ≠ 0 && old.isEmpty) || len ≤ 4096 * k || 514 < k then (s.dropAssembly g).adminDone f cid 0 0x02
    else if last then s.storeFilter f cid g all
    else { s with host := { s.host with assembly := sput g (k + 1, all) s.host.assembly } }.ok f cid)

/-- REMOVE_TENANT (R184, R221): action 0x07, on an OFFLINE function with no namespace attached. -/
def execRemoveTenant (f : BitVec 12) (cid : BitVec 16) (fn : BitVec 12) (reserved : Bool) (s : State) : Res :=
  let f := f.toNat
  let g := fn.toNat
  done (s.tenantCmd f cid g reserved fun s =>
    if s.tenState g = 2 || s.isPf g || !(s.func g).attached.isEmpty then s.adminDone f cid 7 0x83
    else (s.dropAssembly g).unbind g (s.boundSlots g) none (f, cid))

/-- READ_RECORD (R183): action 0x08, the 64 bytes of the record. -/
def execReadRecord (f : BitVec 12) (cid : BitVec 16) (fn : BitVec 12) (reserved : Bool) (s : State) : Res :=
  let f := f.toNat
  let g := fn.toNat
  done (s.pfOnly f cid fun s =>
    if reserved then s.adminDone f cid 0 0x02
    else (s.emit (.bytes f cid (toBytes ((List.range 8).flatMap fun w => leBytes (s.tenWord g w) 8)))).ok f cid)

end Sys2Proof.Machine
end

