-- ==== Sys2Proof/Machine/TestAccess.lean ====
section
/-! DEFINITION. Loop-backs, lanes, the TAP, instruments and Device Self-test (18_test.md). -/
namespace Sys2Proof.Machine

/-! ### Loop-backs (R475 to R478) -/

/-- LOOPBACK_START (R475): START with the rest of TST_LB_CTRL in `v`, from the PF of port `pf` or through the IEEE 1687 network. -/
def execLoopbackStart (pf via1687 trainOk : Bool) (v : Word) (s : State) : Res :=
  done ((s.storeReg R.TST_LB_CTRL v).loopStart pf via1687 trainOk)

/-- LOOPBACK_STOP (R475). -/
def execLoopbackStop (v : Word) (s : State) : Res := done (s.storeReg R.TST_LB_CTRL v).loopStop

/-- PAD_BURST_END (R476): sent again, it begins the next burst once the host requests of the channel have started. -/
def execPadBurstEnd (chan : BitVec 5) (s : State) : Res := done (s.burstEnd chan.toNat)

/-- LOOPBACK_COMPLETE (R477): `errors` counts the mismatches, a decode failure above HARD_CAP being none. -/
def execLoopbackComplete (iface : BitVec 3) (inst : BitVec 6) (errors : BitVec 28) (s : State) : Res :=
  done (s.loopComplete iface.toNat inst.toNat errors.toNat)

/-! ### Lanes (R479, R480) -/

/-- PRBS_LOCK (R479): 1 024 error-free bits on a checker that is on, its lane in loop-back; `errs`: errors counted since. -/
def execPrbsLock (k : BitVec 4) (errs : Word) (s : State) : Res :=
  let k := k.toNat
  if 12 ≤ k then noUnit
  else if s.flag (F.TST_PRBS.CHK_EN.ix k) && laneLooped s k then done ((s.raise (F.TST_PRBS.LOCKED.ix k)).prbsCount k errs.toNat)
  else done s

/-- PRBS_LOCK_LOSS (R479): the count stops at what it has reached. -/
def execPrbsLockLoss (k : BitVec 4) (errs : Word) (s : State) : Res :=
  let k := k.toNat
  if 12 ≤ k then noUnit
  else if s.flag (F.TST_PRBS.LOCKED.ix k) then done ((s.clear (F.TST_PRBS.LOCKED.ix k)).prbsCount k errs.toNat)
  else done s

/-- MARGIN_POINT_START (R480): a write of TST_MARGIN_CTRL with START. -/
def execMarginPointStart (v : Word) (s : State) : Res := done (s.storeReg R.TST_MARGIN_CTRL v).marginStart

/-- MARGIN_DONE (R480). -/
def execMarginDone (errors : Word) (s : State) : Res :=
  match s.tst.margin with
  | none => done s
  | some _ => done ({ ((s.setReg R.TST_MARGIN_RES errors).raise F.TST_MARGIN_CTRL.DONE) with tst := { s.tst with margin := none } })

/-! ### TAP (R481, R482) -/

/-- A TAP instruction becomes current; TRST# low holds Test-Logic-Reset. -/
def State.tapLoad (s : State) (i : TapIr) : State := if s.tst.trst then s else { s with tst := { s.tst with tap := i } }

/-- An EXTEST-class instruction (R482): it takes effect while PERST# is asserted or SCAN_EN = 1; else it acts as BYPASS. -/
def State.tapScan (s : State) (i : TapIr) (driven : Option Nat) : State :=
  if s.tst.trst then s
  else if !s.boot.perst || s.flag F.TST_CTRL.SCAN_EN then
    { s with tst := { s.tst with tap := i, extest := true, driven := driven } }
  else { (s.raise F.TST_STATUS.SCAN_REFUSED) with tst := { s.tst with tap := .bypass, bypassBit := false } }

/-- BYPASS (R481): the bypass register captures 0 (IEEE 1149.1). -/
def execBypass (s : State) : Res := done (if s.tst.trst then s else { (s.tapLoad .bypass) with tst := { (s.tapLoad .bypass).tst with bypassBit := false } })
/-- IDCODE (R481): version 2, part 0x9680, manufacturer 0x71E. -/
def execIdcode (s : State) : Res := done (if s.tst.trst then s else (s.tapLoad .idcode).emit (.tdo 0x29680E3D))
/-- SAMPLE_PRELOAD (R481): the levels of the balls come out, and `cells` goes into the boundary cells. -/
def execSamplePreload (pins cells : Nat) (s : State) : Res :=
  done (if s.tst.trst then s else ({ (s.tapLoad .sample) with tst := { (s.tapLoad .sample).tst with cells := cells } }).emit (.tdo pins))
/-- EXTEST (R482). -/
def execExtest (s : State) : Res := done (s.tapScan .extest (some s.tst.cells))
/-- EXTEST_PULSE (R482). -/
def execExtestPulse (s : State) : Res := done (s.tapScan .extestPulse (some s.tst.cells))
/-- EXTEST_TRAIN (R482). -/
def execExtestTrain (s : State) : Res := done (s.tapScan .extestTrain (some s.tst.cells))
/-- CLAMP (R482): the balls keep the cells' values. -/
def execClamp (s : State) : Res := done (s.tapScan .clamp (some s.tst.cells))
/-- HIGHZ (R482): no ball is driven. -/
def execHighz (s : State) : Res := done (s.tapScan .highz none)

/-- EXTEST_EXIT (R482): leaving an EXTEST-class instruction asserts an internal warm reset; the boot that follows meets `b`. -/
def execExtestExit (b : BootIn) (s : State) : Res :=
  if !s.tst.extest then done s
  else
    let tap : TapIr := match s.tst.tap with | .extest | .extestPulse | .extestTrain | .clamp | .highz => .idcode | t => t
    let s := { s with tst := { s.tst with extest := false, driven := none, tap := tap } }
    let s := s.warmReset 2
    done (if s.boot.perst then s.romBoot b else s)

/-- IEEE_1687_ACCESS (R475, R483): a read or write of the TST registers through the network, in every power state. -/
def execIeee1687Access (wr : Bool) (off : BitVec 20) (v : Word) (s : State) : Res :=
  let o := 0x1500000 + off.toNat / 4 * 4
  let s := s.tapLoad .access1687
  if s.tst.trst || (findReg o).isNone then done s
  else if wr then done (s.regWrite o v false true)
  else done ((s.readClear o).emit (.tdo (s.view o).toNat))

/-- TRST (R481): TRST# low holds the TAP in Test-Logic-Reset, where IDCODE is current. -/
def execTrst (low : Bool) (s : State) : Res :=
  done { s with tst := { s.tst with trst := low, tap := if low then .idcode else s.tst.tap } }

/-! ### BIST (R483) -/

/-- SRAM_BIST: a Seating Chart bank goes offline while it is tested and comes back with its rebuild; any other group needs every function
at CC.EN = 0. A failure gives an entry at the next start-up. -/
def execSramBist (g : BitVec 8) (bank : Option (BitVec 4)) (fail : Option Nat) (s : State) : Res :=
  let ok := match bank with | some _ => true | none => s.funcList.all fun f => !(s.func f).en
  if !ok then done s
  else
    let res : BistRes := match fail with | some a => { pass := false, addr := a } | none => { pass := true }
    let s := { s with tst := { s.tst with
      sramBist := sput g.toNat res s.tst.sramBist
      bistFail := if fail.isSome && !s.tst.bistFail.contains g.toNat then g.toNat :: s.tst.bistFail else s.tst.bistFail } }
    match bank with
    | some b => done (s.bankDown b.toNat)
    | none => done s

/-- MRAM_BIST: a read pass, and a write pass of the reserved ranges, which then hold zeros as before, only with the flush path idle. -/
def execMramBist (wr : Bool) (fail : Option Nat) (s : State) : Res :=
  if wr && s.flushing then done s
  else done { s with tst := { s.tst with mramBist := some (match fail with | some a => { pass := false, addr := a } | none => { pass := true }) } }

/-! ### Device Self-test (R484, R485) -/

/-- DEVICE_SELF_TEST_SHORT: a start, or with `seg` the end of the running segment: passed, or failed at an LBA. -/
def execDeviceSelfTestShort (f : BitVec 12) (cid : BitVec 16) (nsid : Word) (seg : Option (Bool × Option Nat)) (s : State) : Res :=
  done (s.selfTestRow f.toNat cid false nsid.toNat seg)

/-- DEVICE_SELF_TEST_EXTENDED: as the short test, with segments 7 to 9. -/
def execDeviceSelfTestExtended (f : BitVec 12) (cid : BitVec 16) (nsid : Word) (seg : Option (Bool × Option Nat)) (s : State) : Res :=
  done (s.selfTestRow f.toNat cid true nsid.toNat seg)

/-- DEVICE_SELF_TEST_ABORT (R485): code 0xF ends the running test with result 1. -/
def execDeviceSelfTestAbort (f : BitVec 12) (cid : BitVec 16) (s : State) : Res :=
  done (s.pfOnly f.toNat cid fun s => (s.stEnd 1).ok f.toNat cid)

/-! ### Seating Chart banks (R215, R216) -/

/-- SC_BACKGROUND_CHECK: a mismatch or parity error takes a bank offline for a rebuild from the shadow; an uncorrectable shadow leaves
it offline. -/
def execScBackgroundCheck (bank : BitVec 4) (shadowOk : Bool) (s : State) : Res := done (s.bankFault bank.toNat shadowOk)

/-- SC_BANK_REBUILD_COMPLETE: a bank is restored from the shadow and comes online; the pre-filter is computed anew. -/
def execScBankRebuildComplete (bank : BitVec 4) (s : State) : Res := done (s.bankRebuilt bank.toNat)

end Sys2Proof.Machine
end

