-- ==== Sys2Proof/Machine/ZynAlu.lean ====
section
/-! DEFINITION. Zyn arithmetic, compares, predicates, special values and scratch accesses (R112 to R117). -/
namespace Sys2Proof.Machine

/-- ADD (R112). -/
def execAdd (i : CtxId) (d a b : BitVec 5) (s : State) : Res := s.alu i 1 d fun c => c.reg a + c.reg b
/-- SUB (R112). -/
def execSub (i : CtxId) (d a b : BitVec 5) (s : State) : Res := s.alu i 1 d fun c => c.reg a - c.reg b
/-- AND (R112). -/
def execAnd (i : CtxId) (d a b : BitVec 5) (s : State) : Res := s.alu i 1 d fun c => c.reg a &&& c.reg b
/-- OR (R112). -/
def execOr (i : CtxId) (d a b : BitVec 5) (s : State) : Res := s.alu i 1 d fun c => c.reg a ||| c.reg b
/-- XOR (R112). -/
def execXor (i : CtxId) (d a b : BitVec 5) (s : State) : Res := s.alu i 1 d fun c => c.reg a ^^^ c.reg b
/-- ANDN (R112). -/
def execAndn (i : CtxId) (d a b : BitVec 5) (s : State) : Res := s.alu i 1 d fun c => c.reg a &&& ~~~(c.reg b)
/-- SHL (R112). -/
def execShl (i : CtxId) (d a b : BitVec 5) (s : State) : Res := s.alu i 1 d fun c => c.reg a <<< ((c.reg b).toNat % 64)
/-- SHR (R112). -/
def execShr (i : CtxId) (d a b : BitVec 5) (s : State) : Res := s.alu i 1 d fun c => c.reg a >>> ((c.reg b).toNat % 64)
/-- SAR (R112): bit 63 is copied. -/
def execSar (i : CtxId) (d a b : BitVec 5) (s : State) : Res := s.alu i 1 d fun c => (c.reg a).sshiftRight ((c.reg b).toNat % 64)
/-- SHLI (R112). -/
def execShli (i : CtxId) (d a : BitVec 5) (n : BitVec 6) (s : State) : Res := s.alu i 1 d fun c => c.reg a <<< n.toNat
/-- SHRI (R112). -/
def execShri (i : CtxId) (d a : BitVec 5) (n : BitVec 6) (s : State) : Res := s.alu i 1 d fun c => c.reg a >>> n.toNat
/-- SARI (R112). -/
def execSari (i : CtxId) (d a : BitVec 5) (n : BitVec 6) (s : State) : Res := s.alu i 1 d fun c => (c.reg a).sshiftRight n.toNat
/-- MULLO (R112): bits [63:0] of the product. -/
def execMullo (i : CtxId) (d a b : BitVec 5) (s : State) : Res := s.alu i 3 d fun c => c.reg a * c.reg b
/-- MULHU (R112): bits [127:64] of the unsigned product. -/
def execMulhu (i : CtxId) (d a b : BitVec 5) (s : State) : Res :=
  s.alu i 3 d fun c => BitVec.ofNat 64 ((c.reg a).toNat * (c.reg b).toNat / 2 ^ 64)
/-- MINU (R112). -/
def execMinu (i : CtxId) (d a b : BitVec 5) (s : State) : Res :=
  s.alu i 1 d fun c => if (c.reg b).toNat < (c.reg a).toNat then c.reg b else c.reg a
/-- MAXU (R112). -/
def execMaxu (i : CtxId) (d a b : BitVec 5) (s : State) : Res :=
  s.alu i 1 d fun c => if (c.reg a).toNat < (c.reg b).toNat then c.reg b else c.reg a
/-- Count of leading zero bits; 64 for 0 (R112). -/
def clz64 (v : Word64) : Nat := if v = 0 then 64 else 63 - Nat.log2 v.toNat
/-- Count of one bits (R112). -/
def popc64 (v : Word64) : Nat := ((List.range 64).filter fun k => v.getLsbD k).length
/-- CLZ (R112). -/
def execClz (i : CtxId) (d a : BitVec 5) (s : State) : Res := s.alu i 1 d fun c => BitVec.ofNat 64 (clz64 (c.reg a))
/-- POPC (R112). -/
def execPopc (i : CtxId) (d a : BitVec 5) (s : State) : Res := s.alu i 1 d fun c => BitVec.ofNat 64 (popc64 (c.reg a))
/-- MOV (R112). -/
def execMov (i : CtxId) (d a : BitVec 5) (s : State) : Res := s.alu i 1 d fun c => c.reg a
/-- SEL (R112). -/
def execSel (i : CtxId) (d a b : BitVec 5) (p : BitVec 3) (s : State) : Res :=
  s.alu i 1 d fun c => if c.pred p then c.reg a else c.reg b

/-- CMP (R113). -/
def execCmp (i : CtxId) (p : BitVec 3) (a b : BitVec 5) (cond : Cond) (comb : Combine) (s : State) : Res :=
  s.predOp i p fun c => combine comb (c.pred p) (condHolds cond (c.reg a) (c.reg b))
/-- CMPI (R113). -/
def execCmpi (i : CtxId) (p : BitVec 3) (cond : BitVec 2) (a : BitVec 5) (imm : BitVec 16) (s : State) : Res :=
  s.predOp i p fun c => condHolds (condOf cond) (c.reg a) (zext16 imm)

/-- PAND (R114). -/
def execPand (i : CtxId) (d a b : BitVec 3) (s : State) : Res := s.predOp i d fun c => c.pred a && c.pred b
/-- POR (R114). -/
def execPor (i : CtxId) (d a b : BitVec 3) (s : State) : Res := s.predOp i d fun c => c.pred a || c.pred b
/-- PXOR (R114). -/
def execPxor (i : CtxId) (d a b : BitVec 3) (s : State) : Res := s.predOp i d fun c => c.pred a != c.pred b
/-- PNOT (R114). -/
def execPnot (i : CtxId) (d a : BitVec 3) (s : State) : Res := s.predOp i d fun c => !c.pred a
/-- PSET (R114). -/
def execPset (i : CtxId) (d : BitVec 3) (s : State) : Res := s.predOp i d fun _ => true
/-- PCLR (R114). -/
def execPclr (i : CtxId) (d : BitVec 3) (s : State) : Res := s.predOp i d fun _ => false

/-- ADDI (R115). -/
def execAddi (i : CtxId) (d a : BitVec 5) (imm : BitVec 16) (s : State) : Res := s.alu i 1 d fun c => c.reg a + sext16 imm
/-- ANDI (R115). -/
def execAndi (i : CtxId) (d a : BitVec 5) (imm : BitVec 16) (s : State) : Res := s.alu i 1 d fun c => c.reg a &&& zext16 imm
/-- ORI (R115). -/
def execOri (i : CtxId) (d a : BitVec 5) (imm : BitVec 16) (s : State) : Res := s.alu i 1 d fun c => c.reg a ||| zext16 imm
/-- XORI (R115). -/
def execXori (i : CtxId) (d a : BitVec 5) (imm : BitVec 16) (s : State) : Res := s.alu i 1 d fun c => c.reg a ^^^ zext16 imm
/-- MOVI (R115). -/
def execMovi (i : CtxId) (d : BitVec 5) (imm : BitVec 16) (s : State) : Res := s.alu i 1 d fun _ => sext16 imm
/-- MOVSH (R115). -/
def execMovsh (i : CtxId) (d : BitVec 5) (imm : BitVec 16) (s : State) : Res := s.alu i 1 d fun c => (c.reg d <<< 16) ||| zext16 imm

/-- SVR (R74, R116). -/
def execSvr (i : CtxId) (d : BitVec 5) (name : BitVec 12) (s : State) : Res :=
  s.issue i 2 1 pAll fun c s =>
    match svr s i c name with
    | some v => s.modCtx i (·.setReg d v)
    | none => s.trap i cIllegal c.pc
/-- SVW (R74, R116). -/
def execSvw (i : CtxId) (name : BitVec 12) (a : BitVec 5) (s : State) : Res :=
  s.issue i 2 1 pAll fun c s => (svw s i c name (c.reg a)).getD (s.trap i cIllegal c.pc)

/-- A load of `n` bytes from scratch (R117). -/
def State.load (s : State) (i : CtxId) (n : Nat) (d a : BitVec 5) (imm : BitVec 16) : Res :=
  s.issue i 2 1 pAll fun c s =>
    match scratchAddr c a imm n with
    | .ok addr =>
      if s.scratchPoison i.part addr then s.busError i c.pc (BitVec.ofNat 64 addr)
      else s.modCtx i (·.setReg d (BitVec.ofNat 64 (s.scratchN i.part addr n)))
    | .error addr => s.trap i cScratch c.pc addr
/-- A store of the low `n` bytes of d to scratch (R117). -/
def State.store (s : State) (i : CtxId) (n : Nat) (d a : BitVec 5) (imm : BitVec 16) : Res :=
  s.issue i 1 1 pAll fun c s =>
    match scratchAddr c a imm n with
    | .ok addr =>
      if s.scratchPoison i.part addr && n ≠ 8 then s.busError i c.pc (BitVec.ofNat 64 addr)
      else
        let s := (s.healScratch i.part addr).setScratchN i.part addr (c.reg d).toNat n
        s.when (n == 8) (·.inject 4 (i.part * 65536 + addr))
    | .error addr => s.trap i cScratch c.pc addr

/-- LD8 (R117). -/
def execLd8 (i : CtxId) (d a : BitVec 5) (imm : BitVec 16) (s : State) : Res := s.load i 1 d a imm
/-- LD16 (R117). -/
def execLd16 (i : CtxId) (d a : BitVec 5) (imm : BitVec 16) (s : State) : Res := s.load i 2 d a imm
/-- LD32 (R117). -/
def execLd32 (i : CtxId) (d a : BitVec 5) (imm : BitVec 16) (s : State) : Res := s.load i 4 d a imm
/-- LD64 (R117). -/
def execLd64 (i : CtxId) (d a : BitVec 5) (imm : BitVec 16) (s : State) : Res := s.load i 8 d a imm
/-- ST8 (R117). -/
def execSt8 (i : CtxId) (d a : BitVec 5) (imm : BitVec 16) (s : State) : Res := s.store i 1 d a imm
/-- ST16 (R117). -/
def execSt16 (i : CtxId) (d a : BitVec 5) (imm : BitVec 16) (s : State) : Res := s.store i 2 d a imm
/-- ST32 (R117). -/
def execSt32 (i : CtxId) (d a : BitVec 5) (imm : BitVec 16) (s : State) : Res := s.store i 4 d a imm
/-- ST64 (R117). -/
def execSt64 (i : CtxId) (d a : BitVec 5) (imm : BitVec 16) (s : State) : Res := s.store i 8 d a imm

end Sys2Proof.Machine
end

