-- ==== Sys2Proof/Machine/ZynControl.lean ====
section
/-! DEFINITION. Branches, calls, the end of an activation, loops and undefined encodings (R105, R106, R139 to R141). -/
namespace Sys2Proof.Machine

/-- A branch target: words from the branch itself (R106). A target below word 0 lies outside every code section. -/
def branchPc (pc : Nat) (off : Int) : Nat :=
  let t := (pc : Int) + off
  if t < 0 then 2 ^ 18 else t.toNat

/-- Take a branch. -/
def State.branch (s : State) (i : CtxId) (pc : Nat) (off : Int) : State := s.modCtx i fun c => { c with pc := branchPc pc off }

/-- BR (R139). -/
def execBr (i : CtxId) (off : BitVec 23) (s : State) : Res :=
  s.issue i 2 1 pAll fun c s => s.branch i c.pc off.toInt

/-- BR.V (R139, R141): also ends the bus-error vector state. -/
def execBrV (i : CtxId) (off : BitVec 23) (s : State) : Res :=
  s.issue i 2 1 pAll fun c s => (s.branch i c.pc off.toInt).modCtx i fun c => { c with inVec := false }

/-- A conditional branch: 2 cycles taken, 1 not (R139). -/
def State.condBranch (s : State) (i : CtxId) (off : BitVec 23) (p : BitVec 3) (want : Bool) : Res :=
  s.issue i 1 1 pAll fun c s =>
    if c.pred p == want then (s.branch i c.pc off.toInt).modCtx i fun c => { c with used := c.used + 1 } else s

/-- BRP (R139). -/
def execBrp (i : CtxId) (p : BitVec 3) (off : BitVec 23) (s : State) : Res := s.condBranch i off p true
/-- BRP !p (R139). -/
def execBrpFalse (i : CtxId) (p : BitVec 3) (off : BitVec 23) (s : State) : Res := s.condBranch i off p false

/-- CALL (R139). -/
def execCall (i : CtxId) (off : BitVec 23) (s : State) : Res :=
  s.issue i 2 1 pAll fun c s =>
    if 8 ≤ c.stack.length then s.trap i cCallDepth c.pc
    else (s.branch i c.pc off.toInt).modCtx i fun d => { d with stack := (c.pc + 1) :: c.stack }

/-- The activation ends (R73, R83: a MAP activation of a command confirms to it by a STEP, DEDUCED; R102, R303, R419, R420, R516). -/
def State.endActivation (s : State) (i : CtxId) (c : Ctx) : State :=
  let s := s.idle i
  let s := if i.cls == .pol && c.kind == 3 then s.endFault c else s
  let s := if i.cls == .map && c.kind == 5 then s.imagePage c.arg0.toNat else s
  let s := match c.cmd with
    | some x => s.when (i.cls == .map && decide (c.kind.toNat ≤ 2) && (s.cmd x).isSome) fun s => let (code, s) := s.draw; s.cmdActivate 2 x code
    | none => s
  let s := if i.cls == .seq && c.kind == 1 then s.freeSlot (stKey i.eng (c.arg0.toNat % 128)) else s
  if c.kind == 0x1F then s.endRestore i else s

/-- RET (R139): a pop, or the end of the activation; ACT_OPEN with a zone lock held or a tagged operation outstanding, CALL_DEPTH
in the vector state (R99, R138). -/
def execRet (i : CtxId) (s : State) : Res :=
  s.issue i 2 1 pAll fun c s =>
    match c.stack with
    | r :: t => s.modCtx i fun c => { c with pc := r, stack := t }
    | [] =>
      if c.inVec then s.trap i cCallDepth c.pc
      else if c.openTags != 0 || !c.zlocks.isEmpty then s.trap i cActOpen c.pc
      else s.endActivation i c

/-- LOOPN (R140). -/
def execLoopn (i : CtxId) (r e : BitVec 5) (off : BitVec 16) (s : State) : Res :=
  s.issue i 1 1 pAll fun c s =>
    if 24 < e.toNat || 0 ≤ off.toInt then s.trap i cIllegal c.pc
    else
      let n := min (c.reg r).toNat (2 ^ e.toNat)
      if n ≤ 1 then s.modCtx i (·.setReg r 0)
      else (s.branch i c.pc off.toInt).modCtx i fun c => ({ c with used := c.used + 1 }).setReg r (BitVec.ofNat 64 (n - 1))

/-- UNDEFINED_INSTRUCTION (R101, R105): an undefined encoding traps with ILLEGAL, a bus error on the fetch always with BUS_ERROR. -/
def execUndefinedInstruction (i : CtxId) (busErr : Bool) (s : State) : Res :=
  s.issue i 0 1 pAll fun c s => if busErr then s.trap i cBusError c.pc (BitVec.ofNat 64 c.pc) else s.trap i cIllegal c.pc

end Sys2Proof.Machine
end

