-- ==== Sys2Proof/Machine/ZynQueue.lean ====
section
/-! DEFINITION. Mailboxes, dispatch requests, WEV and SEV (R121 to R124). -/
namespace Sys2Proof.Machine

def State.mailbox (s : State) (k : Nat) : List Word64 := sgetD [] k s.zyn.mail
def State.setMailbox (s : State) (k : Nat) (l : List Word64) : State :=
  { s with zyn := { s.zyn with mail := sputD [] k l s.zyn.mail } }

/-- Bind a mailbox to a context; its event is set at binding if the mailbox holds an entry (R123). -/
def State.bindMail (s : State) (i : CtxId) (k : Nat) : State :=
  if sget k s.zyn.mailOwner = some i.key then s
  else
    let s := { s with zyn := { s.zyn with mailOwner := sput k i.key s.zyn.mailOwner } }
    s.when (!(s.mailbox k).isEmpty) (·.zynEvent i (16 + k % 8))

/-- Append to a mailbox that is not full; from empty to non-empty its event goes to the bound context (R123). -/
def State.pushMail (s : State) (k : Nat) (v : Word64) : State :=
  let l := s.mailbox k
  let s := s.setMailbox k (l ++ [v])
  match l, sget k s.zyn.mailOwner with
  | [], some o => s.zynEvent (CtxId.ofKey o) (16 + k % 8)
  | _, _ => s

/-- QPOP and QPEEK (R122). -/
def State.popOrPeek (s : State) (i : CtxId) (d : BitVec 5) (h : BitVec 8) (p : BitVec 3) (pop : Bool) : Res :=
  s.issue i 2 1 pAll fun c s =>
    match popHandle i h with
    | none => s.trap i cIllegal c.pc
    | some k =>
      let s := s.bindMail i k
      match s.mailbox k with
      | [] => s.modCtx i (·.setPred p false)
      | v :: t => (s.when pop (·.setMailbox k t)).modCtx i fun c => (c.setReg d v).setPred p true

/-- QPOP (R122, R123). -/
def execQpop (i : CtxId) (d : BitVec 5) (h : BitVec 8) (p : BitVec 3) (s : State) : Res := s.popOrPeek i d h p true
/-- QPEEK (R122, R123). -/
def execQpeek (i : CtxId) (d : BitVec 5) (h : BitVec 8) (p : BitVec 3) (s : State) : Res := s.popOrPeek i d h p false

/-- Command bound to a pushed request: kinds whose ARG0 is a command context index (R83). -/
def requestCmd (s : State) (cls : EngClass) (kind : Nat) (arg0 : Nat) : Option Nat :=
  let names := match cls with
    | .cmd => decide (kind ≤ 3) | .map => decide (kind ≤ 2) | .seq => false | .pol => kind == 7
  if names && (s.cmd arg0).isSome then some arg0 else none

/-- Engine of the class's dispatch affinity (R70, R229): the command's context index, its map slice, the channel of the
request, or the lowest POL engine with an idle context. -/
def affinity (s : State) (cls : EngClass) (kind : Nat) (arg0 : Nat) : Nat :=
  match cls with
  | .cmd => arg0 % 16
  | .map => match (requestCmd s .map kind arg0).bind s.cmd with
    | some x =>
      let n := x.sqe.nsid.toNat
      (n + (if s.nsZoned n then x.sqe.slba / 2 ^ s.nsLogZsze n else x.sqe.slba / 4096)) % 8
    | none => arg0 % 8
  | .seq => arg0 % 32
  | .pol => s.polEngine

/-- The request disposes of the command of the FAULT activation that pushes it (R102). -/
def Ctx.disposes (c : Ctx) (cls : EngClass) (kind arg0 : Nat) : Bool :=
  match c.fault with
  | some f => f.cmd == some arg0 && ((cls == .cmd && kind == 2) || (cls.num == f.ctxId.toNat / 512 && kind == f.kind.toNat))
  | none => false

/-- QPUSH (R121, R122, R102). -/
def execQpush (i : CtxId) (d a b : BitVec 5) (h : BitVec 8) (p : BitVec 3) (s : State) : Res :=
  s.issue i 2 1 pAll fun c s =>
    match pushHandle i h (c.reg a) with
    | none => s.trap i cIllegal c.pc
    | some (.mailbox k _ _) =>
      if (s.mailbox k).length < 256 then (s.pushMail k (c.reg b)).modCtx i (·.setPred p true)
      else s.modCtx i (·.setPred p false)
    | some (.dispatch cls) =>
      let kind := (c.reg a).toNat % 32
      let e := (c.reg a).toNat / 32 % 64
      let arg0 := (c.reg b).toNat
      if e ≠ 0x3F && decide (cls.engines ≤ e) then s.trap i cIllegal c.pc
      else
        let eng := if e = 0x3F then affinity s cls kind arg0 else e
        if !s.queueFull (cls.part + eng) then
          let r : Request := { kind := BitVec.ofNat 5 kind, arg0 := c.reg b, arg1 := c.reg d, origin := .background,
                               cmd := requestCmd s cls kind arg0 }
          let s := s.when (c.disposes cls kind arg0) (·.modCtx i fun c => { c with disposed := true })
          (s.request cls eng r).modCtx i (·.setPred p true)
        else s.modCtx i (·.setPred p false)

/-- WEV (R86, R124): a flag of the mask that is set already is consumed at once. -/
def execWev (i : CtxId) (d a : BitVec 5) (s : State) : Res :=
  s.issue i 1 1 pAll fun c s =>
    let m := c.reg a
    if m = 0 then s.trap i cIllegal c.pc
    else match lowBit (c.events &&& m) with
      | some k => s.modCtx i fun c => ({ c with events := c.events &&& ~~~(1#64 <<< k) }).setReg d (BitVec.ofNat 64 k)
      | none => s.blockOn i (.events m d)

/-- SEV (R87, R124): the same class, or any class from the Policy profile. -/
def execSev (i : CtxId) (a : BitVec 5) (n : BitVec 4) (s : State) : Res :=
  s.issue i 2 1 pAll fun c s =>
    let t := (c.reg a).toNat
    let j := CtxId.ofKey t
    if decide (2 ^ 11 ≤ t) || !j.valid || !(i.cls == .pol || j.cls == i.cls) then s.trap i cIllegal c.pc
    else s.zynEvent j (32 + n.toNat)

end Sys2Proof.Machine
end

