-- ==== Sys2Proof/Machine/ZynTable.lean ====
section
/-! DEFINITION. Table instructions and the return of their data (R78 to R81, R118 to R120, R514). -/
namespace Sys2Proof.Machine

/-- TGET (R119). -/
def execTget (i : CtxId) (d a : BitVec 5) (tbl : BitVec 8) (s : State) : Res :=
  s.tableInstr i 4 pAll tabRead false a tbl (fun _ => none) (fun _ => .get d)

/-- TPUT (R119): TABLE_PERM on a journaled table (R79), which grants no W right. -/
def execTput (i : CtxId) (a b : BitVec 5) (tbl : BitVec 8) (s : State) : Res :=
  s.tableInstr i 3 pPut tabW true a tbl (fun c => some (c.reg b)) (fun c => .put (c.reg b))

/-- TCAS (R119, R120): the J right on a journaled table, the W right on another. -/
def execTcas (i : CtxId) (d a b : BitVec 5) (tbl : BitVec 8) (p : BitVec 3) (s : State) : Res :=
  s.tableInstr i 6 pJrn (fun k t => if tabJournaled t then tabJ k t else tabW k t) true a tbl
    (fun c => some (c.reg b)) (fun c => .cas d (c.reg d) (c.reg b) p)

/-- TJRN (R119): a table that is not journaled grants no J right. -/
def execTjrn (i : CtxId) (d a b : BitVec 5) (tbl : BitVec 8) (s : State) : Res :=
  s.tableInstr i 5 pJrn tabJ true a tbl (fun c => some (c.reg b)) (fun c => .jrn d (c.reg b))

/-- Data of a blocked table operation arrives: the operation is applied in that slot, or a bus error is taken (R79, R80, R101). -/
def State.tableData (s : State) (i : CtxId) (op : TableOp) (tbl index word : Nat) (err : Bool) : State :=
  let c := s.ctx i
  if err then s.busError i c.last (BitVec.ofNat 64 (index + word * 2 ^ 40 + tbl * 2 ^ 48))
  else if op.writes tbl && s.jnlStalled i then
    s.blockOn i (.journal op (BitVec.ofNat 8 tbl) index word)
  else (s.setCtx i { c with st := .ready }).tableDo i op tbl index word

/-- TABLE_DATA_RETURN (R80, R299, R334): the data of a context's table operation is there, or what it waits for has cleared;
`err` is a bus error of the access. Nothing happens while the journal or the rebuild still holds it. -/
def execTableDataReturn (i : CtxId) (err : Bool) (s : State) : Res :=
  if !i.valid then noUnit
  else match (s.ctx i).st with
    | .blocked (.table op tbl index word) => done (s.tableData i op tbl.toNat index word err)
    | .blocked (.journal op tbl index word) =>
      if op.writes tbl.toNat && s.jnlStalled i then done s else done ((s.access tbl.toNat index).tableData i op tbl.toNat index word err)
    | .blocked (.rebuild op tbl index word) =>
      if s.underRebuild tbl.toNat index then done s else done ((s.access tbl.toNat index).tableData i op tbl.toNat index word err)
    | _ => done s

end Sys2Proof.Machine
end

