-- ==== Sys2Proof/Machine/ZynTime.lean ====
section
/-! DEFINITION. Time, power wait, Roll Call and TRAP (R125 to R128, R417). -/
namespace Sys2Proof.Machine

/-- TNOW (R125). -/
def execTnow (i : CtxId) (d : BitVec 5) (s : State) : Res :=
  s.issue i 2 1 pAll fun _ s => s.modCtx i (·.setReg d (BitVec.ofNat 64 (s.now / 1000)))

/-- PTYPE (R125). -/
def execPtype (i : CtxId) (d : BitVec 5) (s : State) : Res :=
  s.issue i 1 1 pAll fun _ s => s.modCtx i (·.setReg d (BitVec.ofNat 64 s.ptype))

/-- WPER (R125): Policy profile only. -/
def execWper (i : CtxId) (s : State) : Res :=
  s.issue i 1 1 pPol fun _ s => (s.blockOn i .period).modCtx i fun c => { c with events := c.events &&& ~~~(1#64 <<< 24) }

/-- PWAIT (R126, R417): a context whose wake event is set already stays awake. -/
def execPwait (i : CtxId) (s : State) : Res :=
  s.issue i 1 1 pAll fun c s =>
    if c.events &&& 0xFFFFFFFFFFFF#64 != 0 then s else s.modCtx i fun c => { c with st := .asleep }

/-- RCALL of kinds 0 to 2 (R62, R63, R127). -/
def State.rcall (s : State) (i : CtxId) (kind : RcKind) (d a b : BitVec 5) (ring : Bool) (p : BitVec 3) : Res :=
  s.issue i 2 1 pAll fun c s =>
    if ring && i.cls != .pol then s.trap i cIllegal c.pc
    else
      let r : RollCall := { ident := (c.reg b).setWidth 16, kind := kind, mask := c.reg a, arrived := 1#64 <<< i.part,
                            offers := [(i.part, c.reg d)], waiters := [i.key], ring := ring, origin := s.fld F.TH_CTRL.RING_ID }
      let wait (w : Wait) (s : State) : State := s.blockOn i w
      match (wait (.rollCall d p) s).rcJoin r with
      | some t => t
      | none =>
        let s := wait (.rcSlot d p) s
        { s with ttu := { s.ttu with rcBlocked := s.ttu.rcBlocked ++ [(i.key, r)] } }

/-- RCALL_BARRIER (R127). -/
def execRcallBarrier (i : CtxId) (d a b : BitVec 5) (ring : Bool) (p : BitVec 3) (s : State) : Res := s.rcall i .barrier d a b ring p
/-- RCALL_BROADCAST (R127). -/
def execRcallBroadcast (i : CtxId) (d a b : BitVec 5) (ring : Bool) (p : BitVec 3) (s : State) : Res := s.rcall i .broadcast d a b ring p
/-- RCALL_SNAPSHOT (R63, R127). -/
def execRcallSnapshot (i : CtxId) (d a b : BitVec 5) (ring : Bool) (p : BitVec 3) (s : State) : Res := s.rcall i .snapshot d a b ring p

/-- RCALL_COMMIT_VOTE (R64, R65, R85, R127): recorded from the PREPARE activation of a Policy Core up to D = B − 2 µs, whose cycle
still counts. A core that has acked cannot refuse any more (R65): its later vote records nothing. -/
def execRcallCommitVote (i : CtxId) (b : BitVec 5) (p : BitVec 3) (s : State) : Res :=
  s.issue i 2 1 pPol fun c s =>
    let no (s : State) : State := s.modCtx i (·.setPred p false)
    match s.ttu.gc with
    | none => no s
    | some g =>
      if c.kind ≠ 8 || g.acks.getLsbD i.part || decide (g.b.toNat < s.now + 2000) then no s
      else
        let bit : Word64 := 1#64 <<< i.part
        let g := if (c.reg b).getLsbD 16 then { g with acks := g.acks ||| bit, nacks := g.nacks &&& ~~~bit }
                 else { g with nacks := g.nacks ||| bit }
        ({ s with ttu := { s.ttu with gc := some g } }).modCtx i fun c => { c.setPred p true with voted := true }

/-- TRAP (R128). -/
def execTrap (i : CtxId) (imm : BitVec 16) (s : State) : Res :=
  s.issue i 1 1 pAll fun c s => s.trap i cSoftware c.pc (imm.setWidth 64)

end Sys2Proof.Machine
end

