-- ==== Sys2Proof/Machine/Dispatch.lean ====
section
/-! DEFINITION. One arm per command: the call of its meaning. -/
namespace Sys2Proof.Machine

/-- The effect of a command on everything but the queue. -/
def exec (i : Instr) (s : State) : Host.Outcome State Fault Refusal :=
  match i with
  | .coldReset brownOut => Sys2Proof.Machine.execColdReset brownOut s
  | .coldResetRelease b => Sys2Proof.Machine.execColdResetRelease b s
  | .perstAssert => Sys2Proof.Machine.execPerstAssert s
  | .perstRelease b => Sys2Proof.Machine.execPerstRelease b s
  | .ccEnSet f asqs acqs => Sys2Proof.Machine.execCcEnSet f asqs acqs s
  | .recoveryPhase bad => Sys2Proof.Machine.execRecoveryPhase bad s
  | .controllerReset f trainOk => Sys2Proof.Machine.execControllerReset f trainOk s
  | .normalShutdown f => Sys2Proof.Machine.execNormalShutdown f s
  | .abruptShutdown f => Sys2Proof.Machine.execAbruptShutdown f s
  | .hotReset port trainOk => Sys2Proof.Machine.execHotReset port trainOk s
  | .functionLevelReset f late => Sys2Proof.Machine.execFunctionLevelReset f late s
  | .flrComplete f => Sys2Proof.Machine.execFlrComplete f s
  | .vfEnableClear pf n late => Sys2Proof.Machine.execVfEnableClear pf n late s
  | .bellEdge => Sys2Proof.Machine.execBellEdge s
  | .bellEdgeTimeout => Sys2Proof.Machine.execBellEdgeTimeout s
  | .ptmDialog root => Sys2Proof.Machine.execPtmDialog root s
  | .ptmIntervalMiss => Sys2Proof.Machine.execPtmIntervalMiss s
  | .holdoverTimeout => Sys2Proof.Machine.execHoldoverTimeout s
  | .periodBoundary => Sys2Proof.Machine.execPeriodBoundary s
  | .ttSrcWrite v => Sys2Proof.Machine.execTtSrcWrite v s
  | .ttCtrlEnWrite v => Sys2Proof.Machine.execTtCtrlEnWrite v s
  | .ttSetSecWrite sec => Sys2Proof.Machine.execTtSetSecWrite sec s
  | .ttGcCtrlReq => Sys2Proof.Machine.execTtGcCtrlReq s
  | .commitRequestService => Sys2Proof.Machine.execCommitRequestService s
  | .commitDeadline => Sys2Proof.Machine.execCommitDeadline s
  | .commitApply => Sys2Proof.Machine.execCommitApply s
  | .ttNamedCtrlArm => Sys2Proof.Machine.execTtNamedCtrlArm s
  | .timetableCommand f cid setTime v => Sys2Proof.Machine.execTimetableCommand f cid setTime v s
  | .rollCallRelease => Sys2Proof.Machine.execRollCallRelease s
  | .rollCallTimeout => Sys2Proof.Machine.execRollCallTimeout s
  | .activationDispatch part => Sys2Proof.Machine.execActivationDispatch part s
  | .waitLimit ci => Sys2Proof.Machine.execWaitLimit ci s
  | .budgetTrap ci extra => Sys2Proof.Machine.execBudgetTrap ci extra s
  | .tableDataReturn ci err => Sys2Proof.Machine.execTableDataReturn ci err s
  | .add ci d a b => Sys2Proof.Machine.execAdd ci d a b s
  | .sub ci d a b => Sys2Proof.Machine.execSub ci d a b s
  | .and ci d a b => Sys2Proof.Machine.execAnd ci d a b s
  | .or ci d a b => Sys2Proof.Machine.execOr ci d a b s
  | .xor ci d a b => Sys2Proof.Machine.execXor ci d a b s
  | .andn ci d a b => Sys2Proof.Machine.execAndn ci d a b s
  | .shl ci d a b => Sys2Proof.Machine.execShl ci d a b s
  | .shr ci d a b => Sys2Proof.Machine.execShr ci d a b s
  | .sar ci d a b => Sys2Proof.Machine.execSar ci d a b s
  | .shli ci d a n => Sys2Proof.Machine.execShli ci d a n s
  | .shri ci d a n => Sys2Proof.Machine.execShri ci d a n s
  | .sari ci d a n => Sys2Proof.Machine.execSari ci d a n s
  | .mullo ci d a b => Sys2Proof.Machine.execMullo ci d a b s
  | .mulhu ci d a b => Sys2Proof.Machine.execMulhu ci d a b s
  | .minu ci d a b => Sys2Proof.Machine.execMinu ci d a b s
  | .maxu ci d a b => Sys2Proof.Machine.execMaxu ci d a b s
  | .clz ci d a => Sys2Proof.Machine.execClz ci d a s
  | .popc ci d a => Sys2Proof.Machine.execPopc ci d a s
  | .mov ci d a => Sys2Proof.Machine.execMov ci d a s
  | .sel ci d a b p => Sys2Proof.Machine.execSel ci d a b p s
  | .cmp ci p a b cond comb => Sys2Proof.Machine.execCmp ci p a b cond comb s
  | .cmpi ci p cond a imm => Sys2Proof.Machine.execCmpi ci p cond a imm s
  | .pand ci d a b => Sys2Proof.Machine.execPand ci d a b s
  | .por ci d a b => Sys2Proof.Machine.execPor ci d a b s
  | .pxor ci d a b => Sys2Proof.Machine.execPxor ci d a b s
  | .pnot ci d a => Sys2Proof.Machine.execPnot ci d a s
  | .pset ci d => Sys2Proof.Machine.execPset ci d s
  | .pclr ci d => Sys2Proof.Machine.execPclr ci d s
  | .addi ci d a imm => Sys2Proof.Machine.execAddi ci d a imm s
  | .andi ci d a imm => Sys2Proof.Machine.execAndi ci d a imm s
  | .ori ci d a imm => Sys2Proof.Machine.execOri ci d a imm s
  | .xori ci d a imm => Sys2Proof.Machine.execXori ci d a imm s
  | .movi ci d imm => Sys2Proof.Machine.execMovi ci d imm s
  | .movsh ci d imm => Sys2Proof.Machine.execMovsh ci d imm s
  | .svr ci d name => Sys2Proof.Machine.execSvr ci d name s
  | .svw ci name a => Sys2Proof.Machine.execSvw ci name a s
  | .ld8 ci d a imm => Sys2Proof.Machine.execLd8 ci d a imm s
  | .ld16 ci d a imm => Sys2Proof.Machine.execLd16 ci d a imm s
  | .ld32 ci d a imm => Sys2Proof.Machine.execLd32 ci d a imm s
  | .ld64 ci d a imm => Sys2Proof.Machine.execLd64 ci d a imm s
  | .st8 ci d a imm => Sys2Proof.Machine.execSt8 ci d a imm s
  | .st16 ci d a imm => Sys2Proof.Machine.execSt16 ci d a imm s
  | .st32 ci d a imm => Sys2Proof.Machine.execSt32 ci d a imm s
  | .st64 ci d a imm => Sys2Proof.Machine.execSt64 ci d a imm s
  | .tget ci d a tbl => Sys2Proof.Machine.execTget ci d a tbl s
  | .tput ci a b tbl => Sys2Proof.Machine.execTput ci a b tbl s
  | .tcas ci d a b tbl p => Sys2Proof.Machine.execTcas ci d a b tbl p s
  | .tjrn ci d a b tbl => Sys2Proof.Machine.execTjrn ci d a b tbl s
  | .qpop ci d h p => Sys2Proof.Machine.execQpop ci d h p s
  | .qpeek ci d h p => Sys2Proof.Machine.execQpeek ci d h p s
  | .qpush ci d a b h p => Sys2Proof.Machine.execQpush ci d a b h p s
  | .wev ci d a => Sys2Proof.Machine.execWev ci d a s
  | .sev ci a n => Sys2Proof.Machine.execSev ci a n s
  | .tnow ci d => Sys2Proof.Machine.execTnow ci d s
  | .ptype ci d => Sys2Proof.Machine.execPtype ci d s
  | .wper ci => Sys2Proof.Machine.execWper ci s
  | .pwait ci => Sys2Proof.Machine.execPwait ci s
  | .rcallBarrier ci d a b ring p => Sys2Proof.Machine.execRcallBarrier ci d a b ring p s
  | .rcallBroadcast ci d a b ring p => Sys2Proof.Machine.execRcallBroadcast ci d a b ring p s
  | .rcallSnapshot ci d a b ring p => Sys2Proof.Machine.execRcallSnapshot ci d a b ring p s
  | .rcallCommitVote ci b p => Sys2Proof.Machine.execRcallCommitVote ci b p s
  | .trap ci imm => Sys2Proof.Machine.execTrap ci imm s
  | .nrd ci d a soft set kind crec => Sys2Proof.Machine.execNrd ci d a soft set kind crec s
  | .npg ci d a b kind qlc last crec => Sys2Proof.Machine.execNpg ci d a b kind qlc last crec s
  | .ner ci d a kind crec => Sys2Proof.Machine.execNer ci d a kind crec s
  | .nsus ci d a w => Sys2Proof.Machine.execNsus ci d a w s
  | .nres ci d a w => Sys2Proof.Machine.execNres ci d a w s
  | .xfer ci d a b count pau crec => Sys2Proof.Machine.execXfer ci d a b count pau crec s
  | .lookup ci d a width crec => Sys2Proof.Machine.execLookup ci d a width crec s
  | .rangeLock u => Sys2Proof.Machine.execRangeLock u s
  | .rangeUnlock u => Sys2Proof.Machine.execRangeUnlock u s
  | .zoneLock ci d a crec => Sys2Proof.Machine.execZoneLock ci d a crec s
  | .zoneUnlock u a => Sys2Proof.Machine.execZoneUnlock u a s
  | .cqpost ci d a crec => Sys2Proof.Machine.execCqpost ci d a crec s
  | .spec ci d a b zdesc crec => Sys2Proof.Machine.execSpec ci d a b zdesc crec s
  | .conf ci a p => Sys2Proof.Machine.execConf ci a p s
  | .sqsh ci a => Sys2Proof.Machine.execSqsh ci a s
  | .br ci off => Sys2Proof.Machine.execBr ci off s
  | .brV ci off => Sys2Proof.Machine.execBrV ci off s
  | .brp ci p off => Sys2Proof.Machine.execBrp ci p off s
  | .brpFalse ci p off => Sys2Proof.Machine.execBrpFalse ci p off s
  | .call ci off => Sys2Proof.Machine.execCall ci off s
  | .ret ci => Sys2Proof.Machine.execRet ci s
  | .loopn ci r e off => Sys2Proof.Machine.execLoopn ci r e off s
  | .nandOperationComplete die fail => Sys2Proof.Machine.execNandOperationComplete die fail s
  | .readyTimeout die => Sys2Proof.Machine.execReadyTimeout die s
  | .decodeComplete chan ok corrected up outerOk => Sys2Proof.Machine.execDecodeComplete chan ok corrected up outerOk s
  | .xferComplete ci tag err data => Sys2Proof.Machine.execXferComplete ci tag err data s
  | .zoneLockGrant z => Sys2Proof.Machine.execZoneLockGrant z s
  | .rangeLockGrant c => Sys2Proof.Machine.execRangeLockGrant c s
  | .commitPoint c => Sys2Proof.Machine.execCommitPoint c s
  | .readPreemptSuspend die => Sys2Proof.Machine.execReadPreemptSuspend die s
  | .suspendResume die => Sys2Proof.Machine.execSuspendResume die s
  | .envelopeAdmission => Sys2Proof.Machine.execEnvelopeAdmission s
  | .stagingSlotReclaim chan slot => Sys2Proof.Machine.execStagingSlotReclaim chan slot s
  | .stripeClose chan => Sys2Proof.Machine.execStripeClose chan s
  | .patrolOverdueCheck => Sys2Proof.Machine.execPatrolOverdueCheck s
  | .thresholdSave => Sys2Proof.Machine.execThresholdSave s
  | .batchSeal => Sys2Proof.Machine.execBatchSeal s
  | .pfail => Sys2Proof.Machine.execPfail s
  | .flushProgramAbandon die => Sys2Proof.Machine.execFlushProgramAbandon die s
  | .tier1End => Sys2Proof.Machine.execTier1End s
  | .tier2End => Sys2Proof.Machine.execTier2End s
  | .thermtrip => Sys2Proof.Machine.execThermtrip s
  | .scrub loc res pct last => Sys2Proof.Machine.execScrub loc res pct last s
  | .tableRebuildComplete ok => Sys2Proof.Machine.execTableRebuildComplete ok s
  | .refresh bank waiting fullCycle => Sys2Proof.Machine.execRefresh bank waiting fullCycle s
  | .mr4Read refi => Sys2Proof.Machine.execMr4Read refi s
  | .rowProtectionMitigation addr n rfm => Sys2Proof.Machine.execRowProtectionMitigation addr n rfm s
  | .writeBatch sub reqs slots late more => Sys2Proof.Machine.execWriteBatch sub reqs slots late more s
  | .powerDownEntry ch rank idleNs due => Sys2Proof.Machine.execPowerDownEntry ch rank idleNs due s
  | .selfRefreshEntry timer request => Sys2Proof.Machine.execSelfRefreshEntry timer request s
  | .selfRefreshExit => Sys2Proof.Machine.execSelfRefreshExit s
  | .dramCapture addr loc poison ctx cmd second => Sys2Proof.Machine.execDramCapture addr loc poison ctx cmd second s
  | .alertN sub => Sys2Proof.Machine.execAlertN sub s
  | .zqCalibration => Sys2Proof.Machine.execZqCalibration s
  | .dqsOscillatorMeasurement sub rank => Sys2Proof.Machine.execDqsOscillatorMeasurement sub rank s
  | .coSessionTimeout => Sys2Proof.Machine.execCoSessionTimeout s
  | .periodicCast pass alg => Sys2Proof.Machine.execPeriodicCast pass alg s
  | .ledgerCheckpoint => Sys2Proof.Machine.execLedgerCheckpoint s
  | .ledgerCompaction => Sys2Proof.Machine.execLedgerCompaction s
  | .slotZeroize slot late => Sys2Proof.Machine.execSlotZeroize slot late s
  | .powerStateStep => Sys2Proof.Machine.execPowerStateStep s
  | .ps4AdminIdleReturn => Sys2Proof.Machine.execPs4AdminIdleReturn s
  | .apstTransition ps4 => Sys2Proof.Machine.execApstTransition ps4 s
  | .s3Entry => Sys2Proof.Machine.execS3Entry s
  | .s3Exit bad => Sys2Proof.Machine.execS3Exit bad s
  | .domainEntry d off request => Sys2Proof.Machine.execDomainEntry d off request s
  | .domainRestore d bad => Sys2Proof.Machine.execDomainRestore d bad s
  | .avsbusStatusRead vdone => Sys2Proof.Machine.execAvsbusStatusRead vdone s
  | .avsbusTimeout => Sys2Proof.Machine.execAvsbusTimeout s
  | .pmuPlCapWrite v => Sys2Proof.Machine.execPmuPlCapWrite v s
  | .pmuVoteHostWrite v w => Sys2Proof.Machine.execPmuVoteHostWrite v w s
  | .thermalModelUpdate cnt => Sys2Proof.Machine.execThermalModelUpdate cnt s
  | .sinkUpdate => Sys2Proof.Machine.execSinkUpdate s
  | .gainUpdate reads model => Sys2Proof.Machine.execGainUpdate reads model s
  | .diodeReading j fault v => Sys2Proof.Machine.execDiodeReading j fault v s
  | .throttleStep => Sys2Proof.Machine.execThrottleStep s
  | .tmuThreshWrite v => Sys2Proof.Machine.execTmuThreshWrite v s
  | .intervalClose => Sys2Proof.Machine.execIntervalClose s
  | .gbCtrlClose => Sys2Proof.Machine.execGbCtrlClose s
  | .summaryWriteComplete => Sys2Proof.Machine.execSummaryWriteComplete s
  | .sqTailDoorbell f qid tail sqes => Sys2Proof.Machine.execSqTailDoorbell f qid tail sqes s
  | .cqHeadDoorbell f qid head => Sys2Proof.Machine.execCqHeadDoorbell f qid head s
  | .arbiterDecision => Sys2Proof.Machine.execArbiterDecision s
  | .classification c => Sys2Proof.Machine.execClassification c s
  | .commandTimeout c => Sys2Proof.Machine.execCommandTimeout c s
  | .dmaError f kind c => Sys2Proof.Machine.execDmaError f kind c s
  | .deleteIoSq f cid qid => Sys2Proof.Machine.execDeleteIoSq f cid qid s
  | .deleteIoCq f cid qid => Sys2Proof.Machine.execDeleteIoCq f cid qid s
  | .createIoSq f cid qid size cq contig => Sys2Proof.Machine.execCreateIoSq f cid qid size cq contig s
  | .createIoCq f cid qid size vector irq contig => Sys2Proof.Machine.execCreateIoCq f cid qid size vector irq contig s
  | .getLogPage f cid lid rae off len => Sys2Proof.Machine.execGetLogPage f cid lid rae off len s
  | .identify f cid cns nsid csi => Sys2Proof.Machine.execIdentify f cid cns nsid csi s
  | .abort f cid sqid tcid => Sys2Proof.Machine.execAbort f cid sqid tcid s
  | .setFeatures f cid fid v => Sys2Proof.Machine.execSetFeatures f cid fid v s
  | .getFeatures f cid fid v => Sys2Proof.Machine.execGetFeatures f cid fid v s
  | .orderedSubmission f cid v => Sys2Proof.Machine.execOrderedSubmission f cid v s
  | .powerManagement f cid v => Sys2Proof.Machine.execPowerManagement f cid v s
  | .hostControlledThermalManagement f cid v => Sys2Proof.Machine.execHostControlledThermalManagement f cid v s
  | .temperatureThreshold f cid v => Sys2Proof.Machine.execTemperatureThreshold f cid v s
  | .asynchronousEventRequest f cid => Sys2Proof.Machine.execAsynchronousEventRequest f cid s
  | .namespaceCreate f cid size lbaf logZsze logW k fdp mar => Sys2Proof.Machine.execNamespaceCreate f cid size lbaf logZsze logW k fdp mar s
  | .namespaceDelete f cid nsid => Sys2Proof.Machine.execNamespaceDelete f cid nsid s
  | .namespaceAttachment f cid nsid attach ctrls => Sys2Proof.Machine.execNamespaceAttachment f cid nsid attach ctrls s
  | .firmwareImageDownload f cid slot img => Sys2Proof.Machine.execFirmwareImageDownload f cid slot img s
  | .firmwareCommitNextReset f cid action slot => Sys2Proof.Machine.execFirmwareCommitNextReset f cid action slot s
  | .activationWithoutReset f cid slot => Sys2Proof.Machine.execActivationWithoutReset f cid slot s
  | .deviceSelfTestShort f cid nsid seg => Sys2Proof.Machine.execDeviceSelfTestShort f cid nsid seg s
  | .deviceSelfTestExtended f cid nsid seg => Sys2Proof.Machine.execDeviceSelfTestExtended f cid nsid seg s
  | .deviceSelfTestAbort f cid => Sys2Proof.Machine.execDeviceSelfTestAbort f cid s
  | .secondaryOnline f cid fn => Sys2Proof.Machine.execSecondaryOnline f cid fn s
  | .secondaryOffline f cid fn => Sys2Proof.Machine.execSecondaryOffline f cid fn s
  | .primaryFlexibleAllocation f cid vi n => Sys2Proof.Machine.execPrimaryFlexibleAllocation f cid vi n s
  | .secondaryAssign f cid fn vi n => Sys2Proof.Machine.execSecondaryAssign f cid fn vi n s
  | .nvmeMiSend f cid msg => Sys2Proof.Machine.execNvmeMiSend f cid msg s
  | .nvmeMiReceive f cid msg => Sys2Proof.Machine.execNvmeMiReceive f cid msg s
  | .formatNvm f cid nsid lbaf ses => Sys2Proof.Machine.execFormatNvm f cid nsid lbaf ses s
  | .sanitizeCryptoErase f cid => Sys2Proof.Machine.execSanitizeCryptoErase f cid s
  | .sanitizeBlockErase f cid => Sys2Proof.Machine.execSanitizeBlockErase f cid s
  | .createTenant f cid fn share cls reserved => Sys2Proof.Machine.execCreateTenant f cid fn share cls reserved s
  | .setQosClass f cid fn cls reserved => Sys2Proof.Machine.execSetQosClass f cid fn cls reserved s
  | .setShare f cid fn share reserved => Sys2Proof.Machine.execSetShare f cid fn share reserved s
  | .bindKeyTags f cid fn word2 word3 reserved => Sys2Proof.Machine.execBindKeyTags f cid fn word2 word3 reserved s
  | .installEntriesReplace f cid fn recs reserved badHeader => Sys2Proof.Machine.execInstallEntriesReplace f cid fn recs reserved badHeader s
  | .installEntriesAdd f cid fn recs reserved badHeader => Sys2Proof.Machine.execInstallEntriesAdd f cid fn recs reserved badHeader s
  | .installEntriesRemove f cid fn recs reserved badHeader => Sys2Proof.Machine.execInstallEntriesRemove f cid fn recs reserved badHeader s
  | .installFilter f cid fn chunk last bytes reserved => Sys2Proof.Machine.execInstallFilter f cid fn chunk last bytes reserved s
  | .removeTenant f cid fn reserved => Sys2Proof.Machine.execRemoveTenant f cid fn reserved s
  | .readRecord f cid fn reserved => Sys2Proof.Machine.execReadRecord f cid fn reserved s
  | .ledgerReadRecords f cid first count => Sys2Proof.Machine.execLedgerReadRecords f cid first count s
  | .ledgerReadCheckpoints f cid slot count => Sys2Proof.Machine.execLedgerReadCheckpoints f cid slot count s
  | .ledgerReadOverflow f cid => Sys2Proof.Machine.execLedgerReadOverflow f cid s
  | .ledgerReadStatus f cid => Sys2Proof.Machine.execLedgerReadStatus f cid s
  | .ledgerAcknowledge f cid no hash => Sys2Proof.Machine.execLedgerAcknowledge f cid no hash s
  | .ledgerCheckpointRequest f cid => Sys2Proof.Machine.execLedgerCheckpointRequest f cid s
  | .gradebookReadDirectory mi f cid index off len => Sys2Proof.Machine.execGradebookReadDirectory mi f cid index off len s
  | .gradebookReadSummary mi f cid index off len => Sys2Proof.Machine.execGradebookReadSummary mi f cid index off len s
  | .gradebookReadOpenInterval mi f cid index off len => Sys2Proof.Machine.execGradebookReadOpenInterval mi f cid index off len s
  | .gradebookReadDiagnostic mi f cid index off len => Sys2Proof.Machine.execGradebookReadDiagnostic mi f cid index off len s
  | .gradebookReadStatus mi f cid index off len => Sys2Proof.Machine.execGradebookReadStatus mi f cid index off len s
  | .flush c => Sys2Proof.Machine.execFlush c s
  | .write c data => Sys2Proof.Machine.execWrite c data s
  | .read c bad => Sys2Proof.Machine.execRead c bad s
  | .writeUncorrectable c => Sys2Proof.Machine.execWriteUncorrectable c s
  | .compare c data bad far => Sys2Proof.Machine.execCompare c data bad far s
  | .fusedCompareAndWrite c old new bad => Sys2Proof.Machine.execFusedCompareAndWrite c old new bad s
  | .writeZeroes c => Sys2Proof.Machine.execWriteZeroes c s
  | .datasetManagement c => Sys2Proof.Machine.execDatasetManagement c s
  | .verify c bad far => Sys2Proof.Machine.execVerify c bad far s
  | .ioManagementReceive c => Sys2Proof.Machine.execIoManagementReceive c s
  | .reclaimUnitHandleUpdate c handles => Sys2Proof.Machine.execReclaimUnitHandleUpdate c handles s
  | .copy c bad => Sys2Proof.Machine.execCopy c bad s
  | .zoneOpen c => Sys2Proof.Machine.execZoneOpen c s
  | .zoneClose c => Sys2Proof.Machine.execZoneClose c s
  | .zoneFinish c => Sys2Proof.Machine.execZoneFinish c s
  | .zoneReset c => Sys2Proof.Machine.execZoneReset c s
  | .zoneOffline c => Sys2Proof.Machine.execZoneOffline c s
  | .reportZones c => Sys2Proof.Machine.execReportZones c s
  | .zoneAppend c data => Sys2Proof.Machine.execZoneAppend c data s
  | .filteredRead c bad far => Sys2Proof.Machine.execFilteredRead c bad far s
  | .securityReceive f cid protocol spsp => Sys2Proof.Machine.execSecurityReceive f cid protocol spsp s
  | .authenticate f cid cred => Sys2Proof.Machine.execAuthenticate f cid cred s
  | .changeCoCredential f cid cred => Sys2Proof.Machine.execChangeCoCredential f cid cred s
  | .provision f cid owner cred => Sys2Proof.Machine.execProvision f cid owner cred s
  | .enterMission f cid => Sys2Proof.Machine.execEnterMission f cid s
  | .enterRma f cid tokenOk => Sys2Proof.Machine.execEnterRma f cid tokenOk s
  | .decommission f cid => Sys2Proof.Machine.execDecommission f cid s
  | .zeroizeAll f cid => Sys2Proof.Machine.execZeroizeAll f cid s
  | .establishTagKek f cid fn tag pub keyOk => Sys2Proof.Machine.execEstablishTagKek f cid fn tag pub keyOk s
  | .setLedgerPolicy f cid run => Sys2Proof.Machine.execSetLedgerPolicy f cid run s
  | .commitSvn f cid => Sys2Proof.Machine.execCommitSvn f cid s
  | .runSelfTests f cid pass alg => Sys2Proof.Machine.execRunSelfTests f cid pass alg s
  | .readCertificates f cid => Sys2Proof.Machine.execReadCertificates f cid s
  | .keyInjection f cid fn tag key unwraps => Sys2Proof.Machine.execKeyInjection f cid fn tag key unwraps s
  | .clearKey f cid fn tag => Sys2Proof.Machine.execClearKey f cid fn tag s
  | .opalAuthenticate f cid auth pin newPin => Sys2Proof.Machine.execOpalAuthenticate f cid auth pin newPin s
  | .lockingRangeSet f cid range nsid start len readLock writeLock lockOnReset => Sys2Proof.Machine.execLockingRangeSet f cid range nsid start len readLock writeLock lockOnReset s
  | .genkey f cid range nsid => Sys2Proof.Machine.execGenkey f cid range nsid s
  | .revertsp f cid admin => Sys2Proof.Machine.execRevertsp f cid admin s
  | .psidRevert f cid psid => Sys2Proof.Machine.execPsidRevert f cid psid s
  | .getVersion b => Sys2Proof.Machine.execGetVersion b s
  | .getCapabilities b version => Sys2Proof.Machine.execGetCapabilities b version s
  | .negotiateAlgorithms b offered => Sys2Proof.Machine.execNegotiateAlgorithms b offered s
  | .getDigests b => Sys2Proof.Machine.execGetDigests b s
  | .getCertificate b slot off len => Sys2Proof.Machine.execGetCertificate b slot off len s
  | .challenge b slot nonce => Sys2Proof.Machine.execChallenge b slot nonce s
  | .getMeasurements b index sign nonce => Sys2Proof.Machine.execGetMeasurements b index sign nonce s
  | .mctpEcho smbus payload => Sys2Proof.Machine.execMctpEcho smbus payload s
  | .heartbeatSend => Sys2Proof.Machine.execHeartbeatSend s
  | .heartbeat h sole => Sys2Proof.Machine.execHeartbeat h sole s
  | .peerLoss k => Sys2Proof.Machine.execPeerLoss k s
  | .hello h id sizeM1 bundle nscfg => Sys2Proof.Machine.execHello h id sizeM1 bundle nscfg s
  | .lockRequest h op ns lba n => Sys2Proof.Machine.execLockRequest h op ns lba n s
  | .lockGrant out h sct sc assigned => Sys2Proof.Machine.execLockGrant out h sct sc assigned s
  | .writeData h piece op ns lba n blocks => Sys2Proof.Machine.execWriteData h piece op ns lba n blocks s
  | .writeAck h => Sys2Proof.Machine.execWriteAck h s
  | .commitNotice h => Sys2Proof.Machine.execCommitNotice h s
  | .readRequest h ns lba n bad => Sys2Proof.Machine.execReadRequest h ns lba n bad s
  | .readData h blocks => Sys2Proof.Machine.execReadData h blocks s
  | .pieceCompletion h sct sc => Sys2Proof.Machine.execPieceCompletion h sct sc s
  | .rollCallFrame h ident b => Sys2Proof.Machine.execRollCallFrame h ident b s
  | .bellBeat h time roundTrip => Sys2Proof.Machine.execBellBeat h time roundTrip s
  | .bellBeatSend => Sys2Proof.Machine.execBellBeatSend s
  | .resyncData h ci stop blocks => Sys2Proof.Machine.execResyncData h ci stop blocks s
  | .idleFrame link acked nak => Sys2Proof.Machine.execIdleFrame link acked nak s
  | .replayTimeout link => Sys2Proof.Machine.execReplayTimeout link s
  | .linkRetrainComplete link rate width => Sys2Proof.Machine.execLinkRetrainComplete link rate width s
  | .fenceTimeout ci => Sys2Proof.Machine.execFenceTimeout ci s
  | .formationTimeout => Sys2Proof.Machine.execFormationTimeout s
  | .thCtrlEnWrite v => Sys2Proof.Machine.execThCtrlEnWrite v s
  | .thNsCmdTakeover v => Sys2Proof.Machine.execThNsCmdTakeover v s
  | .loopbackStart pf via1687 trainOk v => Sys2Proof.Machine.execLoopbackStart pf via1687 trainOk v s
  | .loopbackStop v => Sys2Proof.Machine.execLoopbackStop v s
  | .padBurstEnd chan => Sys2Proof.Machine.execPadBurstEnd chan s
  | .loopbackComplete iface inst errors => Sys2Proof.Machine.execLoopbackComplete iface inst errors s
  | .prbsLock k errs => Sys2Proof.Machine.execPrbsLock k errs s
  | .marginPointStart v => Sys2Proof.Machine.execMarginPointStart v s
  | .marginDone errors => Sys2Proof.Machine.execMarginDone errors s
  | .bypass => Sys2Proof.Machine.execBypass s
  | .idcode => Sys2Proof.Machine.execIdcode s
  | .samplePreload pins cells => Sys2Proof.Machine.execSamplePreload pins cells s
  | .extest => Sys2Proof.Machine.execExtest s
  | .extestPulse => Sys2Proof.Machine.execExtestPulse s
  | .extestTrain => Sys2Proof.Machine.execExtestTrain s
  | .clamp => Sys2Proof.Machine.execClamp s
  | .highz => Sys2Proof.Machine.execHighz s
  | .extestExit b => Sys2Proof.Machine.execExtestExit b s
  | .ieee1687Access wr off v => Sys2Proof.Machine.execIeee1687Access wr off v s
  | .trst low => Sys2Proof.Machine.execTrst low s
  | .sramBist g bank fail => Sys2Proof.Machine.execSramBist g bank fail s
  | .mramBist wr fail => Sys2Proof.Machine.execMramBist wr fail s
  | .scBackgroundCheck bank shadowOk => Sys2Proof.Machine.execScBackgroundCheck bank shadowOk s
  | .scBankRebuildComplete bank => Sys2Proof.Machine.execScBankRebuildComplete bank s
  | .medEnvStageReq => Sys2Proof.Machine.execMedEnvStageReq s
  | .bpmShareWrite a v => Sys2Proof.Machine.execBpmShareWrite a v s
  | .lockWrite b v => Sys2Proof.Machine.execLockWrite b v s
  | .lockAll => Sys2Proof.Machine.execLockAll s
  | .loLatchRead pf off n => Sys2Proof.Machine.execLoLatchRead pf off n s
  | .readClear pf off n => Sys2Proof.Machine.execReadClear pf off n s
  | .registerWrite pf off words be => Sys2Proof.Machine.execRegisterWrite pf off words be s
  | .undefinedInstruction ci busErr => Sys2Proof.Machine.execUndefinedInstruction ci busErr s
  | .pfailRelease => Sys2Proof.Machine.execPfailRelease s
  | .pcieLinkUp port rate width flit => Sys2Proof.Machine.execPcieLinkUp port rate width flit s
  | .vfEnableSet pf n => Sys2Proof.Machine.execVfEnableSet pf n s
  | .aspmL1Entry l => Sys2Proof.Machine.execAspmL1Entry l s
  | .interruptAggregationTimeout f vector => Sys2Proof.Machine.execInterruptAggregationTimeout f vector s
  | .entropyHealthFailure => Sys2Proof.Machine.execEntropyHealthFailure s
  | .prbsLockLoss k errs => Sys2Proof.Machine.execPrbsLockLoss k errs s
  | .minimumResidencyElapsed request => Sys2Proof.Machine.execMinimumResidencyElapsed request s
  | .s4Entry => Sys2Proof.Machine.execS4Entry s

end Sys2Proof.Machine
end

