-- ==== Sys2Proof/Machine/OpsTick.lean ====
section
/-! DEFINITION. One tick of the AON reference clock, with no command waiting (R37, R43). -/
namespace Sys2Proof.Machine

/-- Part of a phase error that the first-order loop removes in a tick of 40 ns is one over this (R42): 2π × the loop bandwidth × 40 ns with
0.05 Hz on BELL, 0.5 Hz on PTM or the relay. -/
def loopDiv (s : State) : Int := if s.fld F.TT_STATUS.ACTIVE_SRC = 1 then 79577472 else 7957747

/-- Slewing of one tick in ps: what the loop filter gives, at most 100 ppm (R42, R43), and the filter's rest. -/
def loopStep (s : State) : Int × Int :=
  let x := s.ttu.loopAcc + s.ttu.slew
  let q := x.tdiv (loopDiv s)
  if q > 4 then (4, 0) else if q < -4 then (-4, 0) else (q, x - q * loopDiv s)

/-- One 25 MHz AON_CLK period (R37) with the DPLL's slewing: 40 ns of elapsed time, and of device time 40 ns and up to 4 ps. No time passes
while a cold reset holds VDD_AON (R37, R430). A tick that would reach the next Period boundary waits for the boundary event. A SOLE entry
whose peer is back copies on in Recess (R471). -/
def State.tick (s : State) : State :=
  let stop := (s.now / max 1 (periodNs s) + 1) * max 1 (periodNs s)
  if s.boot.coldHeld || decide (stop ≤ s.now + 41) then s
  else
    let amt := (loopStep s).1
    let ps : Int := s.ttu.frac + amt
    let t := s.advance 40
    let t := { t with ttu := { t.ttu with
      time := t.ttu.time + BitVec.ofInt 64 (ps / 1000)
      frac := (ps % 1000).toNat
      slew := t.ttu.slew - amt
      loopAcc := (loopStep s).2 } }
    t.when (t.flag F.TH_STATUS.FORMED) (·.resyncAll)

end Sys2Proof.Machine
end

