-- ==== Sys2Proof/WellFormed.lean ====
section
/-! DEFINITION. Which operands name something the device has: contexts (R70), PMU vote registers (R414), power domains (R404), PRBS checkers
(R479), share registers (R192) and lockable blocks (R494). Every other operand is bounded by its type. -/
namespace Sys2Proof

/-- The operands name units, functions and ranges that the device has. -/
def Instr.wellFormed (i : Instr) : Bool :=
  match i with
  | .coldReset _ => true
  | .coldResetRelease _ => true
  | .perstAssert => true
  | .perstRelease _ => true
  | .ccEnSet _ _ _ => true
  | .recoveryPhase _ => true
  | .controllerReset _ _ => true
  | .normalShutdown _ => true
  | .abruptShutdown _ => true
  | .hotReset _ _ => true
  | .functionLevelReset _ _ => true
  | .flrComplete _ => true
  | .vfEnableClear _ _ _ => true
  | .bellEdge => true
  | .bellEdgeTimeout => true
  | .ptmDialog _ => true
  | .ptmIntervalMiss => true
  | .holdoverTimeout => true
  | .periodBoundary => true
  | .ttSrcWrite _ => true
  | .ttCtrlEnWrite _ => true
  | .ttSetSecWrite _ => true
  | .ttGcCtrlReq => true
  | .commitRequestService => true
  | .commitDeadline => true
  | .commitApply => true
  | .ttNamedCtrlArm => true
  | .timetableCommand _ _ _ _ => true
  | .rollCallRelease => true
  | .rollCallTimeout => true
  | .activationDispatch _ => true
  | .waitLimit i => i.valid
  | .budgetTrap i _ => i.valid
  | .tableDataReturn i _ => i.valid
  | .add i _ _ _ => i.valid
  | .sub i _ _ _ => i.valid
  | .and i _ _ _ => i.valid
  | .or i _ _ _ => i.valid
  | .xor i _ _ _ => i.valid
  | .andn i _ _ _ => i.valid
  | .shl i _ _ _ => i.valid
  | .shr i _ _ _ => i.valid
  | .sar i _ _ _ => i.valid
  | .shli i _ _ _ => i.valid
  | .shri i _ _ _ => i.valid
  | .sari i _ _ _ => i.valid
  | .mullo i _ _ _ => i.valid
  | .mulhu i _ _ _ => i.valid
  | .minu i _ _ _ => i.valid
  | .maxu i _ _ _ => i.valid
  | .clz i _ _ => i.valid
  | .popc i _ _ => i.valid
  | .mov i _ _ => i.valid
  | .sel i _ _ _ _ => i.valid
  | .cmp i _ _ _ _ _ => i.valid
  | .cmpi i _ _ _ _ => i.valid
  | .pand i _ _ _ => i.valid
  | .por i _ _ _ => i.valid
  | .pxor i _ _ _ => i.valid
  | .pnot i _ _ => i.valid
  | .pset i _ => i.valid
  | .pclr i _ => i.valid
  | .addi i _ _ _ => i.valid
  | .andi i _ _ _ => i.valid
  | .ori i _ _ _ => i.valid
  | .xori i _ _ _ => i.valid
  | .movi i _ _ => i.valid
  | .movsh i _ _ => i.valid
  | .svr i _ _ => i.valid
  | .svw i _ _ => i.valid
  | .ld8 i _ _ _ => i.valid
  | .ld16 i _ _ _ => i.valid
  | .ld32 i _ _ _ => i.valid
  | .ld64 i _ _ _ => i.valid
  | .st8 i _ _ _ => i.valid
  | .st16 i _ _ _ => i.valid
  | .st32 i _ _ _ => i.valid
  | .st64 i _ _ _ => i.valid
  | .tget i _ _ _ => i.valid
  | .tput i _ _ _ => i.valid
  | .tcas i _ _ _ _ _ => i.valid
  | .tjrn i _ _ _ _ => i.valid
  | .qpop i _ _ _ => i.valid
  | .qpeek i _ _ _ => i.valid
  | .qpush i _ _ _ _ _ => i.valid
  | .wev i _ _ => i.valid
  | .sev i _ _ => i.valid
  | .tnow i _ => i.valid
  | .ptype i _ => i.valid
  | .wper i => i.valid
  | .pwait i => i.valid
  | .rcallBarrier i _ _ _ _ _ => i.valid
  | .rcallBroadcast i _ _ _ _ _ => i.valid
  | .rcallSnapshot i _ _ _ _ _ => i.valid
  | .rcallCommitVote i _ _ => i.valid
  | .trap i _ => i.valid
  | .nrd i _ _ _ _ _ _ => i.valid
  | .npg i _ _ _ _ _ _ _ => i.valid
  | .ner i _ _ _ _ => i.valid
  | .nsus i _ _ _ => i.valid
  | .nres i _ _ _ => i.valid
  | .xfer i _ _ _ _ _ _ => i.valid
  | .lookup i _ _ _ _ => i.valid
  | .rangeLock u => u.ctx.valid
  | .rangeUnlock u => u.ctx.valid
  | .zoneLock i _ _ _ => i.valid
  | .zoneUnlock u _ => u.ctx.valid
  | .cqpost i _ _ _ => i.valid
  | .spec i _ _ _ _ _ => i.valid
  | .conf i _ _ => i.valid
  | .sqsh i _ => i.valid
  | .br i _ => i.valid
  | .brV i _ => i.valid
  | .brp i _ _ => i.valid
  | .brpFalse i _ _ => i.valid
  | .call i _ => i.valid
  | .ret i => i.valid
  | .loopn i _ _ _ => i.valid
  | .nandOperationComplete _ _ => true
  | .readyTimeout _ => true
  | .decodeComplete _ _ _ _ _ => true
  | .xferComplete i _ _ _ => i.valid
  | .zoneLockGrant _ => true
  | .rangeLockGrant _ => true
  | .commitPoint _ => true
  | .readPreemptSuspend _ => true
  | .suspendResume _ => true
  | .envelopeAdmission => true
  | .stagingSlotReclaim _ _ => true
  | .stripeClose _ => true
  | .patrolOverdueCheck => true
  | .thresholdSave => true
  | .batchSeal => true
  | .pfail => true
  | .flushProgramAbandon _ => true
  | .tier1End => true
  | .tier2End => true
  | .thermtrip => true
  | .scrub _ _ _ _ => true
  | .tableRebuildComplete _ => true
  | .refresh _ _ _ => true
  | .mr4Read _ => true
  | .rowProtectionMitigation _ _ _ => true
  | .writeBatch _ _ _ _ _ => true
  | .powerDownEntry _ _ _ _ => true
  | .selfRefreshEntry _ _ => true
  | .selfRefreshExit => true
  | .dramCapture _ _ _ ctx _ _ => (ctx.all CtxId.valid)
  | .alertN _ => true
  | .zqCalibration => true
  | .dqsOscillatorMeasurement _ _ => true
  | .coSessionTimeout => true
  | .periodicCast _ _ => true
  | .ledgerCheckpoint => true
  | .ledgerCompaction => true
  | .slotZeroize _ _ => true
  | .powerStateStep => true
  | .ps4AdminIdleReturn => true
  | .apstTransition _ => true
  | .s3Entry => true
  | .s3Exit _ => true
  | .domainEntry _ _ _ => true
  | .domainRestore d _ => decide (d.toNat < 14)
  | .avsbusStatusRead _ => true
  | .avsbusTimeout => true
  | .pmuPlCapWrite _ => true
  | .pmuVoteHostWrite v _ => decide (v.toNat < 10)
  | .thermalModelUpdate _ => true
  | .sinkUpdate => true
  | .gainUpdate _ _ => true
  | .diodeReading _ _ _ => true
  | .throttleStep => true
  | .tmuThreshWrite _ => true
  | .intervalClose => true
  | .gbCtrlClose => true
  | .summaryWriteComplete => true
  | .sqTailDoorbell _ _ _ _ => true
  | .cqHeadDoorbell _ _ _ => true
  | .arbiterDecision => true
  | .classification _ => true
  | .commandTimeout _ => true
  | .dmaError _ _ _ => true
  | .deleteIoSq _ _ _ => true
  | .deleteIoCq _ _ _ => true
  | .createIoSq _ _ _ _ _ _ => true
  | .createIoCq _ _ _ _ _ _ _ => true
  | .getLogPage _ _ _ _ _ _ => true
  | .identify _ _ _ _ _ => true
  | .abort _ _ _ _ => true
  | .setFeatures _ _ _ _ => true
  | .getFeatures _ _ _ _ => true
  | .orderedSubmission _ _ _ => true
  | .powerManagement _ _ _ => true
  | .hostControlledThermalManagement _ _ _ => true
  | .temperatureThreshold _ _ _ => true
  | .asynchronousEventRequest _ _ => true
  | .namespaceCreate _ _ _ _ _ _ _ _ _ => true
  | .namespaceDelete _ _ _ => true
  | .namespaceAttachment _ _ _ _ _ => true
  | .firmwareImageDownload _ _ _ _ => true
  | .firmwareCommitNextReset _ _ _ _ => true
  | .activationWithoutReset _ _ _ => true
  | .deviceSelfTestShort _ _ _ _ => true
  | .deviceSelfTestExtended _ _ _ _ => true
  | .deviceSelfTestAbort _ _ => true
  | .secondaryOnline _ _ _ => true
  | .secondaryOffline _ _ _ => true
  | .primaryFlexibleAllocation _ _ _ _ => true
  | .secondaryAssign _ _ _ _ _ => true
  | .nvmeMiSend _ _ _ => true
  | .nvmeMiReceive _ _ _ => true
  | .formatNvm _ _ _ _ _ => true
  | .sanitizeCryptoErase _ _ => true
  | .sanitizeBlockErase _ _ => true
  | .createTenant _ _ _ _ _ _ => true
  | .setQosClass _ _ _ _ _ => true
  | .setShare _ _ _ _ _ => true
  | .bindKeyTags _ _ _ _ _ _ => true
  | .installEntriesReplace _ _ _ _ _ _ => true
  | .installEntriesAdd _ _ _ _ _ _ => true
  | .installEntriesRemove _ _ _ _ _ _ => true
  | .installFilter _ _ _ _ _ _ _ => true
  | .removeTenant _ _ _ _ => true
  | .readRecord _ _ _ _ => true
  | .ledgerReadRecords _ _ _ _ => true
  | .ledgerReadCheckpoints _ _ _ _ => true
  | .ledgerReadOverflow _ _ => true
  | .ledgerReadStatus _ _ => true
  | .ledgerAcknowledge _ _ _ _ => true
  | .ledgerCheckpointRequest _ _ => true
  | .gradebookReadDirectory _ _ _ _ _ _ => true
  | .gradebookReadSummary _ _ _ _ _ _ => true
  | .gradebookReadOpenInterval _ _ _ _ _ _ => true
  | .gradebookReadDiagnostic _ _ _ _ _ _ => true
  | .gradebookReadStatus _ _ _ _ _ _ => true
  | .flush _ => true
  | .write _ _ => true
  | .read _ _ => true
  | .writeUncorrectable _ => true
  | .compare _ _ _ _ => true
  | .fusedCompareAndWrite _ _ _ _ => true
  | .writeZeroes _ => true
  | .datasetManagement _ => true
  | .verify _ _ _ => true
  | .ioManagementReceive _ => true
  | .reclaimUnitHandleUpdate _ _ => true
  | .copy _ _ => true
  | .zoneOpen _ => true
  | .zoneClose _ => true
  | .zoneFinish _ => true
  | .zoneReset _ => true
  | .zoneOffline _ => true
  | .reportZones _ => true
  | .zoneAppend _ _ => true
  | .filteredRead _ _ _ => true
  | .securityReceive _ _ _ _ => true
  | .authenticate _ _ _ => true
  | .changeCoCredential _ _ _ => true
  | .provision _ _ _ _ => true
  | .enterMission _ _ => true
  | .enterRma _ _ _ => true
  | .decommission _ _ => true
  | .zeroizeAll _ _ => true
  | .establishTagKek _ _ _ _ _ _ => true
  | .setLedgerPolicy _ _ _ => true
  | .commitSvn _ _ => true
  | .runSelfTests _ _ _ _ => true
  | .readCertificates _ _ => true
  | .keyInjection _ _ _ _ _ _ => true
  | .clearKey _ _ _ _ => true
  | .opalAuthenticate _ _ _ _ _ => true
  | .lockingRangeSet _ _ _ _ _ _ _ _ _ => true
  | .genkey _ _ _ _ => true
  | .revertsp _ _ _ => true
  | .psidRevert _ _ _ => true
  | .getVersion _ => true
  | .getCapabilities _ _ => true
  | .negotiateAlgorithms _ _ => true
  | .getDigests _ => true
  | .getCertificate _ _ _ _ => true
  | .challenge _ _ _ => true
  | .getMeasurements _ _ _ _ => true
  | .mctpEcho _ _ => true
  | .heartbeatSend => true
  | .heartbeat _ _ => true
  | .peerLoss _ => true
  | .hello _ _ _ _ _ => true
  | .lockRequest _ _ _ _ _ => true
  | .lockGrant _ _ _ _ _ => true
  | .writeData _ _ _ _ _ _ _ => true
  | .writeAck _ => true
  | .commitNotice _ => true
  | .readRequest _ _ _ _ _ => true
  | .readData _ _ => true
  | .pieceCompletion _ _ _ => true
  | .rollCallFrame _ _ _ => true
  | .bellBeat _ _ _ => true
  | .bellBeatSend => true
  | .resyncData _ _ _ _ => true
  | .idleFrame _ _ _ => true
  | .replayTimeout _ => true
  | .linkRetrainComplete _ _ _ => true
  | .fenceTimeout _ => true
  | .formationTimeout => true
  | .thCtrlEnWrite _ => true
  | .thNsCmdTakeover _ => true
  | .loopbackStart _ _ _ _ => true
  | .loopbackStop _ => true
  | .padBurstEnd _ => true
  | .loopbackComplete _ _ _ => true
  | .prbsLock k _ => decide (k.toNat < 12)
  | .marginPointStart _ => true
  | .marginDone _ => true
  | .bypass => true
  | .idcode => true
  | .samplePreload _ _ => true
  | .extest => true
  | .extestPulse => true
  | .extestTrain => true
  | .clamp => true
  | .highz => true
  | .extestExit _ => true
  | .ieee1687Access _ _ _ => true
  | .trst _ => true
  | .sramBist _ _ _ => true
  | .mramBist _ _ => true
  | .scBackgroundCheck _ _ => true
  | .scBankRebuildComplete _ => true
  | .medEnvStageReq => true
  | .bpmShareWrite a _ => decide (a.toNat ≤ 4096)
  | .lockWrite b _ => decide (b.toNat < 19)
  | .lockAll => true
  | .loLatchRead _ _ _ => true
  | .readClear _ _ _ => true
  | .registerWrite _ _ _ _ => true
  | .undefinedInstruction i _ => i.valid
  | .pfailRelease => true
  | .pcieLinkUp _ _ _ _ => true
  | .vfEnableSet _ _ => true
  | .aspmL1Entry _ => true
  | .interruptAggregationTimeout _ _ => true
  | .entropyHealthFailure => true
  | .prbsLockLoss k _ => decide (k.toNat < 12)
  | .minimumResidencyElapsed _ => true
  | .s4Entry => true

end Sys2Proof
end

