-- ==== Sys2Proof/Safety.lean ====
section
/-! DEFINITION. The terms in which claims are stated: when a Zyn context issues, what a command leaves alone, and the invariant of the block. -/
namespace Sys2Proof.Machine

/-- The command completes, and `P` holds of the state it leaves. -/
def Gives (s : State) (x : Instr) (P : State → Prop) : Prop := ∃ t, exec x s = .next t ∧ P t

/-! ### Zyn -/

/-- Context `i` issues an instruction of `words` words now: it exists and is READY, Zyn runs, the words lie in the loaded code
section and its count is below BUDGET (R70, R72, R73, R75, R98). -/
def Issues (s : State) (i : CtxId) (words : Nat) : Prop :=
  i.valid = true ∧ (s.ctx i).st = .ready ∧ s.zynRuns = true ∧
  (s.ctx i).pc + words ≤ (s.zyn.bundle.code i.cls).length ∧ (s.ctx i).used < (s.ctx i).budget

/-- The context past an instruction: PC, the PC issued last and counted cycles (R100, R106, R110). -/
def Ctx.past (c : Ctx) (words cost : Nat) : Ctx := { c with pc := c.pc + words, used := c.used + cost, last := c.pc }

/-- No context but `i` differs, and nothing outside the contexts does. -/
def OnlyCtx (s t : State) (i : CtxId) : Prop :=
  t = { s with zyn := { s.zyn with ctxs := t.zyn.ctxs } } ∧ ∀ j : CtxId, j.valid = true → j ≠ i → t.ctx j = s.ctx j

/-- The command completes, leaves context `i` as `c`, and changes nothing else. -/
def SetsCtx (s : State) (i : CtxId) (x : Instr) (c : Ctx) : Prop := ∃ t, exec x s = .next t ∧ t.ctx i = c ∧ OnlyCtx s t i

/-- A trap of this context queues its record and does nothing beyond R100: no bound command, not a FAULT activation, room in the fault queue,
and nothing speculative, locked or suspended to give up. -/
def PlainTrap (s : State) (i : CtxId) : Prop :=
  (s.ctx i).cmd = none ∧ ¬ (i.cls = .pol ∧ (s.ctx i).kind = 3) ∧ s.zyn.faultQ.length < 256 ∧
  (s.ctx i).specs = [] ∧ (s.ctx i).zlocks = [] ∧ (s.ctx i).susp = []

/-- `t` comes of `s` by a trap of context `i`: its record is queued last, the class counter has advanced, and the context is IDLE (R100). -/
def Trapped (s t : State) (i : CtxId) (cause pc : Nat) (addr : Word64) : Prop :=
  (t.ctx i).st = .idle ∧ t.fld F.ZYN_FAULT_LAST0.CAUSE = cause ∧ t.fld (trapCnt i.cls) = min (s.fld (trapCnt i.cls) + 1) (2 ^ (trapCnt i.cls).width - 1) ∧
  t.zyn.faultQ = s.zyn.faultQ ++ [⟨BitVec.ofNat 8 cause, BitVec.ofNat 11 i.key, (s.ctx i).kind, pc, addr, none, s.now / 1000, (s.ctx i).request, none⟩] ∧
  t.zyn.scratch = s.zyn.scratch ∧ t.zyn.tab = s.zyn.tab ∧ t.host.bufs = s.host.bufs

/-- The command ends in a trap of context `i`. -/
def Traps (s : State) (i : CtxId) (x : Instr) (cause pc : Nat) (addr : Word64) : Prop := Gives s x fun t => Trapped s t i cause pc addr

/-! ### Tether -/

/-- A message of another device arrives for this one over a link that carries frames (R457). -/
def Arrives (s : State) (h : TetherHdr) : Prop := linkUp s h.link = true ∧ h.srcN ≠ ringId s ∧ h.dst.toNat = ringId s

/-- A message of another device for a third one arrives, and the other link carries frames (R457). -/
def Passes (s : State) (h : TetherHdr) : Prop :=
  linkUp s h.link = true ∧ h.srcN ≠ ringId s ∧ h.dst.toNat ≠ ringId s ∧ linkUp s (!h.link) = true

/-- A frame of a type and body leaves the block on one of its links. -/
def Sent (t : State) (ty : Nat) (body : List Word64) : Prop := ∃ link, Out.frame link ty (ringId t) body ∈ t.out

/-! ### Host commands -/

/-- The I/O command in context `c` runs when it is sent: it is classified, not committed, aborted or fused, its gate admits it (`data`: it
touches user data), its namespace is not spanned over the Tether, its lock is held or none is needed, and its CQ, an I/O CQ, has room (R151, R153,
R161, R166). -/
def Ungated (s : State) (c : Nat) (x : Cmd) (data : Bool) : Prop :=
  s.cmd c = some x ∧ x.committed = false ∧ x.admin = false ∧ x.classified = true ∧ x.waitBank = false ∧ x.cqWait = none ∧ x.abort = false ∧
  x.fused = none ∧ x.st ≠ .posted ∧ s.flushing = false ∧ gateStatus s data x = none ∧ spanOf s x.sqe.nsid.toNat = none ∧ (s.func x.func).resetting = false ∧
  (s.func x.func).flr = false ∧ cqFull s x = false ∧ (∀ q, s.sq x.func x.sqid = some q → q.cq ≠ 0) ∧ ∀ r, s.lock c = some r → r.held = true

/-- An I/O command of an opcode is classified and neither done nor held back, so that it acts when it is sent (R153, R166). -/
def RunsOp (s : State) (x : Cmd) (op : Nat) : Prop :=
  x.committed = false ∧ x.admin = false ∧ x.classified = true ∧ x.waitBank = false ∧ x.cqWait = none ∧ x.sqe.opcode = op ∧ s.flushing = false

/-- The codewords of a range are those of its blocks (R328): none on media is another block's. -/
def Own (s : State) (ns first n : Nat) : Prop :=
  (s.nsZoned ns = false → ∀ o < n, ∀ d sl p, Place.of (s.mapEntry (s.mapIndex ns (first + o))) = .media d sl → s.codeword d sl = some p →
    (wrongSlot s d sl p).contains (s.mapIndex ns (first + o)) = false) ∧
  (s.nsZoned ns = true → wrongZoned s ns first n = [])

/-- A zone takes `n` blocks of a write in context `c` now (R239, R240, R245): nothing goes before it, no status refuses it, the ring has room, and an
empty zone can be activated; `o`: the offset a Write names, none for an append. -/
def Reserves (s : State) (x : Cmd) (z n : Nat) (o : Option Nat) : Prop :=
  s.zlock z = (false, []) ∧ zoneBehind s x z = false ∧ barred s x z = false ∧ zoneStatus s x.sqe.nsid.toNat z n o true = none ∧
  s.zrwp z + n ≤ s.zmwp z + 4096 ∧ (s.zs z = zsEmpty → (s.activateZone z).isSome = true)

/-- A CQE of a function's command leaves the block with a status code type and a status code (R134, R176). -/
def Posted (t : State) (f : Nat) (cid : BitVec 16) (sct sc : Nat) : Prop := ∃ q e, Out.cqe f q e ∈ t.out ∧ e.cid = cid ∧ e.sct = sct ∧ e.sc = sc

/-- The status that ends a command is posted at once: it is not committed, aborted or fused, its CQ and the ceiling have room, and its
function is under no reset (R134, R159, R166, R167). -/
def Ends (s : State) (x : Cmd) : Prop :=
  x.committed = false ∧ x.abort = false ∧ x.fused = none ∧ cqFull s x = false ∧ (s.func x.func).resetting = false ∧ (s.func x.func).flr = false

/-- What a range reads as: plaintext of every block, in LBA order (R20, R230). -/
def readBack (s : State) (x : Cmd) (first n : Nat) : List Block :=
  (List.range n).map fun o => s.plain x (first + o) (got s x.sqe.nsid.toNat (first + o) false)

/-- Free entries of a CQ (R167). -/
def Cq.room (q : Cq) : Nat := (q.head + q.size - 1 - q.tail) % q.size

/-- The admin commands of a function get their CQE at once: neither a controller reset nor an FLR of it runs (R171, R194), and its admin CQ has
an entry beside those that outstanding Asynchronous Event Requests may take first (R167). -/
def Live (s : State) (f : Nat) : Prop :=
  (s.func f).resetting = false ∧ (s.func f).flr = false ∧ ∀ q, s.cq f 0 = some q → q.wait = [] ∧ (s.func f).aers.length < q.room

end Sys2Proof.Machine
end

