-- ==== Sys2Proof/Certificates/Slice0/Obligations.lean ====
section
/-! DEFINITION. The statements about the model that are to be proved. -/
open Sys2Proof Sys2Proof.Machine

/-- R55, R149 to R151, R160, R180, R409, R412. Layouts and codes not stated by the spec are NVMe's (PRESUMED, log). -/
def Obligations.LogsIdentifyAndFeatures : Prop :=
  ∀ (s : State) (f : BitVec 12) (cid : BitVec 16) (lid cns csi fid : BitVec 8) (rae : Bool) (off len : BitVec 32) (nsid v w : Word) (msg : List Byte),
    let k := f.toNat
    let j := fid.toNat
    let log := Instr.getLogPage f cid lid rae off len
    let ident := Instr.identify f cid cns nsid csi
    let get (i : Nat) := Instr.getFeatures f cid (BitVec.ofNat 8 i) w
    let kept (i : Nat) : Bool := ownFeatures.contains i || (wideFeatures.contains i && s.isPf k)
    let answers (c : Instr) (d : Word) : Prop := Gives s c fun t => ∃ q e, Out.cqe k q e ∈ t.out ∧ e.cid = cid ∧ e.sct = 0 ∧ e.sc = 0 ∧ e.dw0 = d ∧ t.regs = s.regs
    let bad (c : Instr) : Prop := Gives s c fun t => Posted t k cid 0 0x02 ∧ t.func k = s.func k ∧ t.regs = s.regs
    let held (i : Nat) : Word := sgetD (featureDefault s k i) i (s.func k).feats
    let ty := logEvent lid.toNat
    (Live s k →
      (∀ l, logPage s k lid.toNat = some l → Gives s log fun t => Posted t k cid 0 0 ∧ Out.bytes k cid (toBytes ((l.drop off.toNat).take len.toNat)) ∈ t.out ∧
        (rae = true → t.func k = s.func k) ∧
        (rae = false → ty ≠ 7 ∨ s.th.events = [] → (t.func k).reported = (s.func k).reported.filter fun x => x.1 != ty)) ∧
      (logPage s k lid.toNat = none → Gives s log fun t => Posted t k cid 1 0x09 ∧ t.func k = s.func k) ∧
      (s.isPf k = false → ((logPage s k lid.toNat).isSome = true ↔ lid = 0x01 ∨ lid = 0x05)) ∧
      (s.isPf k = true → ∀ n ∈ [0x01, 0x02, 0x05, 0x06, 0xC0], (logPage s k n).isSome = true) ∧
      (∀ l, identifyData s k cns.toNat nsid.toNat csi.toNat = some l → Gives s ident fun t => Posted t k cid 0 0 ∧ Out.bytes k cid (toBytes l) ∈ t.out ∧ t.regs = s.regs ∧ t.zyn = s.zyn) ∧
      (identifyData s k cns.toNat nsid.toNat csi.toNat = none → bad ident) ∧
      (kept j = true → Gives s (.setFeatures f cid fid v) fun t => Posted t k cid 0 0 ∧ sget j (t.func k).feats = some v ∧
        (∀ i, i ≠ j → sget i (t.func k).feats = sget i (s.func k).feats) ∧ ∀ g, g ≠ k → t.func g = s.func g) ∧
      (kept j = false → j ∉ [0x02, 0x04, 0x07, 0x10, 0xC2] → bad (.setFeatures f cid fid v) ∧ bad (.getFeatures f cid fid w)) ∧
      (answers (.setFeatures f cid 0x07 v) (featureDefault s k 0x07)) ∧
      (∀ i < 256, i = 0x02 ∨ i = 0x07 ∨ kept i = true → answers (get i) (held i)) ∧
      (s.isPf k = true → answers (get 0x10) (held 0x10) ∧ answers (get 0x04) (held (4 + 256 * (w.toNat / 2 ^ 20 % 2)))) ∧
      (s.isPf k = false → bad (get 0x10) ∧ bad (get 0x04)) ∧
      (∀ q, s.sq k (w.toNat % 65536) = some q → answers (get 0xC2) (BitVec.ofNat 32 (w.toNat % 65536 + if q.ordered then 65536 else 0))) ∧
      (s.sq k (w.toNat % 65536) = none → bad (get 0xC2)) ∧
      (s.isPf k = true → (Gives s (.nvmeMiReceive f cid msg) fun t => Posted t k cid 0 0 ∧ ∃ b, Out.bytes k cid b ∈ t.out) ∧
        Gives s (.nvmeMiSend f cid msg) fun t => Out.mctp (Config.bytes 0x1D (msg.map (·.toNat))) ∈ t.out ∧ Posted t k cid 0 0) ∧
      (s.isPf k = false → ∀ c ∈ [Instr.nvmeMiSend f cid msg, .nvmeMiReceive f cid msg], Gives s c fun t => Posted t k cid 0 0x01 ∧ t.regs = s.regs)) ∧
    (exec (.setFeatures f cid 0x02 v) s = exec (.powerManagement f cid v) s) ∧ (exec (.setFeatures f cid 0x04 v) s = exec (.temperatureThreshold f cid v) s) ∧
    (exec (.setFeatures f cid 0x10 v) s = exec (.hostControlledThermalManagement f cid v) s) ∧ (exec (.setFeatures f cid 0xC2 v) s = exec (.orderedSubmission f cid v) s)

/-- R149, R151, R225 to R228, R235, R374, R386. Status codes are NVMe's (PRESUMED, log). -/
def Obligations.NamespacesFormatAndSanitize : Prop :=
  ∀ (s : State) (f : BitVec 12) (cid : BitVec 16) (size : BitVec 64) (lbaf lz lw kk fdp : BitVec 8) (mar : BitVec 16) (nsid : Word) (attach : Bool)
    (ctrls : List (BitVec 12)) (lf : BitVec 4) (ses : BitVec 3),
    let k := f.toNat
    let ns := nsid.toNat
    let n : NsSpec := { size := size.toNat, lbaf := lbaf.toNat, logZsze := lz.toNat, logW := lw.toNat, k := kk.toNat, fdp := fdp.toNat, mar := mar.toNat }
    let create := Instr.namespaceCreate f cid size lbaf lz lw kk fdp mar
    let att := Instr.namespaceAttachment f cid nsid attach ctrls
    let fmt := Instr.formatNvm f cid nsid lf ses
    let free := ((List.range 16384).map (· + 1)).find? fun i => s.nsState i == 0
    let ends (c : Instr) (sct sc : Nat) (P : State → Prop) : Prop := Gives s c fun t => Posted t k cid sct sc ∧ P t
    let same (t : State) : Prop := t.zyn = s.zyn ∧ t.sec = s.sec
    let fresh (t : State) (j : Nat) : Prop := ∃ i, s.freeCtr ≤ i ∧ sget j t.sec.blocks.meks = some (Config.random i)
    let has (t : State) (g : BitVec 12) : Prop := ns ∈ (t.func g.toNat).attached
    let blank (t : State) (m : Nat) : Prop := ∀ o < t.nsSize m, Place.of (t.mapEntry (t.mapIndex m o)) = .unwritten
    let old := nsSpec s ns
    let new : NsSpec := { old with size := if old.lbaf = 2 then old.size / 8 else if lf = 2 then old.size * 8 else old.size, lbaf := lf.toNat }
    let rekeyed (t : State) : Prop := ∀ j, s.nsKeySlot ns = some j → j ∈ s.mekSlots → ses ≠ 0 → fresh t j
    (Live s k → s.isPf k = false → ∀ c ∈ [create, .namespaceDelete f cid nsid, att, fmt, .sanitizeCryptoErase f cid, .sanitizeBlockErase f cid], ends c 0 0x01 same) ∧
    (Live s k → s.isPf k = true → s.ecc.rebuilds = [] →
      (s.boot.provisioned = true → ends create 0 0x0C same) ∧
      (s.boot.provisioned = false → n.ok s = false → ends create 0 0x02 same) ∧
      (s.boot.provisioned = false → n.ok s = true →
        (free = none → ends create 1 0x16 same) ∧
        (∀ i e, free = some i → nsPlace s none n = .error e → ends create e.1 e.2.1 fun t => same t ∧ (e.2.2 = true → t.fld F.MAP_EVT.REGION_FULL = 1)) ∧
        (∀ i b, free = some i → nsPlace s none n = .ok b → (s.freeMekSlot = none → ends create 1 0x15 same) ∧
          (∀ j, s.freeMekSlot = some j → ruhPlace s n.fdp = none → ends create 0 0x02 same)) ∧
        (∀ i b j r, free = some i → nsPlace s none n = .ok b → s.freeMekSlot = some j → ruhPlace s n.fdp = some r → Gives s create fun t =>
          (∃ q e, Out.cqe k q e ∈ t.out ∧ e.cid = cid ∧ e.sct = 0 ∧ e.sc = 0 ∧ e.dw0 = BitVec.ofNat 32 i) ∧ t.nsState i = 1 ∧ t.nsSize i = n.size ∧
          t.nsLbaf i = n.lbaf ∧ t.nsBase i = b % 2 ^ 40 ∧ t.nsKeySlot i = some j ∧ fresh t j ∧ (∀ i', 1 ≤ i' → i' ≠ i → t.nsState i' = s.nsState i'))) ∧
      (s.nsState ns ≠ 0 → ends (.namespaceDelete f cid nsid) 0 0 fun t => t.nsState ns = 0 ∧ ∀ g, ns ∉ (t.func g).attached) ∧
      (ends (.namespaceDelete f cid 0xFFFFFFFF) 0 0 fun t => ∀ m, t.nsState m = 0) ∧
      (s.nsState ns = 0 → ns ≠ 0xFFFFFFFF → ends (.namespaceDelete f cid nsid) 0 0x0B same) ∧ (s.nsState ns = 0 → ends att 0 0x0B same) ∧
      (s.nsState ns ≠ 0 → ctrls = [] → ends att 1 0x1C same) ∧
      (s.nsState ns ≠ 0 → ctrls ≠ [] → attach = true →
        ((∀ g ∈ ctrls, ¬ has s g) → ends att 0 0 fun t => ∀ g ∈ ctrls, has t g) ∧
        ((∃ g ∈ ctrls, has s g) → ends att 1 0x18 fun t => ∀ g, (t.func g).attached = (s.func g).attached)) ∧
      (s.nsState ns ≠ 0 → ctrls ≠ [] → attach = false →
        ((∀ g ∈ ctrls, has s g) → ends att 0 0 fun t => ∀ g ∈ ctrls, ¬ has t g) ∧
        ((∃ g ∈ ctrls, ¬ has s g) → ends att 1 0x1A fun t => ∀ g, (t.func g).attached = (s.func g).attached)) ∧
      (ns ≠ 0xFFFFFFFF → s.nsState ns = 0 → ends fmt 0 0x0B same) ∧
      (s.nsState ns ≠ 0 → (2 < ses.toNat → ends fmt 0 0x02 same) ∧
        (ses.toNat ≤ 2 → (3 < lf.toNat ∨ (s.nsZoned ns = true ↔ lf ≠ 3)) → ends fmt 1 0x0A same) ∧
        (ses.toNat ≤ 2 → s.nsLbaf ns = lf.toNat → lf.toNat < 3 → ends fmt 0 0 fun t => t.nsState ns = s.nsState ns ∧ blank t ns ∧ rekeyed t) ∧
        (ses.toNat ≤ 2 → s.nsLbaf ns = 3 → lf = 3 → ends fmt 0 0 fun t => (∀ z < s.nsZones ns, t.zs (s.nsBase ns + z) = zsEmpty) ∧ rekeyed t) ∧
        (ses.toNat ≤ 2 → s.nsLbaf ns ≠ lf.toNat → lf.toNat < 3 → s.nsLbaf ns < 3 →
          (∀ b, nsPlace s (some ns) new = .ok b → ends fmt 0 0 fun t => t.nsLbaf ns = lf.toNat ∧ t.nsSize ns = new.size % 2 ^ 40 ∧ t.nsBase ns = b % 2 ^ 40 ∧
            blank t ns ∧ rekeyed t) ∧
          (∀ e, nsPlace s (some ns) new = .error e → ends fmt e.1 e.2.1 same))) ∧
      (∀ c ∈ [Instr.sanitizeCryptoErase f cid, .sanitizeBlockErase f cid], ends c 0 0 fun t => t.sec.keks = [] ∧ (∀ j ∈ s.mekSlots, fresh t j) ∧
        (∀ m, s.nsState m ≠ 0 → s.nsZoned m = false → blank t m) ∧ t.tst.selfTest = none))

/-- R142, R151, R173, R178, R179, R390, R434. Status codes are NVMe's (PRESUMED, log). -/
def Obligations.FirmwareAndVirtualization : Prop :=
  ∀ (s : State) (f fn : BitVec 12) (cid n : BitVec 16) (slot vi : Bool) (img : Image) (act sl : BitVec 3),
    let k := f.toNat
    let g := fn.toNat
    let ends (c : Instr) (sct sc : Nat) (P : State → Prop) : Prop := Gives s c fun t => Posted t k cid sct sc ∧ P t
    let gives (c : Instr) (d : Word) (P : State → Prop) : Prop := Gives s c fun t => (∃ q e, Out.cqe k q e ∈ t.out ∧ e.cid = cid ∧ e.sct = 0 ∧ e.sc = 0 ∧ e.dw0 = d) ∧ P t
    let same (t : State) : Prop := t.boot = s.boot ∧ t.zyn = s.zyn
    let fw := [Instr.firmwareImageDownload f cid slot img, .firmwareCommitNextReset f cid act sl, .activationWithoutReset f cid sl]
    let virt := [Instr.secondaryOnline f cid fn, .secondaryOffline f cid fn, .primaryFlexibleAllocation f cid vi n, .secondaryAssign f cid fn vi n]
    let begun (b : Bool) (t : State) : Prop := t.host.fwCommit = some (k, cid) ∧ t.host.fwSlot = b ∧ t.host.stopAll = true ∧ t.zyn.next = some (s.slotImage b).bundle
    let num (t : State) (h : Nat) : Nat := if vi then (t.func h).vi else (t.func h).vq
    (Live s k → k ≠ 0 → ∀ c ∈ fw, ends c 0 0x01 same) ∧ (Live s k → s.isPf k = false → ∀ c ∈ virt, ends c 0 0x01 same) ∧
    (Live s k → k = 0 →
      (slot = s.boot.slot → ends (.firmwareImageDownload f cid slot img) 0 0x02 same) ∧
      (slot ≠ s.boot.slot → ends (.firmwareImageDownload f cid slot img) 0 0 fun t => t.slotImage slot = img ∧ t.slotImage (!slot) = s.slotImage (!slot) ∧ t.zyn = s.zyn) ∧
      (∀ b, fwSlotOf s sl.toNat = some b →
        (act = 1 ∨ act = 2 → ends (.firmwareCommitNextReset f cid act sl) 0 0 fun t => t.selector.map (·.next) = some b ∧ t.zyn = s.zyn) ∧
        (act = 0 → ends (.firmwareCommitNextReset f cid act sl) 0 0 same) ∧ (3 ≤ act.toNat → ends (.firmwareCommitNextReset f cid act sl) 0 0x02 same) ∧
        (s.host.fwCommit.isSome = true ∨ s.secHalted = true ∨ imageCode s (s.slotImage b) (s.fld F.BOOT_ROM_REV.ROM_REV) ≠ 0 →
          ends (.activationWithoutReset f cid sl) 1 0x13 same) ∧
        (s.host.fwCommit = none → s.secHalted = false → imageCode s (s.slotImage b) (s.fld F.BOOT_ROM_REV.ROM_REV) = 0 →
          ((s.slotImage b).bundle.flags.getLsbD 0 = false → ends (.activationWithoutReset f cid sl) 1 0x0B same) ∧
          ((s.slotImage b).bundle.flags.getLsbD 0 = true →
            ((∃ x ∈ s.host.cmds, x.2.admin = false ∧ x.2.st ≠ .posted) → Gives s (.activationWithoutReset f cid sl) fun t => begun b t ∧ t.host.fwRecorded = false ∧ t.out = s.out) ∧
            ((∀ x ∈ s.host.cmds, x.2.st = .posted ∨ waitsEvent s x.2 = true ∨ (x.2.admin = true ∧ x.2.func = k ∧ x.2.sqe.cid = cid)) →
              ledgerFull s = false → s.ttu.gcQueue.length < 8 → Gives s (.activationWithoutReset f cid sl) fun t => begun b t ∧ t.host.fwRecorded = true ∧
                ∃ r ∈ t.ttu.gcQueue, r.kind = .activation)))) ∧
      (fwSlotOf s sl.toNat = none → ends (.firmwareCommitNextReset f cid act sl) 0 0x02 same ∧ ends (.activationWithoutReset f cid sl) 0 0x02 same)) ∧
    (Live s k → s.isPf k = true →
      (s.isPf g = true ∨ s.tenState g = 0 → ends (.secondaryOnline f cid fn) 0 0x02 same) ∧ (s.isPf g = true → ends (.secondaryOffline f cid fn) 0 0x02 same) ∧
      (s.isPf g = false → s.tenState g ≠ 0 → s.ecc.rebuilds = [] → ends (.secondaryOnline f cid fn) 0 0 fun t => (t.func g).online = true ∧
        (s.tenState g = 1 → t.tenState g = 2) ∧ (s.tenState g ≠ 1 → t.tenState g = s.tenState g)) ∧
      (s.isPf g = false → s.ecc.rebuilds = [] → (s.func g).en = false ∨ (s.fld F.ZYN_STATUS.STATE ≠ 4 ∧ s.fld F.DMC_STATUS.STATE ≠ 4 ∧ (s.func g).flr = false) →
        ends (.secondaryOffline f cid fn) 0 0 fun t => (t.func g).online = false ∧ ((t.func g).en = false ∨ (t.func g).resetting = true) ∧
          (s.tenState g = 2 → t.tenState g = 1) ∧ (s.tenState g ≠ 2 → t.tenState g = s.tenState g)) ∧
      (heldOthers s vi k + n.toNat ≤ portTotal s vi → gives (.primaryFlexibleAllocation f cid vi n) (n.setWidth 32) fun t => num t k = n.toNat ∧
        ∀ h, h ≠ k → t.func h = s.func h) ∧
      (portTotal s vi < heldOthers s vi k + n.toNat → ends (.primaryFlexibleAllocation f cid vi n) 0 0x02 fun t => num t k = num s k) ∧
      (s.isPf g = false → n.toNat ≤ (if vi then 2047 else 1024) → heldOthers s vi g + n.toNat + 1 ≤ portTotal s vi →
        ((s.func g).online = false → gives (.secondaryAssign f cid fn vi n) (n.setWidth 32) fun t => num t g = n.toNat + 1 ∧ ∀ h, h ≠ g → t.func h = s.func h) ∧
        ((s.func g).online = true → ends (.secondaryAssign f cid fn vi n) 1 0x20 fun t => num t g = num s g)) ∧
      (s.isPf g = true ∨ (if vi then 2047 else 1024) < n.toNat → ends (.secondaryAssign f cid fn vi n) 0 0x02 fun t => num t g = num s g))

/-- R182 to R184, R186, R192, R206, R219 to R221, R381, R382. -/
def Obligations.TenantSetUp : Prop :=
  ∀ (s : State) (f fn : BitVec 12) (cid : BitVec 16) (sh : BitVec 32) (cls : BitVec 8) (w2 w3 : BitVec 64) (recs : List ScRec) (chunk : BitVec 10) (last rsv badHeader : Bool)
    (data old : List Byte),
    let k := f.toNat
    let g := fn.toNat
    let a := s.tenAccount g
    let c := chunk.toNat
    let ends (c : Instr) (sct sc : Nat) (P : State → Prop) : Prop := Gives s c fun t => Posted t k cid sct sc ∧ P t
    let same (t : State) : Prop := t.zyn = s.zyn ∧ t.sc = s.sc ∧ t.regs = s.regs ∧ t.sec = s.sec
    let install (r : Bool) : List (Instr × Nat) := [(.installEntriesReplace f cid fn recs r badHeader, 0), (.installEntriesAdd f cid fn recs r badHeader, 1),
      (.installEntriesRemove f cid fn recs r badHeader, 2)]
    let create := Instr.createTenant f cid fn sh cls
    let bind := Instr.bindKeyTags f cid fn w2 w3 false
    let filt := Instr.installFilter f cid fn chunk last data false
    let remove := Instr.removeTenant f cid fn false
    let acts (r : Bool) : List Instr := [.setQosClass f cid fn cls r, .setShare f cid fn sh r, .bindKeyTags f cid fn w2 w3 r, .installFilter f cid fn chunk last data r,
      .removeTenant f cid fn r] ++ (install r).map (·.1)
    let good := sh.toNat ≤ poolCount s ∧ sh.toNat < 2 ^ 22
    let kept (t : State) : Prop := t.tenState g = s.tenState g ∧ t.tenAccount g = a
    let all := old ++ (data ++ List.replicate 4096 0).take 4096
    let img := all.take (imgLe all 0x18 4)
    let inTurn := (c = 0 ∧ old = []) ∨ (c ≠ 0 ∧ old ≠ [] ∧ sget g s.host.assembly = some (c, old))
    let taken := (TagRange.of w2).taken s g = true ∨ (TagRange.of w3).taken s g = true
    let foreign : Prop := ∃ h ∈ s.tenants, h ≠ g ∧ tenFilter s h = imgLe img 6 2
    let space := storePages ((s.dropAssembly g).dropFilter g) + (img.length + 4095) / 4096
    let busy := (s.boundSlots g).filter fun j => (s.slotKey j).isSome || sgetD 0 j s.sec.counts != 0
    (Live s k → s.isPf k = false → ∀ x ∈ create rsv :: .readRecord f cid fn rsv :: acts rsv, ends x 0 0x01 same) ∧
    (Live s k → s.isPf k = true →
      (∀ x ∈ create true :: .readRecord f cid fn true :: acts true, ends x 0 0x02 same) ∧
      (s.tenState g = 0 → ∀ x ∈ acts false, ends x 7 0x80 same) ∧ (s.tenState g = 3 → ∀ x ∈ acts false, ends x 7 0x83 same) ∧
      (s.tenState g ≠ 0 → ends (create false) 7 0x81 same) ∧
      (s.tenState g = 0 → 7 < cls.toNat ∨ poolCount s < sh.toNat → ends (create false) 0 0x02 same) ∧
      (ends (.readRecord f cid fn false) 0 0 fun t => same t ∧ Out.bytes k cid (toBytes ((List.range 8).flatMap fun w => leBytes (s.tenWord g w) 8)) ∈ t.out) ∧
      (s.tenState g = 1 ∨ s.tenState g = 2 →
        (7 < cls.toNat → ends (.setQosClass f cid fn cls false) 0 0x02 same) ∧ (poolCount s < sh.toNat → ends (.setShare f cid fn sh false) 0 0x02 same) ∧
        (tagRangeOk w2 = false ∨ tagRangeOk w3 = false ∨ (TagRange.of w2).meets (TagRange.of w3) = true → ends bind 0 0x02 same) ∧
        (tagRangeOk w2 = true → tagRangeOk w3 = true → (TagRange.of w2).meets (TagRange.of w3) = false → taken → ends bind 7 0x82 same) ∧
        (badHeader = true → ∀ x ∈ install false, ends x.1 0 0x02 same) ∧
        (badHeader = false → ∀ x ∈ install false, ∀ e, s.installEntries g x.2 (slotBound s g) recs = .error e → ends x.1 e.1 e.2 same) ∧
        (badHeader = false → ∀ x ∈ install false, ∀ u, s.installEntries g x.2 (slotBound s g) recs = .ok u → ends x.1 0 0 fun t => t.sc = u.sc) ∧
        (inTurn → c ≤ 514 → 4096 * c < imgLe all 0x18 4 →
          (last = false → ends filt 0 0 fun t => sget g t.host.assembly = some (c + 1, all) ∧ same t) ∧
          (last = true → (filterOk img = false ∨ foreign → ends filt 0 0x02 same) ∧ (filterOk img = true → ¬ foreign → storeSize < space → ends filt 7 0x82 same) ∧
            (filterOk img = true → ¬ foreign → space ≤ storeSize → s.ecc.rebuilds = [] → ends filt 0 0 fun t => sget g t.sc.filters = some img ∧
              tenFilter t g = imgLe img 6 2 ∧ sget g t.host.assembly = none ∧ kept t))) ∧
        (c ≠ 0 → (∀ l, sget g s.host.assembly ≠ some (c, l)) → ends filt 0 0x02 same) ∧
        (s.tenState g = 2 ∨ s.isPf g = true ∨ (s.func g).attached ≠ [] → ends remove 7 0x83 same))) ∧
    (Live s k → s.isPf k = true → s.ecc.rebuilds = [] →
      (s.tenState g = 0 → cls.toNat ≤ 7 → good → ends (create false) 0 0 fun t => t.tenState g = 1 ∧ t.tenClass g = cls.toNat ∧
        t.tenAccount g = g ∧ share t g = sh.toNat ∧ t.tenWord g 1 = sh.toNat ∧ t.bindings g = []) ∧
      (s.tenState g = 1 ∨ s.tenState g = 2 →
        (cls.toNat ≤ 7 → ends (.setQosClass f cid fn cls false) 0 0 fun t => t.tenClass g = cls.toNat ∧ kept t ∧ t.tenWord g 1 = s.tenWord g 1) ∧
        (good → ends (.setShare f cid fn sh false) 0 0 fun t => share t a = sh.toNat ∧ kept t ∧ ∀ h ∈ s.tenants, s.tenAccount h = a → t.tenWord h 1 = sh.toNat) ∧
        (tagRangeOk w2 = true → tagRangeOk w3 = true → (TagRange.of w2).meets (TagRange.of w3) = false → ¬ taken →
          s.bindings g = [] → s.sec.unbinds = [] → ends bind 0 0 fun t => t.tenWord g 2 = w2.toNat ∧ t.tenWord g 3 = w3.toNat ∧ kept t)) ∧
      (s.tenState g = 1 → s.isPf g = false → (s.func g).attached = [] → s.sec.unbinds = [] →
        (busy = [] → ends remove 0 0 fun t => t.tenState g = 0 ∧ sget g t.sc.filters = none ∧ t.bindings g = [] ∧
          ∀ x ∈ t.sc.entries, x.2.owner = some g → x.1 ∉ managerEntries s g) ∧
        (busy ≠ [] → Gives s remove fun t => t.out = s.out ∧ t.tenState g = 1 ∧ ∀ j ∈ busy, ∃ x ∈ t.sec.clearing, x.1 = j)))

/-- R442, R447 to R449, R452, R453. The data of a slot being written is a free value (the model's form of R452's undefined). -/
def Obligations.GradebookClosesAndReads : Prop :=
  ∀ (s : State) (f : BitVec 12) (cid : BitVec 16) (index : BitVec 8) (off len : BitVec 6),
    let k := f.toNat
    let i := index.toNat
    let part (l : List Nat) : List Byte := toBytes ((l.drop (off.toNat * 4096)).take (len.toNat * 4096))
    let gives (c : Instr) (l : List Nat) (no : Nat) : Prop := Gives s c fun t => ∃ q e, Out.cqe k q e ∈ t.out ∧ e.cid = cid ∧ e.sct = 0 ∧ e.sc = 0 ∧
      e.dw0 = BitVec.ofNat 32 no ∧ e.dw1 = 0 ∧ (part l ≠ [] → Out.bytes k cid (part l) ∈ t.out) ∧ t.gb = s.gb
    let elsewhere : Prop := ∀ j u, s.gb.writing = some (j, u) → j ≠ i
    let fits (n : Nat) : Prop := 0 < len.toNat ∧ off.toNat + len.toNat ≤ n
    let rows (mi : Bool) : List (Instr × Nat × Bool) := [(.gradebookReadDirectory mi f cid index off len, 1, decide (i = 0)),
      (.gradebookReadSummary mi f cid index off len, if i < 48 then 40 else 1, decide (i < 112)), (.gradebookReadOpenInterval mi f cid index off len, 40, decide (i = 0)),
      (.gradebookReadDiagnostic mi f cid index off len, 4, decide (i < 8)), (.gradebookReadStatus mi f cid index off len, 1, decide (i = 0))]
    (∀ c ∈ [(Instr.intervalClose, 1), (Instr.gbCtrlClose, 5)],
      (s.gb.writing = none → ∀ slot compact, gbSlot s.gb.slots s.gb.cur.sev = some (slot, compact) → Gives s c.1 fun t =>
        (∃ u, t.gb.writing = some (slot, u) ∧ u.cause = c.2 ∧ u.no = s.gb.nextNo ∧ u.body = s.gb.cur ∧ u.closeAt = s.stamp ∧ u.compact = compact) ∧
        t.gb.cur = { openAt := s.stamp, afterLost := false } ∧ sget slot t.gb.slots = none) ∧
      (s.gb.writing = none → gbSlot s.gb.slots s.gb.cur.sev = none → Gives s c.1 fun t => t.gb.lost = min (s.gb.lost + 1) 0xFFFFFFFF ∧
        t.fld F.GB_EVT.LOST = 1 ∧ t.gb.slots = s.gb.slots) ∧
      (s.gb.writing.isSome = true → Gives s c.1 fun t => t.gb.writing = s.gb.writing ∧
        t.gb.deferred = some (match s.gb.deferred with | none => c.2 | some d => worseCause d c.2))) ∧
    (Gives s .intervalClose fun t => t.mram.offsets = s.media.offsets) ∧
    (∀ slot u, s.gb.writing = some (slot, u) → s.gb.deferred = none → Gives s .summaryWriteComplete fun t => sget slot t.gb.slots = some u ∧
      t.gb.nextNo = u.no + 1 ∧ t.gb.writing = none ∧ t.fld F.GB_EVT.CLOSED = 1 ∧ ∀ j, j ≠ slot → sget j t.gb.slots = sget j s.gb.slots) ∧
    (∀ slot u c, s.gb.writing = some (slot, u) → s.gb.deferred = some c → Gives s .summaryWriteComplete fun t => t.gb.deferred = none ∧ t.gb.nextNo = u.no + 1) ∧
    (s.gb.writing = none → exec .summaryWriteComplete s = .next s) ∧
    (Live s k → s.isPf k = true →
      (fits 1 → i = 0 → gives (.gradebookReadDirectory false f cid index off len) (dirBytes s) 0) ∧
      (fits (if i < 48 then 40 else 1) → i < 112 →
        (∀ u, elsewhere → sget i s.gb.slots = some u → gives (.gradebookReadSummary false f cid index off len) (u.bytes true) u.no) ∧
        (elsewhere → sget i s.gb.slots = none → gives (.gradebookReadSummary false f cid index off len) (List.replicate ((if i < 48 then 40 else 1) * 4096) 0) 0) ∧
        (∀ u, s.gb.writing = some (i, u) → Gives s (.gradebookReadSummary false f cid index off len) fun t => ∃ q e b, Out.cqe k q e ∈ t.out ∧
          e.cid = cid ∧ e.dw1 = 1 ∧ Out.bytes k cid b ∈ t.out ∧ b.length = len.toNat * 4096)) ∧
      (fits 40 → i = 0 → gives (.gradebookReadOpenInterval false f cid index off len) (openBytes s true) s.gb.nextNo) ∧
      (∀ d, fits 4 → i < 8 → sget i s.gb.diags = some d → gives (.gradebookReadDiagnostic false f cid index off len) (diagBytes d) 0) ∧
      (fits 4 → i < 8 → sget i s.gb.diags = none → gives (.gradebookReadDiagnostic false f cid index off len) (List.replicate 16384 0) 0) ∧
      (fits 1 → i = 0 → ∃ l, l.take 8 = leBytes s.gb.nextNo 8 ∧ gives (.gradebookReadStatus false f cid index off len) l 0) ∧
      (∀ r ∈ rows false, r.2.2 = false ∨ ¬ fits r.2.1 → Gives s r.1 fun t => Posted t k cid 0 0x02 ∧ t.gb = s.gb)) ∧
    (Live s k → s.isPf k = false → ∀ r ∈ rows false, Gives s r.1 fun t => Posted t k cid 0 0x01 ∧ t.gb = s.gb) ∧
    (3 ≤ s.fld F.BOOT_STATUS.STEP → ∀ r ∈ rows true, Gives s r.1 fun t => ∃ b, Out.mctp b ∈ t.out)

/-- R395, R396, R398, R399, R401, R402. The codes of a refused checkpoint request are the model's (DESIGN CHOICE, log). -/
def Obligations.LedgerCommands : Prop :=
  ∀ (s : State) (f : BitVec 12) (cid : BitVec 16) (first no : BitVec 64) (count : BitVec 13) (hash : Digest),
    let k := f.toNat
    let l := s.sec.ledger
    let n := count.toNat + 1
    let able := s.secHalted = false ∧ s.sec.keysReady = true
    let same (t : State) : Prop := t.sec = s.sec
    let read (c : Instr) (b : List Nat) : Prop := Gives s c fun t => Posted t k cid 0 0 ∧ Out.bytes k cid (toBytes b) ∈ t.out ∧ same t
    let bad (c : Instr) : Prop := Gives s c fun t => Posted t k cid 0 0x02 ∧ same t
    (∀ m, l.cpDue = some m → able → Gives s .ledgerCheckpoint fun t => t.sec.ledger.cpDue = none ∧ t.sec.ledger.cpReq = [] ∧
      t.sec.ledger.cpSlot = (if l.cps = [] then 0 else (l.cpSlot + 1) % 30) ∧
      (∀ r, sget (m % 15360) l.ring = some r → sget t.sec.ledger.cpSlot t.sec.ledger.cps = some (m, r.hash, l.seconds)) ∧
      (∀ x ∈ l.cpReq, Live s x.1 → (l.cpReq.filter fun y => y.1 == x.1) = [x] → Posted t x.1 x.2 0 0) ∧ t.sec.ledger.ring = l.ring) ∧
    (l.cpDue = none ∨ s.secHalted = true ∨ s.sec.keysReady = false → exec .ledgerCheckpoint s = .next s) ∧
    (l.tail + 4095 ≤ l.ack → l.tail + 4096 ≤ l.head → ledgerOpen s = true → s.secHalted = false → Gives s .ledgerCompaction fun t =>
      t.sec.ledger.tail = l.tail + 4096 ∧ t.sec.ledger.staging = none ∧ t.sec.ledger.ovf = none ∧ t.fld F.SEC_EVT.COMPACTED = 1 ∧
      t.sec.ledger.head = l.head + (if l.ovf = none then 1 else 2) ∧ t.sec.ledger.ack = l.ack ∧
      ∃ r, sget ((t.sec.ledger.head - 1) % 15360) t.sec.ledger.ring = some r ∧ r.kind = 4 ∧ r.no = t.sec.ledger.head - 1 ∧ (r.sum.map (·.1)) = some l.tail) ∧
    (l.ack < l.tail + 4095 → exec .ledgerCompaction s = .next s) ∧
    (Live s k → s.isPf k = true →
      (n ≤ 4096 → l.tail ≤ first.toNat → first.toNat + n ≤ l.head → read (.ledgerReadRecords f cid first count)
        ((List.range n).flatMap fun i => match s.ledgerRec (first.toNat + i) with | some r => r.bytes | none => List.replicate 256 0)) ∧
      (4096 < n ∨ first.toNat < l.tail ∨ l.head < first.toNat + n → bad (.ledgerReadRecords f cid first count)) ∧
      (first.toNat + n ≤ 30 → read (.ledgerReadCheckpoints f cid first count) ((List.range n).flatMap fun i => match sget (first.toNat + i) l.cps with
        | some (m, h, u) => cpBytes m h u | none => List.replicate 8192 0)) ∧
      (30 < first.toNat + n → bad (.ledgerReadCheckpoints f cid first count)) ∧
      (l.ovf = none → read (.ledgerReadOverflow f cid) (List.replicate 256 0)) ∧ (∀ r, l.ovf = some r → read (.ledgerReadOverflow f cid) r.bytes) ∧
      (∃ b, b.take 24 = leBytes l.head 8 ++ leBytes l.tail 8 ++ leBytes l.ack 8 ∧ read (.ledgerReadStatus f cid) b) ∧
      (∀ r, s.ledgerRec no.toNat = some r →
        (l.ack ≤ no.toNat → hash = r.hash → Gives s (.ledgerAcknowledge f cid no hash) fun t => Posted t k cid 0 0 ∧
          t.sec.ledger = { l with ack := no.toNat }) ∧
        (no.toNat < l.ack ∨ hash ≠ r.hash → bad (.ledgerAcknowledge f cid no hash))) ∧
      (s.ledgerRec no.toNat = none → bad (.ledgerAcknowledge f cid no hash)) ∧
      (l.head = 0 → bad (.ledgerCheckpointRequest f cid)) ∧
      (0 < l.head → ¬ able → Gives s (.ledgerCheckpointRequest f cid) fun t => Posted t k cid 7 0x90 ∧ same t) ∧
      (0 < l.head → able → Gives s (.ledgerCheckpointRequest f cid) fun t => t.out = s.out ∧
        t.sec.ledger = { l with cpDue := some (l.head - 1), cpReq := l.cpReq ++ [(f.toNat, cid)] })) ∧
    (Live s k → s.isPf k = false → ∀ c ∈ [Instr.ledgerReadRecords f cid first count, .ledgerReadCheckpoints f cid first count, .ledgerReadOverflow f cid,
      .ledgerReadStatus f cid, .ledgerAcknowledge f cid no hash, .ledgerCheckpointRequest f cid], Gives s c fun t => Posted t k cid 0 0x01 ∧ same t)

/-- The queue of commands is the model's own form (assumption 1). -/
def Obligations.StepRunsFront : Prop :=
  (∀ (c : Instr) (s : State), step { s with pending := c :: s.pending } = exec c s) ∧
  (∀ (c : Instr) (rest : List Instr) (s : State), s.pending = c :: rest → step s = exec c { s with pending := rest }) ∧
  (∀ s : State, s.pending = [] → step s = .next s.tick)

/-- The reset values of the register sections. Empty media and the internal starting values are the model's choice. -/
def Obligations.ResetValues : Prop :=
  (∀ off : Nat, State.reset.reg off = regReset .af off) ∧
  (∀ x ∈ ([(R.GLB_ID, 0x0B119680), (R.TT_SRC, 0x03E80000), (R.TT_STATUS, 0x80), (R.TT_GEOM_ACT, 0x001203E8), (R.TT_TABLE_ACT, 0x00090000),
      (R.TT_HOLDOVER_LIMIT, 60), (R.TT_LOCK_THRESH, 250), (R.TT_RC_TIMEOUT, 10000), (R.CMD_TIMEOUT, 10000), (R.CMD_FETCH_CTRL, 7),
      (R.BPM_LOW_WM, 10), (R.SC_BANK_CFG, 0xA5550000), (R.SC_UPD, 8), (R.PAU_STORE, 2048), (R.MAP_CTRL, 3), (R.MAP_REGION_CFG, 64),
      (R.ZYN_WAIT_LIMIT_CMD, 2000), (R.ZYN_WAIT_LIMIT_POL, 200000), (R.MED_SPOOL, 0x00CB2110), (R.MED_STRIPE, 2000), (R.JNL_HOLDUP, 290),
      (R.JNL_DIRTY_CEIL, 512), (R.ECC_CTRL, 1), (R.DMC_PWR, 0x140), (R.SEC_CTRL, 0x18), (R.PMU_CTRL, 0x3C0000), (R.TMU_GAIN, 0x4000),
      (R.TMU_THRESH, 0x78736964), (R.TH_CTRL, 8), (R.TH_FENCE, 0x13880014), (R.TST_MARGIN_CTRL, 0x01910000)] : List (Nat × Nat)),
    (State.reset.reg x.1).toNat = x.2) ∧
  (State.reset.zyn.ctxs = [] ∧ State.reset.zyn.queues = [] ∧ State.reset.zyn.faultQ = [] ∧ State.reset.host.cmds = [] ∧ State.reset.host.sqs = [] ∧ State.reset.host.bufs = [] ∧ State.reset.host.rlt = [] ∧
    State.reset.sc.entries = [] ∧ State.reset.media.nand = [] ∧ State.reset.media.slots = [] ∧ State.reset.mram.ring = [] ∧ State.reset.dmc.wq = [] ∧ State.reset.sec.slots = [] ∧ State.reset.gb.slots = [] ∧
    State.reset.out = [] ∧ State.reset.now = 0 ∧ State.reset.ttu.pnum = 0 ∧ State.reset.pending = [])

/-- The fault for an absent unit is the model's (assumption 2): the spec has no such event. -/
def Obligations.CommandsStopOnlyOnUnitsThatAreAbsent : Prop :=
  ∀ (i : Instr) (s : State),
    (∀ r, exec i s ≠ .refused r) ∧
    (i.wellFormed = false → exec i s = .fault .noSuchUnit) ∧
    (i.wellFormed = true →
      match i with
      | .nandOperationComplete d _ | .readyTimeout d | .readPreemptSuspend d | .suspendResume d =>
        (s.populated d.toNat = false → exec i s = .fault .noSuchUnit) ∧ (s.populated d.toNat = true → ∃ t, exec i s = .next t)
      | _ => ∃ t, exec i s = .next t)

/-- R346 to R357, R366. One slot of the scheduler is a network clock (the model's choice, log). -/
def Obligations.DramMaintenance : Prop :=
  ∀ (s : State) (bank : BitVec 9) (addr : BitVec 37) (n refi : BitVec 14) (sub : BitVec 2) (ch rank due full rfm : Bool) (idle : BitVec 16) (r : DramReq),
    let b := bank.toNat
    let key := (dramLoc s addr.toNat).key
    let thr := max 256 (s.fld F.DMC_RP_CFG.THRESH)
    let acts (t : State) (k : Nat) : Nat := sgetD 0 k t.dmc.acts
    let st := s.fld F.DMC_STATUS.STATE
    let pd := (if ch then 2 else 0) + (if rank then 1 else 0)
    let p := sgetD 0 b s.dmc.postponed
    let wq (t : State) (k : Nat) : List DramQ := sgetD [] k t.dmc.wq
    let rq (t : State) (k : Nat) : List DramQ := sgetD [] k t.dmc.rq
    let urgent : Prop := ∃ q ∈ rq s (b / 128) ++ wq s (b / 128), 0 < urgency s q
    let madeUp (t : State) : Prop := sgetD 0 b t.dmc.postponed = 0 ∧ sget b t.dmc.openRow = none ∧ (t.fld F.DMC_STATUS.PD).testBit (bankPd b) = false ∧
      ∀ row < 2 ^ 17, acts t (b * 2 ^ 17 + row) = if full then 0 else acts s (b * 2 ^ 17 + row)
    let mitigate := Instr.rowProtectionMitigation addr n rfm
    let to_ := (dramLoc s r.addr.toNat).sub
    let others := (wq s to_).filter fun x => dramUnit x.req != dramUnit r
    let k := sub.toNat
    let hi := max 2 (s.fld F.DMC_WQ.WR_HI)
    let lo := min (s.fld F.DMC_WQ.WR_LO) (hi - 1)
    (dmcAwake s = true →
      (urgent → p < 4 → Gives s (.refresh bank true full) fun t => sgetD 0 b t.dmc.postponed = p + 1 ∧ t.dmc.acts = s.dmc.acts) ∧
      (¬ urgent ∨ 4 ≤ p → Gives s (.refresh bank true full) madeUp) ∧ (Gives s (.refresh bank false full) madeUp) ∧
      (exec (.mr4Read refi) s = .next { s with dmc := { s.dmc with refi := refi.toNat } }) ∧
      (dramHas s addr.toNat = true → thr ≤ acts s key + n.toNat → Gives s mitigate fun t => acts t key = 0 ∧
        t.fld F.DMC_RP_CNT.COUNT = min (s.fld F.DMC_RP_CNT.COUNT + 1 + (if rfm then 1 else 0)) 0xFFFFFFFF ∧ ∀ k, k ≠ key → acts t k = acts s k) ∧
      (dramHas s addr.toNat = true → acts s key + n.toNat < thr → Gives s mitigate fun t => acts t key = acts s key + n.toNat ∧
        t.fld F.DMC_RP_CNT.COUNT = min (s.fld F.DMC_RP_CNT.COUNT + (if rfm then 1 else 0)) 0xFFFFFFFF ∧ ∀ k, k ≠ key → acts t k = acts s k) ∧
      (dramHas s addr.toNat = false → exec mitigate s = .next s) ∧
      (exec .zqCalibration s = .next { s with dmc := { s.dmc with zqDone := s.dmc.zqDone + 1 } }) ∧
      (let k := sub.toNat * 2 + (if rank then 1 else 0)
       Gives s (.dqsOscillatorMeasurement sub rank) fun t => sgetD 0 k t.dmc.oscDone = sgetD 0 k s.dmc.oscDone + 1 ∧ t.regs = s.regs)) ∧
    (dmcAwake s = false → ∀ x ∈ [Instr.refresh bank due full, .mr4Read refi, mitigate, .zqCalibration, .dqsOscillatorMeasurement sub rank], exec x s = .next s) ∧
    (st = 2 → dramHas s r.addr.toNat = true →
      (r.write = true → r.masked = false → others.length < 64 → Gives s (.writeBatch sub [r] 0 [] 0) fun t =>
        wq t to_ = others ++ [{ req := r, since := s.ttu.elapsed - r.ageNs.toNat }] ∧ t.dmc.rq = s.dmc.rq) ∧
      (r.write = false → (∃ x ∈ wq s to_, dramUnit x.req = dramUnit r) → Gives s (.writeBatch sub [r] 0 [] 0) fun t => t.dmc = s.dmc) ∧
      (r.write = false → (∀ x ∈ wq s to_, dramUnit x.req ≠ dramUnit r) → (rq s to_).length < 64 → Gives s (.writeBatch sub [r] 0 [] 0) fun t =>
        rq t to_ = rq s to_ ++ [{ req := r, since := s.ttu.elapsed - r.ageNs.toNat }] ∧ t.dmc.wq = s.dmc.wq)) ∧
    (st = 2 → sget k s.dmc.batches = none → rq s k = [] → hi ≤ (wq s k).length → Gives s (.writeBatch sub [] 1 [] 0) fun t =>
      (wq t k).length = (wq s k).length - 1 ∧ (∀ x ∈ wq t k, x ∈ wq s k) ∧ (lo < (wq t k).length → t.fld F.DMC_STATUS.WBATCH = 1)) ∧
    (∀ q, st = 2 → sget k s.dmc.batches = none → rq s k = [q] → wq s k = [] → Gives s (.writeBatch sub [] 1 [] 0) fun t =>
      rq t k = [] ∧ sget (dramLoc s q.req.addr.toNat).bank t.dmc.openRow = some (dramLoc s q.req.addr.toNat).row) ∧
    (st ≠ 2 → ∀ l m l' m', exec (.writeBatch sub l m l' m') s = .next s) ∧
    (st = 2 → 0 < s.fld F.DMC_PWR.PD_IDLE_NS → s.fld F.DMC_PWR.PD_IDLE_NS ≤ idle.toNat → rankAsked s ch rank = false → Gives s (.powerDownEntry ch rank idle false) fun t =>
      (t.fld F.DMC_STATUS.PD).testBit pd = true ∧ t.fld F.DMC_STATUS.STATE = 2) ∧
    (rankAsked s ch rank = true ∨ due = true → exec (.powerDownEntry ch rank idle due) s = .next s) ∧
    (st = 2 → s.dmc.sr = .active → (if due then s.fld F.DMC_PWR.SR_IDLE_US ≠ 0 else voted s 8 = false) →
      (Gives s (.selfRefreshEntry due false) fun t => t.dmc.sr = .selfRefresh ∧ t.dmc.wq = [] ∧ t.dmc.rq = [] ∧ t.fld F.DMC_STATUS.STATE = 5 ∧ t.fld F.DMC_STATUS.PD = 0) ∧
      (Gives s (.selfRefreshEntry due true) fun t => t.dmc.sr = .active ∧ t.dmc.wq = [] ∧ t.dmc.rq = [] ∧ t.fld F.DMC_STATUS.STATE = 2 ∧ t.fld F.DMC_EVT.SR_ABANDON = 1)) ∧
    (s.dmc.sr = .selfRefresh → Gives s (.minimumResidencyElapsed true) fun t => t.dmc.sr = .exit ∧ t.regs = s.regs) ∧
    (s.dmc.sr = .exit → Gives s .selfRefreshExit fun t => t.dmc.sr = .active ∧ t.fld F.DMC_STATUS.STATE = 2 ∧ t.dmc.zqDone = s.dmc.zqDone + 1)

/-- R294, R310 to R313, R361 to R364, R424. -/
def Obligations.DramErrorsAndPowerFail : Prop :=
  ∀ (s : State) (addr : BitVec 37) (sub : BitVec 2) (die : BitVec 10),
    let st := s.fld F.DMC_STATUS.STATE
    let fl := s.fld F.JNL_STATUS.FLUSH_STATE
    (st = 2 → s.flag F.DMC_CTRL.ERR_MODE = false → s.dmc.capEnd = none → s.tst.loops = [] → Gives s (.dramCapture addr (.table addr) false none none false) fun t =>
      t.fld F.DMC_UE_CNT.COUNT = min (s.fld F.DMC_UE_CNT.COUNT + 1) 0xFFFFFFFF ∧ t.fld F.DMC_EVT.UE = 1 ∧ t.fld F.DMC_EVT.CAPTURE = 1 ∧ t.pair R.DMC_CAP_ADDR_LO = addr.toNat ∧ t.dmc.capEnd = some s.ttu.elapsed) ∧
    (st = 2 → s.flag F.DMC_CTRL.ERR_MODE = true → s.tst.loops = [] → Gives s (.dramCapture addr (.table addr) false none none false) fun t =>
      t.fld F.DMC_STATUS.STATE = 4 ∧ t.fld F.DMC_EVT.FREEZE = 1 ∧ t.pair R.DMC_CAP_ADDR_LO = addr.toNat) ∧
    (s.flag F.DMC_CTRL.WCRC_EN = false → exec (.alertN sub) s = .next s) ∧
    (s.flag F.DMC_CTRL.WCRC_EN = true → st = 2 → (s.dmc.reissue = none → Gives s (.alertN sub) fun t => t.fld F.DMC_EVT.ALERT_RETRY = 1 ∧
        t.dmc.reissue = some s.ttu.elapsed ∧ t.fld F.DMC_STATUS.STATE = 2) ∧
      (∀ p, s.dmc.reissue = some p → s.ttu.elapsed ≤ p + 1000 → s.tst.loops = [] → Gives s (.alertN sub) fun t => t.fld F.DMC_STATUS.STATE = 4)) ∧
    (s.jnl.openRecs ≠ [] → s.jnl.inhibit = false → s.jnl.images = [] → s.media.zoneMoves = [] → (∀ f, (s.func f).shutdown = false) → Gives s .batchSeal fun t =>
      t.jnl.openRecs = [] ∧ t.jnl.sealed = s.jnl.openBase + s.jnl.openRecs.length - 1 ∧ t.jnl.openBase = t.jnl.sealed + 1) ∧
    (s.flushing = true → exec .pfail s = .next s) ∧
    (s.flushing = false → s.dom 0 ≤ 1 → s.host.bufs = [] → s.fld F.JNL_STATUS.RECOV_PHASE = 7 → Gives s .pfail fun t => t.fld F.JNL_STATUS.FLUSH_STATE = 1 ∧
      t.mram.shutdown.vote = some 2 ∧ t.jnl.flushPower = true ∧ t.host.stopAll = true ∧ t.media.envQ = [] ∧ t.media.decoding = []) ∧
    (s.flushing = false → s.dom 0 ≤ 1 → s.fld F.JNL_STATUS.RECOV_PHASE ≠ 7 → Gives s .pfail fun t => t.fld F.JNL_STATUS.FLUSH_STATE = 3 ∧ t.jnl.inhibit = true) ∧
    (s.flushing = true → s.jnl.flushPower = true → s.jnl.inhibit = false → exec .pfailRelease s = .next { s with jnl := { s.jnl with pfailRose := true } }) ∧
    (∀ u, (s.lun die.toNat).run = .program u → u.flush = false → fl = 1 → (s.lun die.toNat).queue = [] → Gives s (.flushProgramAbandon die) fun t =>
      (t.lun die.toNat).run = .none ∧ t.fld F.JNL_EVT.LOST_REPLAY = 1 ∧ (t.reg R.JNL_LOST_CNT).toNat = min ((s.reg R.JNL_LOST_CNT).toNat + 1) 0xFFFFFFFF) ∧
    (fl = 1 → flushIdle s = true → s.host.bufs = [] → s.jnl.inhibit = false → Gives s .tier1End fun t => t.fld F.JNL_STATUS.FLUSH_STATE = 2 ∧
      t.mram.shutdown.vote = some 3 ∧ t.jnl.openRecs = []) ∧
    (fl = 2 → flushIdle s = true → s.jnl.flushPower = true → s.gb.writing = none → lunsIdle s = true → s.jnl.pfailRose = false → s.jnl.perstLatched = false →
      Gives s .tier2End fun t => t.fld F.JNL_STATUS.FLUSH_STATE = 3 ∧ t.jnl.inhibit = true ∧ t.mram = s.mram ∧ t.media = s.media) ∧
    (fl ≠ 1 → exec .tier1End s = .next s) ∧ (fl ≠ 2 → exec .tier2End s = .next s) ∧
    (s.pwr.thermTrip = false → Gives s .thermtrip fun t => t.pwr.thermTrip = true ∧ Out.pin "THERMTRIP#" false ∈ t.out ∧ (s.dom 0 ≤ 1 → t.flushing = true)) ∧
    (s.pwr.thermTrip = true → exec .thermtrip s = .next s)

/-- R4, R6, R7, R192, R488. -/
def Obligations.RegisterWritesAndAccessErrors : Prop :=
  ∀ (s : State) (pf be : Bool) (off : BitVec 26) (v : Word) (words : List Word) (n : BitVec 10) (a : BitVec 13) (d : RegDef) (i : Nat),
    let o := dwOff off
    let plain := [R.CMD_FETCH_CTRL, R.TEN_CTRL, R.BPM_CTRL, R.PAU_CTRL, R.MAP_CTRL, R.ZYN_CTRL, R.MED_CTRL, R.JNL_CTRL, R.ECC_CTRL, R.DMC_CTRL, R.SEC_CTRL,
      R.PMU_CTRL, R.TST_CTRL, R.TT_EVT, R.HIU_EVT, R.BPM_EVT, R.MAP_EVT, R.MED_EVT, R.JNL_EVT, R.ECC_EVT, R.DMC_EVT, R.SEC_EVT, R.PMU_EVT, R.TMU_EVT, R.GLB_ERR]
    let awake := ∀ k, regDomain o = some k → s.dom k < 2
    (pf = false ∨ s.x4x4 = true →
      (o ∈ plain → findReg o = some (d, i) → accessOf s o = .mapped → awake → Gives s (.registerWrite pf off [v] true) fun t =>
        (∀ j < 32, (t.reg o).getLsbD j = (if d.w1c.testBit j && v.getLsbD j then false
          else if d.rw.testBit j || (!s.locked o && d.rwl.testBit j) then v.getLsbD j else (s.reg o).getLsbD j)) ∧
        (∀ r, r ≠ o → t.reg r = s.reg r) ∧ t = { s with regs := t.regs, host := { s.host with l1Port0 := t.host.l1Port0, l1Port1 := t.host.l1Port1 }, sec := { s.sec with m6 := t.sec.m6 } }) ∧
      (2 < words.length ∨ (words ≠ [] ∧ be = false) → Gives s (.registerWrite pf off words be) fun t => t.fld F.GLB_ERR.BAD_WIDTH = 1 ∧
        t.fld F.GLB_ERR_ADDR.OFFSET = o ∧ ∀ r, r ≠ R.GLB_ERR → r ≠ R.GLB_ERR_ADDR → t.reg r = s.reg r) ∧
      (16 < n.toNat → Gives s (.readClear pf off n) fun t => t.fld F.GLB_ERR.BAD_WIDTH = 1) ∧
      (accessOf s o = .unmapped → (Gives s (.registerWrite pf off [v] true) fun t => t.fld F.GLB_ERR.UNMAPPED = 1 ∧ t.fld F.GLB_ERR_ADDR.OFFSET = o ∧
          ∀ r, r ≠ R.GLB_ERR → r ≠ R.GLB_ERR_ADDR → t.reg r = s.reg r) ∧
        (Gives s (.readClear pf off 1) fun t => t.fld F.GLB_ERR.UNMAPPED = 1 ∧ t.out = .reg pf o 0 :: s.out)) ∧
      (accessOf s o = .notLoaded → (Gives s (.registerWrite pf off [v] true) fun t => t.fld F.GLB_ERR.NOT_LOADED = 1 ∧
          ∀ r, r ≠ R.GLB_ERR → r ≠ R.GLB_ERR_ADDR → t.reg r = s.reg r) ∧
        (Gives s (.loLatchRead pf off 1) fun t => t.fld F.GLB_ERR.NOT_LOADED = 1 ∧ t.out = .reg pf o 0 :: s.out))) ∧
    (pf = true → s.x4x4 = false → exec (.registerWrite pf off words be) s = .next s) ∧
    (a.toNat ≤ 4096 → Gives s (.bpmShareWrite a v) fun t => t.fld (F.BPM_SHARE.SHARE.ix a.toNat) = v.toNat % 2 ^ 22 ∧
      (s.ecc.rebuilds = [] → ∀ f ∈ s.tenants, s.tenAccount f = a.toNat → t.tenWord f 1 = v.toNat % 2 ^ 22)) ∧
    (4096 < a.toNat → exec (.bpmShareWrite a v) s = .fault .noSuchUnit)

/-- R490; the clearing reads are R4's. -/
def Obligations.RegisterReadsLatchAndClear : Prop :=
  ∀ (s : State) (pf : Bool) (off : BitVec 26) (d : RegDef) (i : Nat),
    let o := dwOff off
    let u := s.l1Exit (if pf then 2048 else 0)
    let latch (t : State) (k : Nat) : Word := sgetD 0 k t.host.latch
    (pf = false ∨ s.x4x4 = true → accessOf s o = .mapped → (∀ k, regDomain o = some k → s.dom k < 2) → ∀ c ∈ [Instr.loLatchRead pf off 1, .readClear pf off 1],
      (isLatchLo o = true → Gives s c fun t => t.out = .reg pf o (u.view o) :: s.out ∧ latch t (latchKey pf (o + 4)) = u.view (o + 4) ∧
        ∀ k, k ≠ latchKey pf (o + 4) → latch t k = latch s k) ∧
      (4 ≤ o → isLatchLo (o - 4) = true → Gives s c fun t => t.out = .reg pf o (latch s (latchKey pf o)) :: s.out ∧ t.host.latch = s.host.latch) ∧
      (isLatchLo o = false → isLatchLo (o - 4) = false → Gives s c fun t => t.out = .reg pf o (u.view o) :: s.out ∧ t.host.latch = s.host.latch) ∧
      (findReg o = some (d, i) → o ≠ R.CMD_INFLIGHT_MAX → Gives s c fun t => t.reg o = s.reg o &&& ~~~(BitVec.ofNat 32 d.rc) ∧ ∀ r, r ≠ o → t.reg r = s.reg r) ∧
      (o = R.CMD_INFLIGHT_MAX → Gives s c fun t => t.fld F.CMD_INFLIGHT_MAX.MAX = s.host.cmds.length % 2 ^ F.CMD_INFLIGHT_MAX.MAX.width)) ∧
    (∀ cause k, latch (s.warmReset cause) k = 0) ∧ (∀ k, latch State.reset k = 0) ∧
    (∀ o', latchKey true o' ≠ latchKey false o')

/-- R495, R494; SHA3-384 is the opaque digest of Config, over the values in order. -/
def Obligations.LocksExtendMeasurement : Prop :=
  ∀ (s : State) (b : BitVec 5) (v : Word) (cause : Nat) (brownOut : Bool),
    let bit (t : State) (r : Nat) : Bool := (t.reg r).getLsbD 31
    let ext (t : State) (m : Digest) (base : Nat) : Digest := Config.digest (m.toNat :: base :: lockImage t base)
    ((s.warmReset cause).sec.m6 = 0) ∧ (Gives s (.coldReset brownOut) fun t => t.sec.m6 = 0) ∧
    (∀ base r, lockList.find? (fun x : Nat × Nat × Nat => x.2.2 == b.toNat) = some (base, r, b.toNat) →
      let u := s.regWake r
      (b ≠ 0 ∨ v.getLsbD 0 = false → bit u r = false → Gives s (.lockWrite b v) fun t => bit t r = true ∧ t.sec.m6 = ext t s.sec.m6 base) ∧
      (b ≠ 0 ∨ v.getLsbD 0 = false → bit u r = true → Gives s (.lockWrite b v) fun t => bit t r = true ∧ t.sec.m6 = s.sec.m6)) ∧
    (19 ≤ b.toNat → exec (.lockWrite b v) s = .fault .noSuchUnit) ∧
    (Gives s .lockAll fun t => (∀ x ∈ lockList, bit t x.2.1 = true) ∧
      t.sec.m6 = (lockList.filter fun x : Nat × Nat × Nat => !bit s x.2.1).foldl (fun (m : Digest) (x : Nat × Nat × Nat) => ext t m x.1) s.sec.m6 ∧
      t = { s with regs := t.regs, sec := { s.sec with m6 := t.sec.m6 } }) ∧
    ((lockList.map (·.1)).Pairwise (· < ·))

/-- R455 to R459. -/
def Obligations.TetherRingAndLinks : Prop :=
  ∀ (s : State) (h : TetherHdr) (id size : BitVec 2) (bundle w : Word) (ns : List Word) (sole : BitVec 64) (link rate width : Bool),
    let k := linkIx link
    let l := s.link link
    (s.flag F.TH_CTRL.EN = true → id.toNat ≠ ringId s → max 1 size.toNat + 1 = ringSize s → linkUp s h.link = true → h.srcN ≠ ringId s →
      Gives s (.hello h id size bundle ns) fun t => (t.peer id.toNat).hello = some { sizeM1 := size.toNat, bundle := bundle, nscfg := ns } ∧
        t.zyn = s.zyn ∧ t.host = s.host) ∧
    (s.flag F.TH_CTRL.EN = false → exec (.hello h id size bundle ns) s = .next s) ∧
    (linkUp s h.link = false ∨ h.srcN = ringId s → exec (.heartbeat h sole) s = .next s) ∧
    (s.flag F.TH_CTRL.EN = true → id.toNat = ringId s ∨ max 1 size.toNat + 1 ≠ ringSize s → Gives s (.hello h id size bundle ns) fun t =>
      t.fld F.TH_STATUS.CONFLICT = 1 ∧ t.fld F.TH_EVT.CONFLICT = 1 ∧ t.fld F.TH_STATUS.FORMED = 0 ∧ t.th = s.th) ∧
    (linkUp s h.link = true → h.srcN ≠ ringId s → Gives s (.heartbeat h sole) fun t => (t.peer h.srcN).lost = false ∧ (t.peer h.srcN).missed = 0 ∧
      (if h.link then (t.peer h.srcN).heardE else (t.peer h.srcN).heardW) = true ∧ (t.fld F.TH_STATUS.PRESENT).testBit h.srcN = true) ∧
    (s.flag F.TH_CTRL.EN = true → Gives s .heartbeatSend fun t =>
      ∃ b, (linkUp s false = true → Out.frame 0 1 (ringId s) b ∈ t.out) ∧ (linkUp s true = true → Out.frame 1 1 (ringId s) b ∈ t.out)) ∧
    (s.flag F.TH_CTRL.EN = false → exec .heartbeatSend s = .next s) ∧
    (s.flag F.TH_CTRL.EN = true → id.toNat ≠ ringId s → id.toNat < ringSize s → let p := s.peer id.toNat
      (p.heardW ≠ p.heardE → Gives s (.peerLoss id) fun t => t.fld F.TH_EVT.PATH_LOST = 1 ∧ (t.peer id.toNat).missed = 0 ∧
        (t.peer id.toNat).heardW = false ∧ (t.peer id.toNat).heardE = false) ∧
      (p.heardW = true → p.heardE = true → Gives s (.peerLoss id) fun t => t.peer id.toNat = { p with heardW := false, heardE := false, missed := 0 } ∧ t.regs = s.regs) ∧
      (p.heardW = false → p.heardE = false → p.missed < 2 ∨ p.lost = true ∨ p.hello = none → Gives s (.peerLoss id) fun t => t.peer id.toNat = { p with missed := p.missed + 1 } ∧
        t.regs = s.regs)) ∧
    (s.flag F.TH_CTRL.EN = false ∨ id.toNat = ringId s ∨ ringSize s ≤ id.toNat → exec (.peerLoss id) s = .next s) ∧
    (s.flag F.TH_CTRL.EN = false → exec (.linkRetrainComplete link rate width) s = .next s) ∧
    (s.flag F.TH_CTRL.EN = true → Gives s (.linkRetrainComplete link rate width) fun t => linkUp t link = true ∧
      t.fld (F.TH_LINK.RATE.ix k) = (if rate then 1 else 0) ∧ t.fld (F.TH_LINK.WIDTH.ix k) = (if width then 1 else 0) ∧
      ∃ b, Out.frame k 2 (ringId s) b ∈ t.out) ∧
    (linkUp s link = false ∨ l.unacked = [] → exec (.replayTimeout link) s = .next s) ∧
    (linkUp s link = true → l.unacked ≠ [] →
      (l.tries < 3 → Gives s (.replayTimeout link) fun t => (t.link link).unacked = l.unacked ∧ (t.link link).tries = l.tries + 1 ∧
        (∀ f ∈ l.unacked, Out.frame k f.ty f.src f.body ∈ t.out) ∧
        t.fld (F.TH_LINK.REPLAYS.ix k) = min (s.fld (F.TH_LINK.REPLAYS.ix k) + 1) 0xFFFF) ∧
      (3 ≤ l.tries → Gives s (.replayTimeout link) fun t => linkUp t link = false ∧ t.fld (F.TH_LINK.RETRAIN.ix k) = 1 ∧
        t.fld F.TH_EVT.PATH_LOST = 1 ∧ (t.link link).unacked = [])) ∧
    (∀ n : BitVec 12, linkUp s link = true → s.th.copying = [] → Gives s (.idleFrame link n false) fun t =>
      (t.link link).unacked = l.unacked.drop n.toNat ∧ (t.link link).next = l.next ∧ t.regs = s.regs ∧ t.out = s.out) ∧
    (∀ (n : BitVec 12) (nak : Bool), (linkUp s link = false → exec (.idleFrame link n nak) s = .next s) ∧
      (linkUp s link = true → Gives s (.idleFrame link n nak) fun t => l.unacked.drop n.toNat <+: (t.link link).unacked ∧
        (nak = true → ∀ f ∈ l.unacked.drop n.toNat, Out.frame k f.ty f.src f.body ∈ t.out))) ∧
    (s.locked R.TH_CTRL = true ∨ w.getLsbD 0 = s.flag F.TH_CTRL.EN → Gives s (.thCtrlEnWrite w) fun t => t.flag F.TH_CTRL.EN = s.flag F.TH_CTRL.EN ∧ t.th = s.th ∧
      ∀ e, linkUp t e = linkUp s e) ∧
    (s.flag F.TH_CTRL.EN = false → s.locked R.TH_CTRL = false → w.getLsbD 0 = true → Gives s (.thCtrlEnWrite w) fun t =>
      t.fld F.TH_CTRL.EN = 1 ∧ t.fld (F.TH_LINK.RETRAIN.ix 0) = 1 ∧ t.fld (F.TH_LINK.RETRAIN.ix 1) = 1 ∧ t.th.forming = true) ∧
    (s.flag F.TH_CTRL.EN = true → s.locked R.TH_CTRL = false → w.getLsbD 0 = false → Gives s (.thCtrlEnWrite w) fun t =>
      t.fld F.TH_CTRL.EN = 0 ∧ linkUp t false = false ∧ linkUp t true = false)

/-- R459, R468. -/
def Obligations.TetherMirrorStates : Prop :=
  ∀ (s : State) (id : BitVec 2) (i : BitVec 6) (v : Word),
    let k := id.toNat
    let p := s.peer k
    let entry := i.toNat
    let home : Prop := s.fld (F.TH_NSCFG.PRIMARY.ix entry) = ringId s
    let mode := s.fld (F.TH_NSCFG.MODE.ix entry)
    (s.flag F.TH_CTRL.EN = true → k ≠ ringId s → k < ringSize s → p.heardW = false → p.heardE = false → 2 ≤ p.missed → p.lost = false →
      p.hello.isSome = true → Gives s (.peerLoss id) fun t => (t.peer k).lost = true ∧ (t.peer k).hello = none ∧
        (entry ∈ mirrorsWith s k → thState s entry = 0 → (home → thState t entry = 1) ∧ (¬ home → thState t entry = 2)) ∧
        (entry ∉ mirrorsWith s k ∨ thState s entry ≠ 0 → thState t entry = thState s entry) ∧ (s.host.cmds = [] → t.zyn = s.zyn)) ∧
    (s.th.forming = true → s.flag F.TH_STATUS.FORMED = false → Gives s .formationTimeout fun t => t.th.forming = false ∧
      (mode = 1 → s.fld (F.TH_NSCFG.NSID.ix entry) ≠ 0 → (home → thState t entry = 1) ∧ (¬ home → thState t entry = 2)) ∧
      (mode ≠ 1 ∨ s.fld (F.TH_NSCFG.NSID.ix entry) = 0 → thState t entry = thState s entry)) ∧
    (s.th.forming = false ∨ s.flag F.TH_STATUS.FORMED = true → exec .formationTimeout s = .next s) ∧
    (let ripe := thState s entry = 2 ∧ mode = 1 ∧ (s.peer (thPeer s entry)).lost = true
     (ripe → s.flag F.TH_CTRL.TAKEOVER = true → Gives s (.fenceTimeout i) fun t => thState t entry = 1 ∧ t.fld F.TH_EVT.SOLE = 1) ∧
     (¬ ripe ∨ s.flag F.TH_CTRL.TAKEOVER = false → exec (.fenceTimeout i) s = .next s) ∧
     (ripe → v.getLsbD 6 = true → v.toNat % 64 = entry → Gives s (.thNsCmdTakeover v) fun t => thState t entry = 1 ∧ t.fld F.TH_EVT.SOLE = 1) ∧
     (v.getLsbD 6 = false ∨ (¬ ripe ∧ v.toNat % 64 = entry) → Gives s (.thNsCmdTakeover v) fun t => thState t entry = thState s entry ∧ t.th = s.th))

/-- R457, R462, R463, R466: mirrored writes. -/
def Obligations.TetherMirroredWrites : Prop :=
  ∀ (s : State) (h : TetherHdr) (op : BitVec 8) (ns : BitVec 15) (lba a : BitVec 40) (n : BitVec 17) (sct sc : BitVec 8) (piece : Bool)
    (blocks : List (BitVec 40 × BitVec 8 × Block)),
    let key := peerKey h.srcN h.tag.toNat
    let tag := h.tag.toNat
    let N := ns.toNat
    let o := lba.toNat % 2 ^ s.nsLogZsze N
    let z := s.zoneOf N lba.toNat
    let append := op == 0x7D
    let first := if append then lba.toNat + s.zrwp z else lba.toNat
    let refused := if s.nsZoned N && (op == 0x01 || append) then zoneStatus s N z n.toNat (if append then none else some o) (!append || o == 0) else none
    let decides (i : Nat) : Bool := match spanOf s N with | some j => spanOwner s j N lba.toNat == ringId s | none => lockHome s i
    let waits := localConflict s N lba.toNat n.toNat key .excl = true ∨ withinCeiling s blocks.length = false ∨ freeBufs s < blocks.length ∨
      partialWaits s N lba.toNat n.toNat = true
    let full := if s.nsZoned N && op == 0x01 then zoneStatus s N z n.toNat (some o) true else none
    (Arrives s h →
      (∀ i, thEntry s N = some i → decides i = true →
        (∀ p, refused = some p → Gives s (.lockRequest h op ns lba n) fun t => Sent t 4 [BitVec.ofNat 64 (p.1 * 256 + p.2), 0] ∧ t.host = s.host) ∧
        (refused = none → Gives s (.lockRequest h op ns lba n) fun t => t.host.fsn = s.host.fsn + 1 ∧
          (∃ r ∈ t.host.rlt, r.cmd = key ∧ r.fsn = s.host.fsn ∧ r.peer = some h.srcN ∧ r.nsid = N) ∧
          (s.host.rlt = [] → Sent t 4 [0, BitVec.ofNat 64 first] ∧ ∀ r ∈ t.host.rlt, r.held = true))) ∧
      (∀ i, thEntry s N = some i → decides i = false → Gives s (.lockRequest h op ns lba n) fun t => t.host = s.host ∧ t.out = s.out) ∧
      (thEntry s N = none → (Gives s (.lockRequest h op ns lba n) fun t => t.host = s.host ∧ t.out = s.out)) ∧
      (∀ x, s.cmd tag = some x → x.mirror = .waitGrant →
        (Gives s (.lockGrant false h 0 0 a) fun t => ∃ y, t.cmd tag = some y ∧ y.mirror = .granted ∧ (x.sqe.opcode = 0x7D → y.assigned = some a.toNat) ∧
          y.sqe = x.sqe ∧ ∀ c, c ≠ tag → t.cmd c = s.cmd c) ∧
        (sct ≠ 0 ∨ sc ≠ 0 → Ends s x → Gives s (.lockGrant false h sct sc a) fun t => Posted t x.func x.sqe.cid sct.toNat sc.toNat)) ∧
      ((∀ x, s.cmd tag = some x → x.mirror ≠ .waitGrant) → Gives s (.lockGrant false h sct sc a) fun t => t.host = s.host) ∧
      (∀ r, s.lock key = some r → lockFree s r = true → Gives s (.lockGrant true h sct sc a) fun t =>
        (t.lock key).map (·.held) = some true ∧ ∃ b, Sent t 4 b) ∧
      ((∀ r, s.lock key = some r → lockFree s r = false) → exec (.lockGrant true h sct sc a) s = .next s) ∧
      (waits → exec (.writeData h piece op ns lba n blocks) s = .next s) ∧
      (∀ i, thEntry s N = some i → ¬ waits →
        (Gives s (.writeData h false op ns lba n blocks) fun t =>
          t.th.rx = s.th.rx ++ [{ src := h.srcN, tag := tag, entry := i, lba := lba.toNat, n := n.toNat }] ∧ Sent t 6 []) ∧
        (full = none → Gives s (.writeData h true op ns lba n blocks) fun t => Sent t 0x0A [0]) ∧
        (∀ p, full = some p → Gives s (.writeData h true op ns lba n blocks) fun t => Sent t 0x0A [BitVec.ofNat 64 (p.1 * 256 + p.2)] ∧ t.host = s.host)) ∧
      ((∀ x, s.cmd tag = some x → x.mirror ≠ .sent) → Gives s (.writeAck h) fun t => t.host = s.host ∧ t.out = s.out) ∧
      (∀ x, s.cmd tag = some x → x.mirror = .sent → Gives s (.writeAck h) fun t => Sent t 7 []) ∧
      (Gives s (.commitNotice h) fun t => t.lock key = none ∧ t.host.rlt = s.host.rlt.filter (·.cmd != key) ∧
        t.th.rx = s.th.rx.filter (fun w => !(w.src == h.srcN && w.tag == tag)) ∧ t.zyn = s.zyn)) ∧
    (∀ c ∈ ([(.lockRequest h op ns lba n, 3), (.lockGrant false h sct sc a, 4), (.writeData h piece op ns lba n blocks, 5), (.writeAck h, 6),
        (.commitNotice h, 7)] : List (Instr × Nat)),
      (Passes s h → Gives s c.1 fun t => (∃ b, Out.frame (linkIx (!h.link)) c.2 h.srcN b ∈ t.out) ∧ t.host = s.host ∧ t.zyn = s.zyn ∧ t.regs = s.regs) ∧
      (linkUp s h.link = false ∨ h.srcN = ringId s → exec c.1 s = .next s))

/-- R457, R466, R471 to R473. -/
def Obligations.TetherPiecesBellAndResync : Prop :=
  ∀ (s : State) (h : TetherHdr) (ns : BitVec 15) (lba : BitVec 40) (n : BitVec 17) (bad : List Nat) (ident : BitVec 16) (m v time : Word64) (kind : BitVec 2)
    (arrived : Bool) (rt : BitVec 32) (i : BitVec 6) (sct sc : BitVec 8) (stop : Bool) (blocks : List (BitVec 40 × Block)) (rd : List (BitVec 40 × Option Block)),
    let tag := h.tag.toNat
    let N := ns.toNat
    let here := linkUp s h.link = true ∧ h.srcN ≠ ringId s
    let locked := localConflict s N lba.toNat n.toNat (peerKey h.srcN tag) .shared
    let offline := s.nsZoned N && anyOffline s N lba.toNat n.toNat
    let lost (o : Nat) : Prop := ∃ b, got s N (lba.toNat + o) (bad.contains o) = .lost b
    let mode := s.fld F.TT_STATUS.ACTIVE_SRC
    (Arrives s h → locked = true → exec (.readRequest h ns lba n bad) s = .next s) ∧
    (Arrives s h → locked = false →
      (offline = true → Gives s (.readRequest h ns lba n bad) fun t => Sent t 0x0A [0x1BB] ∧ t.host = s.host) ∧
      (offline = false → (∃ o, o < n.toNat ∧ lost o) → Gives s (.readRequest h ns lba n bad) fun t => Sent t 0x0A [0x281]) ∧
      (offline = false → (∀ o, o < n.toNat → ¬ lost o) → Gives s (.readRequest h ns lba n bad) fun t =>
        Sent t 0x0A [0] ∧ (∃ b, Sent t 9 b) ∧ t.zyn = s.zyn ∧ t.host = s.host)) ∧
    (Arrives s h → (∀ x b, s.cmd tag = some x → x.sqe.opcode = 0x02 → x.committed = false → Gives s (.readData h [(lba, b)]) fun t =>
        t.out = .data x.func x.sqe.cid (lba.toNat - x.first) [match b with | some b => s.plain x lba.toNat (.data b) | none => 0] :: s.out ∧ t.host = s.host) ∧
      (Gives s (.readData h rd) fun t => t.host = s.host) ∧
      ((∀ x, s.cmd tag = some x → x.sqe.opcode ≠ 0x02 ∨ x.committed = true) → Gives s (.readData h rd) fun t => t.out = s.out)) ∧
    (∀ x, Arrives s h → s.cmd tag = some x →
      let ps := setFirst h.srcN (sct.toNat, sc.toNat) x.pieces
      let worst := ps.findSome? fun (y : Nat × Option (Nat × Nat)) => y.2.filter (· != (0, 0))
      (ps.any (·.2.isNone) = true → Gives s (.pieceCompletion h sct sc) fun t => t.cmd tag = some { x with pieces := ps } ∧ t.out = s.out ∧
        ∀ c, c ≠ tag → t.cmd c = s.cmd c) ∧
      (ps.any (·.2.isNone) = false → Ends s x → (∀ p, worst = some p → Gives s (.pieceCompletion h sct sc) fun t => Posted t x.func x.sqe.cid p.1 p.2) ∧
        (worst = none → x.bufs = [] → Gives s (.pieceCompletion h sct sc) fun t => Posted t x.func x.sqe.cid 0 0))) ∧
    (Arrives s h → s.cmd tag = none → Gives s (.pieceCompletion h sct sc) fun t => t.host = s.host ∧ t.out = s.out) ∧
    (here →
      (kind = 3 → Gives s (.rollCallFrame h ident ⟨m, kind, arrived, v⟩) fun t => t.ttu = s.ttu) ∧
      (kind ≠ 3 → s.ttu.rc = none → Gives s (.rollCallFrame h ident ⟨m, kind, arrived, v⟩) fun t => ∃ r, t.ttu.rc = some r ∧ r.ident = ident ∧ r.mask = m ∧
        r.kind.code = kind.toNat ∧ r.ring = true ∧ (arrived = true → h.srcN ∉ r.ringWait ∧ sget h.srcN r.ringGot = some v)) ∧
      (∀ r, kind ≠ 3 → s.ttu.rc = some r →
        (r.ident = ident → r.ring = true → Gives s (.rollCallFrame h ident ⟨m, kind, true, v⟩) fun t => ∃ q, t.ttu.rc = some q ∧ q.ident = ident ∧
          q.ringWait = r.ringWait.filter (· != h.srcN) ∧ sget h.srcN q.ringGot = some v ∧ q.arrived = r.arrived ∧ t.th.rcHeard = s.th.rcHeard) ∧
        (r.ident ≠ ident → (∀ q ∈ s.ttu.rcQueue, q.ident ≠ ident) →
          (s.ttu.rcQueue.length < 4 → Gives s (.rollCallFrame h ident ⟨m, kind, arrived, v⟩) fun t => t.ttu.rc = s.ttu.rc ∧
            ∃ q, t.ttu.rcQueue = s.ttu.rcQueue ++ [q] ∧ q.ident = ident ∧ q.mask = m ∧ (arrived = true → sget h.srcN q.ringGot = some v)) ∧
          (4 ≤ s.ttu.rcQueue.length → Gives s (.rollCallFrame h ident ⟨m, kind, true, v⟩) fun t => t.ttu = s.ttu ∧
            t.th.rcHeard = s.th.rcHeard ++ [(ident, h.srcN, v)]))) ∧
      (3 ∈ sources s → s.ttu.src3.valid = true ∨ s.ttu.src3.lost = false → Gives s (.bellBeat h time rt) fun t => t.ttu.src3.valid = true ∧
        t.ttu.src3.misses = 0 ∧ t.ttu.time = s.ttu.time) ∧
      (3 ∉ sources s → Gives s (.bellBeat h time rt) fun t => t.ttu = s.ttu ∧ t.regs = s.regs)) ∧
    (s.flag F.TH_CTRL.EN = true → s.fld F.TT_STATUS.STATE = 2 → mode = 1 ∨ mode = 2 → Gives s .bellBeatSend fun t =>
        (linkUp s false = true → Out.frame 0 0x0C (ringId s) [s.ttu.time] ∈ t.out) ∧
        (linkUp s true = true → Out.frame 1 0x0C (ringId s) [s.ttu.time] ∈ t.out) ∧ t.regs = s.regs) ∧
    (s.flag F.TH_CTRL.EN = false ∨ s.fld F.TT_STATUS.STATE ≠ 2 ∨ (mode ≠ 1 ∧ mode ≠ 2) → exec .bellBeatSend s = .next s) ∧
    (Arrives s h →
      (freeBufs s < blocks.length → exec (.resyncData h i stop blocks) s = .next s) ∧
      (blocks.length ≤ freeBufs s → thState s i.toNat = 3 → Gives s (.resyncData h i stop blocks) fun t => thState t i.toNat = if stop then 0 else 3) ∧
      (blocks.length ≤ freeBufs s → thState s i.toNat ≠ 3 → Gives s (.resyncData h i stop blocks) fun t => t.regs = s.regs ∧ t.zyn = s.zyn)) ∧
    (∀ c ∈ ([(.readRequest h ns lba n bad, 8), (.readData h rd, 9), (.pieceCompletion h sct sc, 0x0A), (.resyncData h i stop blocks, 0x0D)] : List (Instr × Nat)),
      (Passes s h → Gives s c.1 fun t => (∃ b, Out.frame (linkIx (!h.link)) c.2 h.srcN b ∈ t.out) ∧ t.host = s.host ∧ t.zyn = s.zyn ∧ t.regs = s.regs) ∧
      (linkUp s h.link = false ∨ h.srcN = ringId s → exec c.1 s = .next s)) ∧
    (linkUp s h.link = false ∨ h.srcN = ringId s → exec (.rollCallFrame h ident ⟨m, kind, arrived, v⟩) s = .next s ∧ exec (.bellBeat h time rt) s = .next s)

/-- R20, R152, R153, R223, R242: reads. -/
def Obligations.ReadCommands : Prop :=
  ∀ (s : State) (c : BitVec 17) (x : Cmd) (host : List Block) (bad : List Nat) (far : List (BitVec 40 × Option Block)),
    let q := x.sqe
    let ns := q.nsid.toNat
    let l := readBack s x q.slba q.nlb
    let block (o : Nat) : Got := got s ns (q.slba + o) (bad.contains o)
    let quiet (t : State) : Prop := ∀ f cid off b, Out.data f cid off b ∈ t.out → Out.data f cid off b ∈ s.out
    let done' (t : State) (sct sc : Nat) : Prop := Posted t x.func q.cid sct sc
    let held := s.nsZoned ns && ((zonesOf s ns q.slba q.nlb).any (barred s x) || waitsReserved s c.toNat ns q.slba q.nlb)
    let mode := q.cdw13.toNat % 4
    let room := q.cdw15.toNat % 2 ^ 22
    let fields := q.cdw12.toNat / 512 = 0 ∧ q.cdw13.toNat / 4 = 0 ∧ mode ≠ 3 ∧ room ≤ 2 ^ 21 ∧ (room = 0 → mode = 2) ∧ q.bitBucket = false ∧ x.filter.isSome = true
    let engine := (∃ e, sget e s.sc.engines = some c.toNat) ∨ (s.sc.pauWait.contains c.toNat = false ∧ ∃ e < 8, sget e s.sc.engines = none)
    let fits := overMdts s q = false ∨ q.opcode = 0x0C ∨ q.opcode = 0x82
    let stream := l.flatMap fun b => (blockBytes b).take (if s.nsLbaf ns = 2 then 512 else 4096)
    let r := pauScan (x.filter.getD []) stream mode room
    let all := [(0x02, Instr.read c bad), (0x0C, .verify c bad far), (0x05, .compare c host bad far), (0x82, .filteredRead c bad far)]
    (Ungated s c.toNat x true →
      (overMdts s q = true → (q.opcode = 0x02 → Gives s (.read c bad) fun t => done' t 0 0x02) ∧
        (q.opcode = 0x05 → Gives s (.compare c host bad far) fun t => done' t 0 0x02)) ∧
      (q.opcode = 0x82 → ¬ fields → Gives s (.filteredRead c bad far) fun t => done' t 0 0x02 ∧ quiet t) ∧
      (fits → ∀ y ∈ all, q.opcode = y.1 → (y.1 = 0x82 → fields ∧ ∃ e, sget e s.sc.engines = some c.toNat) →
        (outOfRange s q q.slba q.nlb = true → Gives s y.2 fun t => done' t 0 0x80 ∧ quiet t) ∧
        (outOfRange s q q.slba q.nlb = false → anyOffline s ns q.slba q.nlb = true → Gives s y.2 fun t => done' t 1 0xBB ∧ quiet t) ∧
        (outOfRange s q q.slba q.nlb = false → anyOffline s ns q.slba q.nlb = false → held = true → exec y.2 s = .next s) ∧
        (outOfRange s q q.slba q.nlb = false → anyOffline s ns q.slba q.nlb = false → held = false → Own s ns q.slba q.nlb → (∃ o < q.nlb, ∃ k, block o = .lost k) →
          Gives s y.2 fun t => done' t 2 0x81 ∧ quiet t)) ∧
      (fits → outOfRange s q q.slba q.nlb = false → anyOffline s ns q.slba q.nlb = false → held = false → Own s ns q.slba q.nlb →
          (∀ o < q.nlb, ∀ k, block o ≠ .lost k) →
        (q.opcode = 0x02 → Gives s (.read c bad) fun t => done' t 0 0 ∧ Out.data x.func q.cid 0 l ∈ t.out) ∧
        (q.opcode = 0x0C → Gives s (.verify c bad far) fun t => done' t 0 0 ∧ quiet t) ∧
        (q.opcode = 0x05 → Gives s (.compare c host bad far) fun t => quiet t ∧
          if l = hostData s x host then done' t 0 0 else done' t 2 0x85) ∧
        (q.opcode = 0x82 → fields → engine → Gives s (.filteredRead c bad far) fun t => quiet t ∧ Out.bytes x.func q.cid r.1 ∈ t.out ∧
          ∃ k e, Out.cqe x.func k e ∈ t.out ∧ e.cid = q.cid ∧ e.sct = 0 ∧ e.sc = 0 ∧ e.dw0 = BitVec.ofNat 32 r.2.1 ∧ e.dw1 = BitVec.ofNat 32 r.2.2)) ∧
      (q.opcode = 0x82 → fields → outOfRange s q q.slba q.nlb = false → (∀ e < 8, ∃ k, sget e s.sc.engines = some k) → (∀ y ∈ s.sc.engines, y.2 ≠ c.toNat) →
        Gives s (.filteredRead c bad far) fun t => c.toNat ∈ t.sc.pauWait ∧ t.out = s.out)) ∧
    (∀ i, s.cmd c.toNat = some x → RunsOp s x 0x02 → x.abort = false → gateStatus s true x = none → (∀ r, s.lock c.toNat = some r → r.held = true) →
      spanOf s ns = some i → overMdts s q = false → outOfRange s q q.slba q.nlb = false → x.pieces = [] → linkUp s false = true ∨ linkUp s true = true →
      (∀ p ∈ spanPieces s i ns q.slba q.nlb, p.1 ≠ ringId s ∧ ownerGone s p.1 = false) → Gives s (.read c bad) fun t =>
        (∃ y, t.cmd c.toNat = some y ∧ y.pieces = (spanPieces s i ns q.slba q.nlb).map fun p => (p.1, none)) ∧
        ∀ p ∈ spanPieces s i ns q.slba q.nlb, Sent t 8 [q.nsid.setWidth 64, BitVec.ofNat 64 p.2.1, BitVec.ofNat 64 p.2.2])

/-- R23, R24, R27, R159, R240: writes. -/
def Obligations.WriteCommands : Prop :=
  ∀ (s : State) (c w : BitVec 17) (x y : Cmd) (data old : List Block) (bad : List Nat),
    let q := x.sqe
    let ns := q.nsid.toNat
    let z := s.zoneOf ns q.slba
    let off := q.slba % 2 ^ s.nsLogZsze ns
    let done' (t : State) (sct sc : Nat) : Prop := Posted t x.func q.cid sct sc
    let placed (t : State) (k : Cmd) (o : Nat) (acked : Bool) : Prop := ∃ h b, Place.of (t.mapEntry (s.mapIndex ns (q.slba + o))) = .buffer h ∧ t.buf h = some b ∧
      b.lba = q.slba + o ∧ b.data = s.xtsEnc k (q.slba + o) (data.getD o 0) ∧ b.acked = acked
    let quiet (t : State) : Prop := ∀ f k e, Out.cqe f k e ∈ t.out → Out.cqe f k e ∈ s.out
    let count (k : Cmd) (first : Nat) : Nat := (pieces s k first (hostData s k data)).length
    let named : Prop := s.nsLbaf ns = 0 ∧ x.assigned = none ∧ s.host.bufs.length + q.nlb ≤ 2 ^ 21 ∧ keysRising s.host.bufs = true ∧
      ∀ o < q.nlb, s.underRebuild 1 (s.mapIndex ns (q.slba + o)) = false
    let ready : Prop := overMdts s q = false ∧ x.placed = false ∧ (stream s x).isSome = true
    let conv : Prop := s.nsZoned ns = false ∧ outOfRange s q q.slba q.nlb = false ∧ partialWaits s ns q.slba q.nlb = false
    (Ungated s c.toNat x true → mirrorOf s ns = none → q.opcode = 0x01 →
      (ready → conv →
        (withinCeiling s (count x x.first) = true → Gives s (.write c data) fun t => done' t 0 0 ∧ (named → ∀ o < q.nlb, placed t x o true) ∧
          (named → ∃ y, t.cmd c.toNat = some y ∧ y.st = .posted ∧ y.committed = true ∧ y.bufs.length = q.nlb)) ∧
        (withinCeiling s (count x x.first) = false → s.jnl.openRecs.length + q.nlb < 64 → Gives s (.write c data) fun t => quiet t ∧
          (named → ∀ o < q.nlb, placed t x o false) ∧ ∃ y, t.cmd c.toNat = some y ∧ y.committed = false ∧ y.placed = true ∧ y.ceilWait = true)) ∧
      (ready → s.nsZoned ns = false → outOfRange s q q.slba q.nlb = false → partialWaits s ns q.slba q.nlb = true → exec (.write c data) s = .next s) ∧
      (ready → s.nsZoned ns = true → q.slba < s.nsSize ns → Reserves s x z q.nlb (some off) → withinCeiling s (count x q.slba) = true → x.assigned = none →
        Gives s (.write c data) fun t => done' t 0 0 ∧ (s.underRebuild 2 z = false → s.nsZcap ns < 2 ^ 21 → t.zrwp z = s.zrwp z + q.nlb)) ∧
      (x.placed = true → x.bufs = [] ∨ withinCeiling s x.bufs.length = true → Gives s (.write c data) fun t => done' t 0 0) ∧
      (x.placed = false → overMdts s q = true → Gives s (.write c data) fun t => done' t 0 0x02) ∧
      (x.placed = false → overMdts s q = false → s.nsZoned ns = false → outOfRange s q q.slba q.nlb = true → Gives s (.write c data) fun t => done' t 0 0x80) ∧
      (x.placed = false → overMdts s q = false → s.nsZoned ns = false → outOfRange s q q.slba q.nlb = false → stream s x = none →
        Gives s (.write c data) fun t => done' t 0 0x02)) ∧
    (Ungated s c.toNat x true → mirrorOf s ns = none → q.opcode = 0x7D → x.placed = false → overMdts s q = false →
      (s.nsZoned ns = false → Gives s (.zoneAppend c data) fun t => done' t 0 0x01) ∧
      (s.nsZoned ns = true → s.nsSize ns ≤ q.slba → Gives s (.zoneAppend c data) fun t => done' t 0 0x80) ∧
      (s.nsZoned ns = true → q.slba < s.nsSize ns → (stream s x).isSome = true → s.zlock z = (false, []) → zoneBehind s x z = false → barred s x z = false →
        (∀ p, zoneStatus s ns z q.nlb none (off == 0) = some p → Gives s (.zoneAppend c data) fun t => done' t p.1 p.2 ∧ t.zyn.tab.zdesc = s.zyn.tab.zdesc) ∧
        (off = 0 → Reserves s x z q.nlb none → withinCeiling s (count x (q.slba + s.zrwp z)) = true → Gives s (.zoneAppend c data) fun t =>
          (s.underRebuild 2 z = false → s.nsZcap ns < 2 ^ 21 → t.zrwp z = s.zrwp z + q.nlb) ∧ ∃ k e, Out.cqe x.func k e ∈ t.out ∧ e.cid = q.cid ∧ e.sct = 0 ∧ e.sc = 0 ∧
            e.dw0 = BitVec.ofNat 32 (q.slba + s.zrwp z) ∧ e.dw1 = BitVec.ofNat 32 ((q.slba + s.zrwp z) / 2 ^ 32)))) ∧
    (s.cmd c.toNat = some { x with fused := some w.toNat } → Ungated (s.setCmd c.toNat x) c.toNat x true → s.cmd w.toNat = some y → w ≠ c → q.fuse = 1 →
      q.opcode = 0x05 → s.nsZoned ns = false → outOfRange s q q.slba q.nlb = false → Own s ns q.slba q.nlb → RunsOp s y 0x01 → y.abort = false → y.st ≠ .posted →
      y.func = x.func → y.sqid = x.sqid → (∀ p k, s.sq x.func x.sqid = some p → s.cq x.func p.cq = some k → 1 < k.room) →
      ((∃ o < q.nlb, ∃ k, got s ns (q.slba + o) (bad.contains o) = .lost k) → Gives s (.fusedCompareAndWrite c old data bad) fun t => done' t 2 0x81 ∧
        Posted t y.func y.sqe.cid 0 0x09) ∧
      ((∀ o < q.nlb, ∀ k, got s ns (q.slba + o) (bad.contains o) ≠ .lost k) →
        (readBack s x q.slba q.nlb ≠ hostData s x old → Gives s (.fusedCompareAndWrite c old data bad) fun t => done' t 2 0x85 ∧ Posted t y.func y.sqe.cid 0 0x09 ∧
          t.zyn.tab.map = s.zyn.tab.map) ∧
        (readBack s x q.slba q.nlb = hostData s x old → gateStatus s true y = none → s.lock w.toNat = none → mirrorOf s ns = none → y.sqe.nsid = q.nsid →
          y.sqe.slba = q.slba → y.sqe.nlb = q.nlb → y.assigned = none → y.placed = false → overMdts s q = false → (stream s y).isSome = true →
          partialWaits s ns q.slba q.nlb = false → withinCeiling s (count y q.slba) = true → Gives s (.fusedCompareAndWrite c old data bad) fun t =>
            done' t 0 0 ∧ Posted t y.func y.sqe.cid 0 0 ∧ (named → ∀ o < q.nlb, placed t y o true))))

/-- R152, R170, R235, R241, R246. -/
def Obligations.MarkingAndManagementCommands : Prop :=
  ∀ (s : State) (c : BitVec 17) (x : Cmd) (src m : Nat) (hs : List (BitVec 16)) (bad : List Nat),
    let q := x.sqe
    let ns := q.nsid.toNat
    let z := s.zoneOf ns q.slba
    let off := q.slba % 2 ^ s.nsLogZsze ns
    let done' (t : State) (sct sc : Nat) : Prop := Posted t x.func q.cid sct sc
    let same (t : State) : Prop := t.zyn.tab.map = s.zyn.tab.map
    let units (rs : List (Nat × Nat)) : List Nat := rs.flatMap fun r => (wholeUnits (s.nsIu ns) r.1 r.2).1
    let zeros (rs : List (Nat × Nat)) : Nat := ((partialRuns s x rs).map fun r => (pieces s x r.1 (List.replicate r.2 0)).length).sum
    let entry (t : State) (u : Nat) : Place := Place.of (t.mapEntry (s.nsBase ns + u))
    let sound (u : Nat) : Prop := s.underRebuild 1 (s.nsBase ns + u) = false
    let fresh : Prop := x.placed = false ∧ x.bufs = []
    let within (rs : List (Nat × Nat)) : Prop := zeros rs = 0 ∨ withinCeiling s (zeros rs) = true
    let waits (rs : List (Nat × Nat)) : Prop := ∃ r ∈ rs, partialWaits s ns r.1 r.2 = true
    let outside (rs : List (Nat × Nat)) : Prop := ∃ r ∈ rs, outOfRange s q r.1 r.2 = true
    let one := [(q.slba, q.nlb)]
    let n := m + 1
    let rd : Sqe := { q with opc := 2, cdw10 := BitVec.ofNat 32 src, cdw11 := BitVec.ofNat 32 (src / 2 ^ 32), cdw12 := BitVec.ofNat 32 m, ranges := [] }
    (Ungated s c.toNat x true → mirrorOf s ns = none →
      (q.opcode = 0x04 → s.nsZoned ns = false →
        ((wholeUnits (s.nsIu ns) q.slba q.nlb).2 ≠ [] → Gives s (.writeUncorrectable c) fun t => done' t 0 0x02 ∧ same t) ∧
        ((wholeUnits (s.nsIu ns) q.slba q.nlb).2 = [] → x.placed = false →
          (outside one → Gives s (.writeUncorrectable c) fun t => done' t 0 0x80 ∧ same t) ∧
          (¬ outside one → Gives s (.writeUncorrectable c) fun t => done' t 0 0 ∧ ∀ u ∈ units one, sound u → entry t u = .writeUncorr))) ∧
      (fresh → ∀ y ∈ [(0x08, Instr.writeZeroes c, one), (0x09, .datasetManagement c, q.ranges)], q.opcode = y.1 → s.nsZoned ns = false →
        (y.1 = 0x09 → q.dealloc = true ∧ q.ranges.length ≤ 256 ∧ zeroRefused s x q.ranges = none) →
        (outside y.2.2 → Gives s y.2.1 fun t => done' t 0 0x80 ∧ same t) ∧
        (¬ outside y.2.2 → waits y.2.2 → exec y.2.1 s = .next s) ∧
        (¬ outside y.2.2 → ¬ waits y.2.2 → within y.2.2 → Gives s y.2.1 fun t => done' t 0 0 ∧
          (partialRuns s x y.2.2 = [] → ∀ u ∈ units y.2.2, sound u → entry t u = .unwritten))) ∧
      (∀ y ∈ [(0x04, Instr.writeUncorrectable c), (0x08, .writeZeroes c)], q.opcode = y.1 → s.nsZoned ns = true → fresh →
        (Reserves s x z q.nlb (some off) → Gives s y.2 fun t => done' t 0 0 ∧ ∀ i < q.nlb, z * 2 ^ 21 + s.zrwp z + i ∈ (if y.1 = 4 then t.map.voids else t.map.zeroed)) ∧
        (s.zlock z = (false, []) → zoneBehind s x z = false → barred s x z = false → ∀ p, zoneStatus s ns z q.nlb (some off) true = some p →
          Gives s y.2 fun t => done' t p.1 p.2 ∧ same t)) ∧
      (x.placed = true → x.bufs = [] ∨ withinCeiling s x.bufs.length = true →
        (q.opcode = 0x08 → Gives s (.writeZeroes c) fun t => done' t 0 0) ∧
        (q.opcode = 0x19 → q.ranges = [(src, m)] → Gives s (.copy c bad) fun t => done' t 0 0) ∧
        (q.opcode = 0x09 → q.dealloc = true → q.ranges.length ≤ 256 → s.nsZoned ns = false → Gives s (.datasetManagement c) fun t => done' t 0 0)) ∧
      (q.opcode = 0x09 → (256 < q.ranges.length → Gives s (.datasetManagement c) fun t => done' t 0 0x02 ∧ same t) ∧
        (q.ranges.length ≤ 256 → q.dealloc = false ∨ s.nsZoned ns = true → Gives s (.datasetManagement c) fun t => done' t 0 0 ∧ same t) ∧
        (q.ranges.length ≤ 256 → q.dealloc = true → s.nsZoned ns = false → x.placed = false → ∀ p, zeroRefused s x q.ranges = some p →
          Gives s (.datasetManagement c) fun t => done' t p.1 p.2 ∧ same t)) ∧
      (q.opcode = 0x19 → x.placed = false →
        ((∀ p, q.ranges ≠ [p]) → Gives s (.copy c bad) fun t => done' t 0 0x02) ∧
        (q.ranges = [(src, m)] → q.cdw12.toNat / 256 % 16 ≠ 0 → Gives s (.copy c bad) fun t => done' t 0 0x02) ∧
        (q.ranges = [(src, m)] → q.cdw12.toNat / 256 % 16 = 0 → s.nsZoned ns = false →
          (outOfRange s q src n = true ∨ outOfRange s q q.slba n = true → Gives s (.copy c bad) fun t => done' t 0 0x80) ∧
          (outOfRange s q src n = false → outOfRange s q q.slba n = false → partialWaits s ns q.slba n = false →
            (∀ p, s.settleKeys { x with sqe := rd } = .error p → Gives s (.copy c bad) fun t => done' t p.1 p.2) ∧
            (∀ k, s.settleKeys { x with sqe := rd } = .ok k → Own s ns src n →
              let l := readBack s { x with sqe := rd, keys := k } src n
              ((∃ o < n, ∃ b, got s ns (src + o) (bad.contains o) = .lost b) → Gives s (.copy c bad) fun t => done' t 2 0x81) ∧
              ((∀ o < n, ∀ b, got s ns (src + o) (bad.contains o) ≠ .lost b) → withinCeiling s (pieces s x x.first l).length = true → Gives s (.copy c bad) fun t =>
                done' t 0 0 ∧ (s.nsLbaf ns = 0 → x.assigned = none → keysRising s.host.bufs = true → s.host.bufs.length + n ≤ 2 ^ 21 → (∀ o < n, sound (q.slba + o)) →
                  ∀ o < n, ∃ h b, entry t (q.slba + o) = .buffer h ∧ t.buf h = some b ∧ b.data = s.xtsEnc x (q.slba + o) (l.getD o 0)))))) ∧
        (q.ranges = [(src, m)] → q.cdw12.toNat / 256 % 16 = 0 → s.nsZoned ns = true → outOfRange s q src n = false → q.slba < s.nsSize ns → x.assigned = none →
          waitsReserved s c.toNat ns src n = false → Own s ns src n → (∀ o < n, ∀ b, got s ns (src + o) (bad.contains o) ≠ .lost b) → ∀ k,
          s.settleKeys { x with sqe := rd } = .ok k → Reserves s x z n (some off) → withinCeiling s (pieces s x q.slba (List.replicate n 0)).length = true →
          Gives s (.copy c bad) fun t => done' t 0 0))) ∧
    (s.cmd c.toNat = some x → RunsOp s x 0x00 → Ends s x →
      (q.nsid ≠ 0xFFFFFFFF → ns ∉ (s.func x.func).attached → Gives s (.flush c) fun t => done' t 0 0x0B ∧ same t) ∧
      (q.nsid = 0xFFFFFFFF ∨ ns ∈ (s.func x.func).attached →
        (∀ p, (s.func x.func).flushes.find? (fun p => p.1 == c.toNat) = some p → p.2 ≠ [] → exec (.flush c) s = .next s) ∧
        ((∀ p, (s.func x.func).flushes.find? (fun p => p.1 == c.toNat) = some p → p.2 = []) → Gives s (.flush c) fun t => done' t 0 0 ∧ same t))) ∧
    (Ungated s c.toNat x false → q.cdw10.toNat % 256 = 1 →
      (q.opcode = 0x12 → s.nsFdp ns = 0 → Gives s (.ioManagementReceive c) fun t => done' t 0 0x29) ∧
      (q.opcode = 0x12 → s.nsFdp ns ≠ 0 → Gives s (.ioManagementReceive c) fun t => done' t 0 0 ∧ same t ∧
        ∃ b, Out.bytes x.func q.cid b ∈ t.out ∧ b.length = 16 + 32 * s.nsFdp ns) ∧
      (q.opcode = 0x1D → (∃ h ∈ hs, s.nsFdp ns ≤ h.toNat) → Gives s (.reclaimUnitHandleUpdate c hs) fun t => done' t 0 0x02) ∧
      (q.opcode = 0x1D → hs = [] → s.nsFdp ns = 0 → Gives s (.reclaimUnitHandleUpdate c hs) fun t => done' t 0 0x29) ∧
      (q.opcode = 0x1D → s.nsFdp ns ≠ 0 → (∀ h ∈ hs, h.toNat < s.nsFdp ns) → Gives s (.reclaimUnitHandleUpdate c hs) fun t => done' t 0 0 ∧ same t ∧
        (∀ h ∈ hs, sget (s.nsRuhBase ns + h.toNat) t.map.ruh = none) ∧
        ∀ k, (∀ h ∈ hs, k ≠ s.nsRuhBase ns + h.toNat) → sget k t.map.ruh = sget k s.map.ruh)) ∧
    (Ungated s c.toNat x false → q.cdw10.toNat % 256 ≠ 1 → (q.opcode = 0x12 → Gives s (.ioManagementReceive c) fun t => done' t 0 0x02) ∧
      (q.opcode = 0x1D → Gives s (.reclaimUnitHandleUpdate c hs) fun t => done' t 0 0x02))

/-- R237 to R245: zones. -/
def Obligations.ZoneManagement : Prop :=
  ∀ (s : State) (c : BitVec 17) (x : Cmd), Ungated s c.toNat x false → (∀ r ∈ s.map.reserved, r.2.1 ≠ c.toNat) →
    let q := x.sqe
    let ns := q.nsid.toNat
    let z := s.zoneOf ns q.slba
    let st := s.zs z
    let action := q.cdw13.toNat % 256
    let mar := s.nsMar ns
    let done' (t : State) (sct sc : Nat) : Prop := Posted t x.func q.cid sct sc
    let ok (t : State) : Prop := done' t 0 0
    let kept (t : State) : Prop := t.zyn.tab.zdesc = s.zyn.tab.zdesc
    let whole (k : Nat) : Prop := k = zsEmpty ∨ zActive k = true ∨ k = zsFull
    let all := [(3, Instr.zoneOpen c), (1, .zoneClose c), (2, .zoneFinish c), (4, .zoneReset c), (5, .zoneOffline c)]
    (q.opcode = 0x79 → ∀ y ∈ all, (action ≠ y.1 → exec y.2 s = .next s) ∧
      (action = y.1 → (s.nsZoned ns = false → Gives s y.2 fun t => done' t 0 0x01) ∧
        (s.nsZoned ns = true → x.selectAll = false → s.nsSize ns ≤ q.slba → Gives s y.2 fun t => done' t 0 0x80) ∧
        (s.nsZoned ns = true → x.selectAll = false → q.slba < s.nsSize ns → q.slba % 2 ^ s.nsLogZsze ns ≠ 0 → Gives s y.2 fun t => done' t 0 0x02) ∧
        (s.nsZoned ns = true → x.selectAll = true → (∀ k ∈ nsZoneList s ns, zoneBusy s x k = false) →
          (y.1 = 3 → ∀ k ∈ nsZoneList s ns, s.zs k = zsEmpty → (s.activateZone k).isSome = true) →
          (y.1 = 4 → ∀ k ∈ nsZoneList s ns, s.zmwp k = s.zrwp k) → Gives s y.2 ok))) ∧
    (q.opcode = 0x79 → s.nsZoned ns = true → x.selectAll = false → q.slba < s.nsSize ns → q.slba % 2 ^ s.nsLogZsze ns = 0 →
      s.zw z 4 % 2 ^ 32 = ns → s.nsZcap ns < 2 ^ 21 → s.underRebuild 2 z = false →
      (zoneBusy s x z = true →
        (action = 1 → zOpen st = true ∨ st = zsClosed → Gives s (.zoneClose c) fun t => kept t ∧ t.out = s.out) ∧
        (action = 2 ∧ whole st → Gives s (.zoneFinish c) fun t => kept t ∧ t.out = s.out) ∧
        (action = 4 ∧ whole st → Gives s (.zoneReset c) fun t => kept t ∧ t.out = s.out)) ∧
      (zoneBusy s x z = false →
        (action = 3 →
          (zOpen st = true ∨ (st = zsClosed ∧ nsOpen s ns < mar) → Gives s (.zoneOpen c) fun t => ok t ∧ t.zs z = zsExplOpen ∧ t.zwp z = s.zwp z) ∧
          (st = zsEmpty → nsActive s ns < mar → nsOpen s ns < mar → (s.activateZone z).isSome = true → Gives s (.zoneOpen c) fun t => ok t ∧ t.zs z = zsExplOpen) ∧
          (st = zsEmpty → mar ≤ nsActive s ns → Gives s (.zoneOpen c) fun t => done' t 1 0xBD ∧ kept t) ∧
          ((st = zsEmpty ∧ nsActive s ns < mar) ∨ st = zsClosed → mar ≤ nsOpen s ns → Gives s (.zoneOpen c) fun t => done' t 1 0xBE ∧ kept t) ∧
          (st = zsFull ∨ st = zsReadOnly ∨ st = zsOffline → Gives s (.zoneOpen c) fun t => done' t 1 0xBF ∧ kept t)) ∧
        (action = 1 →
          (zOpen st = true → Gives s (.zoneClose c) fun t => ok t ∧ t.zs z = (if 0 < s.zwp z then zsClosed else zsEmpty)) ∧
          (st = zsClosed → Gives s (.zoneClose c) fun t => ok t ∧ kept t) ∧
          (zOpen st = false → st ≠ zsClosed → Gives s (.zoneClose c) fun t => done' t 1 0xBF ∧ kept t)) ∧
        (action = 2 →
          (whole st → Gives s (.zoneFinish c) fun t => ok t ∧ t.zs z = zsFull ∧ (st ≠ zsFull → t.zwp z = s.nsZcap ns)) ∧
          (¬ whole st → Gives s (.zoneFinish c) fun t => done' t 1 0xBF ∧ kept t)) ∧
        (action = 4 →
          (whole st → s.zmwp z = s.zrwp z → Gives s (.zoneReset c) fun t => ok t ∧ t.zs z = zsEmpty ∧ t.zwp z = 0 ∧ t.zrwp z = 0 ∧
            t.zlgen z = (s.zlgen z + 1) % 2 ^ 32) ∧
          (whole st → s.zmwp z ≠ s.zrwp z → Gives s (.zoneReset c) fun t => kept t ∧ t.out = s.out) ∧
          (¬ whole st → Gives s (.zoneReset c) fun t => done' t 1 0xBF ∧ kept t)) ∧
        (action = 5 →
          (st = zsReadOnly → Gives s (.zoneOffline c) fun t => ok t ∧ t.zs z = zsOffline ∧ t.fld F.MAP_EVT.ZONE_OFFLINE = 1) ∧
          (st = zsOffline → Gives s (.zoneOffline c) fun t => ok t ∧ kept t) ∧
          (st ≠ zsReadOnly → st ≠ zsOffline → Gives s (.zoneOffline c) fun t => done' t 1 0xBF ∧ kept t)))) ∧
    (q.opcode = 0x7A →
      let filter := q.cdw13.toNat / 256 % 256
      (s.nsZoned ns = false → Gives s (.reportZones c) fun t => done' t 0 0x01) ∧
      (s.nsZoned ns = true → action ≠ 0 ∨ 7 < filter → Gives s (.reportZones c) fun t => done' t 0 0x02) ∧
      (s.nsZoned ns = true → action = 0 → filter ≤ 7 → s.nsSize ns ≤ q.slba → Gives s (.reportZones c) fun t => done' t 0 0x80) ∧
      (s.nsZoned ns = true → action = 0 → filter ≤ 7 → q.slba < s.nsSize ns → Gives s (.reportZones c) fun t => ok t ∧ kept t ∧ ∃ b,
        Out.bytes x.func q.cid b ∈ t.out ∧ b.length = 64 + 64 * min (((q.cdw12.toNat + 1) * 4 - 64) / 64)
          ((nsZoneList s ns).filter fun k => decide (z ≤ k) && reported (s.zs k) filter).length))

/-- R153, R166, R168: the common gate of the I/O commands. -/
def Obligations.GatesOfIoCommands : Prop :=
  ∀ (s : State) (c : BitVec 17) (x : Cmd) (data old : List Block) (bad : List Nat) (far : List (BitVec 40 × Option Block)) (hs : List (BitVec 16)),
    let user := [(0x02, Instr.read c bad), (0x0C, .verify c bad far), (0x05, .compare c data bad far), (0x82, .filteredRead c bad far), (0x01, .write c data),
      (0x7D, .zoneAppend c data), (0x05, .fusedCompareAndWrite c old data bad), (0x04, .writeUncorrectable c), (0x08, .writeZeroes c), (0x09, .datasetManagement c),
      (0x19, .copy c bad)]
    let plain := [(0x12, Instr.ioManagementReceive c), (0x1D, .reclaimUnitHandleUpdate c hs), (0x79, .zoneOpen c), (0x79, .zoneClose c), (0x79, .zoneFinish c),
      (0x79, .zoneReset c), (0x79, .zoneOffline c), (0x7A, .reportZones c)]
    (∀ y ∈ user ++ plain ++ [(0, .flush c)], (s.cmd c.toNat = none → exec y.2 s = .next s) ∧
      (s.cmd c.toNat = some x → x.committed = true ∨ x.admin = true ∨ x.classified = false ∨ x.sqe.opcode ≠ y.1 ∨ x.cqWait.isSome = true ∨ s.flushing = true →
        exec y.2 s = .next s) ∧
      (s.cmd c.toNat = some x → x.waitBank = true → y.1 ≠ 0 → exec y.2 s = .next s) ∧
      (s.cmd c.toNat = some x → RunsOp s x y.1 → x.abort = true → x.fused = none → cqFull s x = false → (s.func x.func).resetting = false → (s.func x.func).flr = false →
        Gives s y.2 fun t => Posted t x.func x.sqe.cid 0 0x07)) ∧
    (∀ y ∈ user ++ plain, s.cmd c.toNat = some x → RunsOp s x y.1 → Ends s x → ∀ p, gateStatus s (decide (y ∈ user)) x = some p →
      Gives s y.2 fun t => Posted t x.func x.sqe.cid p.1 p.2)

/-- R131, R262 to R265, R270, R271, R285, R287, R328, R516. -/
def Obligations.NandAndDecode : Prop :=
  ∀ (s : State) (die : BitVec 10) (ch : BitVec 5) (ok : Bool) (n up : BitVec 16) (outer : Bool),
    let d := die.toNat
    let l := s.lun d
    let cfg (f : Field) : Nat := s.fld (f.ix (d / 32))
    let within := l.timeouts.filter fun t => decide (s.ttu.elapsed < t + 1000000000)
    (∀ x ∈ [Instr.nandOperationComplete die false, .nandOperationComplete die true, .readyTimeout die, .readPreemptSuspend die, .suspendResume die],
      (s.populated d = false → exec x s = .fault .noSuchUnit) ∧ (s.populated d = true → padBurst s d = true → exec x s = .next s)) ∧
    (s.populated d = true → padBurst s d = false →
      (∀ fail r, (l.readRun = some r ∨ (l.readRun = none ∧ l.run = .read r)) →
        Gives s (.nandOperationComplete die fail) fun t => ∃ x ∈ t.media.decoding, x.req = r ∧ x.idx = 0) ∧
      (∀ u, let p := Pa.of u.addr
        let at_ (x : Latched) : Nat := (p.block * geoPpb s + x.page) * pageSlots s + x.pos
        l.readRun = none → l.run = .program u → l.suspended = false →
        (s.media.zoneMoves = [] → (u.loaded.map at_).Nodup →
          Gives s (.nandOperationComplete die false) fun t => ∀ x ∈ u.loaded, t.codeword p.die (at_ x) = some x.payload) ∧
        Gives s (.nandOperationComplete die true) fun t => t.fld (F.SEQ_EVT.MEDIA_FAIL.ix (d / 32)) = 1) ∧
      (∀ r, let p := Pa.of r.addr
        l.readRun = none → l.run = .erase r → l.suspended = false →
        (s.media.zoneMoves = [] → Gives s (.nandOperationComplete die false) fun t => ∀ j < blockSlots s, t.codeword p.die (p.block * blockSlots s + j) = none) ∧
        Gives s (.nandOperationComplete die true) fun t => t.fld (F.SEQ_EVT.MEDIA_FAIL.ix (d / 32)) = 1) ∧
      (l.readRun = none → l.run = .reset →
        (Gives s (.nandOperationComplete die true) fun t => (t.lun d).failed = true) ∧
        Gives s (.nandOperationComplete die false) fun t => (t.lun d).run ≠ .reset) ∧
      (∀ fail, l.readRun = none → (l.run = .none ∨ (l.suspended = true ∧ ((∃ u, l.run = .program u) ∨ ∃ r, l.run = .erase r))) → s.media.zoneMoves = [] →
        Gives s (.nandOperationComplete die fail) fun t => t.media.nand = s.media.nand) ∧
      (l.run = .none → exec (.readyTimeout die) s = .next s) ∧
      (l.run = .reset → Gives s (.readyTimeout die) fun t => (t.lun d).failed = true) ∧
      (l.run ≠ .none → l.run ≠ .reset → Gives s (.readyTimeout die) fun t => t.fld (F.SEQ_EVT.READY_TMO.ix (d / 32)) = 1 ∧
        (if 2 ≤ within.length then (t.lun d).failed = true else (t.lun d).run = .reset ∧ (t.lun d).timeouts = s.ttu.elapsed :: within)) ∧
      (let due : Prop := l.suspendable = true ∧ (∃ r ∈ l.queue, r.cls ≤ 2) ∧ l.suspends < suspendLimit s d l.run ∧
          l.since + cfg F.SEQ_SUSP_CFG.MIN_RUN_US * 1000 ≤ s.ttu.elapsed;
        (due → l.unit = none → Gives s (.readPreemptSuspend die) fun t => (t.lun d).suspended = true ∧ (t.lun d).suspends = l.suspends + 1 ∧ (t.lun d).run = l.run ∧
          t.fld (F.SEQ_CNT_SUSP.COUNT.ix (d / 32)) = min (s.fld (F.SEQ_CNT_SUSP.COUNT.ix (d / 32)) + 1) 0xFFFFFFFF) ∧
        (¬ due → exec (.readPreemptSuspend die) s = .next s)) ∧
      (let due : Prop := l.suspended = true ∧ l.suspBy = none ∧ l.readRun = none ∧ ((∀ r ∈ l.queue, 2 < r.cls) ∨
          max 1 (cfg F.SEQ_SUSP_CFG.READS_MAX) ≤ l.served ∨ l.since + cfg F.SEQ_SUSP_CFG.HOLD_US * 1000 ≤ s.ttu.elapsed);
        (due → exec (.suspendResume die) s = .next (s.setLun d { l with suspended := false, since := s.ttu.elapsed })) ∧
        (¬ due → exec (.suspendResume die) s = .next s))) ∧
    ((∀ x ∈ s.media.decoding, (Pa.of x.req.addr).channel ≠ ch.toNat) → exec (.decodeComplete ch ok n up outer) s = .next s) ∧
    (∀ x, let r := x.req
      let p := Pa.of r.addr
      let k := r.slot.getD 0 + x.idx
      let cw := s.codeword p.die (p.slot s + x.idx)
      let own : Prop := r.kind = 3 ∨ r.kind = 5 ∨ r.kind = 6 ∨ ∀ q, cw = some q → wrongSlot s p.die (p.slot s + x.idx) q = []
      let good : Prop := ok = true ∧ (s.lun p.die).failed = false ∧ cw.isSome = true
      let last : Prop := (∃ b v, r.op = .read 3 b v) ∨ (s.lun p.die).failed = true
      let outerOk : Prop := last ∧ s.flag (F.SEQ_LADDER.OUTER_EN.ix ch.toNat) = true ∧ outer = true ∧ cw.isSome = true
      s.media.decoding.find? (fun y => (Pa.of y.req.addr).channel == ch.toNat) = some x → (∃ a b v, r.op = .read a b v) →
      Gives s (.decodeComplete ch ok n up outer) fun t =>
        (x.idx + 1 < p.count → ∃ y ∈ t.media.decoding, y.req.addr = r.addr ∧ y.idx = x.idx + 1) ∧
        (¬ own → t.fld F.ECC_EVT.OOB_MISMATCH = 1) ∧
        (own → good → t.fld (F.SEQ_CNT_CORR.COUNT.ix ch.toNat) = min (s.fld (F.SEQ_CNT_CORR.COUNT.ix ch.toNat) + n.toNat) 0xFFFFFFFF ∧
          (∀ y, sget k s.media.slots = some y → y.discard = false → r.kind ≠ 3 → r.kind ≠ 5 → (∃ a b, r.op = .read a b false) → verifyRead s r = false → (s.lun p.die).unit = none →
            (sget k t.media.slots).bind (·.data) = cw)) ∧
        (own → ¬ good → outerOk → t.fld (F.SEQ_EVT.OUTER_OK.ix ch.toNat) = 1 ∧
          t.fld (F.SEQ_CNT_OUTER.COUNT.ix ch.toNat) = min (s.fld (F.SEQ_CNT_OUTER.COUNT.ix ch.toNat) + 1) 0xFFFFFFFF) ∧
        (own → ¬ good → ¬ outerOk → t.fld (F.SEQ_EVT.UNCORR.ix ch.toNat) = 1 ∧
          t.fld (F.SEQ_CNT_UNCORR.COUNT.ix ch.toNat) = min (s.fld (F.SEQ_CNT_UNCORR.COUNT.ix ch.toNat) + 1) 0xFFFFFFFF))

/-- R269, R274, R286, R290 to R292, R330 to R335, R515, R516. -/
def Obligations.EnvelopeStagingAndScrub : Prop :=
  ∀ (s : State) (ch : BitVec 5) (sl : BitVec 7) (loc : StoreLoc) (y : BitVec 8) (res : EccRes) (pct : BitVec 7) (last ok : Bool),
    let k := stKey ch.toNat sl.toNat
    let one (f : Field) : Nat := min (s.fld f + 1) (2 ^ f.width - 1)
    let staged : GcReq := { kind := .envelope, since := s.ttu.time }
    (envNext s = none → exec .envelopeAdmission s = .next s) ∧
    (∀ r, envNext s = some r → envBudget s < envSum s + reqWeight s r → exec .envelopeAdmission s = .next s) ∧
    (∀ r, let p := Pa.of r.addr
      let rest := s.media.envQ.erase r
      let q : State := { s with media := { s.media with envQ := rest } }
      let waits (c : Nat) : Prop := Gives s .envelopeAdmission fun t => ∀ t0, sget c s.media.stripes = some t0 → (sget c t.media.stripes).map (·.closed) = some true
      envNext s = some r → envSum s + reqWeight s r ≤ envBudget s →
      (Gives s .envelopeAdmission fun t => t.fld F.MED_ENV_STATUS.WAITING = t.media.envQ.length % 2 ^ F.MED_ENV_STATUS.WAITING.width) ∧
      (∀ slc fin src, r.op = .npg slc fin src →
        (((r.kind = 6 ∨ r.kind = 7) ∧ kindAllowed s p.die r.kind = false) ∨ (∃ e, (q.noteLesson r.kind).npgLoad r slc src = some (.error e)) →
          Gives s .envelopeAdmission fun t => ∀ u, (t.lun p.die).run ≠ .program u) ∧
        ((r.kind ≠ 6 ∧ r.kind ≠ 7) ∨ kindAllowed s p.die r.kind = true →
          (∀ l z, (q.noteLesson r.kind).npgLoad r slc src = some (.ok (l, z)) → Gives s .envelopeAdmission fun t =>
            (fin = true → ∃ u, (t.lun p.die).run = .program u ∧ u.loaded = l ∧ u.kind = r.kind ∧ u.addr = r.addr ∧ u.slc = slc) ∧
            (fin = false → (∀ x ∈ (s.lun p.die).queue, ∀ a b c, x.op ≠ .npg a b c) → ∃ u, (t.lun p.die).unit = some u ∧ u.loaded = l)) ∧
          (∀ x c, (q.noteLesson r.kind).npgLoad r slc src = none → Src.of src p.count = some x → x.join = some c → waits c))) ∧
      (r.op = .erase →
        let may := eraseAllowed s p.die ((s.lun p.die).queue.any fun q => decide (q.cls ≤ 2) || q.cls == 4)
        let free : Prop := s.blockSt p.die p.block = 2 ∧ blkValid (s.blockW0 p.die p.block) = 0 ∧ p.die * 2 ^ 15 + p.block ∉ s.jnl.openSlots
        (may = false → Gives s .envelopeAdmission fun t => t.media.envQ = rest ∧ t.media.luns = s.media.luns) ∧
        (may = true → ¬ free → Gives s .envelopeAdmission fun t => (t.lun p.die).run = .none) ∧
        (may = true → free → Gives s .envelopeAdmission fun t => (t.lun p.die).run = .erase r ∧ t.media.envQ = rest)) ∧
      (∀ c t0, r.op = .parity c → sget c s.media.stripes = some t0 → Gives s .envelopeAdmission fun t => ∃ u, (t.lun p.die).run = .program u ∧
        u.parity = some c ∧ u.addr = r.addr ∧ u.loaded.map (·.payload) = t0.acc.map (fun x => parityPayload q t0 x.1) ∧ t.media.envQ = rest) ∧
      (∀ pg v, r.op = .image pg v →
        (kindAllowed s p.die 6 = false → Gives s .envelopeAdmission fun t => t.media.envQ = rest ++ [r] ∧ t.media.luns = s.media.luns) ∧
        (kindAllowed s p.die 6 = true →
          (((q.noteLesson 6).joinStripe p.channel r.addr true true).isSome = true → Gives s .envelopeAdmission fun t => ∃ u, (t.lun p.die).run = .program u ∧
            u.image = some pg ∧ u.kind = 6 ∧ u.loaded.map (fun x => Payload.data x.payload) = [Payload.data v]) ∧
          ((q.noteLesson 6).joinStripe p.channel r.addr true true = none → waits p.channel))) ∧
      (∀ bufs, r.op = .flush bufs →
        ((q.joinStripe p.channel r.addr true false).isSome = true → Gives s .envelopeAdmission fun t => ∃ u, (t.lun p.die).run = .program u ∧ u.flush = true ∧
          u.kind = 0 ∧ u.slc = true ∧ u.addr = r.addr) ∧
        (q.joinStripe p.channel r.addr true false = none → waits p.channel))) ∧
    (let rest := s.ttu.gcQueue.any (·.kind == .envelope);
      (rest = true → exec .medEnvStageReq s =
        .next { s with ttu := { s.ttu with gcQueue := s.ttu.gcQueue.map fun x => if x.kind == .envelope then staged else x } }) ∧
      (rest = false → s.ttu.gcQueue.length < 8 → exec .medEnvStageReq s = .next { s with ttu := { s.ttu with gcQueue := s.ttu.gcQueue ++ [staged] } }) ∧
      (rest = false → 8 ≤ s.ttu.gcQueue.length → exec .medEnvStageReq s = .next (s.raise F.TT_GC_STATUS.QFULL))) ∧
    (sget k s.media.slots = none → exec (.stagingSlotReclaim ch sl) s = .next s) ∧
    (∀ x, sget k s.media.slots = some x →
      (x.data = none ∨ x.acc = true ∨ x.fenced = true → exec (.stagingSlotReclaim ch sl) s = .next s) ∧
      (x.data.isSome = true → x.acc = false → x.fenced = false → Gives s (.stagingSlotReclaim ch sl) fun t =>
        t.fld (F.SEQ_EVT.SLOT_RECLAIM.ix ch.toNat) = 1 ∧
        ((∀ z ∈ s.media.luns, z.2.queue = []) → sget k t.media.slots = none ∧ ∀ j, j ≠ k → sget j t.media.slots = sget j s.media.slots))) ∧
    (sget ch.toNat s.media.stripes = none → exec (.stripeClose ch) s = .next s) ∧
    (∀ t0, let waiting : Prop := (∃ r ∈ s.media.envQ, r.op = .parity ch.toNat) ∨ ∃ z ∈ s.media.luns, ∃ u, z.2.run = .program u ∧ u.parity = some ch.toNat;
      sget ch.toNat s.media.stripes = some t0 → Gives s (.stripeClose ch) fun t => (sget ch.toNat t.media.stripes).map (·.closed) = some true ∧
        (t0.running ≠ 0 ∨ waiting → t.media.envQ = s.media.envQ) ∧
        (t0.running = 0 → ¬ waiting → ∃ r, t.media.envQ = s.media.envQ ++ [r] ∧ r.op = .parity ch.toNat ∧ r.addr = t0.parity ∧ r.kind = if t0.bg then 1 else 0)) ∧
    (s.media.dies = [] → exec .patrolOverdueCheck s = .next s) ∧
    (s.media.dies ≠ [] → Gives s .patrolOverdueCheck fun t => (t.fld F.MED_PATROL.OVERDUE = 1 ↔
      ∃ d ∈ s.media.dies, (sgetD 0 (d * 8 + 3) s.zyn.tab.die).toNat + max 1 (s.fld F.MED_PATROL.DAYS) * 86400 < s.now / 1000000000)) ∧
    exec .thresholdSave s = .next { s with mram := { s.mram with offsets := s.media.offsets } } ∧
    (s.flag F.ECC_CTRL.SCRUB_EN = false ∨ s.flushing = true → exec (.scrub loc res pct last) s = .next s) ∧
    (s.flag F.ECC_CTRL.SCRUB_EN = true → s.flushing = false →
      (Gives s (.scrub loc res pct last) fun t =>
        t.fld (match loc.scrubber with | 0 => F.ECC_STATUS.SRAM_PCT | 1 => F.ECC_STATUS.DRAM_PCT | _ => F.ECC_STATUS.MRAM_PCT) = if last then 0 else min 100 pct.toNat) ∧
      (Gives s (.scrub loc (.corrected y) pct last) fun t => t.fld (F.ECC_CE_CNT.COUNT.ix loc.store) = one (F.ECC_CE_CNT.COUNT.ix loc.store)) ∧
      ((∀ w b, loc ≠ .critical w b) → (∀ b, loc ≠ .batch b) → Gives s (.scrub loc .uncorrectable pct last) fun t =>
        t.fld (F.ECC_UE_CNT.COUNT.ix loc.store) = one (F.ECC_UE_CNT.COUNT.ix loc.store) ∧ t.fld F.ECC_EVT.UE = 1) ∧
      (∀ w, ∀ b ∈ [3#3, 5#3, 6#3, 7#3], Gives s (.scrub (.critical w b) .uncorrectable pct last) fun t => t.fld F.ECC_EVT.TRIPLE_FAIL = 1 ∧ t.fld F.ECC_EVT.UE = 1) ∧
      (∀ b, (sget b.toNat s.mram.ring).isSome = true → Gives s (.scrub (.batch b) .uncorrectable pct last) fun t =>
        t.fld F.ECC_STATUS.JNL_REPAIR = 1 ∧ t.jnl.repair = some b.toNat)) ∧
    (s.ecc.rebuilds = [] → exec (.tableRebuildComplete ok) s = .next s) ∧
    (∀ r, (match s.ecc.rebuilds.find? (·.awaited) with | some r => some r | none => s.ecc.rebuilds.head?) = some r →
      Gives s (.tableRebuildComplete ok) fun t => t.fld F.ECC_EVT.REBUILD_DONE = 1 ∧ (r.tbl = 4 → r.writes = [] → t.ecc.rebuilds = s.ecc.rebuilds.erase r))

/-- R154 to R157, R201 to R215: intake. -/
def Obligations.DoorbellsAndAdmission : Prop :=
  ∀ (s : State) (f : BitVec 12) (qid : BitVec 16) (v : BitVec 32) (l : List Sqe) (c : BitVec 17),
    let k := f.toNat
    let id := qid.toNat
    let bad (x : Instr) : Prop := Gives s x fun t => t.fld F.HIU_EVT.DOORBELL_ERR = 1 ∧ t.host.sqs = s.host.sqs ∧ (t.cq k id).map (·.head) = (s.cq k id).map (·.head)
    (bar0 s k = false → exec (.sqTailDoorbell f qid v l) s = .next (s.l1Exit k) ∧ exec (.cqHeadDoorbell f qid v) s = .next (s.l1Exit k)) ∧
    (bar0 s k = true → s.sq k id = none → bad (.sqTailDoorbell f qid v l)) ∧
    (bar0 s k = true → s.cq k id = none → bad (.cqHeadDoorbell f qid v)) ∧
    (∀ q, let n := (v.toNat + q.size - q.tail) % q.size
      bar0 s k = true → s.sq k id = some q →
      (q.size ≤ v.toNat → bad (.sqTailDoorbell f qid v l)) ∧
      (v.toNat < q.size → Gives s (.sqTailDoorbell f qid v l) fun t =>
        let sqes := q.sqes ++ (List.range n).map fun i => l.getD i {}
        let stamps := keepStamp q.stamps (q.submitted + n, s.ttu.time)
        t.sq k id = some { q with tail := v.toNat, submitted := q.submitted + n, sqes := sqes, stamps := stamps })) ∧
    (∀ q, let frees : Prop := v.toNat < q.size ∧ (v.toNat + q.size - q.head) % q.size ≤ (q.tail + q.size - q.head) % q.size;
      bar0 s k = true → s.cq k id = some q →
      (¬ frees → bad (.cqHeadDoorbell f qid v)) ∧
      (frees → Gives s (.cqHeadDoorbell f qid v) fun t => (t.cq k id).map (·.head) = some v.toNat ∧ t.host.sqs = s.host.sqs ∧
        (id ≠ 0 → t = (s.l1Exit k).setCq k id { q with head := v.toNat }))) ∧
    ((∀ q ∈ s.host.sqs, headFree s (q.1 / 65536) (q.1 % 65536) q.2 = false) → Gives s .arbiterDecision fun t => t.host.cmds = s.host.cmds ∧ t.host.fsn = s.host.fsn) ∧
    (∀ q e rest, let s' : State := { s with host := { s.host with claim := claimNow s } };
      let room : Prop := ∀ z, s.cq k (if id = 0 then 0 else q.cq) = some z → z.full = false ∧ z.wait = [];
      s.host.sqs = [(qkey k id, q)] → q.sqes = e :: rest → (∀ o ∈ rest, o.cid ≠ e.cid) → keysRising s.host.cmds = true → admissible s' k id q = true →
      (e.fuse = 0 ∨ id = 0 → sqeRefused s k id e = none → Gives s .arbiterDecision fun t =>
        (∃ y, t.cmd (freeCmdIx s) = some y ∧ y.sqe = e ∧ y.func = k ∧ y.sqid = id ∧ y.fsn = s.host.fsn ∧ y.admin = (id == 0) ∧
          y.classified = false ∧ y.committed = false) ∧
        ∃ n r, 0 < n ∧ t.host.fsn = s.host.fsn + n ∧ t.sq k id = some r ∧ r.admitted = q.admitted + n ∧ r.sqes = q.sqes.drop n ∧
          r.head = (q.head + n) % max 1 q.size) ∧
      (∀ a b, e.fuse = 0 → rest = [] → sqeRefused s k id e = some (a, b) → room → Gives s .arbiterDecision fun t => Posted t k e.cid a b) ∧
      (e.fuse ≠ 0 → id ≠ 0 → rest = [] → e.badSgl = false → room → Gives s .arbiterDecision fun t => Posted t k e.cid 0 0x0A) ∧
      (∀ e2, id ≠ 0 → q.pair = true → rest = [e2] → e.opcode = 0x05 → e2.opcode = 0x01 → e.badSgl = false → e2.badSgl = false →
        Gives s .arbiterDecision fun t => ∃ b y z, t.cmd (freeCmdIx s) = some y ∧ t.cmd b = some z ∧ y.sqe = e ∧ z.sqe = e2 ∧ y.fused = some b ∧
          z.fused = some (freeCmdIx s) ∧ y.fsn = s.host.fsn ∧ z.fsn = s.host.fsn + 1 ∧ t.host.fsn = s.host.fsn + 2)) ∧
    (s.cmd c.toNat = none → exec (.classification c) s = .next s) ∧
    (∀ x, let waits : Prop := x.admin = true ∨ x.classified = true ∨ x.committed = true ∨ x.cqWait.isSome = true ∨ coreOn s = false ∨ s.stalled (c.toNat % 16) ≠ [];
      let blind := preFilterMode s && !preHit s x.func x.sqe.opcode
      let r := if blind then 0xFFFFFFFFFFFFFFFF else scSearch s (commandKey x.func x.sqid x.sqe) 2
      let x1 : Cmd := { x with scr := r, classified := true, waitBank := false, st := if x.sqe.ranged && x.sqe.fuse != 2 then .lockWait else .executing }
      let y : Cmd := { x1 with filter := if x1.filterId ≠ 0 ∧ x1.filterId = tenFilter s x.func then sget x.func s.sc.filters else none }
      let s' := s.setCmd c.toNat y
      let posts (a b : Nat) : Prop := Ends s x → Gives s (.classification c) fun t => Posted t x.func x.sqe.cid a b
      s.cmd c.toNat = some x →
      (waits → exec (.classification c) s = .next s) ∧
      (¬ waits → ioOpcode x.sqe.opcode = false → posts 0 0x01) ∧
      (¬ waits → ioOpcode x.sqe.opcode = true → preFilterMode s = true → preHit s x.func x.sqe.opcode = true →
        exec (.classification c) s = .next (s.setCmd c.toNat { x with waitBank := true })) ∧
      (¬ waits → ioOpcode x.sqe.opcode = true → blind = true ∨ preFilterMode s = false →
        (y.deny = true → posts 2 0x86) ∧
        (y.deny = false → Sqe.tagged x.sqe.opcode = false → Gives s (.classification c) fun t => t.cmd c.toNat = some y) ∧
        (y.deny = false → Sqe.tagged x.sqe.opcode = true →
          (∀ a b, gateStatus s' true y = some (a, b) → posts a b) ∧
          (∀ a b, gateStatus s' true y = none → s'.settleKeys y = .error (a, b) → posts a b) ∧
          (∀ keys, gateStatus s' true y = none → s'.settleKeys y = .ok keys → Gives s (.classification c) fun t => t.cmd c.toNat = some { y with keys := keys }))))

/-- R148 to R176: queues and admin commands of intake. -/
def Obligations.QueueCommandsAndTimeouts : Prop :=
  ∀ (s : State) (f : BitVec 12) (cid q size vec cq : BitVec 16) (irq contig : Bool) (w : Word) (c : BitVec 17) (kind : BitVec 2),
    let k := f.toNat
    let id := q.toNat
    let n := c.toNat
    let posts (x : Instr) (a b : Nat) : Prop := Gives s x fun t => Posted t k cid a b ∧ t.host.sqs = s.host.sqs ∧ t.sec = s.sec
    let badId : Prop := id = 0 ∨ queueLimit s k < id
    let roomy (x : Cmd) : Prop := s.flushing = false ∧ ∀ y, s.sq x.func x.sqid = some y → y.cq ≠ 0 ∧ ∀ z, s.cq x.func y.cq = some z → z.full = false
    (Live s k →
      (let x := Instr.createIoCq f cid q size vec irq contig
       let taken : Prop := badId ∨ (s.cq k id).isSome = true;
        (taken → posts x 1 0x01) ∧ (¬ taken → size = 0 → posts x 1 0x02) ∧ (¬ taken → size ≠ 0 → contig = false → posts x 0 0x02) ∧
        (¬ taken → size ≠ 0 → contig = true → irq = true → vectorLimit s k ≤ vec.toNat → posts x 1 0x08) ∧
        (¬ taken → size ≠ 0 → contig = true → irq = false ∨ vec.toNat < vectorLimit s k → Gives s x fun t => Posted t k cid 0 0 ∧
          t.cq k id = some { size := size.toNat + 1, vector := vec.toNat, irq := irq })) ∧
      (let x := Instr.createIoSq f cid q size cq contig
       let noCq : Prop := cq = 0 ∨ s.cq k cq.toNat = none
       let taken : Prop := badId ∨ (s.sq k id).isSome = true;
        (noCq → posts x 1 0x00) ∧ (¬ noCq → taken → posts x 1 0x01) ∧ (¬ noCq → ¬ taken → size = 0 → posts x 1 0x02) ∧
        (¬ noCq → ¬ taken → size ≠ 0 → contig = false → posts x 0 0x02) ∧
        (¬ noCq → ¬ taken → size ≠ 0 → contig = true → Gives s x fun t => Posted t k cid 0 0 ∧ t.sq k id = some { size := size.toNat + 1, cq := cq.toNat })) ∧
      (let no : Prop := id = 0 ∨ ∀ x, s.sq k id = some x → x.deleting ≠ none;
       no → posts (.deleteIoSq f cid q) 1 0x01) ∧
      (∀ x, id ≠ 0 → s.sq k id = some x → (∀ z ∈ s.host.sqs, z.1 / 65536 = k → z.2.deleting = none) →
        let mine (y : Cmd) : Prop := y.func = k ∧ y.sqid = id ∧ y.admin = false
        ((∀ y ∈ s.host.cmds, ¬ mine y.2) → Gives s (.deleteIoSq f cid q) fun t => Posted t k cid 0 0 ∧ t.sq k id = none) ∧
        (∀ y ∈ s.host.cmds, mine y.2 → (∀ z ∈ s.host.cmds, mine z.2 → z.2.committed = true) →
          exec (.deleteIoSq f cid q) s = .next (s.setSq k id { x with sqes := [], stamps := [], deleting := some cid })) ∧
        (∀ y, s.host.cmds = [(n, y)] → mine y → y.placed = false → y.fused = none → y.abort = false → y.committed = false → roomy y →
          Gives s (.deleteIoSq f cid q) fun t => Posted t k y.sqe.cid 0 0x08)) ∧
      (let no : Prop := id = 0 ∨ s.cq k id = none
       let used : Prop := ∃ x ∈ funcQueues s k, x.2.cq = id;
        (no → posts (.deleteIoCq f cid q) 1 0x01) ∧ (¬ no → used → posts (.deleteIoCq f cid q) 1 0x0C) ∧
        (¬ no → ¬ used → Gives s (.deleteIoCq f cid q) fun t => Posted t k cid 0 0 ∧ t.cq k id = none)) ∧
      (256 ≤ (s.func k).aborts.length → posts (.abort f cid q size) 1 0x03) ∧
      ((s.func k).aborts.length < 256 →
        let counts (t : State) (g : Field) : Prop := t.fld g = min (s.fld g + 1) (2 ^ g.width - 1)
        let target := s.host.cmds.find? fun y => y.2.func == k && y.2.sqid == id && y.2.sqe.cid == size && !y.2.admin && !y.2.committed
        (q = 0 → abortable s k cid size = true → Gives s (.abort f cid q size) fun t => Posted t k size 0 0x07 ∧ counts t F.CMD_ABORT_CNT.ABORTED) ∧
        (¬ (q = 0 ∧ abortable s k cid size = true) →
          (target = none → Gives s (.abort f cid q size) fun t => counts t F.CMD_ABORT_CNT.NOT_ABORTED ∧
            ∃ p e, Out.cqe k p e ∈ t.out ∧ e.cid = cid ∧ e.sct = 0 ∧ e.sc = 0 ∧ e.dw0 = 1) ∧
          (∀ m x, target = some (m, x) → keysRising s.host.cmds = true → keysRising s.zyn.ctxs = true →
            (cmdBusy s m = true → Gives s (.abort f cid q size) fun t => (∃ y, t.cmd m = some y ∧ y.abort = true ∧ y.committed = false ∧ y.st = .ending) ∧
              (cid, m) ∈ (t.func k).aborts) ∧
            (cmdBusy s m = false → roomy x → (∀ z ∈ (s.func k).aborts, z.2 ≠ m) →
              (∀ z ∈ s.host.sqs, z.1 / 65536 = k → z.2.deleting = none) → Gives s (.abort f cid q size) fun t =>
              Posted t k x.sqe.cid 0 0x07 ∧ Posted t k cid 0 0 ∧ counts t F.CMD_ABORT_CNT.ABORTED)))) ∧
      (16 ≤ (s.func k).aers.length → posts (.asynchronousEventRequest f cid) 1 0x05) ∧
      ((s.func k).aers.length < 16 →
        ((s.func k).events = [] → exec (.asynchronousEventRequest f cid) s = .next (s.setFunc k { s.func k with aers := (s.func k).aers ++ [cid] })) ∧
        (∀ ty info l, (s.func k).events = (ty, info) :: l → Gives s (.asynchronousEventRequest f cid) fun t => (t.func k).events = l ∧
          ∃ p e, Out.cqe k p e ∈ t.out ∧ e.cid = cid ∧ e.sct = 0 ∧ e.sc = 0 ∧ e.dw0 = BitVec.ofNat 32 (ty + info * 256))) ∧
      (s.sq k (w.toNat % 65536) = none → posts (.orderedSubmission f cid w) 0 0x02) ∧
      (∀ x, s.sq k (w.toNat % 65536) = some x → Gives s (.orderedSubmission f cid w) fun t => Posted t k cid 0 0 ∧
        t.sq k (w.toNat % 65536) = some { x with ordered := w.getLsbD 16 })) ∧
    (s.cmd n = none → exec (.commandTimeout c) s = .next s) ∧
    (∀ x, let due : Prop := x.committed = false ∧ x.timedOut = false ∧ s.fld (F.CMD_TIMEOUT.LIMIT_MS.ix (s.cmdClass x)) ≠ 0;
      s.cmd n = some x → (due → exec (.commandTimeout c) s = .next ((s.setCmd n { x with timedOut := true }).cmdActivate 0x03 n)) ∧
        (¬ due → exec (.commandTimeout c) s = .next s)) ∧
    (Gives s (.dmaError f kind c) fun t => t.fld F.HIU_EVT.DMA_ERR = 1 ∧ Out.aer k ∈ t.out ∧ (0, 0x04) ∈ (t.func k).errors ∧
      (kind = 3 → (t.func k).cfs = true ∧ (t.func k).stop = true ∧ t.host.cmds = s.host.cmds) ∧
      (kind ≠ 3 → (∀ x, s.cmd n = some x → x.func ≠ k ∨ (kind = 0 ∧ x.placed = true)) → t.host.cmds = s.host.cmds) ∧
      (∀ x, kind ≠ 3 → s.cmd n = some x → x.func = k → (kind = 0 → x.placed = false) → Ends s x → Posted t k x.sqe.cid 0 0x04)) ∧
    (let hit (z : Nat × Cq) : Prop := z.1 / 65536 = k ∧ z.2.vector = vec.toNat ∧ z.2.held ≠ 0;
      ((∀ z ∈ s.host.cqs, ¬ hit z) → exec (.interruptAggregationTimeout f vec) s = .next s) ∧
      ((∃ z ∈ s.host.cqs, hit z) → keysRising s.host.cqs = true → Gives s (.interruptAggregationTimeout f vec) fun t =>
        t.out = .msix k vec.toNat :: s.out ∧ t.zyn = s.zyn ∧ t.regs = s.regs ∧
        ∀ x, s.cq k id = some x → t.cq k id = some { x with held := if x.vector = vec.toNat then 0 else x.held }))

/-- R133, R134, R162, R166, R327, R332. -/
def Obligations.TransfersAndGrants : Prop :=
  ∀ (s : State) (i : CtxId) (tag : BitVec 4) (z : BitVec 22) (k : BitVec 17) (err : Bool) (data : List Block),
    let c := s.ctx i
    let n := tag.toNat
    let key := k.toNat
    let ended (x : Xfer) (t : State) : Prop := (t.ctx i).tags.getLsbD n = false ∧ x ∉ (t.ctx i).xfers ∧ (c.st = .ready → (t.ctx i).events.getLsbD n = true)
    (i.valid = false → exec (.xferComplete i tag err data) s = .fault .noSuchUnit) ∧
    (i.valid = true →
      (c.xfers.find? (fun x => x.tag == n && x.blocks != 0) = none → exec (.xferComplete i tag err data) s = .next s) ∧
      (∀ x, c.xfers.find? (fun x => x.tag == n && x.blocks != 0) = some x →
        let src := Desc.of x.src
        let dst := Desc.of x.dst
        let is (e : Bool) (P : State → Prop) : Prop := err = e → Gives s (.xferComplete i tag err data) fun t => ended x t ∧ P t
        (∀ ch sl ch' sl', src = some (.staging ch sl) → dst = some (.staging ch' sl') →
          (poisonedAt s 1 (stKey ch sl) x.blocks = none → (∀ a < x.blocks, ∀ b < x.blocks, stKey ch (sl + a) ≠ stKey ch' (sl' + b)) →
            (∀ y ∈ s.media.luns, y.2.queue = []) → is false fun t => t.out = s.out ∧
              ∀ j < x.blocks, (sget (stKey ch' (sl' + j)) t.media.slots).bind (·.data) = (stagingData s ch sl x.blocks)[j]?) ∧
          ((poisonedAt s 1 (stKey ch sl) x.blocks).isSome = true → is false fun t => t.media = s.media) ∧ is true fun t => t.media = s.media) ∧
        (∀ ch sl o y m, src = some (.staging ch sl) → dst = some (.host o) → c.cmd = some y → s.cmd y = some m →
          let bad := poisonedAt s 1 (stKey ch sl) x.blocks
          let at_ := stKey ch (sl + bad.getD 0)
          let l := (stagingData s ch sl x.blocks).zipIdx.flatMap fun (p, j) => hostBlocks s m o (s.lbaAt m o j) (s.xtsDec m (s.lbaAt m o j) (Payload.data p))
          (bad = none → x.pau = false → is false fun t => Out.data m.func m.sqe.cid o l ∈ t.out) ∧
          (bad = none → x.pau = true → is false fun t => (t.cmd y).map (·.pau) = some (some (0, o + l.length))) ∧
          (err = true ∨ bad.isSome = true →
            (sgetD 0 at_ s.ecc.reissues < 2 → Gives s (.xferComplete i tag err data) fun t => x ∈ (t.ctx i).xfers ∧ (t.ctx i).tags = c.tags ∧
              sgetD 0 at_ t.ecc.reissues = sgetD 0 at_ s.ecc.reissues + 1) ∧
            (2 ≤ sgetD 0 at_ s.ecc.reissues → Gives s (.xferComplete i tag err data) fun t => sget at_ t.ecc.reissues = none))) ∧
        (∀ o h y m, src = some (.host o) → dst = some (.pool h) → c.cmd = some y → s.cmd y = some m →
          (is true fun t => t.host.bufs = s.host.bufs) ∧
          is false fun t => ∀ j < x.blocks, ∀ b, s.buf (h + j) = some b →
            let lba := s.lbaAt m o j
            t.buf (h + j) = some { b with data := s.xtsEnc m lba (hostUnit s m o lba j data).1, lba := lba, mask := (hostUnit s m o lba j data).2 }) ∧
        (∀ h o y m, src = some (.pool h) → dst = some (.host o) → c.cmd = some y → s.cmd y = some m → poisonedAt s 8 h x.blocks = none →
          is false fun t => Out.data m.func m.sqe.cid o ((List.range x.blocks).flatMap fun j =>
            hostBlocks s m o (s.lbaAt m o j) (s.xtsDec m (s.lbaAt m o j) ((s.buf (h + j)).map (·.data) |>.getD 0))) ∈ t.out) ∧
        (∀ h o y m, src = some (.pool h) → dst = some (.host o) → c.cmd = some y → s.cmd y = some m → poisonedAt s 8 h x.blocks = none →
          is true fun _ => True) ∧
        ((∀ ch sl ch' sl', ¬ (src = some (.staging ch sl) ∧ dst = some (.staging ch' sl'))) → c.cmd.bind s.cmd = none →
          ∀ e, is e fun t => t.out = s.out ∧ t.media = s.media ∧ t.host = s.host))) ∧
    (∀ l, s.zlock z.toNat = (false, .ctx i.key n :: l) → i.valid = true →
      (∀ x, c.xfers.find? (fun x => x.tag == n && x.blocks == 0) = some x → Gives s (.zoneLockGrant z) fun t => ended x t ∧ (t.ctx i).zlocks = z.toNat :: c.zlocks ∧
        t.zlock z.toNat = (true, .ctx i.key n :: l)) ∧
      (c.xfers.find? (fun x => x.tag == n && x.blocks == 0) = none → Gives s (.zoneLockGrant z) fun t => t.zlock z.toNat = (false, l) ∧ t.zyn = s.zyn)) ∧
    (∀ h l, s.zlock z.toNat = (false, h :: l) → (∀ a b, h ≠ .ctx a b) → exec (.zoneLockGrant z) s = .next (s.setZlock z.toNat (true, h :: l))) ∧
    ((s.zlock z.toNat).1 = true ∨ (s.zlock z.toNat).2 = [] → exec (.zoneLockGrant z) s = .next s) ∧
    (s.lock key = none → exec (.rangeLockGrant k) s = .next s) ∧
    (∀ r x, s.lock key = some r → s.cmd key = some x →
      (lockFree s r = true → Gives s (.rangeLockGrant k) fun t => (t.lock key).map (·.held) = some true ∧ (t.cmd key).map (·.st) = some .executing) ∧
      (lockFree s r = false → exec (.rangeLockGrant k) s = .next s)) ∧
    (s.cmd key = none → exec (.commitPoint k) s = .next s) ∧
    (∀ x, s.cmd key = some x →
      (∀ d0 d1, x.cqWait = some (d0, d1) →
        (cqFull s x = true → exec (.commitPoint k) s = .next s) ∧
        (cqFull s x = false → Ends s x → Gives s (.commitPoint k) fun t =>
          Posted t x.func x.sqe.cid (x.status.toNat / 256 % 8) (x.status.toNat % 256) ∧
          ∀ w, cqWaiter s key = some w → w.1.valid = true → (t.ctx w.1).st = .ready ∧ (t.ctx w.1).tags.getLsbD w.2.1 = false)) ∧
      (x.cqWait = none →
        (x.ceilWait = false ∨ x.placed = false ∨ withinCeiling s x.bufs.length = false → exec (.commitPoint k) s = .next s) ∧
        (x.ceilWait = true → x.placed = true → withinCeiling s x.bufs.length = true →
          (Ends s x → Gives s (.commitPoint k) fun t => Posted t x.func x.sqe.cid 0 0) ∧
          (x.committed = false → (s.func x.func).resetting = false → (s.func x.func).flr = false → cqFull s x = true → x.abort = false →
            Gives s (.commitPoint k) fun t => ∃ y, t.cmd key = some y ∧ y.cqWait.isSome = true ∧ y.ceilWait = false ∧ y.committed = false))))

/-- R406 to R412. -/
def Obligations.LevelsAndPowerStates : Prop :=
  ∀ (s : State) (f : BitVec 12) (cid : BitVec 16) (v : Word) (ps4 : Bool),
    let k := f.toNat
    let p := v.toNat % 32
    let dev := if s.x4x4 then min p (if k = 0 then s.pwr.ps1 else s.pwr.ps0) else p
    let cur := s.fld F.PMU_STATUS.PS_CUR
    let tgt := s.fld F.PMU_STATUS.PS_TARGET
    (∀ r, s.pwr.avs = some r →
      let fl := if r.rail = 0 then F.PMU_AVS_STATUS.VCORE_MV else F.PMU_AVS_STATUS.VSRAM_MV
      (Gives s (.avsbusStatusRead true) fun t => t.fld fl = r.mv % 1024 ∧
        (∀ q mv, r.next = some (q, mv) → t.pwr.avs = some { r with rail := q, mv := mv, next := none }) ∧
        (r.next = none → r.raise = none → t.pwr.avs = none ∧ t.fld F.PMU_STATUS.VHIGH = 0)) ∧
      (exec (.avsbusStatusRead false) s = .next s) ∧
      (Gives s .avsbusTimeout fun t => t.fld F.PMU_AVS_STATUS.TIMEOUTS = min (s.fld F.PMU_AVS_STATUS.TIMEOUTS + 1) 255 ∧ t.fld F.PMU_EVT.AVS_TIMEOUT = 1 ∧
        (r.raise = none → t.fld F.PMU_STATUS.VHIGH = 1 ∧ t.pwr = s.pwr) ∧
        (r.raise.isSome = true → t.pwr.avs = none ∧ (t.pwr.raiseRetry = true ↔ s.fld F.PMU_AVS_STATUS.RAISE_FAILS < 7) ∧
          (7 ≤ s.fld F.PMU_AVS_STATUS.RAISE_FAILS → t.pwr.raiseStop = true)))) ∧
    (s.pwr.avs = none → (∀ vdone, exec (.avsbusStatusRead vdone) s = .next s) ∧ exec .avsbusTimeout s = .next s) ∧
    (Gives s (.pmuPlCapWrite v) fun t => t.fld F.PMU_PL_CAP.CAP = v.toNat % 8 ∧
      t.fld F.PMU_STATUS.PL_TARGET = max (psLevel s) (max (min 5 (v.toNat % 8)) (min 3 (s.fld F.TMU_STATUS.LEVEL)))) ∧
    (Live s k → s.isPf k = true →
      (4 < p → Gives s (.powerManagement f cid v) fun t => Posted t k cid 0 0x02 ∧ t.pwr = s.pwr) ∧
      (p ≤ 4 → Gives s (.powerManagement f cid v) fun t => Posted t k cid 0 0 ∧ t.fld F.PMU_STATUS.PS_TARGET = dev ∧
        (s.pwr.trans = none → dev ≤ 2 → cur ≤ 2 → dev ≠ cur → t.fld F.PMU_STATUS.PS_CUR = dev ∧ t.fld F.PMU_EVT.PS_DONE = 1) ∧
        (s.pwr.trans = none → 2 < dev → cur < 3 → t.fld F.PMU_STATUS.TRANS = 1 ∧ t.pwr.trans = some { target := dev, done := 0, entering := true }))) ∧
    (Live s k → s.isPf k = false → Gives s (.powerManagement f cid v) fun t => Posted t k cid 0 (if p = 0 then 0 else 0x02) ∧ t.pwr = s.pwr) ∧
    (s.pwr.trans = none → exec .powerStateStep s = .next s) ∧
    (∀ tr, s.pwr.trans = some tr → tr.target = tgt →
      let goes (n : Nat) : Prop := Gives s .powerStateStep fun t => t.pwr.trans = some { tr with done := n }
      let reach (P : State → Prop) : Prop := Gives s .powerStateStep fun t => t.pwr.trans = none ∧ t.fld F.PMU_STATUS.PS_CUR = tgt ∧ P t
      (tr.entering = true → tgt = 3 ∨ tgt = 4 →
        (tr.done = 0 → (noIo s = true → goes 1) ∧ (noIo s = false → exec .powerStateStep s = .next s)) ∧
        (tr.done = 1 → poolClean s = true → goes 2) ∧ (tr.done = 2 → s.fld F.PMU_STATUS.PL_CUR = 5 → goes 3) ∧
        (tr.done = 3 → tgt = 4 → goes 4) ∧ (tr.done = 3 → tgt = 3 → reach fun t => t.fld (F.PMU_VOTE.PMU.ix 0) = 0 ∧ t.fld (F.PMU_VOTE.PMU.ix 8) = 1) ∧
        (tr.done = 4 → tgt = 4 → goes 5) ∧ (tr.done = 5 → tgt = 4 → reach fun t => t.dom 0 = 2 ∧ t.dom 10 = 1 ∧ t.dom 12 = 1)) ∧
      (tr.entering = false → tgt ≤ 3 → (tr.done = 6 → goes 5) ∧ (tr.done = 5 → tgt < 3 → goes 4) ∧
        (tr.done = 4 → tgt < 3 → reach fun t => ∀ d, 1 ≤ d → d ≤ 8 → groupAbsent s d = false → t.dom d = 0))) ∧
    (s.pwr.adminWake = true → s.pwr.trans = none → (∀ x ∈ s.host.cmds, x.2.admin = false) → Gives s .ps4AdminIdleReturn fun t =>
      t.pwr.adminWake = false ∧ t.dom 0 = 2 ∧ t.fld (F.PMU_VOTE.PMU.ix 8) = 0) ∧
    (s.pwr.adminWake = false → exec .ps4AdminIdleReturn s = .next s) ∧
    (s.pwr.trans.isSome = true ∨ (if ps4 then 4 else 3) ≤ cur ∨ (sgetD 0 0x0C (s.func 0).feats).getLsbD 0 = false → exec (.apstTransition ps4) s = .next s) ∧
    (s.pwr.trans = none → cur < (if ps4 then 4 else 3) → (sgetD 0 0x0C (s.func 0).feats).getLsbD 0 = true → Gives s (.apstTransition ps4) fun t =>
      t.fld F.PMU_STATUS.TRANS = 1 ∧ t.pwr.trans = some { target := if ps4 then 4 else 3, done := if cur = 3 then 4 else 0, entering := true })

/-- R404, R413 to R420, R491. -/
def Obligations.SleepVotesAndDomains : Prop :=
  ∀ (s : State) (bad : List Nat) (v d : BitVec 4) (w : Word) (off request : Bool) (n : Nat),
    let k := d.toNat
    (s3Ready s = true → s.pwr.s3 = false → Gives s .s3Entry fun t => t.pwr.s3 = true ∧ t.fld F.PMU_EVT.S3_ENTER = 1 ∧
      t.sec.slots = [] ∧ t.sec.keks = [] ∧ t.dom 0 = 2 ∧ t.dom 10 = 2 ∧ t.dom 12 = 2 ∧ (∀ d, 1 ≤ d → d ≤ 8 → t.dom d = 3) ∧
      (∀ b ∈ [4, 6], (t.reg (R.PMU_RET_SEQ + 4 * b)).toNat = ((s.reg (R.PMU_RET_SEQ + 4 * b)).toNat + 1) % 2 ^ 32)) ∧
    (s3Ready s = false ∨ s.pwr.s3 = true → exec .s3Entry s = .next s) ∧
    (s.pwr.s3 = true → Gives s (.s3Exit bad) fun t => t.pwr.s3 = false ∧ t.pwr.adminWake = true ∧ t.dom 10 = 0 ∧ t.dom 12 = 0 ∧
      (∀ d, d ≤ 8 → groupAbsent s d = false → t.dom d = 0)) ∧
    (s.pwr.s3 = false → exec (.s3Exit bad) s = .next s) ∧
    (s.boot.perst = false → s.pwr.s4 = false → Gives s .s4Entry fun t => t.pwr.s4 = true ∧ t.regs = s.regs ∧
      t.dom 13 = 0 ∧ (∀ d, d < 13 → t.dom d = 3)) ∧
    (s.boot.perst = true ∨ s.pwr.s4 = true → exec .s4Entry s = .next s) ∧
    (v.toNat < 10 → Gives s (.pmuVoteHostWrite v w) fun t => t.fld (F.PMU_VOTE.HOST.ix v.toNat) = w.toNat / 128 % 2 ∧ t.pwr = s.pwr) ∧
    (10 ≤ v.toNat → exec (.pmuVoteHostWrite v w) s = .fault .noSuchUnit) ∧
    (domVote k = some n → s.dom k = 0 →
      (voted s n = true ∨ request = true → Gives s (.domainEntry d off request) fun t => t.fld F.PMU_EVT.ABANDON = 1 ∧ t.dom k = 0) ∧
      (voted s n = false → k ≠ 9 → Gives s (.domainEntry d true false) fun t => t.dom k = 3 ∧ ∀ e, e ≠ k → t.dom e = s.dom e) ∧
      (voted s n = false → Gives s (.domainEntry d false false) fun t => t.dom k = 2 ∧ (∀ e, e ≠ k → t.dom e = s.dom e) ∧
        ∀ b ∈ domBanks k, (t.reg (R.PMU_RET_SEQ + 4 * b)).toNat = ((s.reg (R.PMU_RET_SEQ + 4 * b)).toNat + 1) % 2 ^ 32) ∧
      (voted s n = false → k = 9 → Gives s (.domainEntry d off false) fun t => t.dmc.sr = .selfRefresh ∧ t.fld F.DMC_STATUS.STATE = 5)) ∧
    (domVote k = none ∨ s.dom k ≠ 0 → exec (.domainEntry d off request) s = .next s) ∧
    (k ≤ 13 → s.pwr.s3 = false → s.pwr.s4 = false →
      (2 ≤ s.dom k → groupAbsent s k = false → Gives s (.domainRestore d bad) fun t => t.dom k = 0 ∧ (∀ e, e ≠ k → t.dom e = s.dom e) ∧
        ∀ q ∈ domParts k, q ∈ t.zyn.restore) ∧
      (2 ≤ s.dom k → groupAbsent s k = true → exec (.domainRestore d bad) s = .next s) ∧
      (s.dom k = 3 → k ≠ 9 → groupAbsent s k = false → Gives s (.domainRestore d bad) fun t => ∀ base ∈ domBlocks k, ∀ x ∈ blockOffsets base, x.2.cold = false →
        x.1 ≠ R.TT_STATUS → t.reg x.1 = regReset s.variant x.1) ∧
      (s.dom k = 2 → k ≠ 9 → groupAbsent s k = false → (∀ b ∈ domBanks k, bad.contains b = false ∧ ∃ im, sget (bankKey k b) s.pwr.banks = some im ∧ im.ok = true ∧
          im.seq = (s.reg (R.PMU_RET_SEQ + 4 * b)).toNat) → Gives s (.domainRestore d bad) fun t =>
        ∀ im, sget (bankKey k ((domBanks k).headD 0)) s.pwr.banks = some im → ∀ base ∈ domBlocks k, ∀ x ∈ blockOffsets base, x.2.cold = false →
          x.2.w1c = 0 → x.2.rc = 0 → isStat x.1 = false → x.1 ≠ R.TT_STATUS → x.1 ≠ R.SC_STATUS → t.reg x.1 = sgetD (regReset s.variant x.1) x.1 im.regs) ∧
      (s.dom k = 2 → groupAbsent s k = false → ∀ b ∈ domBanks k, bad.contains b = true → Gives s (.domainRestore d bad) fun t =>
        t.fld F.PMU_EVT.RET_FAIL = 1 ∧ (t.fld F.PMU_WAKE_STATUS.BANK_FAIL).testBit b = true) ∧
      (s.dom k = 1 → Gives s (.domainRestore d bad) fun t => t.dom k = 0 ∧ t.regs = s.regs) ∧
      (s.dom k = 0 → exec (.domainRestore d bad) s = .next s)) ∧
    (k ≤ 13 → s.pwr.s3 = true ∨ s.pwr.s4 = true → exec (.domainRestore d bad) s = .next s) ∧
    (13 < k → exec (.domainRestore d bad) s = .fault .noSuchUnit)

/-- R422 to R425. -/
def Obligations.ThermalModelAndThrottling : Prop :=
  ∀ (s : State) (cnt : List (List (BitVec 32))) (p m : BitVec 32) (j : BitVec 3) (fault : Bool) (x : BitVec 12) (v : Word) (f : BitVec 12) (cid : BitVec 16),
    let k := f.toNat
    let n := v.toNat
    let l := s.fld F.TMU_STATUS.LEVEL
    let T := composite s
    let thr : Int := s.fld F.TMU_THRESH.THROTTLE
    let new := eighths (x.toNat / 2 * 2)
    let act := ((cnt.getD 0 []).zipIdx).foldl (fun (a : Rat) (y : BitVec 32 × Nat) => a + (y.1.toNat : Rat) * Config.energy 0 y.2) 0
    let pw := s.pwr.gain * act * 50000 + Config.leak 0 (levelCore (s.fld F.PMU_STATUS.PL_CUR)) (s.tile 0)
    let q := (s.tile 0 - s.tile 1) / Config.rTile 0 1 + (s.tile 0 - s.tile 4) / Config.rTile 0 4 + (s.tile 0 - s.pwr.sink) / Config.rSink 0
    let g := s.pwr.gain + ((p.toNat : Rat) / (m.toNat : Rat) - s.pwr.gain) / 8
    let good := (List.range 8).filter fun i => !diodeBad s i && s.pwr.dSeen.getLsbD i
    let sel := n / 65536 % 16
    let th := n / 2 ^ 20 % 4
    let ok := n % 256 < n / 256 % 256 ∧ n / 256 % 256 < n / 65536 % 256 ∧ n / 65536 % 256 < n / 16777216 ∧ n / 16777216 ≤ (if s.variant = .af then 120 else 122)
    (Gives s (.thermalModelUpdate cnt) fun t => t.tile 0 = s.tile 0 + (pw - q) / 50000 / Config.cTile 0 ∧ t.pwr.sink = s.pwr.sink ∧
      t.fld F.TMU_STATUS.BAND = thermalBand t (composite t) ∧ (2 ≤ thermalBand t (composite t) → 1 ≤ t.fld F.TMU_STATUS.LEVEL) ∧
      (s.fld F.TMU_STATUS.BAND < 3 → thermalBand t (composite t) = 3 → t.fld F.TMU_STATUS.LEVEL = 9 ∧ t.fld F.TMU_EVT.CRIT = 1)) ∧
    (good = [] → exec .sinkUpdate s = .next s) ∧
    (good ≠ [] → exec .sinkUpdate s = .next { s with pwr := { s.pwr with sink := s.pwr.sink + (good.map (residual s)).sum / good.length / 64 } }) ∧
    (Gives s (.gainUpdate none m) fun t => t.pwr.gain = s.pwr.gain ∧ t.pwr.iFails = s.pwr.iFails + 1 ∧
      (s.pwr.iFails = 2 → t.fld F.TMU_GAIN.FROZEN = 1 ∧ t.fld F.TMU_EVT.IOUT_LOST = 1)) ∧
    (m = 0 → Gives s (.gainUpdate (some p) m) fun t => t.pwr.gain = s.pwr.gain ∧ t.fld F.TMU_GAIN.FROZEN = 0) ∧
    (m ≠ 0 → Gives s (.gainUpdate (some p) m) fun t => t.fld F.TMU_GAIN.FROZEN = 0 ∧ 4 / 5 ≤ t.pwr.gain ∧ t.pwr.gain ≤ 5 / 4 ∧
      (4 / 5 ≤ g → g ≤ 5 / 4 → t.pwr.gain = g)) ∧
    (Gives s (.diodeReading j fault x) fun t => diodeTemp t j.toNat = new ∧ (s.pwr.dSeen ≠ 0xFF → t.pwr.dSeen = s.pwr.dSeen ||| (1#8 <<< j.toNat))) ∧
    (s.pwr.dSeen = 0xFF →
      (s.flag F.TMU_CTRL.COMPAT = false → diodeBad s j.toNat = false → s.pwr.dBad[j.toNat] = 2 → Gives s (.diodeReading j true x) fun t =>
        diodeBad t j.toNat = true ∧ t.fld (F.TMU_DIODE.CAUSE.ix j.toNat) = 1 ∧ t.fld F.TMU_EVT.DIODE_BAD = 1 ∧ diodeTemp t j.toNat = new) ∧
      (diodeBad s j.toNat = true → 59999 ≤ s.pwr.dGood[j.toNat] → -40 ≤ new → new ≤ 150 → ratAbs (new - diodeTemp s j.toNat) ≤ 5 →
        ratAbs (new - s.tile (diodeTile j.toNat)) ≤ 5 → Gives s (.diodeReading j false x) fun t => diodeBad t j.toNat = false)) ∧
    (thr + 2 ≤ T → Gives s .throttleStep fun t => t.fld F.TMU_STATUS.LEVEL = min 9 (l + 1)) ∧
    (T < thr + 2 → thr - s.fld F.TMU_THR_CFG.HYST_C ≤ T → exec .throttleStep s = .next s) ∧
    (T < thr - s.fld F.TMU_THR_CFG.HYST_C → Gives s .throttleStep fun t => t.fld F.TMU_STATUS.LEVEL = max (hctmFloor s T) (l - 1)) ∧
    (s.flag F.TMU_CTRL.LOCK = true → exec (.tmuThreshWrite v) s = .next s) ∧
    (ok → s.flag F.TMU_CTRL.LOCK = false → Gives s (.tmuThreshWrite v) fun t => t.reg R.TMU_THRESH = v) ∧
    (¬ ok → s.flag F.TMU_CTRL.LOCK = false → Gives s (.tmuThreshWrite v) fun t => t.reg R.TMU_THRESH = s.reg R.TMU_THRESH ∧ t.fld F.TMU_EVT.THRESH_REJECT = 1) ∧
    (Live s k → s.isPf k = true →
      (n / 65536 = 0 ∨ n % 65536 = 0 ∨ n / 65536 < n % 65536 → Gives s (.hostControlledThermalManagement f cid v) fun t => Posted t k cid 0 0 ∧
        t.pwr.tmt1 = n / 65536 ∧ t.pwr.tmt2 = n % 65536 ∧ t.fld F.TMU_STATUS.LEVEL = max l (hctmFloor t T)) ∧
      (n / 65536 ≠ 0 → n % 65536 ≠ 0 → n % 65536 ≤ n / 65536 → Gives s (.hostControlledThermalManagement f cid v) fun t => Posted t k cid 0 0x02 ∧ t.pwr = s.pwr) ∧
      (sel = 0 ∨ sel = 15 → th = 0 → Gives s (.temperatureThreshold f cid v) fun t => Posted t k cid 0 0 ∧ t.pwr.tmpOver = n % 65536 ∧ t.pwr.tmpUnder = s.pwr.tmpUnder) ∧
      (sel = 0 ∨ sel = 15 → th = 1 → Gives s (.temperatureThreshold f cid v) fun t => Posted t k cid 0 0 ∧ t.pwr.tmpUnder = n % 65536 ∧ t.pwr.tmpOver = s.pwr.tmpOver) ∧
      ((sel ≠ 0 ∧ sel ≠ 15) ∨ 1 < th → Gives s (.temperatureThreshold f cid v) fun t => Posted t k cid 0 0x02 ∧ t.pwr = s.pwr)) ∧
    (Live s k → s.isPf k = false → (Gives s (.hostControlledThermalManagement f cid v) fun t => Posted t k cid 0 0x02 ∧ t.pwr = s.pwr) ∧
      (Gives s (.temperatureThreshold f cid v) fun t => Posted t k cid 0 0x02 ∧ t.pwr = s.pwr))

/-- R8 to R10, R41, R142 to R144, R313, R430 to R433. That DMC_STATUS and DMC_EVT report the lost tracker at once is the model's reading. -/
def Obligations.ResetsAndBoot : Prop :=
  ∀ (s : State) (b : BootIn) (brownOut port flit : Bool) (rate : BitVec 3) (width : BitVec 4) (l : BitVec 2),
    let fl := s.fld F.JNL_STATUS.FLUSH_STATE
    let low := { s with boot := { s.boot with perst := false, waiting := none } }
    let latched := { low with jnl := { s.jnl with perstLatched := true } }
    let up := { s with boot := { s.boot with perst := true } }
    let held := { s with boot := { s.boot with coldHeld := false } }.setFld F.TT_STATUS.STATE 4
    let dirty : Prop := s.jnl.inhibit = false ∧ ∃ x ∈ s.host.bufs, x.2.wsn ≠ 0;
    let u (x : State) : State := ((x.bootStart b).bootTests b).bootWords
    let failed (t : State) (step code : Nat) : Prop := t.fld F.BOOT_STATUS.STATE = 2 ∧ t.fld F.BOOT_STATUS.STEP = step ∧ t.fld F.BOOT_STATUS.CODE = code
    let runs (c : Instr) (x : State) (slot second : Bool) : Prop :=
      let img := (u x).slotImage slot
      let cfg := dmcConfig (img.bundle.param.getD 0x300 0).toNat
      (cfg = none → Gives s c fun t => failed t 9 0x61) ∧
      (cfg.isSome = true → b.trainOk = false → b.fastOk = false → Gives s c fun t => failed t 9 0x60 ∧ t.boot.noReady = true) ∧
      (∀ n, cfg = some n → b.trainOk = true ∨ (b.fastOk = true ∧ x.dmc.saved = some (BitVec.ofNat 32 n)) → Gives s c fun t =>
        t.fld F.BOOT_STATUS.STATE = 1 ∧ t.fld F.BOOT_STATUS.STEP = 11 ∧ t.boot.slot = slot ∧ t.zyn.bundle = img.bundle ∧ (second = true → t.boot.cause = 4))
    let boots (c : Instr) (x : State) : Prop :=
      (b.xspiOk = false → Gives s c fun t => failed t 4 0x20) ∧
      (let slot := ((u x).firstSlot b).1
       let code (k : Bool) : Nat := imageCode (u x) ((u x).slotImage k) b.romRev.toNat
       b.xspiOk = true → (code slot = 0 → runs c x slot false) ∧ (code slot ≠ 0 → code (!slot) = 0 → runs c x (!slot) true) ∧
        (code slot ≠ 0 → code (!slot) ≠ 0 → Gives s c fun t => failed t (if code (!slot) < 0x40 then 5 else 6) (code (!slot))))
    let kept (t : State) : Prop := t.media.nand = s.media.nand ∧ t.sec.fuses = s.sec.fuses ∧ t.sec.blocks = s.sec.blocks ∧
      t.host.cmds = [] ∧ t.host.bufs = [] ∧ t.host.sqs = [] ∧ t.host.cqs = [] ∧ t.zyn.ctxs = [] ∧ t.jnl.openRecs = [] ∧ t.out = s.out
    (s.boot.perst = true →
      (s.boot.coldHeld = true → exec .perstAssert s = .next low) ∧
      (s.boot.coldHeld = false → fl = 1 ∨ fl = 2 → exec .perstAssert s = .next latched) ∧
      (s.boot.coldHeld = false → fl ≠ 1 → fl ≠ 2 → ¬ dirty → Gives s .perstAssert fun t => kept t ∧ t.boot.perst = false ∧ t.boot.cause = 2 ∧
        t.ttu.time = s.ttu.time ∧ t.pwr.tiles = s.pwr.tiles ∧ ∀ off d i, findReg off = some (d, i) → off ∉ [R.TT_STATUS, R.DMC_STATUS, R.DMC_EVT] →
          t.reg off = if d.cold then s.reg off else regReset s.variant off) ∧
      (s.boot.coldHeld = false → fl ≠ 1 → fl ≠ 2 → dirty → Gives s .perstAssert fun t => t.jnl.perstLatched = true ∧ t.flushing = true ∧ t.boot.perst = false) ∧
      exec (.perstRelease b) s = .next s) ∧
    (s.boot.perst = false → (exec .perstAssert s = .next s) ∧
      (s.jnl.perstLatched = true → exec (.perstRelease b) s = .next { up with boot := { up.boot with waiting := some b } }) ∧
      (s.jnl.perstLatched = false → s.boot.coldHeld = true → exec (.perstRelease b) s = .next up) ∧
      (s.jnl.perstLatched = false → s.boot.coldHeld = false → boots (.perstRelease b) up)) ∧
    (Gives s (.coldReset brownOut) fun t => kept t ∧ t.boot.coldHeld = true ∧ t.boot.cause = (if brownOut then 3 else 1) ∧
      ∀ off, t.reg off = regReset s.variant off) ∧
    (s.boot.coldHeld = false → exec (.coldResetRelease b) s = .next s) ∧
    (s.boot.coldHeld = true → s.boot.perst = true → boots (.coldResetRelease b) held) ∧
    (s.boot.coldHeld = true → s.boot.perst = false → exec (.coldResetRelease b) s = .next held) ∧
    (let ok : Prop := 1 ≤ rate.toNat ∧ rate.toNat ≤ 6 ∧ (rate = 6 → flit = true) ∧ (width.toNat ∈ [1, 2, 4] ∨ (width = 8 ∧ s.x4x4 = false)) ∧
        (port = true → s.x4x4 = true) ∧ s.loop 0 (if port then 1 else 0) = none
     let three (t : State) (r w m : Field) : Prop := t.fld r = rate.toNat ∧ t.fld w = width.toNat ∧ t.flag m = flit;
      (ok → Gives s (.pcieLinkUp port rate width flit) fun t =>
        if port then three t F.HIU_PORT_STATUS.P1_RATE F.HIU_PORT_STATUS.P1_WIDTH F.HIU_PORT_STATUS.P1_FLIT
        else three t F.HIU_PORT_STATUS.P0_RATE F.HIU_PORT_STATUS.P0_WIDTH F.HIU_PORT_STATUS.P0_FLIT) ∧
      (¬ ok → exec (.pcieLinkUp port rate width flit) s = .next s)) ∧
    (let v : BitVec 2 := if l = 0 then 1 else if l = 1 then 2 else 3
     let no : Prop := (sources s).contains 2 = true ∨ (port = true ∧ s.x4x4 = false);
      (no → exec (.aspmL1Entry ⟨port, l⟩) s = .next s) ∧
      (¬ no → exec (.aspmL1Entry ⟨port, l⟩) s = .next (if port then { s with host := { s.host with l1Port1 := v } } else { s with host := { s.host with l1Port0 := v } })))

/-- R103, R147, R171, R172, R179, R194, R195, R198, R315, R364, R438, R439. -/
def Obligations.ControllersFunctionsAndRecovery : Prop :=
  ∀ (s : State) (f asqs acqs n : BitVec 12) (ok pf : Bool) (bad : List Nat) (late : List (BitVec 17 × List Block)) (c : BitVec 17),
    let k := f.toNat
    let g := s.func k
    let live : Prop := g.present = true ∧ g.flr = false ∧ g.resetting = false
    let halt : Prop := s.fld F.ZYN_STATUS.STATE = 4 ∨ s.fld F.DMC_STATUS.STATE = 4
    let off (t : State) : Prop := (t.func k).en = false ∧ (t.func k).rdy = false ∧ (t.func k).resetting = false ∧ ∀ q < 65536, t.sq k q = none ∧ t.cq k q = none
    let alone (x : Cmd) : Prop := s.host.cmds = [(c.toNat, x)] ∧ x.func = k
    let empty : Prop := ∀ x ∈ s.host.cmds, x.2.func ≠ k
    let drains (x : Cmd) : Prop := x.admin = false ∧ x.st ≠ .posted ∧ x.dma = true ∧ cmdBusy s c.toNat = true
    let base := if pf then 2048 else 0
    let port : Prop := pf = false ∨ s.x4x4 = true
    (let may : Prop := live ∧ g.en = false ∧ g.heldReset = false ∧ asqs ≠ 0 ∧ acqs ≠ 0;
      (¬ may ∨ s.fld F.BOOT_STATUS.STATE = 0 → exec (.ccEnSet f asqs acqs) s = .next s) ∧
      (may → s.fld F.BOOT_STATUS.STATE = 2 → exec (.ccEnSet f asqs acqs) s = .next (s.setFunc k { g with cfs := true })) ∧
      (may → s.fld F.BOOT_STATUS.STATE = 1 → Gives s (.ccEnSet f asqs acqs) fun t => (t.func k).en = true ∧ t.sq k 0 = some { size := asqs.toNat + 1, cq := 0 } ∧
        t.cq k 0 = some { size := acqs.toNat + 1 } ∧ (k = 0 → t.host.configured = true ∧ (s.host.configured = false → t.jnl.phase = some 0)))) ∧
    (s.flushing = true ∨ s.jnl.phase = none → exec (.recoveryPhase bad) s = .next s) ∧
    (s.flushing = false → ∀ p, s.jnl.phase = some p →
      (p < 5 → Gives s (.recoveryPhase bad) fun t => t.jnl.phase = some (p + 1) ∧ (p < 4 → t.fld F.JNL_STATUS.RECOV_PHASE = p + 1)) ∧
      (5 ≤ p → recoverBusy s = true → exec (.recoveryPhase bad) s = .next s) ∧
      (5 ≤ p → recoverBusy s = false → Gives s (.recoveryPhase bad) fun t => t.jnl.phase = none ∧
        t.boot.recovered = true ∧ t.fld F.JNL_STATUS.RECOV_PHASE = 7 ∧ t.fld F.MAP_STATUS.READY = 1)) ∧
    (let may : Prop := live ∧ g.en = true ∧ g.heldReset = false;
      (¬ may → exec (.controllerReset f ok) s = .next s) ∧
      (may → ¬ halt → (empty → Gives s (.controllerReset f ok) off) ∧
        (∀ x, alone x → drains x → Gives s (.controllerReset f ok) fun t => (t.func k).resetting = true ∧ (t.func k).rdy = g.rdy ∧
          ∃ y, t.cmd c.toNat = some y ∧ y.st = .draining) ∧
        (∀ x, alone x → ¬ drains x → Gives s (.controllerReset f ok) fun t => off t ∧ t.cmd c.toNat = none)) ∧
      (may → halt → s.isPf k = false ∨ s.flushing = true ∨ s.boot.noReady = true → exec (.controllerReset f ok) s = .next (s.holdReset k)) ∧
      (may → halt → s.isPf k = true → s.flushing = false → s.boot.noReady = false →
        (s.fld F.DMC_STATUS.STATE ≠ 4 ∨ ok = true → Gives s (.controllerReset f ok) fun t => t.mram.flushNo = trip (s.mram.flushNo.vote.getD 0 + 1)) ∧
        (s.fld F.DMC_STATUS.STATE = 4 → ok = false → Gives s (.controllerReset f ok) fun t => (t.func k).heldReset = true ∧ t.boot.noReady = true ∧
          t.fld F.DMC_EVT.TRAIN_FAIL = 1))) ∧
    (¬ live → exec (.abruptShutdown f) s = .next s) ∧
    (live → empty → Gives s (.abruptShutdown f) fun t => off t ∧ (t.func k).shst = 2) ∧
    (¬ live ∨ g.shutdown = true → exec (.normalShutdown f) s = .next s) ∧
    (live → g.shutdown = false → (∀ h ∈ s.funcList, h ≠ k → ¬ ((s.func h).shutdown = true ∧ (s.func h).shst = 1)) →
      let begun := s.setFunc k { g with shutdown := true, shst := 1 }
      let waits : Prop := (∃ x ∈ s.host.cmds, x.2.func = k ∧ waitsEvent s x.2 = false) ∨ shutdownDirty s k = true;
      (waits → exec (.normalShutdown f) s = .next begun) ∧
      (¬ waits → wholeShutdown s k = false → Gives s (.normalShutdown f) fun t => (t.func k).shst = 2) ∧
      (¬ waits → wholeShutdown s k = true → checkpointDone begun.seal = false → Gives s (.normalShutdown f) fun t => (t.func k).shst = 1) ∧
      (¬ waits → wholeShutdown s k = true → checkpointDone begun.seal = true → Gives s (.normalShutdown f) fun t => (t.func k).shst = 2 ∧ t.mram.ring = [] ∧
        t.mram.shutdown = trip sdClean)) ∧
    (¬ port → exec (.hotReset pf ok) s = .next s ∧ exec (.vfEnableSet pf n) s = .next s ∧ exec (.vfEnableClear pf n late) s = .next s) ∧
    (port → Gives s (.hotReset pf ok) fun t =>
      (¬ halt → (∀ x ∈ s.host.cmds, x.2.func ∉ portFuncs s pf) → ∀ h ∈ portFuncs s pf, (t.func h).en = false ∧ (t.func h).rdy = false) ∧
      (if pf then t.fld F.HIU_PORT_STATUS.P1_WIDTH = 0 ∧ t.fld F.HIU_EVT.P1_LINK_DOWN = 1 ∧ t.host.numVfs1 = 0
       else t.fld F.HIU_PORT_STATUS.P0_WIDTH = 0 ∧ t.fld F.HIU_EVT.P0_LINK_DOWN = 1 ∧ t.host.numVfs0 = 0)) ∧
    (s.isPf k = false → g.present = false → exec (.functionLevelReset f late) s = .next s) ∧
    (s.isPf k = false → g.present = true → g.resetting = true → exec (.functionLevelReset f late) s = .next (s.setFunc k { g with leaving := g.leaving })) ∧
    (g.present = true → g.resetting = false →
      (empty ∨ ∃ x, alone x) → (s.isPf k = true → s.host.cmds = []) → Gives s (.functionLevelReset f late) fun t => (t.func k).flr = true ∧ (t.func k).stop = true ∧
        (∀ x, alone x → t.cmd c.toNat = none) ∧ (s.isPf k = false → (s.tenState k ≠ 0 → s.underRebuild 5 k = false → t.tenState k = 3) ∧
          ∀ h, h ≠ k → (t.func h).flr = (s.func h).flr) ∧
        (s.isPf k = true → ∀ h ∈ vfsAbove s (k == 2048) 0, (t.func h).leaving = true ∧ ((s.func h).resetting = false → (t.func h).flr = true))) ∧
    (g.flr = false ∨ s.ctxCount k ≠ 0 → exec (.flrComplete f) s = .next s) ∧
    (g.flr = true → s.ctxCount k = 0 → Gives s (.flrComplete f) fun t => (t.func k).flr = false ∧ (t.func k).en = false ∧
      t.fld F.TEN_EVT.FLR_DONE = 1 ∧ (s.isPf k = false → (t.func k).present = !g.leaving)) ∧
    (port →
      (let m := min n.toNat (if s.x4x4 then 2047 else 4095)
       Gives s (.vfEnableSet pf n) fun t => (if pf then t.host.numVfs1 else t.host.numVfs0) = m ∧ ∀ i, 1 ≤ i → i ≤ m → (t.func (base + i)).present = true) ∧
      (s.host.cmds = [] → Gives s (.vfEnableClear pf n late) fun t => (if pf then t.host.numVfs1 else t.host.numVfs0) = n.toNat ∧
        ∀ h ∈ vfsAbove s pf n.toNat, (t.func h).leaving = true ∧ ((s.func h).resetting = false → (t.func h).flr = true)))

/-- R370, R379, R380, R384 to R388, R391, R403. Status codes that the rules name in words are NVMe's numbers (PRESUMED, log). -/
def Obligations.RolesLifecycleAndSelfTests : Prop :=
  ∀ (s : State) (f : BitVec 12) (cid : BitVec 16) (cred : BitVec 256) (owner : Digest) (ok run : Bool) (alg : BitVec 4) (proto : BitVec 8) (spsp : BitVec 16),
    let k := f.toNat
    let lc := s.lifecycle
    let full := ledgerFull s
    let svn := s.fld F.SEC_SVN.RUNNING
    let plain := [Instr.authenticate f cid cred, .provision f cid owner cred, .readCertificates f cid, .securityReceive f cid proto spsp]
    let co := [Instr.enterMission f cid, .enterRma f cid ok, .decommission f cid, .zeroizeAll f cid, .setLedgerPolicy f cid run, .commitSvn f cid, .runSelfTests f cid ok alg]
    let ends (c : Instr) (sct sc : Nat) (P : State → Prop) : Prop := Gives s c fun t => Posted t k cid sct sc ∧ P t
    let seq (c : Instr) : Prop := ends c 0 0x0C fun t => t.sec.fuses = s.sec.fuses ∧ t.sec.slots = s.sec.slots
    let gone (t : State) : Prop := t.sec.slots = [] ∧ t.sec.keks = [] ∧ t.sec.blocks.meks = [] ∧ t.sec.session = none
    let fits : Prop := imageCode s (s.slotImage (!s.boot.slot)) (s.fld F.BOOT_ROM_REV.ROM_REV) = 0 ∧ svn ≤ (s.slotImage (!s.boot.slot)).svn
    let rec1 (t : State) : Prop := t.sec.ledger.head = s.sec.ledger.head + 1
    (Live s k → s.isPf k = false → ∀ c ∈ .changeCoCredential f cid cred :: plain ++ co, ends c 0 0x01 fun t => t.sec = s.sec) ∧
    (Live s k → s.isPf k = true → s.secHalted = true → ∀ c ∈ .changeCoCredential f cid cred :: plain ++ co, ends c 7 0x90 fun t => t.sec = s.sec) ∧
    (Live s k → s.isPf k = true → s.secHalted = false →
      (s.sec.session ≠ some k → ∀ c ∈ co, ends c 2 0x86 fun t => t.sec = s.sec) ∧
      (s.sec.failures < 5 → s.sec.blocks.co = some (coVerifier cred) → ends (.authenticate f cid cred) 0 0 fun t => t.sec.session = some k ∧ t.sec.failures = 0) ∧
      (s.sec.failures < 5 → s.sec.blocks.co ≠ some (coVerifier cred) → ends (.authenticate f cid cred) 2 0x86 fun t => t.sec.failures = s.sec.failures + 1 ∧
        t.sec.session = s.sec.session ∧ t.fld F.SEC_EVT.AUTH_FAIL = 1 ∧ (s.sec.failures = 4 → t.fld F.SEC_STATUS.CO_LOCKOUT = 1)) ∧
      (5 ≤ s.sec.failures → ends (.authenticate f cid cred) 2 0x86 fun t => t.sec.session = s.sec.session) ∧
      (lc = lcBlank → s.fld F.SEC_STATUS.STATE = 1 → owner = (s.slotImage s.boot.slot).keyHash → ends (.provision f cid owner cred) 0 0 fun t =>
        t.lifecycle = lcProvisioned ∧ t.sec.blocks.co = some (coVerifier cred) ∧ t.sec.fuses.owner = owner ∧ rec1 t) ∧
      (lc ≠ lcBlank ∨ s.fld F.SEC_STATUS.STATE ≠ 1 → seq (.provision f cid owner cred)) ∧
      (lc = lcBlank → s.fld F.SEC_STATUS.STATE = 1 → owner ≠ (s.slotImage s.boot.slot).keyHash → ends (.provision f cid owner cred) 0 0x02 fun t => t.sec = s.sec) ∧
      (ends (.readCertificates f cid) 0 0 fun t => Out.bytes k cid (certBytes s) ∈ t.out) ∧
      (proto = 0xF0 → spsp = 0x0100 → ends (.securityReceive f cid proto spsp) 0 0 fun t => Out.bytes k cid (certBytes s) ∈ t.out) ∧
      (proto.toNat ≤ 2 → ends (.securityReceive f cid proto spsp) 0 0 fun t => Out.bytes k cid (Config.bytes 0x82 [proto.toNat, spsp.toNat]) ∈ t.out) ∧
      (2 < proto.toNat → ¬ (proto = 0xF0 ∧ spsp = 0x0100) → ends (.securityReceive f cid proto spsp) 0 0x02 fun t => t.sec = s.sec) ∧
      (s.sec.session = some k ∨ (s.sec.blocks.co = none ∧ lc ≠ lcBlank) → ends (.changeCoCredential f cid cred) 0 0 fun t => t.sec.blocks.co = some (coVerifier cred)) ∧
      (s.sec.session ≠ some k → s.sec.blocks.co ≠ none ∨ lc = lcBlank → ends (.changeCoCredential f cid cred) 2 0x86 fun t => t.sec = s.sec) ∧
      (s.sec.session = some k →
        (full = false →
          (lc = lcProvisioned → ends (.enterMission f cid) 0 0 fun t => t.lifecycle = lcMission ∧ t.sec.keks = [] ∧ rec1 t) ∧
          (lc = lcProvisioned ∨ lc = lcMission → ends (.enterRma f cid true) 0 0 fun t => t.lifecycle = lcRma ∧ gone t ∧ rec1 t) ∧
          (lc ∈ [lcProvisioned, lcMission, lcRma] → ends (.decommission f cid) 0 0 fun t => t.lifecycle = lcDecommissioned ∧ gone t ∧ rec1 t ∧
            t.sec.fuses.uds = 0 ∧ t.sec.fuses.udsKilled = true ∧ t.sec.keysReady = false) ∧
          (s.sec.fuses.epoch < 32 → ends (.zeroizeAll f cid) 0 0 fun t => gone t ∧ t.sec.fuses.epoch = s.sec.fuses.epoch + 1 ∧ rec1 t) ∧
          (fits → ends (.commitSvn f cid) 0 0 fun t => t.sec.fuses.svn = max s.sec.fuses.svn svn ∧ rec1 t)) ∧
        (full = true → ∀ c ∈ [Instr.enterMission f cid, .enterRma f cid true, .decommission f cid, .zeroizeAll f cid, .commitSvn f cid], seq c) ∧
        (32 ≤ s.sec.fuses.epoch → seq (.zeroizeAll f cid)) ∧ (¬ fits → seq (.commitSvn f cid)) ∧ (lc ∉ [lcProvisioned, lcMission] → seq (.enterRma f cid ok)) ∧
        (lc ≠ lcProvisioned → seq (.enterMission f cid)) ∧ (lc ∉ [lcProvisioned, lcMission, lcRma] → seq (.decommission f cid)) ∧
        (lc ∈ [lcProvisioned, lcMission] → ends (.enterRma f cid false) 2 0x86 fun t => t.lifecycle = lc ∧ t.sec.slots = s.sec.slots) ∧
        (ends (.setLedgerPolicy f cid run) 0 0 fun t => t.sec.ledger = { s.sec.ledger with policy := run }) ∧
        (ends (.runSelfTests f cid true alg) 0 0 fun t => t.secHalted = false) ∧
        (ends (.runSelfTests f cid false alg) 7 0x90 fun t => t.secHalted = true ∧ t.fld F.SEC_ERR.CAUSE = 1))) ∧
    (exec .coSessionTimeout s = .next { s with sec := { s.sec with session := none } }) ∧
    (s.secHalted = false → (Gives s (.periodicCast true alg) fun t => t.regs = s.regs ∧ t.sec = { s.sec with lastCast := s.ttu.elapsed }) ∧
      (Gives s (.periodicCast false alg) fun t => t.secHalted = true ∧ t.fld F.SEC_ERR.CAUSE = 1 ∧ t.fld F.SEC_ERR.ALG = alg.toNat) ∧
      (Gives s .entropyHealthFailure fun t => t.secHalted = true ∧ t.fld F.SEC_ERR.CAUSE = 3)) ∧
    (s.secHalted = true → exec (.periodicCast ok alg) s = .next s ∧ exec .entropyHealthFailure s = .next s)

/-- R374, R376 to R378, R382, R383, R386. TCG and KPIO status bytes are opaque (the model's form of formats outside the spec). -/
def Obligations.KeyPerIoAndOpal : Prop :=
  ∀ (s : State) (f fn : BitVec 12) (cid tag slot : BitVec 16) (pub : BitVec 776) (key : XtsKey) (ok late admin : Bool) (auth : BitVec 8) (pin psid : BitVec 256)
    (np : Option (BitVec 256)) (r : BitVec 6) (ns : BitVec 15) (start len : BitVec 40) (rl wl lr : Bool),
    let k := f.toNat
    let n := slot.toNat
    let kk := kekKey fn.toNat tag.toNat
    let ends (c : Instr) (sct sc : Nat) (P : State → Prop) : Prop := Gives s c fun t => Posted t k cid sct sc ∧ P t
    let tcg (c : Instr) (st : Nat) (P : State → Prop) : Prop := ends c 0 0 fun t => Out.bytes k cid (Config.bytes 0x5443 [st]) ∈ t.out ∧ P t
    let kpio (st : Nat) (P : State → Prop) : Prop := ends (.keyInjection f cid fn tag key ok) 0 0 fun t => Out.bytes k cid (Config.bytes 0x4B50 [st]) ∈ t.out ∧ P t
    let same (t : State) : Prop := t.sec = s.sec
    let reverted (t : State) : Prop := t.sec.blocks.ranges = [] ∧ t.sec.blocks.lockingActive = false
    let set := Instr.lockingRangeSet f cid r ns start len rl wl lr
    let rows := [Instr.establishTagKek f cid fn tag pub ok, .keyInjection f cid fn tag key ok, .clearKey f cid fn tag, .opalAuthenticate f cid auth pin np, set, .genkey f cid r ns, .revertsp f cid admin, .psidRevert f cid psid]
    (Live s k → s.isPf k = false → ∀ c ∈ rows, ends c 0 0x01 same) ∧
    (Live s k → s.isPf k = true → s.secHalted = true → ∀ c ∈ rows, ends c 7 0x90 same) ∧
    (Live s k → s.isPf k = true → s.secHalted = false →
      (s.sec.session ≠ some k → ends (.establishTagKek f cid fn tag pub ok) 2 0x86 same) ∧
      (s.sec.session = some k → ok = false ∨ s.tagSlot fn.toNat tag.toNat = none → ends (.establishTagKek f cid fn tag pub ok) 0 0x02 fun t =>
        t.sec = { s.sec with lastMsg := s.ttu.elapsed }) ∧
      (s.sec.session = some k → (s.tagSlot fn.toNat tag.toNat).isSome = true → ends (.establishTagKek f cid fn tag pub true) 0 0 fun t => (sget kk t.sec.keks).isSome = true ∧
        (∀ j, j ≠ kk → sget j t.sec.keks = sget j s.sec.keks) ∧ t.sec.slots = s.sec.slots) ∧
      (s.tagSlot fn.toNat tag.toNat = none → ends (.keyInjection f cid fn tag key ok) 0 0x02 same ∧ ends (.clearKey f cid fn tag) 0 0x02 same) ∧
      (∀ j, s.tagSlot fn.toNat tag.toNat = some j →
        ((s.slotKey j).isSome = true → kpio 1 same) ∧
        (s.slotKey j = none → ok = false ∨ sget kk s.sec.keks = none ∨ key.toNat / 2 ^ 256 = key.toNat % 2 ^ 256 → kpio 2 same) ∧
        (s.slotKey j = none → ok = true → (sget kk s.sec.keks).isSome = true → key.toNat / 2 ^ 256 ≠ key.toNat % 2 ^ 256 → kpio 0 fun t =>
          t.slotKey j = some key ∧ ∀ i, i ≠ j → t.slotKey i = s.slotKey i) ∧
        (Gives s (.clearKey f cid fn tag) fun t => t.sec.clearing = s.sec.clearing ++ [(j, some (k, cid))] ∧ t.out = s.out ∧ t.sec.slots = s.sec.slots)) ∧
      (opalVerifier auth.toNat pin ≠ opalStored s auth.toNat → tcg (.opalAuthenticate f cid auth pin np) 1 same) ∧
      (opalVerifier auth.toNat pin = opalStored s auth.toNat → tcg (.opalAuthenticate f cid auth pin np) 0 fun t => auth.toNat ∈ t.sec.opalAuth ∧
        (∀ p, np = some p → opalStored t auth.toNat = opalVerifier auth.toNat p) ∧ (16 ≤ auth.toNat → ∀ x ∈ t.sec.blocks.ranges, x.2.loaded = true)) ∧
      (spOpen s true = false → tcg set 1 same ∧ tcg (.genkey f cid r ns) 1 same) ∧
      (spOpen s true = true → r = 0 → tcg set 0 fun t => t.sec.blocks.lockingActive = true ∧ ∃ x, sget 0 t.sec.blocks.ranges = some x ∧
        x.readLock = rl ∧ x.writeLock = wl ∧ x.lockOnReset = lr) ∧
      (let fits : Prop := s.nsState ns.toNat ≠ 0 ∧ s.pfOwned ns.toNat = true ∧
          start.toNat + len.toNat ≤ (if s.nsLbaf ns.toNat = 2 then s.nsSize ns.toNat / 8 else s.nsSize ns.toNat) ∧
          ∀ x ∈ s.opalRanges ns.toNat, x.1 ≠ r.toNat → spansMeet start.toNat len.toNat x.2.start x.2.len = false
       let old := sget r.toNat s.sec.blocks.ranges
       let now (j : Nat) : OpalRange := ⟨ns.toNat, start.toNat, len.toNat, rl, wl, lr, j, true⟩;
       spOpen s true = true → r ≠ 0 →
        (¬ fits ∨ (old = none ∧ s.freeMekSlot = none) → tcg set 0x0C fun t => sget r.toNat t.sec.blocks.ranges = old) ∧
        (fits → (∀ x, old = some x → tcg set 0 fun t => sget r.toNat t.sec.blocks.ranges = some (now x.slot)) ∧
          ∀ j, old = none → s.freeMekSlot = some j → tcg set 0 fun t => sget r.toNat t.sec.blocks.ranges = some (now j) ∧
            sget j t.sec.blocks.meks = some (Config.random s.freeCtr))) ∧
      (let j := if r = 0 then s.nsKeySlot ns.toNat else (sget r.toNat s.sec.blocks.ranges).map (·.slot)
       spOpen s true = true → (j = none → tcg (.genkey f cid r ns) 0x0C same) ∧ ∀ i, j = some i →
        (i ∈ s.mekSlots → tcg (.genkey f cid r ns) 0 fun t => sget i t.sec.blocks.meks = some (Config.random s.freeCtr)) ∧
        (i ∉ s.mekSlots → tcg (.genkey f cid r ns) 0 same)) ∧
      (spOpen s (!admin) = false → tcg (.revertsp f cid admin) 1 same) ∧
      (spOpen s (!admin) = true → tcg (.revertsp f cid admin) 0 fun t => reverted t ∧ (admin = true → t.sec.opalAuth = [] ∧ t.sec.blocks.opal = [])) ∧
      (psid = Config.psid → tcg (.psidRevert f cid psid) 0 fun t => reverted t ∧ t.sec.opalAuth = [] ∧ t.sec.blocks.opal = []) ∧
      (psid ≠ Config.psid → tcg (.psidRevert f cid psid) 1 same)) ∧
    ((∃ x ∈ s.sec.clearing, x.1 = n) → late = true ∨ sgetD 0 n s.sec.counts = 0 → Gives s (.slotZeroize slot late) fun t => t.slotKey n = none ∧
      t.sec.clearing = s.sec.clearing.filter (fun x => x.1 != n) ∧ ∀ g c, s.sec.clearing.filter (fun x => x.1 == n) = [(n, some (g, c))] → Live s g → Posted t g c 0 0) ∧
    ((∀ x ∈ s.sec.clearing, x.1 ≠ n) ∨ (late = false ∧ sgetD 0 n s.sec.counts ≠ 0) → exec (.slotZeroize slot late) s = .next s)

/-- R385, R388, R392, R393, R412, R413, R475. Message bytes are those of DSP0274, opaque here; the order and error codes are presumed from it (log). -/
def Obligations.SpdmResponder : Prop :=
  ∀ (s : State) (b : BitVec 2) (version slot index : BitVec 8) (offered sign smbus : Bool) (off len : BitVec 16) (nonce : BitVec 256) (payload : List Byte),
    let k := b.toNat
    let u := s.mctpWake k
    let x := u.spdmState k
    let all := x.version && x.caps && x.algs
    let tells (c : Instr) (code : Nat) (content : List Nat) (y : Spdm) : Prop := Gives s c fun t => t.out = .mctp (Config.bytes 0x5350 (code :: content)) :: u.out ∧ t.spdmState k = y
    let err (c : Instr) (e : Nat) : Prop := tells c 0x7F [e] x
    let sent (c : Instr) (content : List Nat) : Prop := tells c 0x60 (if sign then content ++ aliasSign u content else content) x
    let rnd := [(Config.random u.freeCtr).toNat, nonce.toNat]
    let nego := [Instr.getVersion b, .getCapabilities b version, .negotiateAlgorithms b offered]
    let later := [Instr.getDigests b, .getCertificate b slot off len, .challenge b slot nonce, .getMeasurements b index sign nonce]
    let reach : Prop := bindingOk s k = true ∧ (s.pwr.s3 = true → k = 2);
    (¬ reach → ∀ c ∈ nego ++ later, exec c s = .next s) ∧
    (reach →
      (spdmUnsigned u = true → ∀ c ∈ nego ++ later, err c 5) ∧
      (spdmUnsigned u = false →
        (tells (.getVersion b) 0x04 [0x13] { version := true }) ∧
        (x.version = true → version = 0x13 → tells (.getCapabilities b version) 0x61 [] { version := true, caps := true }) ∧
        (x.version = true → version ≠ 0x13 → err (.getCapabilities b version) 0x41) ∧ (x.version = false → err (.getCapabilities b version) 4) ∧
        (x.version = true → x.caps = true → tells (.negotiateAlgorithms b true) 0x63 [] { version := true, caps := true, algs := true }) ∧
        (x.version = true → x.caps = true → err (.negotiateAlgorithms b false) 1) ∧
        (x.version = false ∨ x.caps = false → err (.negotiateAlgorithms b offered) 4) ∧
        (all = false → ∀ c ∈ later, err c 4) ∧
        (all = true →
          (tells (.getDigests b) 0x01 [(Config.digest ((spdmChain u).map (·.toNat))).toNat] x) ∧
          (slot = 0 → off.toNat < (spdmChain u).length → tells (.getCertificate b slot off len) 0x02 ((((spdmChain u).map (·.toNat)).drop off.toNat).take len.toNat) x) ∧
          (slot ≠ 0 ∨ (spdmChain u).length ≤ off.toNat → err (.getCertificate b slot off len) 1) ∧
          (slot ≠ 0 → err (.challenge b slot nonce) 1) ∧
          (let l := (Config.digest ((spdmChain u).map (·.toNat))).toNat :: rnd ++ measurements u 0xFF
           slot = 0 → tells (.challenge b slot nonce) 0x03 (l ++ aliasSign u l) x) ∧
          (index = 0 → sent (.getMeasurements b index sign nonce) (6 :: rnd)) ∧
          (index ≠ 0 → index.toNat ≤ 6 ∨ index = 0xFF → sent (.getMeasurements b index sign nonce) (measurements u index.toNat ++ rnd)) ∧
          (6 < index.toNat → index ≠ 0xFF → err (.getMeasurements b index sign nonce) 1)))) ∧
    (64 < payload.length ∨ (s.pwr.s3 = true ∧ smbus = false) → exec (.mctpEcho smbus payload) s = .next s) ∧
    (payload.length ≤ 64 → s.pwr.s3 = false ∨ smbus = true → exec (.mctpEcho smbus payload) s =
      .next ((s.mctpWake (if smbus then 2 else 0)).emit (.mctp payload)))

/-- R38 to R45: Bell sources and the reference state. -/
def Obligations.BellSourcesAndReference : Prop :=
  ∀ (s : State) (root : Word64) (v : Word),
    let st := s.fld F.TT_STATUS.STATE
    let act := s.fld F.TT_STATUS.ACTIVE_SRC
    let err := bellError s
    let at0 := s.fld F.TT_HOLDOVER_LIMIT.LIMIT_S = 0
    let mine : Prop := 1 ∈ sources s ∧ s.flag F.TT_SRC.BELL_EDGE = s.boot.bell
    let sampled (x : Instr) (e : Int) (get : State → BellSrc) : Prop :=
      let b := get s
      (b.valid = true → Gives s x fun t => get t = { b with misses := 0, last := some e } ∧ t.ttu.time = s.ttu.time) ∧
      (let ok : Prop := b.lost = false ∨ ∃ l, b.last = some l ∧ (l - e).natAbs ≤ 10000;
       b.valid = false →
        (ok → Gives s x fun t => get t = { valid := true, lost := false, misses := 0, last := some e } ∧ t.ttu.time = s.ttu.time ∧
          (st = 0 ∨ st = 3 ∨ st = 4 → t.fld F.TT_STATUS.STATE = 1)) ∧
        (¬ ok → Gives s x fun t => get t = { b with last := some e } ∧ t.ttu.time = s.ttu.time))
    let held (t : State) : Prop := t.fld F.TT_STATUS.STATE = (if s.fld F.TT_HOLDOVER_LIMIT.LIMIT_S = 0 then 4 else 3) ∧ t.fld F.TT_STATUS.ACTIVE_SRC = 0 ∧
      t.fld F.TT_EVT.HOLDOVER = 1 ∧ (at0 → t.fld F.TT_EVT.FREERUN = 1) ∧ (¬ at0 → t.ttu.holdover = true)
    let loses (x : Instr) : Prop := Gives s x fun t =>
      let other := ((sources s).find? fun c => c != 1 && (s.src c).valid).getD 0
      t.ttu.src1.valid = false ∧ t.ttu.src1.misses = 0 ∧ t.zyn = s.zyn ∧
      (act ≠ 1 ∨ (st ≠ 1 ∧ st ≠ 2) → t.fld F.TT_STATUS.STATE = st ∧ t.fld F.TT_STATUS.ACTIVE_SRC = act) ∧
      (act = 1 → st = 1 ∨ st = 2 → t.fld F.TT_EVT.SRC_LOST = 1 ∧ (other ≠ 0 → t.fld F.TT_STATUS.ACTIVE_SRC = other ∧ t.fld F.TT_STATUS.STATE = st) ∧
        (other = 0 → st = 2 ∨ s.ttu.referenced = true → held t) ∧
        (other = 0 → st = 1 → s.ttu.referenced = false → t.fld F.TT_STATUS.STATE = 0 ∧ t.fld F.TT_STATUS.ACTIVE_SRC = 0))
    (¬ mine → exec .bellEdge s = .next s.bellTurns) ∧
    (mine → st = 2 → 10000 < err.natAbs →
      (s.ttu.src1.misses < 2 → exec .bellEdge s = .next { s.bellTurns with ttu := { s.ttu with src1 := { s.ttu.src1 with misses := s.ttu.src1.misses + 1 } } }) ∧
      (2 ≤ s.ttu.src1.misses → loses .bellEdge)) ∧
    (mine → st ≠ 2 ∨ err.natAbs ≤ 10000 → sampled .bellEdge err (·.ttu.src1) ∧
      (st = 1 → act = 1 → s.ttu.src1.valid = true → s.ttu.setSec = none →
        let good := err.natAbs ≤ s.fld F.TT_LOCK_THRESH.THRESH_NS
        (¬ good → Gives s .bellEdge fun t => t.fld F.TT_STATUS.STATE = 1 ∧ t.ttu.lockRun = 0) ∧
        (good → s.ttu.lockRun < 3 → Gives s .bellEdge fun t => t.fld F.TT_STATUS.STATE = 1 ∧ t.ttu.lockRun = s.ttu.lockRun + 1) ∧
        (good → 3 ≤ s.ttu.lockRun → Gives s .bellEdge fun t => t.fld F.TT_STATUS.STATE = 2 ∧ t.ttu.referenced = true ∧
          (err.natAbs ≤ 1000000 → t.ttu.slew = err * 1000) ∧ t.fld F.TT_EVT.RELOCKED = 1 ∧ t.zyn = s.zyn)) ∧
      (∀ n, s.ttu.setSec = some n → Gives s .bellEdge fun t => t.ttu.setSec = none ∧
        (let e : Int := (n.toNat * 1000000000 : Nat) - (s.now : Int)
         s.ttu.src2.valid = false → s.ttu.src3.valid = false → (e.natAbs ≤ 1000000 → t.ttu.slew = e * 1000) ∧ (1000000 < e.natAbs → t.ttu.step = some e)))) ∧
    (1 ∉ sources s → exec .bellEdgeTimeout s = .next s) ∧ (1 ∈ sources s → loses .bellEdgeTimeout) ∧
    (Gives s (.ptmDialog root) fun t => t.fld F.HIU_PORT_STATUS.PTM_VALID = 1 ∧ (2 ∉ sources s → t.ttu = s.ttu)) ∧
    (2 ∈ sources s → sampled (.ptmDialog root) ((root.toNat : Int) - s.now) (·.ttu.src2)) ∧
    (2 ∉ sources s → exec .ptmIntervalMiss s = .next s) ∧
    (2 ∈ sources s → (s.ttu.src2.misses < 2 → Gives s .ptmIntervalMiss fun t => t.ttu.src2 = { s.ttu.src2 with misses := s.ttu.src2.misses + 1 }) ∧
      (2 ≤ s.ttu.src2.misses → Gives s .ptmIntervalMiss fun t => t.ttu.src2.valid = false ∧ t.fld F.HIU_PORT_STATUS.PTM_VALID = 0 ∧
        (act = 2 → st = 2 → (∀ c ∈ sources s, c ≠ 2 → (s.src c).valid = false) → held t))) ∧
    (st ≠ 3 ∨ bestSource s ≠ 0 → exec .holdoverTimeout s = .next s) ∧
    (st = 3 → bestSource s = 0 → Gives s .holdoverTimeout fun t => t.fld F.TT_STATUS.STATE = 4 ∧
      t.ttu.holdover = false ∧ t.fld F.TT_EVT.FREERUN = 1 ∧ t.ttu.time = s.ttu.time) ∧
    (s.locked R.TT_SRC = true → exec (.ttSrcWrite v) s = .next s) ∧
    (s.locked R.TT_SRC = false → Gives s (.ttSrcWrite v) fun t =>
      let u := s.storeReg R.TT_SRC v
      t.reg R.TT_SRC = u.reg R.TT_SRC ∧ t.zyn = s.zyn ∧ (∀ c ∈ [1, 2, 3], t.src c = if c ∈ sources u then s.src c else {}) ∧
      (sources u = [] → t.fld F.TT_STATUS.STATE = 4 ∧ t.fld F.TT_STATUS.UNALIGNED = 0 ∧ t.fld F.TT_STATUS.ACTIVE_SRC = 0 ∧ t.ttu.holdover = false) ∧
      (sources u ≠ [] → st = 4 → t.fld F.TT_STATUS.STATE = (if s.ttu.referenced then 4 else 0) ∧ t.fld F.TT_STATUS.UNALIGNED = 1) ∧
      (sources u ≠ [] → st ≠ 4 → act = 0 ∨ (act ∈ sources u ∧ (s.src act).valid = true) → t.fld F.TT_STATUS.STATE = st ∧ t.fld F.TT_STATUS.ACTIVE_SRC = act) ∧
      (sources u ≠ [] → st = 2 → act ≠ 0 → (∀ c ∈ sources u, (s.src c).valid = false) → held t))

/-- R39, R49, R56, R57, R64, R66, R68. -/
def Obligations.TimetableControls : Prop :=
  ∀ (s : State) (f : BitVec 12) (cid : BitVec 16) (v : Word64) (w sec : Word),
    let k := f.toNat
    let p := BitVec.ofNat 64 (s.pair R.TT_NAMED_PNUM_LO)
    let late (n : Word64) : Prop := n.toNat * periodNs s ≤ s.now + periodNs s
    let act := s.fld F.TT_STATUS.ACTIVE_SRC
    let q := s.ttu.gcQueue
    let r : GcReq := { kind := .timetable, since := s.ttu.time }
    let bit (n : Nat) : Nat := if w.getLsbD n then 1 else 0
    let counted (n : Word) : Ttu := if act = 2 ∨ act = 3 then s.ttu else { s.ttu with setSec := some n }
    let armed (n : Word64) (t : State) : Prop := t.ttu = { s.ttu with named := some n, namedLate := false } ∧ t.fld F.TT_NAMED_CTRL.ARMED = 1
    let refused (t : State) : Prop := t.ttu = s.ttu ∧ t.fld F.TT_NAMED_CTRL.LATE = 1
    (s.locked R.TT_CTRL = true → exec (.ttCtrlEnWrite w) s = .next s) ∧
    (s.locked R.TT_CTRL = false → s.flag F.TT_CTRL.EN = false → w.getLsbD 0 = true →
      (stagedValid s = true → Gives s (.ttCtrlEnWrite w) fun t => t.fld F.TT_CTRL.EN = 0 ∧ t.fld F.TT_CTRL.LOCK = bit 31 ∧
        t.ttu = { s.ttu with enPending := true } ∧ t.fld F.TT_GC_STATUS.INVALID = 0 ∧ t.host = s.host ∧ t.zyn = s.zyn) ∧
      (stagedValid s = false → Gives s (.ttCtrlEnWrite w) fun t => t.fld F.TT_CTRL.EN = 0 ∧ t.fld F.TT_CTRL.LOCK = bit 31 ∧
        t.ttu = s.ttu ∧ t.fld F.TT_GC_STATUS.INVALID = 1 ∧ t.host = s.host ∧ t.zyn = s.zyn)) ∧
    (s.locked R.TT_CTRL = false → (s.flag F.TT_CTRL.EN = true ∨ w.getLsbD 0 = false) → Gives s (.ttCtrlEnWrite w) fun t =>
      t.fld F.TT_CTRL.EN = bit 0 ∧ t.fld F.TT_CTRL.LOCK = bit 31 ∧ t.ttu = { s.ttu with enPending := s.ttu.enPending && w.getLsbD 0 }) ∧
    (exec (.ttSetSecWrite sec) s = .next { s with ttu := counted sec }) ∧
    (((∀ x ∈ q, x.kind ≠ .timetable) → q.length < 8 → exec .ttGcCtrlReq s = .next { s with ttu := { s.ttu with gcQueue := q ++ [r] } }) ∧
     ((∀ x ∈ q, x.kind ≠ .timetable) → 8 ≤ q.length → Gives s .ttGcCtrlReq fun t => t.ttu = s.ttu ∧ t.fld F.TT_GC_STATUS.QFULL = 1) ∧
     ((∃ x ∈ q, x.kind = .timetable) → Gives s .ttGcCtrlReq fun t => t.ttu.gcQueue.length = q.length ∧ r ∈ t.ttu.gcQueue ∧
        ∀ x ∈ q, x.kind ≠ .timetable → x ∈ t.ttu.gcQueue)) ∧
    (¬ late p → Gives s .ttNamedCtrlArm fun t => armed p t ∧ t.host = s.host ∧ t.zyn = s.zyn) ∧ (late p → Gives s .ttNamedCtrlArm refused) ∧
    (Live s k → s.isPf k = true →
      (¬ late v → Gives s (.timetableCommand f cid false v) fun t => Posted t k cid 0 0 ∧ armed v t) ∧
      (late v → Gives s (.timetableCommand f cid false v) fun t => refused t ∧ ∃ sct sc, Posted t k cid sct sc) ∧
      (Gives s (.timetableCommand f cid true v) fun t => Posted t k cid 0 0 ∧ t.ttu = counted (v.setWidth 32) ∧ t.regs = s.regs)) ∧
    (Live s k → s.isPf k = false → ∀ b, Gives s (.timetableCommand f cid b v) fun t => Posted t k cid 0 0x01 ∧ t.ttu = s.ttu ∧ t.regs = s.regs)

/-- R43, R46, R49, R60 to R63, R127. -/
def Obligations.PeriodsAndRollCalls : Prop :=
  ∀ s : State,
    let n := s.now / periodNs s + 1
    let at_ := n * periodNs s
    (Gives s .periodBoundary fun t =>
      t.ttu.elapsed = s.ttu.elapsed + (at_ - s.now) ∧ t.ttu.pnum = BitVec.ofNat 64 (t.now / periodNs t) ∧ t.ttu.step = none ∧ t.ttu.enPending = false ∧
      (at_ < 2 ^ 64 → s.ttu.step = none → t.now = at_ ∧ s.now < t.now ∧ (s.ttu.enPending = false → t.ttu.pnum.toNat = n)) ∧
      (∀ d, at_ < 2 ^ 64 → s.ttu.step = some d → t.ttu.time = BitVec.ofInt 64 ((at_ : Int) + d) ∧ t.fld F.TT_EVT.STEPPED = 1) ∧
      (∀ i : CtxId, i.valid = true → (s.ctx i).st = .blocked .period → (t.ctx i).st = .ready) ∧
      (s.ttu.enPending = true → stagedValid s = true → t.fld F.TT_CTRL.EN = 1 ∧
        t.reg R.TT_GEOM_ACT = s.reg R.TT_GEOM_STAGE ∧ t.reg R.TT_OFFSET_ACT = s.reg R.TT_OFFSET_STAGE ∧
        ∀ k < 256, t.reg (R.TT_TABLE_ACT + 4 * k) = s.reg (R.TT_TABLE_STAGE + 4 * k)) ∧
      (s.ttu.enPending = true → stagedValid s = false → t.fld F.TT_GC_STATUS.INVALID = 1 ∧ t.fld F.TT_CTRL.EN = s.fld F.TT_CTRL.EN ∧
        t.reg R.TT_GEOM_ACT = s.reg R.TT_GEOM_ACT)) ∧
    (s.ttu.rc = none → exec .rollCallRelease s = .next s ∧ exec .rollCallTimeout s = .next s) ∧
    (∀ r, s.ttu.rc = some r →
      let cut := r.cut.getD s.lastSeq
      let own := s.fld F.TH_CTRL.RING_ID
      let value : Word64 := match r.kind with
        | .barrier => rcMask s r
        | .broadcast => if r.ring && r.origin != own then sgetD 0 r.origin r.ringGot else rcValue s r
        | .snapshot => BitVec.ofNat 64 cut
      let closed (t : State) : Prop := (s.ttu.rcQueue = [] → s.ttu.rcBlocked = [] → t.ttu.rc = none) ∧
        ∀ q l, s.ttu.rcQueue = q :: l → ∃ o, t.ttu.rc = some o ∧ o.ident = q.ident
      let told (t : State) (v : Word64) (ok : Bool) : Prop := ∀ (i : CtxId) d p, i.valid = true → (s.ctx i).st = .blocked (.rollCall d p) → i.key ∈ r.waiters →
        (t.ctx i).st = .ready ∧ (t.ctx i).reg d = v ∧ (t.ctx i).pred p = ok ∧ (t.ctx i).events.getLsbD 25 = true
      (rcComplete s r = false → exec .rollCallRelease s = .next s.rcArrive) ∧
      (rcComplete s r = true → exec .rollCallTimeout s = .next s) ∧
      (rcComplete s r = true → Gives s .rollCallRelease fun t => told t value true ∧ closed t ∧
        (r.kind = .snapshot → s.jnl.sealed < cut → (cut, r.waiters) ∈ t.ttu.cutWait) ∧
        (r.kind = .snapshot → cut ≤ s.jnl.sealed → ∀ (i : CtxId) d p, i.valid = true → (s.ctx i).st = .blocked (.rollCall d p) → i.key ∈ r.waiters →
          (t.ctx i).events.getLsbD 26 = true) ∧
        (r.kind = .snapshot → r.ring = true → t.ttu.cutVec = sput own (BitVec.ofNat 64 cut) r.ringGot)) ∧
      (rcComplete s r = false → s.reach (r.since + rcTimeout s r) = none → exec .rollCallTimeout s = .next s) ∧
      (∀ u, rcComplete s r = false → s.reach (r.since + rcTimeout s r) = some u → Gives s .rollCallTimeout fun t => told t 0 false ∧ closed t ∧
        t.fld F.TT_EVT.RC_TIMEOUT = 1))

/-- R64 to R66: global commit. -/
def Obligations.GlobalCommits : Prop :=
  ∀ s : State,
    let en := s.flag F.TT_CTRL.EN
    (s.ttu.gcQueue = [] ∨ s.ttu.gc.isSome = true ∨ s.ttu.rc.isSome = true ∨ en = false ∨ s.flushing = true → exec .commitRequestService s = .next s) ∧
    (∀ r l, s.ttu.gcQueue = r :: l → s.ttu.gc = none → s.ttu.rc = none → en = true → s.flushing = false →
      let bad : Prop := r.kind = .timetable ∧ stagedValid s = false
      let staged := match r.kind with
        | .timetable => stagedNow s
        | .envelope => [(R.MED_ENV_STAGE, s.reg R.MED_ENV_STAGE), (R.MED_ENV_WEIGHT, s.reg R.MED_ENV_WEIGHT)]
        | _ => [];
      (bad → Gives s .commitRequestService fun t => t.ttu.gcQueue = l ∧ t.ttu.gc = none ∧
        t.fld F.TT_GC_STATUS.RESULT = 2 ∧ t.fld F.TT_GC_STATUS.INVALID = 1 ∧ t.fld F.TT_EVT.COMMIT_ROLLBACK = 1 ∧ t.pair R.TT_GC_FAIL_LO = 0 ∧
        t.reg R.TT_GEOM_ACT = s.reg R.TT_GEOM_ACT) ∧
      (¬ bad → commitB s r.since = none → exec .commitRequestService s = .next s) ∧
      (∀ b, ¬ bad → commitB s r.since = some b → Gives s .commitRequestService fun t => t.ttu.gcQueue = l ∧
        t.ttu.gc = some { kind := r.kind, arg := r.arg, b := b, members := s.poweredMask, staged := staged } ∧
        t.fld F.TT_GC_STATUS.RESULT = 3 ∧ t.fld F.TT_GC_STATUS.KIND = r.kind.code ∧ t.zyn.ctxs = s.zyn.ctxs ∧
        (∀ e < 4, s.powered (partDom (56 + e)) = true → t.queue (56 + e) = { kind := 8, arg0 := BitVec.ofNat 64 r.kind.code } :: s.queue (56 + e)) ∧
        t.boot = if r.kind = .activation then (s.writeSelector s.host.fwSlot).boot else s.boot)) ∧
    (s.ttu.gc = none → exec .commitDeadline s = .next s ∧ exec .commitApply s = .next s) ∧
    (∀ g, s.ttu.gc = some g →
      let u := s.advance (g.b.toNat - 2000 - s.now)
      (g.armed = true ∨ en = false → exec .commitDeadline s = .next s) ∧
      (g.armed = false → en = true → commitFails u g = 0 → exec .commitDeadline s = .next { u with ttu := { u.ttu with gc := some { g with armed := true } } }) ∧
      (g.armed = false → en = true → commitFails u g ≠ 0 → Gives s .commitDeadline fun t => t.ttu.gc = none ∧ t.fld F.TT_GC_STATUS.RESULT = 2 ∧
        t.fld F.TT_EVT.COMMIT_ROLLBACK = 1 ∧ t.pair R.TT_GC_FAIL_LO = (commitFails u g).toNat ∧ t.reg R.TT_GEOM_ACT = s.reg R.TT_GEOM_ACT ∧ t.ttu.time = u.ttu.time ∧
        (g.kind = .activation → t.zyn.next = none ∧ t.zyn.held = false ∧ t.zyn.bundle = s.zyn.bundle ∧ t.host.fwCommit = none)) ∧
      (s.now + 2000 ≤ g.b.toNat → u.now + 2000 = g.b.toNat) ∧
      (g.armed = false ∨ en = false ∨ s.now < g.b.toNat → exec .commitApply s = .next s) ∧
      (g.armed = true → en = true → g.b.toNat ≤ s.now →
        let v := { s with ttu := { s.ttu with gc := none } }.setFld F.TT_GC_STATUS.RESULT 1
        (∀ w, g.kind = .timetable → g.staged = stagedNow w → Gives s .commitApply fun t => t.ttu.gc = none ∧
          t.fld F.TT_GC_STATUS.RESULT = 1 ∧ t.reg R.TT_GEOM_ACT = w.reg R.TT_GEOM_STAGE ∧ t.reg R.TT_OFFSET_ACT = w.reg R.TT_OFFSET_STAGE ∧
          (∀ k < 256, t.reg (R.TT_TABLE_ACT + 4 * k) = w.reg (R.TT_TABLE_STAGE + 4 * k)) ∧ t.ttu.pnum = BitVec.ofNat 64 (s.now / periodNs t)) ∧
        (g.kind = .perfLevel → exec .commitApply s = .next (v.plApply g.arg).plEval) ∧
        (g.kind = .envelope → Gives s .commitApply fun t => t.fld F.TT_GC_STATUS.RESULT = 1 ∧ t.media.weights = (g.staged.lookup R.MED_ENV_WEIGHT).getD 0 ∧
          t.fld F.MED_ENV_ACT.BUDGET = ((g.staged.lookup R.MED_ENV_STAGE).getD 0).toNat % 65536) ∧
        (g.kind = .activation → s.zyn.next = none → exec .commitApply s = .next v) ∧
        (∀ b, g.kind = .activation → s.zyn.next = some b → Gives s .commitApply fun t => t.fld F.TT_GC_STATUS.RESULT = 1 ∧ t.zyn.bundle = b ∧
          t.zyn.scratch = [] ∧ t.zyn.next = none ∧ t.zyn.held = false ∧ t.boot.slot = s.host.fwSlot ∧ t.host.fwCommit = none ∧
          ((t.queue 56).head?.map (·.kind)) = some 9 ∧ ∀ f cid, s.host.fwCommit = some (f, cid) → Live s f → Posted t f cid 0 0)))

/-- R475 to R480. That STOP leaves an unstated RESULT is the model's reading (a free value). -/
def Obligations.LoopbacksLanesAndMargin : Prop :=
  ∀ (s : State) (pf via ok : Bool) (v errs : Word) (chan : BitVec 5) (iface : BitVec 3) (inst : BitVec 6) (n : BitVec 28) (k : BitVec 4),
    let a := s.storeReg R.TST_LB_CTRL v
    let i := a.fld F.TST_LB_CTRL.IFACE
    let j := a.fld F.TST_LB_CTRL.INST
    let allowed := loopAllowed a pf via i j (a.fld F.TST_LB_CTRL.DEPTH) (a.fld F.TST_LB_CTRL.LUN)
    let m := s.storeReg R.TST_MARGIN_CTRL v
    let lane := m.fld F.TST_MARGIN_CTRL.LANE
    let cnt := s.fld (F.TST_PRBS_ERR.COUNT.ix k.toNat)
    ((s.loop i j).isSome = true → exec (.loopbackStart pf via ok v) s = .next (a.setFld F.TST_LB_STATUS.RESULT 4)) ∧
    (s.loop i j = none → allowed = false → exec (.loopbackStart pf via ok v) s = .next (a.setFld F.TST_LB_STATUS.RESULT 5)) ∧
    (s.loop i j = none → allowed = true → Gives s (.loopbackStart pf via ok v) fun t => (t.loop i j).isSome = true ∧
      (i ≠ 0 → t.fld F.TST_LB_STATUS.RUNNING = 1 ∧ t.fld F.TST_LB_STATUS.RESULT = 0 ∧ t.fld F.TST_LB_STATUS.ERRORS = 0 ∧
        ∀ i' j', (i', j') ≠ (i, j) → t.loop i' j' = s.loop i' j')) ∧
    (s.loop i j = none → exec (.loopbackStop v) s = .next a) ∧
    ((s.loop i j).isSome = true → Gives s (.loopbackStop v) fun t => t.loop i j = none ∧ t.fld F.TST_LB_STATUS.RESULT = Config.freeNat s.freeCtr % 8) ∧
    (∀ l, s.loop 2 chan.toNat = some l →
      (l.depth = 1 → l.inBurst = true → Gives s (.padBurstEnd chan) fun t => ∃ y, t.loop 2 chan.toNat = some y ∧ y.bursts = l.bursts - 1 ∧
        (y.inBurst = true → y.bursts ≠ 0)) ∧
      (l.depth = 1 → l.inBurst = false → Gives s (.padBurstEnd chan) fun t => ∃ y, t.loop 2 chan.toNat = some y ∧ y.bursts = l.bursts ∧
        (y.inBurst = true → y.bursts ≠ 0)) ∧
      (l.depth ≠ 1 → exec (.padBurstEnd chan) s = .next s)) ∧
    (s.loop 2 chan.toNat = none → exec (.padBurstEnd chan) s = .next s) ∧
    (∀ l, s.loop iface.toNat inst.toNat = some l →
      (l.iface ≠ 2 ∨ l.depth ≠ 1 ∨ (l.inBurst = false ∧ l.bursts = 0) → Gives s (.loopbackComplete iface inst n) fun t =>
        t.loop iface.toNat inst.toNat = none ∧ t.fld F.TST_LB_STATUS.ERRORS = n.toNat ∧ t.fld F.TST_LB_STATUS.RESULT = (if n = 0 then 1 else 2)) ∧
      (l.iface = 2 → l.depth = 1 → l.inBurst = true ∨ l.bursts ≠ 0 → exec (.loopbackComplete iface inst n) s = .next s)) ∧
    (k.toNat < 12 →
      (s.flag (F.TST_PRBS.CHK_EN.ix k.toNat) = true → laneLooped s k.toNat = true → Gives s (.prbsLock k errs) fun t =>
        t.fld (F.TST_PRBS.LOCKED.ix k.toNat) = 1 ∧ t.fld (F.TST_PRBS_ERR.COUNT.ix k.toNat) = min (cnt + errs.toNat) 0xFFFFFFFF) ∧
      (s.flag (F.TST_PRBS.CHK_EN.ix k.toNat) = false ∨ laneLooped s k.toNat = false → exec (.prbsLock k errs) s = .next s) ∧
      (s.fld (F.TST_PRBS.LOCKED.ix k.toNat) = 1 → Gives s (.prbsLockLoss k errs) fun t => t.fld (F.TST_PRBS.LOCKED.ix k.toNat) = 0 ∧
        t.fld (F.TST_PRBS_ERR.COUNT.ix k.toNat) = min (cnt + errs.toNat) 0xFFFFFFFF) ∧
      (s.fld (F.TST_PRBS.LOCKED.ix k.toNat) = 0 → exec (.prbsLockLoss k errs) s = .next s)) ∧
    (12 ≤ k.toNat → exec (.prbsLock k errs) s = .fault .noSuchUnit ∧ exec (.prbsLockLoss k errs) s = .fault .noSuchUnit) ∧
    (lane < 12 → Gives s (.marginPointStart v) fun t => t.tst.margin = some lane ∧ t.fld F.TST_MARGIN_CTRL.DONE = 0 ∧ t.fld F.TST_MARGIN_CTRL.LANE = lane) ∧
    (12 ≤ lane → exec (.marginPointStart v) s = .next m) ∧
    (s.tst.margin.isSome = true → Gives s (.marginDone errs) fun t => t.tst.margin = none ∧ t.reg R.TST_MARGIN_RES = errs ∧ t.fld F.TST_MARGIN_CTRL.DONE = 1) ∧
    (s.tst.margin = none → exec (.marginDone errs) s = .next s)

/-- R215, R216, R475, R481 to R483. -/
def Obligations.TapInstrumentsAndBanks : Prop :=
  ∀ (s : State) (b : BootIn) (low wr ok : Bool) (pins cells : Nat) (off : BitVec 20) (v : Word) (g : BitVec 8) (bank : BitVec 4) (fail : Option Nat),
    let o := 0x1500000 + off.toNat / 4 * 4
    let net := { s with tst := { s.tst with tap := TapIr.access1687 } }
    let res : BistRes := match fail with | some a => { pass := false, addr := a } | none => { pass := true }
    let scan : List (Instr × TapIr × Option Nat) := [(.extest, .extest, some s.tst.cells), (.extestPulse, .extestPulse, some s.tst.cells),
      (.extestTrain, .extestTrain, some s.tst.cells), (.clamp, .clamp, some s.tst.cells), (.highz, .highz, none)]
    let bit (t : State) : Bool := (t.fld F.SC_STATUS.OFFLINE).testBit bank.toNat
    (exec (.trst low) s = .next { s with tst := { s.tst with trst := low, tap := if low then .idcode else s.tst.tap } }) ∧
    (s.tst.trst = true → ∀ c ∈ [Instr.bypass, .idcode, .samplePreload pins cells, .extest, .extestPulse, .extestTrain, .clamp, .highz, .ieee1687Access wr off v],
      exec c s = .next s) ∧
    (s.tst.trst = false →
      (exec .bypass s = .next { s with tst := { s.tst with tap := .bypass, bypassBit := false } }) ∧
      (exec .idcode s = .next { s with tst := { s.tst with tap := .idcode }, out := .tdo 0x29680E3D :: s.out }) ∧
      (exec (.samplePreload pins cells) s = .next { s with tst := { s.tst with tap := .sample, cells := cells }, out := .tdo pins :: s.out }) ∧
      (∀ x ∈ scan,
        (s.boot.perst = false ∨ s.fld F.TST_CTRL.SCAN_EN = 1 → exec x.1 s = .next { s with tst := { s.tst with tap := x.2.1, extest := true, driven := x.2.2 } }) ∧
        (s.boot.perst = true → s.fld F.TST_CTRL.SCAN_EN = 0 → Gives s x.1 fun t => t.tst.tap = .bypass ∧ t.tst.extest = s.tst.extest ∧
          t.fld F.TST_STATUS.SCAN_REFUSED = 1)) ∧
      ((findReg o).isSome = true →
        (exec (.ieee1687Access true off v) s = .next (net.regWrite o v false true)) ∧
        (Gives s (.ieee1687Access false off v) fun t => t.tst.tap = .access1687 ∧ t.out = .tdo (net.view o).toNat :: s.out)) ∧
      (findReg o = none → exec (.ieee1687Access wr off v) s = .next net)) ∧
    (s.tst.extest = true → s.boot.perst = false → Gives s (.extestExit b) fun t => t.tst.extest = false ∧ t.tst.driven = none ∧ t.host.cmds = [] ∧
      t.media.nand = s.media.nand ∧ t.boot.cause = 2 ∧ t.tst.cells = s.tst.cells) ∧
    (s.tst.extest = true → s.boot.perst = true → b.xspiOk = false → Gives s (.extestExit b) fun t => t.fld F.BOOT_STATUS.STATE = 2 ∧ t.fld F.BOOT_STATUS.CODE = 0x20) ∧
    (s.tst.extest = false → exec (.extestExit b) s = .next s) ∧
    ((∀ f ∈ s.funcList, (s.func f).en = false) → Gives s (.sramBist g none fail) fun t => sget g.toNat t.tst.sramBist = some res ∧
      (fail.isSome = true → g.toNat ∈ t.tst.bistFail) ∧ t.regs = s.regs) ∧
    ((∃ f ∈ s.funcList, (s.func f).en = true) → exec (.sramBist g none fail) s = .next s) ∧
    (Gives s (.sramBist g (some bank) fail) fun t => sget g.toNat t.tst.sramBist = some res ∧ bit t = true ∧ t.fld F.SC_STATUS.PREFILTER = 1) ∧
    (wr = false ∨ s.flushing = false → exec (.mramBist wr fail) s = .next { s with tst := { s.tst with mramBist := some res } }) ∧
    (s.flushing = true → exec (.mramBist true fail) s = .next s) ∧
    (Gives s (.scBackgroundCheck bank ok) fun t => bit t = true ∧ t.fld F.SC_EVT.BANK_FAULT = 1 ∧
      (ok = true → bank.toNat ∈ t.sc.faults ∧ t.mram = s.mram) ∧ (ok = false → t.fld F.SC_EVT.SHADOW_FAIL = 1 ∧ bank.toNat ∈ t.mram.scBad)) ∧
    (s.sc.layout.isSome = true → bank.toNat ∉ s.mram.scBad → bit s = true → Gives s (.scBankRebuildComplete bank) fun t => bit t = false ∧
      (bank.toNat ∈ s.sc.faults → t.fld F.SC_EVT.REBUILT = 1 ∧ bank.toNat ∉ t.sc.faults)) ∧
    (bit s = false ∨ bank.toNat ∈ s.mram.scBad ∨ s.sc.layout = none → exec (.scBankRebuildComplete bank) s = .next s)

/-- R388, R484, R485. -/
def Obligations.DeviceSelfTest : Prop :=
  ∀ (s : State) (f : BitVec 12) (cid : BitVec 16) (nsid : Word) (lba : Option Nat),
    let k := f.toNat
    (∀ ext : Bool,
      let row (x : Option (Bool × Option Nat)) : Instr := if ext then .deviceSelfTestExtended f cid nsid x else .deviceSelfTestShort f cid nsid x
      let code := if ext then 2 else 1
      (Live s k → s.isPf k = true →
        (s.tst.selfTest = none → nsid = 0 ∨ nsid = 0xFFFFFFFF ∨ s.nsState nsid.toNat ≠ 0 → Gives s (row none) fun t => Posted t k cid 0 0 ∧
          t.tst.selfTest = some { func := k, ext := ext, nsid := nsid.toNat } ∧ t.tst.stLog = s.tst.stLog) ∧
        (s.tst.selfTest = none → nsid ≠ 0 → nsid ≠ 0xFFFFFFFF → s.nsState nsid.toNat = 0 → Gives s (row none) fun t => Posted t k cid 0 0x0B ∧ t.tst = s.tst) ∧
        (s.tst.selfTest.isSome = true → Gives s (row none) fun t => Posted t k cid 1 0x1D ∧ t.tst = s.tst)) ∧
      (∀ x, s.tst.selfTest = some x → x.ext = ext →
        (x.seg ≠ (if ext then 9 else 6) → exec (row (some (true, lba))) s = .next { s with tst := { s.tst with selfTest := some { x with seg := x.seg + 1 } } }) ∧
        (x.seg = (if ext then 9 else 6) → Gives s (row (some (true, lba))) fun t => t.tst.selfTest = none ∧
          t.tst.stLog = ({ code := code, result := 0 } :: s.tst.stLog).take 20) ∧
        (Gives s (row (some (false, lba))) fun t => t.tst.selfTest = none ∧
          t.tst.stLog = ({ code := code, result := 7, seg := x.seg, lba := lba } :: s.tst.stLog).take 20 ∧ (x.seg = 3 → t.fld F.SEC_STATUS.STATE = 2))) ∧
      (∀ x, s.tst.selfTest = some x → x.ext ≠ ext → ∀ r, exec (row (some r)) s = .next s)) ∧
    (Live s k → s.isPf k = true → Gives s (.deviceSelfTestAbort f cid) fun t => Posted t k cid 0 0 ∧ t.tst.selfTest = none ∧
      ∀ x, s.tst.selfTest = some x → t.tst.stLog = ({ code := if x.ext then 2 else 1, result := 1 } :: s.tst.stLog).take 20)

/-- R112, R108: results, costs and frame of the ALU instructions. -/
def Obligations.ZynAluResults : Prop :=
  ∀ (s : State) (i : CtxId) (d a b : BitVec 5) (n : BitVec 6) (p : BitVec 3), Issues s i 1 →
    let c := s.ctx i
    let x := c.reg a
    let y := c.reg b
    let k := y.extractLsb' 0 6
    let r (cost : Nat) (v : Word64) : Ctx := (c.past 1 cost).setReg d v
    SetsCtx s i (.add i d a b) (r 1 (x + y)) ∧
    SetsCtx s i (.sub i d a b) (r 1 (x - y)) ∧
    SetsCtx s i (.and i d a b) (r 1 (x &&& y)) ∧
    SetsCtx s i (.or i d a b) (r 1 (x ||| y)) ∧
    SetsCtx s i (.xor i d a b) (r 1 (x ^^^ y)) ∧
    SetsCtx s i (.andn i d a b) (r 1 (x &&& ~~~y)) ∧
    SetsCtx s i (.shl i d a b) (r 1 (x <<< k)) ∧
    SetsCtx s i (.shr i d a b) (r 1 (x >>> k)) ∧
    SetsCtx s i (.sar i d a b) (r 1 (x.sshiftRight' k)) ∧
    SetsCtx s i (.shli i d a n) (r 1 (x <<< n)) ∧
    SetsCtx s i (.shri i d a n) (r 1 (x >>> n)) ∧
    SetsCtx s i (.sari i d a n) (r 1 (x.sshiftRight' n)) ∧
    SetsCtx s i (.mullo i d a b) (r 3 ((x.setWidth 128 * y.setWidth 128).extractLsb' 0 64)) ∧
    SetsCtx s i (.mulhu i d a b) (r 3 ((x.setWidth 128 * y.setWidth 128).extractLsb' 64 64)) ∧
    SetsCtx s i (.minu i d a b) (r 1 (if x ≤ y then x else y)) ∧
    SetsCtx s i (.maxu i d a b) (r 1 (if x ≤ y then y else x)) ∧
    (∃ z : Nat, SetsCtx s i (.clz i d a) (r 1 (BitVec.ofNat 64 z)) ∧ z ≤ 64 ∧
      (∀ j < z, x.getLsbD (63 - j) = false) ∧ (z < 64 → x.getLsbD (63 - z) = true)) ∧
    SetsCtx s i (.popc i d a) (r 1 (BitVec.ofNat 64 (Finset.univ.filter fun j : Fin 64 => x.getLsbD j = true).card)) ∧
    SetsCtx s i (.mov i d a) (r 1 x) ∧
    SetsCtx s i (.sel i d a b p) (r 1 (if c.pred p then x else y))

/-- R113, R114: the predicate results and their frame. -/
def Obligations.ZynCompareAndPredicates : Prop :=
  ∀ (s : State) (i : CtxId) (a b : BitVec 5) (p q r : BitVec 3) (cond : Cond) (comb : Combine) (c2 : BitVec 2) (imm : BitVec 16),
    Issues s i 1 →
    let c := s.ctx i
    let holds (k : Cond) (x y : Word64) : Bool := match k with
      | .eq => decide (x = y) | .ne => decide (x ≠ y) | .ltu => x.ult y | .geu => !x.ult y
      | .lt => x.slt y | .ge => !x.slt y | .tst => decide (x &&& y ≠ 0#64)
    let immCond : Cond := if c2 = 0 then .eq else if c2 = 1 then .ne else if c2 = 2 then .ltu else .geu
    let res := holds cond (c.reg a) (c.reg b)
    let sets (x : Instr) (v : Bool) : Prop := ∃ t, exec x s = .next t ∧ OnlyCtx s t i ∧ (t.ctx i).pred p = v ∧
      (∀ j, j ≠ p → (t.ctx i).pred j = c.pred j) ∧ t.ctx i = { c.past 1 1 with p := (t.ctx i).p }
    sets (.cmp i p a b cond comb) (match comb with | .set => res | .and => c.pred p && res | .or => c.pred p || res) ∧
    sets (.cmpi i p c2 a imm) (holds immCond (c.reg a) (0#48 ++ imm)) ∧
    sets (.pand i p q r) (c.pred q && c.pred r) ∧
    sets (.por i p q r) (c.pred q || c.pred r) ∧
    sets (.pxor i p q r) (Bool.xor (c.pred q) (c.pred r)) ∧
    sets (.pnot i p q) (!c.pred q) ∧
    sets (.pset i p) true ∧
    sets (.pclr i p) false

/-- R115, R116, R74. -/
def Obligations.ZynImmediatesAndSpecials : Prop :=
  ∀ (s : State) (i : CtxId) (d a : BitVec 5) (imm : BitVec 16) (n : BitVec 12), Issues s i 1 →
    let c := s.ctx i
    let x := c.reg a
    let w (v : Word64) : Ctx := (c.past 1 1).setReg d v
    let special (n : BitVec 12) (v : Word64) : Prop := SetsCtx s i (.svr i d n) ((c.past 1 2).setReg d v)
    let nat (k : Nat) : Word64 := BitVec.ofNat 64 k
    let im : Bool := i.cls == .cmd || i.cls == .map
    let listed : List Nat := [0x000, 0x001, 0x002, 0x003, 0x004, 0x005, 0x020, 0x021, 0x022, 0x030, 0x031, 0x050] ++
      (if im then [0x010, 0x011, 0x012, 0x013, 0x014, 0x015, 0x016] else []) ++ (if i.cls = .cmd ∨ i.cls = .pol then [0x017] else []) ++
      (if i.cls = .seq then [] else [0x018]) ++ (if i.cls = .pol then [0x023] else []) ++ (if i.cls = .map ∨ i.cls = .seq then [0x040] else [])
    SetsCtx s i (.addi i d a imm) (w (x + imm.signExtend 64)) ∧
    SetsCtx s i (.andi i d a imm) (w (0#48 ++ (x.extractLsb' 0 16 &&& imm))) ∧
    SetsCtx s i (.ori i d a imm) (w (x.extractLsb' 16 48 ++ (x.extractLsb' 0 16 ||| imm))) ∧
    SetsCtx s i (.xori i d a imm) (w (x.extractLsb' 16 48 ++ (x.extractLsb' 0 16 ^^^ imm))) ∧
    SetsCtx s i (.movi i d imm) (w (imm.signExtend 64)) ∧
    SetsCtx s i (.movsh i d imm) (w ((c.reg d).extractLsb' 0 48 ++ imm)) ∧
    special 0x000 (nat (i.cls.num * 512 + i.eng * 8 + i.ctx)) ∧
    special 0x001 (0#59 ++ c.kind) ∧
    special 0x002 c.arg0 ∧ special 0x003 c.arg1 ∧ special 0x004 c.arg2 ∧ special 0x005 c.arg3 ∧
    special 0x020 (0#56 ++ c.trapCause) ∧ special 0x021 c.trapAddr ∧ special 0x022 (nat c.trapPc) ∧
    special 0x030 c.pwrMode ∧ special 0x031 (nat (s.fld F.PMU_STATUS.PL_CUR)) ∧ special 0x050 c.rcMask ∧
    (i.cls = .pol → special 0x023 (0#53 ++ c.trapCtx)) ∧
    (i.cls = .map ∨ i.cls = .seq → special 0x040 (nat c.specs.length)) ∧
    (c.cmd = none → (im = true → special 0x010 0xFFFFFFFF#64 ∧ ∀ k ∈ [0x011#12, 0x012, 0x013, 0x014, 0x015, 0x016], special k 0) ∧
      (i.cls = .cmd ∨ i.cls = .pol → special 0x017 0) ∧ (i.cls ≠ .seq → special 0x018 0)) ∧
    (∀ k m, c.cmd = some k → s.cmd k = some m →
      (im = true → special 0x010 (nat k) ∧ special 0x011 (nat m.func) ∧ special 0x012 (nat m.sqe.nsid.toNat) ∧ special 0x013 (nat m.sqe.slba) ∧
        special 0x014 (0#48 ++ m.sqe.cdw12.extractLsb' 0 16) ∧
        special 0x015 (nat (m.sqe.opcode + (if m.admin then 1 else 0) * 2 ^ 8 + m.sqe.fuse.toNat * 2 ^ 9)) ∧ special 0x016 m.scr) ∧
      (i.cls = .cmd ∨ i.cls = .pol → special 0x017 m.status ∧
        Gives s (.svw i 0x017 a) fun t => (t.cmd k).map (·.status) = some x ∧ t.ctx i = c.past 1 2 ∧ ∀ j, j ≠ k → t.cmd j = s.cmd j) ∧
      (i.cls ≠ .seq → special 0x018 (if m.committed then 1 else 0))) ∧
    (x.toNat ≤ 2 → SetsCtx s i (.svw i 0x030 a) { c.past 1 2 with pwrMode := x }) ∧
    (PlainTrap s i → (n.toNat ∉ listed → Traps s i (.svr i d n) 0x04 c.pc 0) ∧ (n ≠ 0x030 → Traps s i (.svw i n a) 0x04 c.pc 0) ∧
      (2 < x.toNat → Traps s i (.svw i 0x030 a) 0x04 c.pc 0))

/-- R117: loads, stores, their frames, and the SCRATCH trap. -/
def Obligations.ZynScratchAccess : Prop :=
  ∀ (s : State) (i : CtxId) (d a : BitVec 5) (imm : BitVec 16), Issues s i 1 →
    let c := s.ctx i
    let addr := c.reg a + imm.signExtend 64
    let m (k : Nat) : Byte := s.scratch i.part (addr.toNat + k)
    let fits (n : Nat) : Prop := addr.toNat < 0x10000 ∧ addr.toNat % n = 0
    let clean : Prop := s.scratchPoison i.part addr.toNat = false
    let ld (x : Instr) (n : Nat) (v : Word64) : Prop := fits n → clean → SetsCtx s i x ((c.past 1 2).setReg d v)
    let st (x : Instr) (n : Nat) : Prop := fits n → clean → s.flag F.ECC_INJECT.ARMED = false →
      ∃ t, exec x s = .next t ∧ t.ctx i = c.past 1 1 ∧
        t = { s with zyn := { s.zyn with ctxs := t.zyn.ctxs, scratch := t.zyn.scratch } } ∧
        (∀ j : CtxId, j.valid = true → j ≠ i → t.ctx j = s.ctx j) ∧
        (∀ k < n, t.scratch i.part (addr.toNat + k) = (c.reg d).extractLsb' (8 * k) 8) ∧
        (∀ q y, y < 0x10000 → (q ≠ i.part ∨ y < addr.toNat ∨ addr.toNat + n ≤ y) → t.scratch q y = s.scratch q y)
    let bad (x : Instr) (n : Nat) : Prop := ¬ fits n → PlainTrap s i → Traps s i x 0x07 c.pc addr
    ld (.ld8 i d a imm) 1 (0#56 ++ m 0) ∧
    ld (.ld16 i d a imm) 2 (0#48 ++ (m 1 ++ m 0)) ∧
    ld (.ld32 i d a imm) 4 (0#32 ++ (m 3 ++ m 2 ++ m 1 ++ m 0)) ∧
    ld (.ld64 i d a imm) 8 (m 7 ++ m 6 ++ m 5 ++ m 4 ++ m 3 ++ m 2 ++ m 1 ++ m 0) ∧
    st (.st8 i d a imm) 1 ∧ st (.st16 i d a imm) 2 ∧ st (.st32 i d a imm) 4 ∧ st (.st64 i d a imm) 8 ∧
    bad (.ld8 i d a imm) 1 ∧ bad (.ld16 i d a imm) 2 ∧ bad (.ld32 i d a imm) 4 ∧ bad (.ld64 i d a imm) 8 ∧
    bad (.st8 i d a imm) 1 ∧ bad (.st16 i d a imm) 2 ∧ bad (.st32 i d a imm) 4 ∧ bad (.st64 i d a imm) 8

/-- R139, R140: control flow. That a MAP activation asks for its command's STEP is the model's reading (log entry 10). -/
def Obligations.ZynControlFlow : Prop :=
  ∀ (s : State) (i : CtxId) (off : BitVec 23) (p : BitVec 3) (r e : BitVec 5) (lo : BitVec 16), Issues s i 1 →
    let c := s.ctx i
    let go (d : Int) : Nat := if (c.pc : Int) + d < 0 then 2 ^ 18 else ((c.pc : Int) + d).toNat
    let at_ (pc cost : Nat) : Ctx := { c with pc := pc, used := c.used + cost, last := c.pc }
    let n := min (c.reg r).toNat (2 ^ e.toNat)
    let traps (x : Instr) (cause : Nat) : Prop := PlainTrap s i → Traps s i x cause c.pc 0
    let alone (t : State) : Prop := (t.ctx i).st = .idle ∧ ∀ j : CtxId, j.valid = true → j ≠ i → t.ctx j = s.ctx j
    let idles (P : State → Prop) : Prop := c.stack = [] → c.inVec = false → c.tags = 0 → c.specs = [] → c.zlocks = [] → c.susp = [] →
      Gives s (.ret i) fun t => alone t ∧ P t
    let closing : Prop := c.kind = 0x1F ∨ (i.cls = .pol ∧ c.kind = 3) ∨ (i.cls = .map ∧ c.kind = 5) ∨ (i.cls = .seq ∧ c.kind = 1) ∨
      (i.cls = .map ∧ c.kind.toNat ≤ 2 ∧ (c.cmd.bind s.cmd).isSome = true)
    SetsCtx s i (.br i off) (at_ (go off.toInt) 2) ∧
    SetsCtx s i (.brV i off) { at_ (go off.toInt) 2 with inVec := false } ∧
    SetsCtx s i (.brp i p off) (if c.pred p then at_ (go off.toInt) 2 else at_ (c.pc + 1) 1) ∧
    SetsCtx s i (.brpFalse i p off) (if c.pred p then at_ (c.pc + 1) 1 else at_ (go off.toInt) 2) ∧
    (c.stack.length < 8 → SetsCtx s i (.call i off) { at_ (go off.toInt) 2 with stack := (c.pc + 1) :: c.stack }) ∧
    (8 ≤ c.stack.length → traps (.call i off) 0x08) ∧
    (∀ a t, c.stack = a :: t → SetsCtx s i (.ret i) { at_ a 2 with stack := t }) ∧
    (¬ closing → idles fun t => t = { s with zyn := { s.zyn with ctxs := t.zyn.ctxs, mailOwner := s.zyn.mailOwner.filter fun x => decide (x.2 ≠ i.key) } }) ∧
    (∀ x, i.cls = .map → c.kind.toNat ≤ 2 → c.cmd = some x → (s.cmd x).isSome = true → idles fun t => t.host = s.host ∧ t.media = s.media ∧
      ((s.zyn.bundle.entry .cmd 2).isSome = true → ∃ q ∈ t.queue (x % 16) ++ t.stalled (x % 16), q.kind = 2 ∧ q.cmd = some x)) ∧
    (i.cls = .seq → c.kind = 1 → let k := stKey i.eng (c.arg0.toNat % 128)
      idles fun t => t.host = s.host ∧ ∀ y, sget k s.media.slots = some y → y.fenced = false → y.data.isSome = true → sget k t.media.slots = none) ∧
    (i.cls = .pol → c.kind = 3 → c.fault = none ∨ c.disposed = true → idles fun t => t.host = s.host) ∧
    (∀ f x m, i.cls = .pol → c.kind = 3 → c.disposed = false → c.fault = some f → f.cmd = some x → s.cmd x = some m → f.fsn = some m.fsn →
      c.stack = [] → c.inVec = false → c.tags = 0 → c.specs = [] → c.zlocks = [] → c.susp = [] →
      (Ends s m → Gives s (.ret i) fun t => Posted t m.func m.sqe.cid 0 0x06) ∧
      (m.committed = true → let k : CtxId := .ofKey f.ctxId.toNat
        (s.zyn.bundle.entry k.cls f.req.kind.toNat).isSome = true → Gives s (.ret i) fun t => t.host = s.host ∧
          f.req ∈ t.queue (k.cls.part + k.eng) ++ t.stalled (k.cls.part + k.eng))) ∧
    (c.kind = 0x1F → idles fun t => t.host = s.host ∧ t.media = s.media) ∧
    (i.cls = .map → c.kind = 5 → ∃ t, exec (.ret i) s = .next t) ∧
    (c.stack = [] → c.inVec = true → traps (.ret i) 0x08) ∧
    (c.stack = [] → c.inVec = false → c.tags ≠ 0 → traps (.ret i) 0x0A) ∧
    (e.toNat ≤ 24 → lo.toInt < 0 → SetsCtx s i (.loopn i r e lo) (if n ≤ 1 then (at_ (c.pc + 1) 1).setReg r 0
        else (at_ (go lo.toInt) 2).setReg r (BitVec.ofNat 64 (n - 1)))) ∧
    (24 < e.toNat ∨ 0 ≤ lo.toInt → traps (.loopn i r e lo) 0x04)

/-- R78 to R81, R118 to R120, R514: the four table instructions and the return of their data. Whether an entry without a cache line is on chip is
a free value (the model's form of R80, log). -/
def Obligations.ZynTableInstructions : Prop :=
  ∀ (s : State) (i : CtxId) (d a b : BitVec 5) (tbl : BitVec 8) (p : BitVec 3), Issues s i 1 →
    let c := s.ctx i
    let n := (c.reg a).toNat
    let v := c.reg b
    let t := if tbl = 0 then n / 2 ^ 48 % 256 else tbl.toNat
    let x := n % 2 ^ 40
    let w := n / 2 ^ 40 % 8
    let get := Instr.tget i d a tbl
    let put := Instr.tput i a b tbl
    let cas := Instr.tcas i d a b tbl p
    let jrn := Instr.tjrn i d a b tbl
    let sound := n / 2 ^ 43 % 32 = 0 ∧ n / 2 ^ 56 = 0 ∧ tabKnown t = true
    let inside := w < tabWords t ∧ tabInBounds s t x = true
    let there := (t = 4 → s.populated (x / max 1 (geoBlocks s)) = true) ∧ (t = 8 → s.populated x = true)
    let casRight := if tabJournaled t then tabJ i.cls t else tabW i.cls t
    let beyond := s.overMax t x v = true
    let cur := s.tabGet t x w
    let kept := match t with | 1 => BitVec.ofNat 64 (v.toNat % 2 ^ 40) | _ => s.wordIn t x w v
    let traps (I : Instr) (cause : Nat) : Prop := PlainTrap s i → Traps s i I cause c.pc (c.reg a)
    let ends (I : Instr) (cost : Nat) (P : State → Prop) : Prop :=
      let Q (u : State) : Prop := (u.ctx i).st = .ready ∧ (u.ctx i).pc = c.pc + 1 ∧ (u.ctx i).used = c.used + cost ∧ P u
      Gives s I fun u => ((s.onChip t x).1 = true → Q u) ∧ ((s.onChip t x).1 = false →
        (∃ op, (u.ctx i).st = .blocked (.table op (BitVec.ofNat 8 t) x w)) ∧ Gives u (.tableDataReturn i false) Q)
    let same (u : State) : Prop := u.zyn.tab = s.zyn.tab ∧ u.jnl = s.jnl
    let wr := pJrn i.cls = true
    (¬ sound → traps get 0x04 ∧ (wr → ∀ I ∈ [put, cas, jrn], traps I 0x04)) ∧
    (sound → (tabRead i.cls t = false → traps get 0x06) ∧ (wr → tabW i.cls t = false → traps put 0x06) ∧ (wr → casRight = false → traps cas 0x06) ∧
      (wr → tabJ i.cls t = false → traps jrn 0x06)) ∧
    (sound → ¬ inside → (tabRead i.cls t = true → traps get 0x05) ∧ (wr → tabW i.cls t = true → traps put 0x05) ∧ (casRight = true → wr → traps cas 0x05) ∧
      (tabJ i.cls t = true → traps jrn 0x05)) ∧
    (sound → inside → ¬ there → wr → (tabW i.cls t = true → traps put 0x05) ∧ (casRight = true → traps cas 0x05) ∧ (tabJ i.cls t = true → traps jrn 0x05)) ∧
    (sound → inside → beyond → i.cls = .pol → traps put 0x06 ∧ traps cas 0x06) ∧
    (sound → inside → s.underRebuild t x = false →
      (tabRead i.cls t = true → ends get 4 fun u => (u.ctx i).reg d = cur ∧ same u) ∧
      (there → ¬ beyond →
        (tabW i.cls t = true → (t = 7 ∨ (t = 8 ∧ w ≠ 1)) → ends put 3 fun u => u.tabGet t x w = v ∧ u.jnl = s.jnl) ∧
        (wr → casRight = true → ((tabJournaled t = true ∨ t = 3) → s.jnlStalled i = false) →
          (c.reg d ≠ cur → ends cas 6 fun u => (u.ctx i).reg d = cur ∧ (u.ctx i).pred p = false ∧ same u) ∧
          (c.reg d = cur → (t = 7 ∨ (t = 8 ∧ w ≠ 1)) → ends cas 6 fun u => (u.ctx i).reg d = cur ∧ (u.ctx i).pred p = true ∧ u.tabGet t x w = v ∧ u.jnl = s.jnl) ∧
          (c.reg d = cur → tabJournaled t = true → ends cas 6 fun u => (u.ctx i).reg d = cur ∧ (u.ctx i).pred p = true ∧ u.tabGet t x w = kept ∧
            u.jnl.next = s.jnl.next + 1) ∧
          (c.reg d = cur → t = 3 → ends cas 6 fun u => (u.ctx i).reg d = cur ∧
            (u.ctx i).pred p = (s.allocBlock x (v.toNat / 2 ^ 60 % 8) (v.getLsbD 0) (some i.key)).1.isSome)) ∧
        (tabJ i.cls t = true → s.jnlStalled i = false → ends jrn 5 fun u => (u.ctx i).reg d = BitVec.ofNat 64 s.jnl.next ∧ u.tabGet t x w = kept ∧
          u.jnl.next = s.jnl.next + 1) ∧
        (tabJ i.cls t = true → s.snapStalled i.part = true → Gives s jrn fun u => u.ctx i = c ∧ same u)))

/-- R79, R80, R88, R98 to R101: bus-error vector and traps. That the immediate of TRAP and the PC of a failed fetch stand in TRAP.ADDR is the model's choice (log entry 10). -/
def Obligations.ZynDataReturnAndTraps : Prop :=
  ∀ (s : State) (i : CtxId) (imm : BitVec 16) (extra : BitVec 32), i.valid = true →
    let c := s.ctx i
    let plain : Prop := PlainTrap s i
    let ret := Instr.tableDataReturn i
    let traps (x : Instr) (cause pc : Nat) (a : Nat) : Prop := Traps s i x cause pc (BitVec.ofNat 64 a)
    (∀ op tbl index word, c.st = .blocked (.table op tbl index word) →
      let a : Word64 := BitVec.ofNat 64 (index + word * 2 ^ 40 + tbl.toNat * 2 ^ 48)
      (∀ d, op = .get d → SetsCtx s i (ret false) ({ c with st := .ready }.setReg d (s.tabGet tbl.toNat index word))) ∧
      (∀ v, c.bev = some v → c.inVec = false →
        SetsCtx s i (ret true) { c with st := .ready, stack := [], pc := v, inVec := true, trapCause := 3, trapPc := c.last, trapAddr := a }) ∧
      (c.bev = none ∨ c.inVec = true → plain → Traps s i (ret true) 3 c.last a)) ∧
    ((∀ op tbl index word, c.st ≠ .blocked (.table op tbl index word) ∧ c.st ≠ .blocked (.journal op tbl index word) ∧
      c.st ≠ .blocked (.rebuild op tbl index word)) → ∀ e, exec (ret e) s = .next s) ∧
    (Issues s i 1 → plain → traps (.trap i imm) 0x0B c.pc imm.toNat ∧ traps (.undefinedInstruction i false) 0x04 c.pc 0 ∧
      traps (.undefinedInstruction i true) 0x03 c.pc c.pc) ∧
    (∀ w, c.st = .blocked w →
      let due := s.reach (c.since + waitLimit s i.cls)
      (due = none ∨ (∃ op tbl index word, w = .rebuild op tbl index word) → exec (.waitLimit i) s = .next s) ∧
      (∀ u, due = some u → (∀ op tbl index word, w ≠ .rebuild op tbl index word) → PlainTrap u i →
        Gives s (.waitLimit i) fun t => Trapped u t i 0x02 c.last 0)) ∧
    ((∀ w, c.st ≠ .blocked w) → exec (.waitLimit i) s = .next s) ∧
    (c.st = .ready → (c.used + extra.toNat < c.budget → SetsCtx s i (.budgetTrap i extra) { c with used := c.used + extra.toNat }) ∧
      (c.budget ≤ c.used + extra.toNat → plain → traps (.budgetTrap i extra) 0x01 c.last 0)) ∧
    (c.st ≠ .ready → c.used < c.budget → exec (.budgetTrap i extra) s = .next s) ∧
    ((∃ w, c.st = .blocked w) ∨ c.st = .asleep → c.budget ≤ c.used → plain → traps (.budgetTrap i extra) 0x01 c.last 0)

/-- R121 to R124. The engine 0x3F names is that of the dispatch affinity of R70 and R229. -/
def Obligations.ZynQueuesAndEvents : Prop :=
  ∀ (s : State) (i : CtxId) (d a b : BitVec 5) (h : BitVec 8) (p : BitVec 3) (n : BitVec 4), Issues s i 1 →
    let c := s.ctx i
    let x := (c.reg a).toNat
    let key := i.part * 8 + h.toNat
    let box (u : State) (k : Nat) : List Word64 := sgetD [] k u.zyn.mail
    let traps (I : Instr) : Prop := PlainTrap s i → Traps s i I 0x04 c.pc 0
    let push := Instr.qpush i d a b h p
    let pushes (k : Nat) : Prop :=
      ((box s k).length < 256 → Gives s push fun t => box t k = box s k ++ [c.reg b] ∧ (t.ctx i).pred p = true ∧
          (∀ j, j ≠ k → box t j = box s j) ∧ ∀ r, (t.ctx i).reg r = c.reg r) ∧
      (256 ≤ (box s k).length → SetsCtx s i push ((c.past 1 2).setPred p false))
    let far : EngClass := .ofNum (x / 64 % 4)
    let farOk : Prop := x % 64 < far.engines ∧ (far = i.cls ∨ i.cls = .pol)
    (h.toNat < 8 → pushes key ∧
      (∀ v l, box s key = v :: l →
        (Gives s (.qpop i d h p) fun t => box t key = l ∧ (t.ctx i).reg d = v ∧ (t.ctx i).pred p = true ∧ (t.ctx i).pc = c.pc + 1) ∧
        (Gives s (.qpeek i d h p) fun t => t.zyn.mail = s.zyn.mail ∧ (t.ctx i).reg d = v ∧ (t.ctx i).pred p = true)) ∧
      (box s key = [] → ∀ I ∈ [Instr.qpop i d h p, Instr.qpeek i d h p],
        Gives s I fun t => t.zyn.mail = s.zyn.mail ∧ (t.ctx i).pred p = false ∧ ∀ r, (t.ctx i).reg r = c.reg r)) ∧
    (8 ≤ h.toNat → traps (.qpop i d h p) ∧ traps (.qpeek i d h p)) ∧
    (8 ≤ h.toNat → h.toNat < 16 → (farOk → pushes ((far.part + x % 64) * 8 + (h.toNat - 8))) ∧ (¬ farOk → traps push)) ∧
    (20 ≤ h.toNat ∨ (16 ≤ h.toNat ∧ i.cls ≠ .pol) → traps push) ∧
    (16 ≤ h.toNat → h.toNat < 20 → i.cls = .pol →
      let cls : EngClass := .ofNum (h.toNat - 16)
      let e := x / 32 % 64
      let eng := if e = 0x3F then affinity s cls (x % 32) (c.reg b).toNat else e
      let q := cls.part + eng
      (e ≠ 0x3F → cls.engines ≤ e → traps push) ∧
      (e = 0x3F ∨ e < cls.engines →
        (queueDepth q ≤ (s.queue q).length → SetsCtx s i push ((c.past 1 2).setPred p false)) ∧
        ((s.queue q).length < queueDepth q → Gives s push fun t => (t.ctx i).pred p = true ∧
          (s.zyn.bundle.entry cls (x % 32) = none → t.zyn.queues = s.zyn.queues) ∧
          ((s.zyn.bundle.entry cls (x % 32)).isSome = true → ∃ r : Request, t.queue q = s.queue q ++ [r] ∧ r.kind.toNat = x % 32 ∧ r.arg0 = c.reg b ∧
            r.arg1 = c.reg d ∧ r.arg2 = 0 ∧ r.arg3 = 0)))) ∧
    (∀ k : Fin 64, (c.events &&& c.reg a).getLsbD k = true → (∀ j < k, (c.events &&& c.reg a).getLsbD j = false) →
      Gives s (.wev i d a) fun t => OnlyCtx s t i ∧ (t.ctx i).reg d = BitVec.ofNat 64 k ∧ (t.ctx i).events.getLsbD k = false ∧
        ∀ j : Fin 64, j ≠ k → (t.ctx i).events.getLsbD j = c.events.getLsbD j) ∧
    (c.reg a ≠ 0 → c.events &&& c.reg a = 0 → SetsCtx s i (.wev i d a) { c.past 1 1 with st := .blocked (.events (c.reg a) d), since := s.ttu.elapsed }) ∧
    (c.reg a = 0 → traps (.wev i d a)) ∧
    (2 ^ 11 ≤ x ∨ (CtxId.ofKey x).valid = false ∨ (i.cls ≠ .pol ∧ (CtxId.ofKey x).cls ≠ i.cls) → traps (.sev i a n)) ∧
    (∀ j : CtxId, j.valid = true → (j.cls = i.cls ∨ i.cls = .pol) → c.reg a = BitVec.ofNat 64 j.key →
      let o := s.ctx j
      let set := o.events ||| (1#64 <<< (32 + n.toNat))
      Gives s (.sev i a n) fun t => (∀ k : CtxId, k.valid = true → k ≠ j → k ≠ i → t.ctx k = s.ctx k) ∧ (j ≠ i → t.ctx i = c.past 1 2) ∧
        (j = i → t.ctx i = { c.past 1 2 with events := set }) ∧
        (j ≠ i → o.st = .ready → t.ctx j = { o with events := set }) ∧
        (o.st = .idle → t.ctx j = o) ∧
        (∀ m r, o.st = .blocked (.events m r) → o.events &&& m = 0 →
          (m.getLsbD (32 + n.toNat) = true → t.ctx j = { o with st := .ready }.setReg r (BitVec.ofNat 64 (32 + n.toNat))) ∧
          (m.getLsbD (32 + n.toNat) = false → t.ctx j = { o with events := set })))

/-- R125 to R127, R60, R62, R65, R85. -/
def Obligations.ZynTimeWaitsAndRollCalls : Prop :=
  ∀ (s : State) (i : CtxId) (d a b : BitVec 5) (p : BitVec 3) (ring : Bool), Issues s i 1 →
    let c := s.ctx i
    let id := (c.reg b).extractLsb' 0 16
    let kinds : List (Instr × RcKind) := [(.rcallBarrier i d a b ring p, .barrier), (.rcallBroadcast i d a b ring p, .broadcast), (.rcallSnapshot i d a b ring p, .snapshot)]
    let fresh (r : RollCall) (k : RcKind) : Prop := r.kind = k ∧ r.mask = c.reg a ∧ r.ident = id ∧ r.arrived.getLsbD i.part = true ∧ r.waiters = [i.key] ∧
      r.ring = ring ∧ r.offers = [(i.part, c.reg d)]
    let waits (t : State) : Prop := t.ctx i = { c.past 1 2 with st := .blocked (.rollCall d p), since := s.ttu.elapsed }
    let traps (x : Instr) : Prop := PlainTrap s i → Traps s i x 0x04 c.pc 0
    let vote := Instr.rcallCommitVote i b p
    let none_ : Prop := SetsCtx s i vote ((c.past 1 2).setPred p false)
    SetsCtx s i (.tnow i d) ((c.past 1 2).setReg d (s.ttu.time / 1000#64)) ∧
    SetsCtx s i (.ptype i d) ((c.past 1 1).setReg d (BitVec.ofNat 64 s.ptype)) ∧
    (i.cls = .pol → SetsCtx s i (.wper i) { c.past 1 1 with events := c.events &&& ~~~(1#64 <<< 24), st := .blocked .period, since := s.ttu.elapsed }) ∧
    (i.cls ≠ .pol → traps (.wper i) ∧ traps vote ∧ (ring = true → ∀ x ∈ kinds, traps x.1)) ∧
    (c.events.extractLsb' 0 48 = 0 → SetsCtx s i (.pwait i) { c.past 1 1 with st := .asleep }) ∧
    (c.events.extractLsb' 0 48 ≠ 0 → SetsCtx s i (.pwait i) (c.past 1 1)) ∧
    (i.cls = .pol ∨ ring = false → ∀ x ∈ kinds,
      (s.ttu.rc = none → Gives s x.1 fun t => waits t ∧ t.ttu.rcQueue = s.ttu.rcQueue ∧ ∃ r, t.ttu.rc = some r ∧ fresh r x.2) ∧
      (∀ o, s.ttu.rc = some o → o.ident = id →
        (o.mask = c.reg a → o.kind = x.2 → Gives s x.1 fun t => waits t ∧ ∃ r, t.ttu.rc = some r ∧ r.mask = o.mask ∧ r.arrived = o.arrived ||| (1#64 <<< i.part) ∧
          r.waiters = o.waiters ++ [i.key]) ∧
        (o.mask ≠ c.reg a ∨ o.kind ≠ x.2 → Gives s x.1 fun t => t.ttu.rc = some o ∧ (t.ctx i).st = .ready ∧ (t.ctx i).pred p = false ∧ (t.ctx i).reg d = 0 ∧
          (t.ctx i).events = c.events)) ∧
      (∀ o, s.ttu.rc = some o → o.ident ≠ id → (∀ q ∈ s.ttu.rcQueue, q.ident ≠ id) →
        (s.ttu.rcQueue.length < 4 → Gives s x.1 fun t => waits t ∧ t.ttu.rc = some o ∧ ∃ r, t.ttu.rcQueue = s.ttu.rcQueue ++ [r] ∧ fresh r x.2) ∧
        (4 ≤ s.ttu.rcQueue.length → Gives s x.1 fun t => (t.ctx i).st = .blocked (.rcSlot d p) ∧ t.ttu.rc = some o ∧ t.ttu.rcQueue = s.ttu.rcQueue ∧
          ∃ r, t.ttu.rcBlocked = s.ttu.rcBlocked ++ [(i.key, r)] ∧ fresh r x.2)) ∧
      (∀ o q, s.ttu.rc = some o → o.ident ≠ id → s.ttu.rcQueue.find? (·.ident == id) = some q →
        (q.mask = c.reg a → q.kind = x.2 → Gives s x.1 fun t => waits t ∧ t.ttu.rc = some o ∧ t.ttu.rcQueue.map (·.ident) = s.ttu.rcQueue.map (·.ident)) ∧
        (q.mask ≠ c.reg a ∨ q.kind ≠ x.2 → Gives s x.1 fun t => (t.ctx i).st = .ready ∧ (t.ctx i).pred p = false ∧ (t.ctx i).reg d = 0 ∧
          t.ttu.rcQueue = s.ttu.rcQueue))) ∧
    (i.cls = .pol → s.ttu.gc = none → none_) ∧
    (∀ g, i.cls = .pol → s.ttu.gc = some g →
      (c.kind = 8 → s.now + 2000 ≤ g.b.toNat → g.acks.getLsbD i.part = false →
        Gives s vote fun t => ∃ g', t.ttu.gc = some g' ∧ g'.b = g.b ∧ g'.members = g.members ∧
          g'.acks.getLsbD i.part = (c.reg b).getLsbD 16 ∧ g'.nacks.getLsbD i.part = !(c.reg b).getLsbD 16 ∧
          (∀ q : Fin 64, q.val ≠ i.part → g'.acks.getLsbD q = g.acks.getLsbD q ∧ g'.nacks.getLsbD q = g.nacks.getLsbD q) ∧
          (t.ctx i).pred p = true) ∧
      (c.kind ≠ 8 ∨ g.b.toNat < s.now + 2000 ∨ g.acks.getLsbD i.part = true → none_))

/-- R129 to R132, R260, R291, R515. -/
def Obligations.ZynNandOperations : Prop :=
  ∀ (s : State) (i : CtxId) (d a b : BitVec 5) (kind set : BitVec 4) (soft : BitVec 2) (qlc last : Bool) (crec : BitVec 16), Issues s i 2 → i.cls = .seq →
    let c := s.ctx i
    let addr : BitVec 48 := (c.reg a).extractLsb' 0 48
    let nrd := Instr.nrd i d a soft set kind crec
    let npg := Instr.npg i d a b kind qlc last crec
    let ner := Instr.ner i d a kind crec
    let nsus := Instr.nsus i d a ⟨kind, crec⟩
    let nres := Instr.nres i d a ⟨kind, crec⟩
    let all := [nrd, npg, ner, nsus, nres]
    let traps (x : Instr) (cause : Nat) (v : Word64) : Prop := PlainTrap s i → Traps s i x cause c.pc v
    let k := effKind c kind
    let p := Pa.of addr
    let l := s.lun p.die
    let w0 := s.blockW0 p.die p.block
    (crecOk crec = false → ∀ x ∈ all, traps x 0x07 (BitVec.ofNat 64 crec.toNat)) ∧
    (crecOk crec = true → c.freeTag = none → ∀ x ∈ all, traps x 0x09 0) ∧
    (∀ tag, crecOk crec = true → c.freeTag = some tag →
      let took (t : State) : Prop := (t.ctx i).reg d = BitVec.ofNat 64 tag ∧ (t.ctx i).pc = c.pc + 2
      let busy (t : State) : Prop := took t ∧ (t.ctx i).tags.getLsbD tag = true
      let ended (t : State) (st : Nat) : Prop := took t ∧ (t.ctx i).tags.getLsbD tag = false ∧ (t.ctx i).events.getLsbD tag = true ∧
        (crec ≠ 0xFFFF → t.scratchN i.part crec.toNat 2 = st)
      let ends (x : Instr) (st : Nat) : Prop := Gives s x fun t => ended t st
      (2 ^ 48 ≤ (c.reg a).toNat → ∀ x ∈ all, traps x 0x04 (c.reg a)) ∧
      ((c.reg a).toNat < 2 ^ 48 → 8 ≤ kind.toNat → ∀ x ∈ all, traps x 0x04 0) ∧
      ((c.reg a).toNat < 2 ^ 48 → kind.toNat < 8 →
        (let ok : Prop := uprogBad s i.eng (readSlot s p soft.toNat) = false ∧ readAddrOk s i.eng p = true;
         let r : NandReq := { op := .read soft.toNat set.toNat false, kind := k, addr := addr, ctx := some (i.key, tag), crec := crec, cmd := c.cmd, cls := if k = 0 then 1 else 4 };
         (¬ ok → ends nrd 2) ∧
         (∀ q, ok → padBurst s p.die = false → l.unit = none → l.queue = [] → s.findSlots p.channel p.count = some q →
           (l.failed = false → l.run = .none → readAllowed s r = true → Gives s nrd fun t => busy t ∧ (t.lun p.die).run = .read { r with slot := some (stKey p.channel q) } ∧
             (t.lun p.die).queue = []) ∧
           (l.failed = true → Gives s nrd fun t => busy t ∧ t.media.decoding = s.media.decoding ++ [{ req := { r with slot := some (stKey p.channel q) } }])) ∧
         (ok → padBurst s p.die = false → l.unit = none → l.queue = [] → l.failed = false → l.run = .none → readAllowed s r = false → ends nrd 1) ∧
         (∀ o, ok → l.failed = false → l.unit = none → l.run = .read o → Gives s nrd fun t => busy t ∧ (t.lun p.die).queue = l.queue ++ [r] ∧ (t.lun p.die).run = l.run)) ∧
        ((Src.of (c.reg b) p.count).isNone = true → traps npg 0x04 0) ∧
        ((Src.of (c.reg b) p.count).isSome = true →
          let ok : Prop := uprogBad s i.eng (if qlc then 4 else 3) = false ∧ paOk s i.eng p true = true ∧ s.blockSt p.die p.block = 1 ∧
            s.blockSlc p.die p.block ≠ qlc ∧ (qlc = false → p.page < geoPpb s / 4)
          (k = 3 ∨ k = 5 → ends npg 12) ∧
          (k ≠ 3 → k ≠ 5 →
            (¬ ok → ends npg 2) ∧
            (ok → l.failed = true → Gives s npg fun t => took t ∧ (t.ctx i).events.getLsbD tag = true) ∧
            (ok → l.failed = false → unitOpen s p.die = false → Gives s npg fun t => busy t ∧ ∃ r, t.media.envQ = s.media.envQ ++ [r] ∧ r.addr = addr ∧
              r.op = .npg (!qlc) last (c.reg b) ∧ r.kind = k ∧ r.ctx = some (i.key, tag)) ∧
            (∀ u, ok → l.failed = false → unitOpen s p.die = true → padBurst s p.die = false → l.unit = some u → l.queue = [] →
              let r : NandReq := { op := .npg (!qlc) last (c.reg b), kind := k, addr := addr, ctx := some (i.key, tag), crec := crec, cmd := c.cmd, cls := if k = 0 then 3 else 5 }
              (∀ e, s.npgLoad r (!qlc) (c.reg b) = some (.error e) → ends npg e) ∧
              (∀ y z, s.npgLoad r (!qlc) (c.reg b) = some (.ok (y, z)) →
                (last = false → Gives s npg fun t => ended t 0 ∧ ∃ v, (t.lun p.die).unit = some v ∧ v.loaded = u.loaded ++ y) ∧
                (last = true → Gives s npg fun t => busy t ∧ ∃ v, (t.lun p.die).run = .program v ∧ v.loaded = u.loaded ++ y ∧ (t.lun p.die).unit = none))))) ∧
        (let ok : Prop := uprogBad s i.eng 5 = false ∧ paOk s i.eng p false = true ∧ s.blockSt p.die p.block ≠ 3;
         let free : Prop := s.blockSt p.die p.block = 2 ∧ blkValid w0 = 0;
         let named : Prop := p.die * 2 ^ 15 + p.block ∈ s.jnl.openSlots;
         let bad : Prop := s.blockW1 p.die p.block / 256 % 2 = 1;
         (¬ ok → ends ner 2) ∧
         (ok → ¬ free → ends ner 12) ∧
         (ok → free → named ∨ bad → ∃ t, exec ner s = .next t) ∧
         (ok → free → ¬ named → ¬ bad → l.failed = true → Gives s ner fun t => took t ∧ (t.ctx i).events.getLsbD tag = true) ∧
         (ok → free → ¬ named → ¬ bad → l.failed = false → Gives s ner fun t => busy t ∧ ∃ r, t.media.envQ = s.media.envQ ++ [r] ∧ r.addr = addr ∧ r.op = .erase ∧
           r.kind = k ∧ r.ctx = some (i.key, tag))) ∧
        (let e := i.eng * 32 + p.die % 32
         let y := s.lun e
         let n := s.fld (F.SEQ_CNT_SUSP.COUNT.ix i.eng)
         (s.populated e = false → ends nsus 2 ∧ ends nres 2) ∧
         (s.populated e = true →
           (y.suspendable = false → ends nsus 9) ∧
           (y.suspendable = true → suspendLimit s e y.run ≤ y.suspends → ends nsus 8) ∧
           (y.suspendable = true → y.suspends < suspendLimit s e y.run → y.unit = none → Gives s nsus fun t => ended t 0 ∧ (t.lun e).suspended = true ∧
             (t.lun e).suspends = y.suspends + 1 ∧ (t.lun e).run = y.run ∧ t.fld (F.SEQ_CNT_SUSP.COUNT.ix i.eng) = min (n + 1) 0xFFFFFFFF) ∧
           (y.suspended = true → y.suspBy.isSome = true → Gives s nres fun t => ended t 0 ∧ (t.lun e).suspended = false ∧ (t.lun e).run = y.run) ∧
           (y.suspended = false ∨ y.suspBy = none → ends nres 9)))))

/-- R129, R130, R134, R161, R164, R166, R167: the operations of an Intake, Map or Policy context. -/
def Obligations.ZynCommandOperations : Prop :=
  ∀ (s : State) (i : CtxId) (d a : BitVec 5) (wd : BitVec 2) (crec : BitVec 16), Issues s i 2 →
    let c := s.ctx i
    let z := (c.reg a).toNat
    let look := Instr.lookup i d a wd crec
    let zl := Instr.zoneLock i d a crec
    let post := Instr.cqpost i d a crec
    let traps (x : Instr) (cause : Nat) (v : Word64) : Prop := PlainTrap s i → Traps s i x cause c.pc v
    let illegal (x : Instr) : Prop := s.zyn.refault = [] → Gives s x fun t => (t.ctx i).st = .idle ∧ t.fld F.ZYN_FAULT_LAST0.CAUSE = 0x04
    let spent := c.past 2 1
    (∀ x, (x = look ∧ (i.cls = .cmd ∨ i.cls = .pol)) ∨ (x = zl ∧ i.cls = .map) ∨ (x = post ∧ i.cls = .cmd) →
      (crecOk crec = false → traps x 0x07 (BitVec.ofNat 64 crec.toNat)) ∧ (crecOk crec = true → c.freeTag = none → traps x 0x09 0)) ∧
    (∀ x, (x = .rangeLock ⟨i, crec⟩ ∧ i.cls = .cmd) ∨ (x = .rangeUnlock ⟨i, crec⟩ ∧ i.cls = .cmd) ∨ (x = .zoneUnlock ⟨i, crec⟩ a ∧ i.cls = .map) → crecOk crec = false →
      traps x 0x07 (BitVec.ofNat 64 crec.toNat)) ∧
    (∀ tag, crecOk crec = true → c.freeTag = some tag →
      let took (t : State) : Prop := (t.ctx i).reg d = BitVec.ofNat 64 tag ∧ (t.ctx i).pc = c.pc + 2
      let busy (t : State) : Prop := took t ∧ (t.ctx i).tags.getLsbD tag = true ∧ (t.ctx i).events.getLsbD tag = false
      let ended (t : State) (st : Nat) : Prop := took t ∧ (t.ctx i).tags.getLsbD tag = false ∧ (t.ctx i).events.getLsbD tag = true ∧
        (crec ≠ 0xFFFF → t.scratchN i.part crec.toNat 2 = st)
      (i.cls = .cmd ∨ i.cls = .pol →
        (wd ≠ 3 → z % 16 = 0 → z + 16 * 2 ^ wd.toNat ≤ 0x10000 → Gives s look fun t => ended t 0 ∧
          (crec ≠ 0xFFFF → t.scratchN i.part (crec.toNat + 8) 8 = (scSearch s (lookupKey s i.part z (2 ^ wd.toNat)) (2 ^ wd.toNat)).toNat) ∧
          t.host = s.host ∧ t.sc = s.sc ∧ t.regs = s.regs) ∧
        (wd = 3 → traps look 0x04 0) ∧
        (wd ≠ 3 → z % 16 ≠ 0 ∨ 0x10000 < z + 16 * 2 ^ wd.toNat → traps look 0x07 (c.reg a))) ∧
      (i.cls = .map → (s.zlock z).2 = [] → Gives s zl fun t => ended t 0 ∧ t.zlock z = (true, [.ctx i.key tag]) ∧ (t.ctx i).zlocks = z :: c.zlocks ∧
        ∀ y, y ≠ z → t.zlock y = s.zlock y) ∧
      (i.cls = .map → (s.zlock z).2 ≠ [] → Gives s zl fun t => busy t ∧ t.zlock z = ((s.zlock z).1, (s.zlock z).2 ++ [.ctx i.key tag]) ∧
        (t.ctx i).zlocks = c.zlocks ∧ ∀ y, y ≠ z → t.zlock y = s.zlock y) ∧
      (i.cls = .cmd → c.cmd = none → traps post 0x04 0) ∧
      (∀ x, i.cls = .cmd → c.cmd = some x → s.cmd x = none → Gives s post fun t => ended t 12 ∧ t.host = s.host) ∧
      (∀ x m, i.cls = .cmd → c.cmd = some x → s.cmd x = some m →
        (m.committed = true → Gives s post fun t => ended t 12 ∧ t.host = s.host) ∧
        (m.committed = false → cqFull s m = true → Gives s post fun t => busy t ∧
          (t.ctx i).st = .blocked (.cq tag ((c.reg a).extractLsb' 0 32) ((c.reg a).extractLsb' 32 32) crec) ∧
          t.cmd x = some { m with cqWait := some ((c.reg a).extractLsb' 0 32, (c.reg a).extractLsb' 32 32) } ∧ t.out = s.out) ∧
        (m.committed = false → cqFull s m = false → (s.func m.func).resetting = false → (s.func m.func).flr = false → Gives s post fun t =>
          (t.ctx i).tags.getLsbD tag = false ∧ (crec ≠ 0xFFFF → t.scratchN i.part crec.toNat 2 = if m.abort then 7 else 0) ∧
          ∃ q e, Out.cqe m.func q e ∈ t.out ∧ e.cid = m.sqe.cid ∧
            (m.abort = true → e.sct = 0 ∧ e.sc = 0x07) ∧
            (m.abort = false → e.sct = m.status.toNat / 256 % 8 ∧ e.sc = m.status.toNat % 256 ∧ e.dw0 = (c.reg a).extractLsb' 0 32 ∧ e.dw1 = (c.reg a).extractLsb' 32 32)))) ∧
    (crecOk crec = true → i.cls = .map →
      (∀ h l, z ∈ c.zlocks → s.zlock z = (true, h :: l) → Gives s (.zoneUnlock ⟨i, crec⟩ a) fun t => t.zlock z = (false, l) ∧ (t.ctx i).zlocks = c.zlocks.erase z ∧
        (t.ctx i).pc = c.pc + 2 ∧ ∀ y, y ≠ z → t.zlock y = s.zlock y) ∧
      (z ∉ c.zlocks → traps (.zoneUnlock ⟨i, crec⟩ a) 0x04 0)) ∧
    (crecOk crec = true → i.cls = .cmd →
      (c.cmd = none → traps (.rangeLock ⟨i, crec⟩) 0x04 0 ∧ traps (.rangeUnlock ⟨i, crec⟩) 0x04 0) ∧
      (∀ x m, c.cmd = some x → s.cmd x = some m →
        (m.locked = true → illegal (.rangeLock ⟨i, crec⟩)) ∧
        (m.locked = false → s.lock x = none → Gives s (.rangeLock ⟨i, crec⟩) fun t => t.ctx i = spent ∧ t.cmd x = some { m with locked := true } ∧ t.host.rlt = s.host.rlt) ∧
        (∀ r, m.locked = false → s.lock x = some r → (r.armed = true → illegal (.rangeLock ⟨i, crec⟩)) ∧
          (r.armed = false → Gives s (.rangeLock ⟨i, crec⟩) fun t => t.ctx i = spent ∧ (t.cmd x).map (·.st) = some .lockWait ∧
            t.host.rlt = s.host.rlt.map (fun q => if q.cmd = x then { q with armed := true } else q))) ∧
        (holdsLock s x = true → Gives s (.rangeUnlock ⟨i, crec⟩) fun t => t.ctx i = spent ∧ t.lock x = none ∧ t.host.rlt = s.host.rlt.filter (·.cmd != x)) ∧
        (holdsLock s x = false → SetsCtx s i (.rangeUnlock ⟨i, crec⟩) spent)))

/-- R135 to R137, R248, R251: speculation. -/
def Obligations.ZynSpeculation : Prop :=
  ∀ (s : State) (i : CtxId) (d a b : BitVec 5) (p : BitVec 3) (zdesc : Bool) (crec : BitVec 16), i.cls = .map ∨ i.cls = .seq →
    let c := s.ctx i
    let x := Instr.spec i d a b zdesc crec
    let addr : BitVec 48 := (c.reg a).extractLsb' 0 48
    let q := Pa.of addr
    let l := s.lun q.die
    let idx := (c.reg b).toNat % 2 ^ 40
    (Issues s i 2 →
      (crecOk crec = false → PlainTrap s i → Traps s i x 0x07 c.pc (BitVec.ofNat 64 crec.toNat)) ∧
      (crecOk crec = true → c.freeTag = none → PlainTrap s i → Traps s i x 0x09 c.pc 0) ∧
      (∀ tag, crecOk crec = true → c.freeTag = some tag →
        let took (t : State) : Prop := (t.ctx i).reg d = BitVec.ofNat 64 tag ∧ (t.ctx i).pc = c.pc + 2 ∧ (t.ctx i).tags.getLsbD tag = true
        let unsent : Prop := Gives s x fun t => took t ∧ (t.ctx i).events.getLsbD tag = true ∧
          (t.ctx i).specs = c.specs ++ [{ tag := tag, sent := false, landed := true, crec := crec }] ∧ t.media = s.media ∧ t.regs = s.regs ∧
          (crec ≠ 0xFFFF → t.scratchN i.part crec.toNat 2 = 5 ∧ t.scratchN i.part (crec.toNat + 8) 8 = 2 ^ 64 - 1)
        let sends (r : NandReq) (m : Option (Bool × Nat × Nat × Word64)) (f : Field) : Prop := l.unit = none → l.failed = false →
          let more (t : State) (e : Spec) : Prop := took t ∧ (t.ctx i).events.getLsbD tag = false ∧ (t.ctx i).specs = c.specs ++ [e] ∧ t.fld f = (s.fld f + 1) % 2 ^ 32
          (∀ o, l.run = .read o → Gives s x fun t => more t { tag := tag, sent := true, map := m, chan := q.channel, crec := crec } ∧ (t.lun q.die).queue = l.queue ++ [r]) ∧
          (∀ k, l.run = .none → l.queue = [] → padBurst s q.die = false → s.findSlots q.channel q.count = some k → readAllowed s r = true → (∀ y ∈ c.specs, y.tag ≠ tag) →
            Gives s x fun t => more t { tag := tag, sent := true, map := m, chan := q.channel, crec := crec, slots := some (stKey q.channel k, q.count) } ∧
              (t.lun q.die).run = .read { r with slot := some (stKey q.channel k) })
        let req (soft set kind cls : Nat) : NandReq := { op := .read soft set false, kind := kind, addr := addr, ctx := some (i.key, tag), crec := crec, cmd := c.cmd, cls := cls, spec := true, bySpec := true }
        (2 ^ 48 ≤ (c.reg a).toNat → PlainTrap s i → Traps s i x 0x04 c.pc (c.reg a)) ∧
        ((c.reg a).toNat < 2 ^ 48 →
          (i.cls = .map → let ok : Prop := s.flag F.MAP_CTRL.SPEC_EN = true ∧ readAddrOk s q.channel q = true ∧ specAgrees s zdesc idx q = true
            (entryStamp s zdesc idx = none ∨ ¬ ok → unsent) ∧
            (∀ stamp, entryStamp s zdesc idx = some stamp → ok → sends (req 0 0 0 1) (some (zdesc, idx, stamp, c.reg a)) F.MAP_SPEC_ISSUED.COUNT)) ∧
          (i.cls = .seq → let ok : Prop := s.flag F.MAP_CTRL.RETRY_SPEC_EN = true ∧ readAddrOk s i.eng q = true
            let v := (c.reg b).toNat
            (¬ ok → unsent) ∧ (ok → sends (req (v / 16 % 4) (v % 16) (effKind c 0) 2) none F.MAP_RETRY_ISSUED.COUNT))))) ∧
    (Issues s i 1 →
      (specOf c (c.reg a) = none → PlainTrap s i → Traps s i (.conf i a p) 0x04 c.pc 0 ∧ Traps s i (.sqsh i a) 0x04 c.pc 0) ∧
      (∀ y, specOf c (c.reg a) = some y →
        let ok : Prop := y.sent = true ∧ ∀ z k st ad, y.map = some (z, k, st, ad) → entryStamp s z k = some st ∧ specAgrees s z k (Pa.of (ad.extractLsb' 0 48)) = true
        let n := s.fld F.MAP_SPEC_SQUASHED.COUNT
        let gone (t : State) : Prop := (t.ctx i).tags = c.tags &&& ~~~(1#16 <<< y.tag) ∧ (t.ctx i).specs = c.specs.filter (·.tag != y.tag) ∧ (t.ctx i).events = c.events ∧
          t.fld F.MAP_SPEC_SQUASHED.COUNT = (if y.sent = true ∧ y.map.isSome = true then (n + 1) % 2 ^ 32 else n)
        (ok → Gives s (.conf i a p) fun t => (t.ctx i).pred p = true ∧ (t.ctx i).specs = c.specs.filter (·.tag != y.tag) ∧ (t.ctx i).pc = c.pc + 1 ∧
          (t.ctx i).tags = (if y.landed = true then c.tags &&& ~~~(1#16 <<< y.tag) else c.tags) ∧
          (∀ k m, y.slots = some (k, m) → ∀ j < m, ∀ w, sget (k + j) s.media.slots = some w → sget (k + j) t.media.slots = some { w with spec := false }) ∧
          (y.map = none → t.fld F.MAP_RETRY_USED.COUNT = (s.fld F.MAP_RETRY_USED.COUNT + 1) % 2 ^ 32)) ∧
        (¬ ok → Gives s (.conf i a p) fun t => (t.ctx i).pred p = false ∧ gone t) ∧
        (Gives s (.sqsh i a) fun t => (∀ r, (t.ctx i).pred r = c.pred r) ∧ gone t)))

/-- R70, R73, R76, R82, R83, R94, R96, R102: dispatch of an activation. ARG0 of a FAULT activation is the model's choice. -/
def Obligations.ZynDispatch : Prop :=
  ∀ (s : State) (p : BitVec 6) (cls : EngClass) (eng : Nat),
    let x := Instr.activationDispatch p
    let part := cls.part + eng
    let at_ (k : Nat) : CtxId := ⟨cls, eng, k⟩
    let c (k : Nat) : Ctx := s.ctx (at_ k)
    let q := s.queue part
    let idle (k : Nat) : Prop := (c k).st = .idle ∧ ¬ (part = 56 ∧ k = 7)
    let lowest (k : Nat) : Prop := k < 8 ∧ idle k ∧ ∀ j < k, ¬ idle j
    let begins (e : Entry) (kind : BitVec 5) (a0 a1 a2 a3 : Word64) (cmd : Option Nat) (o : Origin) : Ctx :=
      { st := .ready, kind := kind, arg0 := a0, arg1 := a1, arg2 := a2, arg3 := a3, pc := e.codeOffset.toNat, budget := e.budget.toNat, bev := e.vector, cmd := cmd, origin := o }
    let others (t : State) (k : Nat) : Prop := (∀ j : CtxId, j.valid = true → j ≠ at_ k → t.ctx j = s.ctx j) ∧ t.zyn.scratch = s.zyn.scratch ∧ t.zyn.tab = s.zyn.tab
    (s.zynRuns = false ∨ 60 ≤ p.toNat ∨ s.powered (partDom p.toNat) = false → exec x s = .next s) ∧
    (eng < cls.engines → p.toNat = part → s.zynRuns = true → s.powered (partDom part) = true →
      (part ∈ s.zyn.restore →
        (∀ k e, s.zyn.held = false → lowest k → s.zyn.bundle.entry cls 0x1F = some e → Gives s x fun t =>
          t.ctx (at_ k) = begins e 0x1F ((s.reg R.PMU_WAKE_STATUS).setWidth 64) 0 0 0 none .background ∧ part ∉ t.zyn.restore ∧ t.zyn.queues = s.zyn.queues ∧ others t k) ∧
        (s.zyn.held = true ∨ (∀ k < 8, ¬ idle k) → exec x s = .next s)) ∧
      (part ∉ s.zyn.restore → (∃ k < 8, (c k).kind = 0x1F ∧ (c k).st ≠ .idle) → exec x s = .next s) ∧
      (part ∉ s.zyn.restore → (∀ k < 8, (c k).kind = 0x1F → (c k).st = .idle) →
        let fault : Prop := part = 56 ∧ s.zyn.held = false ∧ s.zyn.faultQ ≠ [] ∧ (c 7).st = .idle
        (∀ f l e, fault → s.zyn.faultQ = f :: l → s.zyn.bundle.entry .pol 3 = some e → Gives s x fun t => t.zyn.faultQ = l ∧ others t 7 ∧ t.zyn.queues = s.zyn.queues ∧
          t.ctx (at_ 7) = { begins e 3 0 0 0 0 f.cmd .background with trapCause := f.cause, trapAddr := f.addr, trapPc := f.pc, trapCtx := f.ctxId, fault := some f }) ∧
        (¬ fault →
          let next := q.find? fun r => !s.zyn.held || r.kind == 8
          (next = none → exec x s = .next s) ∧
          (∀ r, next = some r →
            (∀ k, lowest k → Gives s x fun t =>
              t.queue part = q.erase r ++ (s.stalled part).take (queueDepth part - (q.erase r).length) ∧
              (∀ e, s.zyn.bundle.entry cls r.kind.toNat = some e → t.ctx (at_ k) = begins e r.kind r.arg0 r.arg1 r.arg2 r.arg3 r.cmd r.origin ∧ others t k) ∧
              (s.zyn.bundle.entry cls r.kind.toNat = none → t.zyn.ctxs = s.zyn.ctxs)) ∧
            ((∀ k < 8, ¬ idle k) → Gives s x fun t => t.zyn.queues = s.zyn.queues ∧
              (∀ k < 8, (c k).st = .asleep → (∀ j < k, (c j).st ≠ .asleep) → (t.ctx (at_ k)).st = .ready ∧ others t k) ∧
              ((∀ k < 8, (c k).st ≠ .asleep) → t = s))))))

/-- R104 to R107: the encoding drops no bit of an operand. -/
def Obligations.ZynDecodeEncodeAgree : Prop :=
  (∀ (x : Instr) (i : CtxId) (w v : Word), zynEncode x = some (i, w, v) → zynDecode i w v = some x ∧ (zynLength w = 1 → v = 0)) ∧
  (∀ (x y : Instr) (i : CtxId) (w v : Word), zynEncode x = some (i, w, v) → zynEncode y = some (i, w, v) → x = y)

/-- R104 to R140: a few words. -/
def Obligations.ZynWordsDecode : Prop :=
  ∀ i : CtxId,
    zynDecode i 0x61040004 0 = some (.tget i 8 4 4) ∧
    zynDecode i 0x082A280A 0 = some (.cmp i 1 10 5 .ltu .and) ∧
    zynDecode i 0x04AA2CC1 0 = some (.sel i 5 10 5 1) ∧
    zynDecode i 0xD4ECFFF7 0 = some (.loopn i 7 12 0xFFF7) ∧
    zynDecode i 0xA0A30000 0x01010040 = some (.nrd i 5 3 0 1 1 0x0040) ∧
    zynDecode i 0x00000000 0 = none ∧ zynDecode i 0xFC000000 0 = none

/-- R131, R283, R287, R294. -/
def Obligations.EraseGuards : Prop :=
  ∀ (s : State) (i : CtxId) (d a : BitVec 5) (kind : BitVec 4) (crec : BitVec 16) (tag : Nat), Issues s i 2 → i.cls = .seq → crecOk crec = true →
    (s.ctx i).freeTag = some tag → ((s.ctx i).reg a).toNat < 2 ^ 48 → kind.toNat < 8 →
    let p := Pa.of (((s.ctx i).reg a).extractLsb' 0 48)
    let slot := p.die * 2 ^ 15 + p.block
    let denied (t : State) : Prop := (t.ctx i).reg d = BitVec.ofNat 64 tag ∧ (t.ctx i).tags.getLsbD tag = false ∧ (t.ctx i).events.getLsbD tag = true ∧
      (crec ≠ 0xFFFF → t.scratchN i.part crec.toNat 2 = 12)
    uprogBad s i.eng 5 = false → paOk s i.eng p false = true → s.blockSt p.die p.block = 2 → blkValid (s.blockW0 p.die p.block) = 0 →
    (slot ∈ s.jnl.openSlots → Gives s (.ner i d a kind crec) fun t => denied t ∧
      (s.jnl.openRecs ≠ [] → s.jnl.inhibit = false → t.jnl.sealed = s.jnl.openBase + s.jnl.openRecs.length - 1)) ∧
    (slot ∉ s.jnl.openSlots → s.blockW1 p.die p.block / 256 % 2 = 1 → Gives s (.ner i d a kind crec) fun t => denied t ∧ t.jnl.next = s.jnl.next + 1)

/-- R133, R224, R32, R388. -/
def Obligations.ZynTransfers : Prop :=
  ∀ (s : State) (i : CtxId) (d a b : BitVec 5) (count : BitVec 8) (pau : Bool) (crec : BitVec 16) (tag : Nat), Issues s i 2 → i.cls = .cmd ∨ i.cls = .seq →
    crecOk crec = true → (s.ctx i).freeTag = some tag →
    let c := s.ctx i
    let x := Instr.xfer i d a b count pau crec
    let n := count.toNat + 1
    let src := Desc.of (c.reg a)
    let dst := Desc.of (c.reg b)
    let took (t : State) : Prop := (t.ctx i).reg d = BitVec.ofNat 64 tag ∧ (t.ctx i).pc = c.pc + 2
    let ends (st : Nat) : Prop := Gives s x fun t => took t ∧ (t.ctx i).tags.getLsbD tag = false ∧ (t.ctx i).events.getLsbD tag = true ∧
      (crec ≠ 0xFFFF → t.scratchN i.part crec.toNat 2 = st) ∧ t.host = s.host
    let starts (P : State → Prop) : Prop := Gives s x fun t => took t ∧ (t.ctx i).tags.getLsbD tag = true ∧ (t.ctx i).events.getLsbD tag = false ∧
      (t.ctx i).xfers = c.xfers ++ [{ tag := tag, src := c.reg a, dst := c.reg b, blocks := n, pau := pau, crec := crec }] ∧ P t
    let illegal : Prop := PlainTrap s i → Traps s i x 0x04 c.pc 0
    let spec (ch sl : Nat) : Prop := ∃ k < n, ∃ y, sget (stKey ch (sl + k)) s.media.slots = some y ∧ y.spec = true
    let fits (e : Desc) : Prop := ∀ ch sl, e = .staging ch sl → sl + n ≤ 112
    (src = none ∨ dst = none → illegal) ∧
    (∀ u v, src = some u → dst = some v →
      let pair : Prop := (i.cls = .seq ∧ pau = false ∧ (∃ p q p' q', u = .staging p q ∧ v = .staging p' q')) ∨
        (i.cls = .cmd ∧ ((pau = false ∧ ((∃ o h, u = .host o ∧ v = .pool h) ∨ ∃ h o, u = .pool h ∧ v = .host o)) ∨ ∃ p q o, u = .staging p q ∧ v = .host o))
      (¬ pair ∨ ¬ fits u ∨ ¬ fits v → illegal) ∧
      (fits u → fits v →
        (∀ ch sl ch' sl', i.cls = .seq → pau = false → u = .staging ch sl → v = .staging ch' sl' →
          (spec ch sl → ends 6) ∧ (¬ spec ch sl → starts fun t => OnlyCtx s t i)) ∧
        (pair → i.cls = .cmd → c.cmd = none → illegal) ∧
        (∀ k, pair → i.cls = .cmd → c.cmd = some k → s.cmd k = none → ends 12) ∧
        (∀ k m, pair → i.cls = .cmd → c.cmd = some k → s.cmd k = some m →
          let filtered : Bool := m.sqe.opcode == 0x82 && !m.admin
          let halted : Prop := s.fld F.SEC_STATUS.STATE = 2
          let moves (t : State) : Prop := (t.cmd k).map (·.dma) = some true
          (∀ ch sl o, u = .staging ch sl → v = .host o →
            let ok : Prop := inRange s m o n = true ∧ filtered = pau
            (¬ ok → ends 12) ∧ (ok → spec ch sl → ends 6) ∧ (ok → ¬ spec ch sl → halted → ends 13) ∧
            (ok → ¬ spec ch sl → ¬ halted →
              (pau = false → starts moves) ∧
              (pau = true → let mine (w : State) : Prop := ∃ e, (e, k) ∈ w.sc.engines
                let next := match m.pau with | some (_, j) => j | none => 0
                (mine (s.pauAssign k) → next = o → starts moves) ∧
                (¬ (mine (s.pauAssign k) ∧ next = o) → Gives s x fun t => (t.ctx i).st = .blocked .pau ∧ (t.ctx i).pc = c.pc ∧ (t.ctx i).tags = c.tags ∧
                  (t.ctx i).xfers = c.xfers)))) ∧
          (∀ o h, u = .host o → v = .pool h →
            let ok : Prop := inRange s m o n = true ∧ ∀ j < n, poolOk s k m (h + j) none = true
            (¬ ok → ends 12) ∧ (ok → halted → ends 13) ∧ (ok → ¬ halted → starts moves)) ∧
          (∀ h o, u = .pool h → v = .host o →
            let ok : Prop := inRange s m o n = true ∧ filtered = false ∧ ∀ j < n, poolOk s k m (h + j) (some (s.lbaAt m o j)) = true
            (¬ ok → ends 12) ∧ (ok → halted → ends 13) ∧
            (ok → ¬ halted → starts fun t => moves t ∧ ∀ j < n, ∀ y, s.buf (h + j) = some y → (t.buf (h + j)).map (·.readers) = some (y.readers + 1))))))
end

