-- ==== Sys2Proof/Laws/Sparse.lean ====
section
/-! SUPPORT. Laws of sparse data: a read after a write, and the canonical form that every write keeps. -/
namespace Sys2Proof.Machine

@[simp] theorem sget_nil {α : Type} (k : Nat) : sget k ([] : Sparse α) = none := rfl

@[simp] theorem sget_sput_same {α : Type} (k : Nat) (v : α) (m : Sparse α) : sget k (sput k v m) = some v := by
  induction m with
  | nil => simp [sput, sget]
  | cons x t ih =>
    obtain ⟨a, w⟩ := x
    simp only [sput]
    split
    · simp [sget]
    · split
      · simp [sget]
      · rename_i h1 h2
        simp [sget, ih, Ne.symm h2]

theorem sget_sput_ne {α : Type} {j k : Nat} (h : j ≠ k) (v : α) (m : Sparse α) : sget j (sput k v m) = sget j m := by
  induction m with
  | nil => simp [sput, sget, Ne.symm h]
  | cons x t ih =>
    obtain ⟨a, w⟩ := x
    simp only [sput]
    split
    · simp [sget, Ne.symm h]
    · split
      · subst_vars; simp [sget, Ne.symm h]
      · simp [sget, ih]

@[simp] theorem sget_sdel_same {α : Type} (k : Nat) (m : Sparse α) : sget k (sdel k m) = none := by
  induction m with
  | nil => simp [sdel]
  | cons x t ih =>
    obtain ⟨a, w⟩ := x
    simp only [sdel]
    split
    · exact ih
    · rename_i h; simp [sget, ih, Ne.symm h]

theorem sget_sdel_ne {α : Type} {j k : Nat} (h : j ≠ k) (m : Sparse α) : sget j (sdel k m) = sget j m := by
  induction m with
  | nil => simp [sdel]
  | cons x t ih =>
    obtain ⟨a, w⟩ := x
    simp only [sdel]
    split
    · subst_vars; simp [sget, ih, Ne.symm h]
    · simp [sget, ih]

@[simp] theorem sgetD_nil {α : Type} (d : α) (k : Nat) : sgetD d k [] = d := rfl

@[simp] theorem sgetD_sput_same {α : Type} (d : α) (k : Nat) (v : α) (m : Sparse α) : sgetD d k (sput k v m) = v := by
  simp [sgetD]

theorem sgetD_sput_ne {α : Type} {j k : Nat} (h : j ≠ k) (d : α) (v : α) (m : Sparse α) : sgetD d j (sput k v m) = sgetD d j m := by
  simp [sgetD, sget_sput_ne h]

@[simp] theorem sgetD_sdel_same {α : Type} (d : α) (k : Nat) (m : Sparse α) : sgetD d k (sdel k m) = d := by simp [sgetD]

/-- Read after write. -/
@[simp] theorem sgetD_sputD_same {α : Type} [DecidableEq α] (d : α) (k : Nat) (v : α) (m : Sparse α) : sgetD d k (sputD d k v m) = v := by
  unfold sputD; split <;> simp_all

/-- A write leaves every other key alone. -/
theorem sgetD_sputD_ne {α : Type} [DecidableEq α] {j k : Nat} (h : j ≠ k) (d e : α) (v : α) (m : Sparse α) :
    sgetD e j (sputD d k v m) = sgetD e j m := by
  unfold sputD; split
  · simp [sgetD, sget_sdel_ne h]
  · simp [sgetD, sget_sput_ne h]

theorem sgetD_sputD {α : Type} [DecidableEq α] (j k : Nat) (d : α) (v : α) (m : Sparse α) :
    sgetD d j (sputD d k v m) = if j = k then v else sgetD d j m := by
  split
  · subst_vars; simp
  · rename_i h; exact sgetD_sputD_ne h d d v m

/-! ### The canonical form -/

theorem keysRising_cons {α : Type} (x : Nat × α) (m : Sparse α) :
    keysRising (x :: m) = true ↔ (∀ y ∈ m, x.1 < y.1) ∧ keysRising m = true := by
  induction m generalizing x with
  | nil => simp [keysRising]
  | cons y t ih =>
    simp only [keysRising, Bool.and_eq_true, decide_eq_true_eq, List.mem_cons, forall_eq_or_imp]
    constructor
    · rintro ⟨h, r⟩
      exact ⟨⟨h, fun z hz => Nat.lt_trans h (((ih y).1 r).1 z hz)⟩, r⟩
    · rintro ⟨⟨h, _⟩, r⟩; exact ⟨h, r⟩

theorem mem_sput {α : Type} {k : Nat} {v : α} {m : Sparse α} {y : Nat × α} (h : y ∈ sput k v m) : y = (k, v) ∨ y ∈ m := by
  induction m with
  | nil => simpa [sput] using h
  | cons x t ih =>
    obtain ⟨a, w⟩ := x
    simp only [sput] at h
    split at h
    · simpa using h
    · split at h
      · simp only [List.mem_cons] at h ⊢; tauto
      · simp only [List.mem_cons] at h ⊢
        rcases h with h | h
        · exact .inr (.inl h)
        · rcases ih h with h | h <;> tauto

theorem mem_sdel {α : Type} {k : Nat} {m : Sparse α} {y : Nat × α} (h : y ∈ sdel k m) : y ∈ m := by
  induction m with
  | nil => simp [sdel] at h
  | cons x t ih =>
    obtain ⟨a, w⟩ := x
    simp only [sdel] at h
    split at h
    · exact List.mem_cons_of_mem _ (ih h)
    · simp only [List.mem_cons] at h ⊢
      rcases h with h | h
      · exact .inl h
      · exact .inr (ih h)

theorem keysRising_sput {α : Type} (k : Nat) (v : α) {m : Sparse α} (h : keysRising m = true) : keysRising (sput k v m) = true := by
  induction m with
  | nil => simp [sput, keysRising]
  | cons x t ih =>
    obtain ⟨a, w⟩ := x
    have ⟨ha, ht⟩ := (keysRising_cons _ _).1 h
    simp only [sput]
    split
    · rename_i hk
      refine (keysRising_cons _ _).2 ⟨fun y hy => ?_, h⟩
      rcases List.mem_cons.1 hy with rfl | hy
      · exact hk
      · exact Nat.lt_trans hk (ha y hy)
    · split
      · subst_vars; exact (keysRising_cons _ _).2 ⟨ha, ht⟩
      · rename_i h1 h2
        refine (keysRising_cons _ _).2 ⟨fun y hy => ?_, ih ht⟩
        rcases mem_sput hy with rfl | hy
        · have : k ≠ a := h2
          simp only [not_lt] at h1
          omega
        · exact ha y hy

theorem keysRising_sdel {α : Type} (k : Nat) {m : Sparse α} (h : keysRising m = true) : keysRising (sdel k m) = true := by
  induction m with
  | nil => simp [sdel, keysRising]
  | cons x t ih =>
    obtain ⟨a, w⟩ := x
    have ⟨ha, ht⟩ := (keysRising_cons _ _).1 h
    simp only [sdel]
    split
    · exact ih ht
    · exact (keysRising_cons _ _).2 ⟨fun y hy => ha y (mem_sdel hy), ih ht⟩

theorem Memory.wf_iff {α : Type} [DecidableEq α] (d : α) (m : Sparse α) :
    Memory.wf d m = true ↔ keysRising m = true ∧ ∀ x ∈ m, x.2 ≠ d := by
  simp [Memory.wf, List.all_eq_true]

/-- Every write keeps the canonical form. -/
theorem Memory.wf_sputD {α : Type} [DecidableEq α] (d : α) (k : Nat) (v : α) {m : Sparse α} (h : Memory.wf d m = true) :
    Memory.wf d (sputD d k v m) = true := by
  rw [Memory.wf_iff] at h ⊢
  unfold sputD
  split
  · exact ⟨keysRising_sdel k h.1, fun x hx => h.2 x (mem_sdel hx)⟩
  · rename_i hv
    refine ⟨keysRising_sput k v h.1, fun x hx => ?_⟩
    rcases mem_sput hx with rfl | hx
    · exact hv
    · exact h.2 x hx

theorem Memory.wf_nil {α : Type} [DecidableEq α] (d : α) : Memory.wf d ([] : Sparse α) = true := rfl

end Sys2Proof.Machine
end

