-- ==== Sys2Proof/Laws/Regs.lean ====
section
/-! SUPPORT. Laws of registers and fields: a read after a store, and what a store leaves alone. -/
namespace Sys2Proof.Machine

@[simp] theorem reg_setReg_self (s : State) (off : Nat) (w : Word) : (s.setReg off w).reg off = w := by
  simp [State.reg, State.setReg]

theorem reg_setReg_ne {s : State} {off o : Nat} (h : o ≠ off) (w : Word) : (s.setReg off w).reg o = s.reg o := by
  simp only [State.reg, State.setReg]
  exact sgetD_sputD_ne h _ _ _ _

/-- Bits of a field. -/
theorem fld_testBit (s : State) (f : Field) (j : Nat) : (s.fld f).testBit j = (decide (j < f.width) && (s.reg f.off).getLsbD (f.lo + j)) := by
  simp [State.fld, Nat.testBit_mod_two_pow, Nat.testBit_shiftRight, BitVec.getLsbD]

/-- Bits of the mask of a field. -/
theorem mask_bit (lo w k : Nat) : (BitVec.ofNat 32 ((2 ^ w - 1) <<< lo)).getLsbD k = (decide (k < 32) && (decide (lo ≤ k) && decide (k - lo < w))) := by
  simp [BitVec.getLsbD_ofNat, Nat.testBit_shiftLeft, Nat.testBit_two_pow_sub_one]

theorem setFld_bit (s : State) (f : Field) (n k : Nat) :
    ((s.setFld f n).reg f.off).getLsbD k =
      (decide (k < 32) && (if f.lo ≤ k ∧ k - f.lo < f.width then n.testBit (k - f.lo) else (s.reg f.off).getLsbD k)) := by
  simp only [State.setFld, reg_setReg_self, BitVec.getLsbD_or, BitVec.getLsbD_and, BitVec.getLsbD_not, BitVec.getLsbD_ofNat,
    Nat.testBit_shiftLeft]
  by_cases hk : k < 32
  · by_cases h1 : f.lo ≤ k <;> by_cases h2 : k - f.lo < f.width <;> simp [hk, h1, h2]
  · simp [hk, BitVec.getLsbD_of_ge _ _ (Nat.le_of_not_lt hk)]

/-- The field reads as the number stored, if it fits. -/
theorem fld_setFld_self {f : Field} (s : State) {n : Nat} (hf : f.lo + f.width ≤ 32) (hn : n < 2 ^ f.width) : (s.setFld f n).fld f = n := by
  apply Nat.eq_of_testBit_eq
  intro j
  rw [fld_testBit, setFld_bit]
  by_cases hj : j < f.width
  · have : f.lo + j < 32 := by omega
    simp [hj, this]
  · simp only [hj, decide_false, Bool.false_and]
    exact (Nat.testBit_lt_two_pow (Nat.lt_of_lt_of_le hn (Nat.pow_le_pow_right (by decide) (Nat.le_of_not_lt hj)))).symm

/-- A field of another register. -/
theorem fld_setFld_off {f g : Field} (h : g.off ≠ f.off) (s : State) (n : Nat) : (s.setFld f n).fld g = s.fld g := by
  simp [State.fld, State.setFld, reg_setReg_ne h]

/-- Another field of the same register. -/
theorem fld_setFld_disjoint {f g : Field} (ho : g.off = f.off) (hd : g.lo + g.width ≤ f.lo ∨ f.lo + f.width ≤ g.lo) (hg : g.lo + g.width ≤ 32)
    (s : State) (n : Nat) : (s.setFld f n).fld g = s.fld g := by
  apply Nat.eq_of_testBit_eq
  intro j
  rw [fld_testBit, fld_testBit, ho, setFld_bit]
  by_cases hj : j < g.width
  · have h32 : g.lo + j < 32 := by omega
    have hn : ¬ (f.lo ≤ g.lo + j ∧ g.lo + j - f.lo < f.width) := by omega
    simp [hj, h32, hn]
  · simp [hj]

theorem flag_raise {f : Field} (s : State) (hf : f.lo < 32) (hw : f.width = 1) : (s.raise f).flag f = true := by
  simp [State.flag, State.raise, fld_setFld_self s (f := f) (n := 1) (by omega) (by simp [hw])]

theorem flag_clear {f : Field} (s : State) (hf : f.lo < 32) (hw : f.width = 1) : (s.clear f).flag f = false := by
  simp [State.flag, State.clear, fld_setFld_self s (f := f) (n := 0) (by omega) (by simp [hw])]

end Sys2Proof.Machine
end

