-- ==== Sys2Proof/Laws/Zyn.lean ====
section
/-! SUPPORT. Laws of Zyn contexts: reads after writes of contexts, registers and predicates, and what an issue answers. -/
namespace Sys2Proof.Machine

/-! ### Context numbers -/

theorem EngClass.ofNum_num (c : EngClass) : EngClass.ofNum c.num = c := by cases c <;> rfl

theorem EngClass.engines_le (c : EngClass) : c.engines ≤ 32 := by cases c <;> decide

theorem CtxId.valid_iff (i : CtxId) : i.valid = true ↔ i.eng < i.cls.engines ∧ i.ctx < 8 := by simp [CtxId.valid]

theorem CtxId.key_inj {i j : CtxId} (hi : i.valid = true) (hj : j.valid = true) (h : i.key = j.key) : i = j := by
  rw [CtxId.valid_iff] at hi hj
  obtain ⟨ci, ei, xi⟩ := i
  obtain ⟨cj, ej, xj⟩ := j
  have h1 := EngClass.engines_le ci
  have h2 := EngClass.engines_le cj
  simp only [CtxId.key] at h hi hj
  have hc : ci.num = cj.num := by
    have : ci.num ≤ 3 := by cases ci <;> decide
    omega
  have : ci = cj := by rw [← EngClass.ofNum_num ci, ← EngClass.ofNum_num cj, hc]
  subst this
  simp only [CtxId.mk.injEq, true_and]
  omega

theorem CtxId.ofKey_key {i : CtxId} (h : i.valid = true) : CtxId.ofKey i.key = i := by
  rw [CtxId.valid_iff] at h
  obtain ⟨c, e, x⟩ := i
  have h1 := EngClass.engines_le c
  simp only at h
  have h3 : c.num ≤ 3 := by cases c <;> decide
  simp only [CtxId.ofKey, CtxId.key, CtxId.mk.injEq]
  refine ⟨?_, by omega, by omega⟩
  have : (c.num * 512 + e * 8 + x) / 512 % 4 = c.num := by omega
  rw [this, EngClass.ofNum_num]

/-! ### Contexts -/

@[simp] theorem ctx_setCtx_same (s : State) (i : CtxId) (c : Ctx) : (s.setCtx i c).ctx i = c := by
  simp [State.ctx, State.setCtx]

theorem ctx_setCtx_ne {s : State} {i j : CtxId} (h : j.key ≠ i.key) (c : Ctx) : (s.setCtx i c).ctx j = s.ctx j := by
  simp [State.ctx, State.setCtx, sgetD_sput_ne h]

@[simp] theorem ctx_modCtx_same (s : State) (i : CtxId) (f : Ctx → Ctx) : (s.modCtx i f).ctx i = f (s.ctx i) := by
  simp [State.modCtx]

theorem onlyCtx_setCtx {s : State} {i : CtxId} (h : i.valid = true) (c : Ctx) : OnlyCtx s (s.setCtx i c) i := by
  refine ⟨rfl, fun j hj hne => ctx_setCtx_ne (fun e => hne (CtxId.key_inj hj h e)) c⟩

theorem OnlyCtx.trans {s t u : State} {i : CtxId} (h : OnlyCtx s t i) (g : OnlyCtx t u i) : OnlyCtx s u i := by
  obtain ⟨h1, h2⟩ := h
  obtain ⟨g1, g2⟩ := g
  refine ⟨?_, fun j hj hne => (g2 j hj hne).trans (h2 j hj hne)⟩
  rw [g1]; rw [h1]

theorem onlyCtx_modCtx {s t : State} {i : CtxId} (h : i.valid = true) (g : OnlyCtx s t i) (f : Ctx → Ctx) : OnlyCtx s (t.modCtx i f) i :=
  g.trans (onlyCtx_setCtx h _)

/-! ### Registers and predicates -/

@[simp] theorem ctxReg_setReg_same (c : Ctx) (d : BitVec 5) (v : Word64) : (c.setReg d v).reg d = v := by
  simp [Ctx.reg, Ctx.setReg]

theorem ctxReg_setReg_ne {d r : BitVec 5} (h : r ≠ d) (c : Ctx) (v : Word64) : (c.setReg d v).reg r = c.reg r := by
  have : r.toNat ≠ d.toNat := fun e => h (BitVec.eq_of_toNat_eq e)
  simp only [Ctx.reg, Ctx.setReg]
  exact Vector.getElem_set_ne _ _ (Ne.symm this)

theorem ctxPred_setPred_same (c : Ctx) (p : BitVec 3) (v : Bool) : (c.setPred p v).pred p = v := by
  have hp : p.toNat < 8 := p.isLt
  cases v <;> simp [Ctx.pred, Ctx.setPred, hp]

theorem ctxPred_setPred_ne {p j : BitVec 3} (h : j ≠ p) (c : Ctx) (v : Bool) : (c.setPred p v).pred j = c.pred j := by
  have : j.toNat ≠ p.toNat := fun e => h (BitVec.eq_of_toNat_eq e)
  have hp : p.toNat < 8 := p.isLt
  have hj : j.toNat < 8 := j.isLt
  cases v <;> simp [Ctx.pred, Ctx.setPred, hj] <;> omega

/-! ### Issue -/

/-- An instruction that issues in a profile that has it completes with what its meaning does. -/
theorem issue_next {s : State} {i : CtxId} {words : Nat} (h : Issues s i words) (cost : Nat) {prof : EngClass → Bool}
    (hp : prof i.cls = true) (k : Ctx → State → State) :
    s.issue i cost words prof k = .next (k (s.ctx i) (s.setCtx i ((s.ctx i).past words cost))) := by
  obtain ⟨h1, h2, h3, h4, h5⟩ := h
  have h4' : ¬ ((s.zyn.bundle.code i.cls).length < (s.ctx i).pc + words) := by omega
  have h5' : ¬ ((s.ctx i).budget ≤ (s.ctx i).used) := by omega
  simp [State.issue, h1, h2, h3, h4', h5', hp, done, State.modCtx, Ctx.past]

/-- An instruction that writes one register. -/
theorem alu_sets {s : State} {i : CtxId} (h : Issues s i 1) (cost : Nat) (d : BitVec 5) (f : Ctx → Word64) {x : Instr}
    (hx : exec x s = s.alu i cost d f) : SetsCtx s i x (((s.ctx i).past 1 cost).setReg d (f (s.ctx i))) := by
  refine ⟨_, by rw [hx, State.alu, issue_next h cost rfl], ?_, ?_⟩
  · simp
  · exact onlyCtx_modCtx h.1 (onlyCtx_setCtx h.1 _) _

end Sys2Proof.Machine
end

