-- ==== Sys2Proof/Laws/State.lean ====
section
/-! SUPPORT. What each named update of the state leaves alone: one lemma per field per update, true by rfl. -/
namespace Sys2Proof.Machine

/-! ### setReg -/

@[simp] theorem setReg_variant (s : State) (o : Nat) (w : Word) : (s.setReg o w).variant = s.variant := rfl
@[simp] theorem setReg_ttu (s : State) (o : Nat) (w : Word) : (s.setReg o w).ttu = s.ttu := rfl
@[simp] theorem setReg_zyn (s : State) (o : Nat) (w : Word) : (s.setReg o w).zyn = s.zyn := rfl
@[simp] theorem setReg_host (s : State) (o : Nat) (w : Word) : (s.setReg o w).host = s.host := rfl
@[simp] theorem setReg_sc (s : State) (o : Nat) (w : Word) : (s.setReg o w).sc = s.sc := rfl
@[simp] theorem setReg_map (s : State) (o : Nat) (w : Word) : (s.setReg o w).map = s.map := rfl
@[simp] theorem setReg_media (s : State) (o : Nat) (w : Word) : (s.setReg o w).media = s.media := rfl
@[simp] theorem setReg_jnl (s : State) (o : Nat) (w : Word) : (s.setReg o w).jnl = s.jnl := rfl
@[simp] theorem setReg_mram (s : State) (o : Nat) (w : Word) : (s.setReg o w).mram = s.mram := rfl
@[simp] theorem setReg_ecc (s : State) (o : Nat) (w : Word) : (s.setReg o w).ecc = s.ecc := rfl
@[simp] theorem setReg_dmc (s : State) (o : Nat) (w : Word) : (s.setReg o w).dmc = s.dmc := rfl
@[simp] theorem setReg_sec (s : State) (o : Nat) (w : Word) : (s.setReg o w).sec = s.sec := rfl
@[simp] theorem setReg_pwr (s : State) (o : Nat) (w : Word) : (s.setReg o w).pwr = s.pwr := rfl
@[simp] theorem setReg_boot (s : State) (o : Nat) (w : Word) : (s.setReg o w).boot = s.boot := rfl
@[simp] theorem setReg_gb (s : State) (o : Nat) (w : Word) : (s.setReg o w).gb = s.gb := rfl
@[simp] theorem setReg_th (s : State) (o : Nat) (w : Word) : (s.setReg o w).th = s.th := rfl
@[simp] theorem setReg_tst (s : State) (o : Nat) (w : Word) : (s.setReg o w).tst = s.tst := rfl
@[simp] theorem setReg_out (s : State) (o : Nat) (w : Word) : (s.setReg o w).out = s.out := rfl
@[simp] theorem setReg_freeCtr (s : State) (o : Nat) (w : Word) : (s.setReg o w).freeCtr = s.freeCtr := rfl
@[simp] theorem setReg_pending (s : State) (o : Nat) (w : Word) : (s.setReg o w).pending = s.pending := rfl
@[simp] theorem setReg_now (s : State) (o : Nat) (w : Word) : (s.setReg o w).now = s.now := rfl

/-! ### setFld -/

@[simp] theorem setFld_variant (s : State) (f : Field) (n : Nat) : (s.setFld f n).variant = s.variant := rfl
@[simp] theorem setFld_ttu (s : State) (f : Field) (n : Nat) : (s.setFld f n).ttu = s.ttu := rfl
@[simp] theorem setFld_zyn (s : State) (f : Field) (n : Nat) : (s.setFld f n).zyn = s.zyn := rfl
@[simp] theorem setFld_host (s : State) (f : Field) (n : Nat) : (s.setFld f n).host = s.host := rfl
@[simp] theorem setFld_sc (s : State) (f : Field) (n : Nat) : (s.setFld f n).sc = s.sc := rfl
@[simp] theorem setFld_map (s : State) (f : Field) (n : Nat) : (s.setFld f n).map = s.map := rfl
@[simp] theorem setFld_media (s : State) (f : Field) (n : Nat) : (s.setFld f n).media = s.media := rfl
@[simp] theorem setFld_jnl (s : State) (f : Field) (n : Nat) : (s.setFld f n).jnl = s.jnl := rfl
@[simp] theorem setFld_mram (s : State) (f : Field) (n : Nat) : (s.setFld f n).mram = s.mram := rfl
@[simp] theorem setFld_ecc (s : State) (f : Field) (n : Nat) : (s.setFld f n).ecc = s.ecc := rfl
@[simp] theorem setFld_dmc (s : State) (f : Field) (n : Nat) : (s.setFld f n).dmc = s.dmc := rfl
@[simp] theorem setFld_sec (s : State) (f : Field) (n : Nat) : (s.setFld f n).sec = s.sec := rfl
@[simp] theorem setFld_pwr (s : State) (f : Field) (n : Nat) : (s.setFld f n).pwr = s.pwr := rfl
@[simp] theorem setFld_boot (s : State) (f : Field) (n : Nat) : (s.setFld f n).boot = s.boot := rfl
@[simp] theorem setFld_gb (s : State) (f : Field) (n : Nat) : (s.setFld f n).gb = s.gb := rfl
@[simp] theorem setFld_th (s : State) (f : Field) (n : Nat) : (s.setFld f n).th = s.th := rfl
@[simp] theorem setFld_tst (s : State) (f : Field) (n : Nat) : (s.setFld f n).tst = s.tst := rfl
@[simp] theorem setFld_out (s : State) (f : Field) (n : Nat) : (s.setFld f n).out = s.out := rfl
@[simp] theorem setFld_freeCtr (s : State) (f : Field) (n : Nat) : (s.setFld f n).freeCtr = s.freeCtr := rfl
@[simp] theorem setFld_pending (s : State) (f : Field) (n : Nat) : (s.setFld f n).pending = s.pending := rfl
@[simp] theorem setFld_now (s : State) (f : Field) (n : Nat) : (s.setFld f n).now = s.now := rfl

/-! ### setBit -/

@[simp] theorem setBit_variant (s : State) (f : Field) (b : Bool) : (s.setBit f b).variant = s.variant := rfl
@[simp] theorem setBit_ttu (s : State) (f : Field) (b : Bool) : (s.setBit f b).ttu = s.ttu := rfl
@[simp] theorem setBit_zyn (s : State) (f : Field) (b : Bool) : (s.setBit f b).zyn = s.zyn := rfl
@[simp] theorem setBit_host (s : State) (f : Field) (b : Bool) : (s.setBit f b).host = s.host := rfl
@[simp] theorem setBit_sc (s : State) (f : Field) (b : Bool) : (s.setBit f b).sc = s.sc := rfl
@[simp] theorem setBit_map (s : State) (f : Field) (b : Bool) : (s.setBit f b).map = s.map := rfl
@[simp] theorem setBit_media (s : State) (f : Field) (b : Bool) : (s.setBit f b).media = s.media := rfl
@[simp] theorem setBit_jnl (s : State) (f : Field) (b : Bool) : (s.setBit f b).jnl = s.jnl := rfl
@[simp] theorem setBit_mram (s : State) (f : Field) (b : Bool) : (s.setBit f b).mram = s.mram := rfl
@[simp] theorem setBit_ecc (s : State) (f : Field) (b : Bool) : (s.setBit f b).ecc = s.ecc := rfl
@[simp] theorem setBit_dmc (s : State) (f : Field) (b : Bool) : (s.setBit f b).dmc = s.dmc := rfl
@[simp] theorem setBit_sec (s : State) (f : Field) (b : Bool) : (s.setBit f b).sec = s.sec := rfl
@[simp] theorem setBit_pwr (s : State) (f : Field) (b : Bool) : (s.setBit f b).pwr = s.pwr := rfl
@[simp] theorem setBit_boot (s : State) (f : Field) (b : Bool) : (s.setBit f b).boot = s.boot := rfl
@[simp] theorem setBit_gb (s : State) (f : Field) (b : Bool) : (s.setBit f b).gb = s.gb := rfl
@[simp] theorem setBit_th (s : State) (f : Field) (b : Bool) : (s.setBit f b).th = s.th := rfl
@[simp] theorem setBit_tst (s : State) (f : Field) (b : Bool) : (s.setBit f b).tst = s.tst := rfl
@[simp] theorem setBit_out (s : State) (f : Field) (b : Bool) : (s.setBit f b).out = s.out := rfl
@[simp] theorem setBit_freeCtr (s : State) (f : Field) (b : Bool) : (s.setBit f b).freeCtr = s.freeCtr := rfl
@[simp] theorem setBit_pending (s : State) (f : Field) (b : Bool) : (s.setBit f b).pending = s.pending := rfl
@[simp] theorem setBit_now (s : State) (f : Field) (b : Bool) : (s.setBit f b).now = s.now := rfl

/-! ### raise -/

@[simp] theorem raise_variant (s : State) (f : Field) : (s.raise f).variant = s.variant := rfl
@[simp] theorem raise_ttu (s : State) (f : Field) : (s.raise f).ttu = s.ttu := rfl
@[simp] theorem raise_zyn (s : State) (f : Field) : (s.raise f).zyn = s.zyn := rfl
@[simp] theorem raise_host (s : State) (f : Field) : (s.raise f).host = s.host := rfl
@[simp] theorem raise_sc (s : State) (f : Field) : (s.raise f).sc = s.sc := rfl
@[simp] theorem raise_map (s : State) (f : Field) : (s.raise f).map = s.map := rfl
@[simp] theorem raise_media (s : State) (f : Field) : (s.raise f).media = s.media := rfl
@[simp] theorem raise_jnl (s : State) (f : Field) : (s.raise f).jnl = s.jnl := rfl
@[simp] theorem raise_mram (s : State) (f : Field) : (s.raise f).mram = s.mram := rfl
@[simp] theorem raise_ecc (s : State) (f : Field) : (s.raise f).ecc = s.ecc := rfl
@[simp] theorem raise_dmc (s : State) (f : Field) : (s.raise f).dmc = s.dmc := rfl
@[simp] theorem raise_sec (s : State) (f : Field) : (s.raise f).sec = s.sec := rfl
@[simp] theorem raise_pwr (s : State) (f : Field) : (s.raise f).pwr = s.pwr := rfl
@[simp] theorem raise_boot (s : State) (f : Field) : (s.raise f).boot = s.boot := rfl
@[simp] theorem raise_gb (s : State) (f : Field) : (s.raise f).gb = s.gb := rfl
@[simp] theorem raise_th (s : State) (f : Field) : (s.raise f).th = s.th := rfl
@[simp] theorem raise_tst (s : State) (f : Field) : (s.raise f).tst = s.tst := rfl
@[simp] theorem raise_out (s : State) (f : Field) : (s.raise f).out = s.out := rfl
@[simp] theorem raise_freeCtr (s : State) (f : Field) : (s.raise f).freeCtr = s.freeCtr := rfl
@[simp] theorem raise_pending (s : State) (f : Field) : (s.raise f).pending = s.pending := rfl
@[simp] theorem raise_now (s : State) (f : Field) : (s.raise f).now = s.now := rfl

/-! ### clear -/

@[simp] theorem clear_variant (s : State) (f : Field) : (s.clear f).variant = s.variant := rfl
@[simp] theorem clear_ttu (s : State) (f : Field) : (s.clear f).ttu = s.ttu := rfl
@[simp] theorem clear_zyn (s : State) (f : Field) : (s.clear f).zyn = s.zyn := rfl
@[simp] theorem clear_host (s : State) (f : Field) : (s.clear f).host = s.host := rfl
@[simp] theorem clear_sc (s : State) (f : Field) : (s.clear f).sc = s.sc := rfl
@[simp] theorem clear_map (s : State) (f : Field) : (s.clear f).map = s.map := rfl
@[simp] theorem clear_media (s : State) (f : Field) : (s.clear f).media = s.media := rfl
@[simp] theorem clear_jnl (s : State) (f : Field) : (s.clear f).jnl = s.jnl := rfl
@[simp] theorem clear_mram (s : State) (f : Field) : (s.clear f).mram = s.mram := rfl
@[simp] theorem clear_ecc (s : State) (f : Field) : (s.clear f).ecc = s.ecc := rfl
@[simp] theorem clear_dmc (s : State) (f : Field) : (s.clear f).dmc = s.dmc := rfl
@[simp] theorem clear_sec (s : State) (f : Field) : (s.clear f).sec = s.sec := rfl
@[simp] theorem clear_pwr (s : State) (f : Field) : (s.clear f).pwr = s.pwr := rfl
@[simp] theorem clear_boot (s : State) (f : Field) : (s.clear f).boot = s.boot := rfl
@[simp] theorem clear_gb (s : State) (f : Field) : (s.clear f).gb = s.gb := rfl
@[simp] theorem clear_th (s : State) (f : Field) : (s.clear f).th = s.th := rfl
@[simp] theorem clear_tst (s : State) (f : Field) : (s.clear f).tst = s.tst := rfl
@[simp] theorem clear_out (s : State) (f : Field) : (s.clear f).out = s.out := rfl
@[simp] theorem clear_freeCtr (s : State) (f : Field) : (s.clear f).freeCtr = s.freeCtr := rfl
@[simp] theorem clear_pending (s : State) (f : Field) : (s.clear f).pending = s.pending := rfl
@[simp] theorem clear_now (s : State) (f : Field) : (s.clear f).now = s.now := rfl

/-! ### count -/

@[simp] theorem count_variant (s : State) (f : Field) (n : Nat) : (s.count f n).variant = s.variant := rfl
@[simp] theorem count_ttu (s : State) (f : Field) (n : Nat) : (s.count f n).ttu = s.ttu := rfl
@[simp] theorem count_zyn (s : State) (f : Field) (n : Nat) : (s.count f n).zyn = s.zyn := rfl
@[simp] theorem count_host (s : State) (f : Field) (n : Nat) : (s.count f n).host = s.host := rfl
@[simp] theorem count_sc (s : State) (f : Field) (n : Nat) : (s.count f n).sc = s.sc := rfl
@[simp] theorem count_map (s : State) (f : Field) (n : Nat) : (s.count f n).map = s.map := rfl
@[simp] theorem count_media (s : State) (f : Field) (n : Nat) : (s.count f n).media = s.media := rfl
@[simp] theorem count_jnl (s : State) (f : Field) (n : Nat) : (s.count f n).jnl = s.jnl := rfl
@[simp] theorem count_mram (s : State) (f : Field) (n : Nat) : (s.count f n).mram = s.mram := rfl
@[simp] theorem count_ecc (s : State) (f : Field) (n : Nat) : (s.count f n).ecc = s.ecc := rfl
@[simp] theorem count_dmc (s : State) (f : Field) (n : Nat) : (s.count f n).dmc = s.dmc := rfl
@[simp] theorem count_sec (s : State) (f : Field) (n : Nat) : (s.count f n).sec = s.sec := rfl
@[simp] theorem count_pwr (s : State) (f : Field) (n : Nat) : (s.count f n).pwr = s.pwr := rfl
@[simp] theorem count_boot (s : State) (f : Field) (n : Nat) : (s.count f n).boot = s.boot := rfl
@[simp] theorem count_gb (s : State) (f : Field) (n : Nat) : (s.count f n).gb = s.gb := rfl
@[simp] theorem count_th (s : State) (f : Field) (n : Nat) : (s.count f n).th = s.th := rfl
@[simp] theorem count_tst (s : State) (f : Field) (n : Nat) : (s.count f n).tst = s.tst := rfl
@[simp] theorem count_out (s : State) (f : Field) (n : Nat) : (s.count f n).out = s.out := rfl
@[simp] theorem count_freeCtr (s : State) (f : Field) (n : Nat) : (s.count f n).freeCtr = s.freeCtr := rfl
@[simp] theorem count_pending (s : State) (f : Field) (n : Nat) : (s.count f n).pending = s.pending := rfl
@[simp] theorem count_now (s : State) (f : Field) (n : Nat) : (s.count f n).now = s.now := rfl

/-! ### setPair -/

@[simp] theorem setPair_variant (s : State) (o v : Nat) : (s.setPair o v).variant = s.variant := rfl
@[simp] theorem setPair_ttu (s : State) (o v : Nat) : (s.setPair o v).ttu = s.ttu := rfl
@[simp] theorem setPair_zyn (s : State) (o v : Nat) : (s.setPair o v).zyn = s.zyn := rfl
@[simp] theorem setPair_host (s : State) (o v : Nat) : (s.setPair o v).host = s.host := rfl
@[simp] theorem setPair_sc (s : State) (o v : Nat) : (s.setPair o v).sc = s.sc := rfl
@[simp] theorem setPair_map (s : State) (o v : Nat) : (s.setPair o v).map = s.map := rfl
@[simp] theorem setPair_media (s : State) (o v : Nat) : (s.setPair o v).media = s.media := rfl
@[simp] theorem setPair_jnl (s : State) (o v : Nat) : (s.setPair o v).jnl = s.jnl := rfl
@[simp] theorem setPair_mram (s : State) (o v : Nat) : (s.setPair o v).mram = s.mram := rfl
@[simp] theorem setPair_ecc (s : State) (o v : Nat) : (s.setPair o v).ecc = s.ecc := rfl
@[simp] theorem setPair_dmc (s : State) (o v : Nat) : (s.setPair o v).dmc = s.dmc := rfl
@[simp] theorem setPair_sec (s : State) (o v : Nat) : (s.setPair o v).sec = s.sec := rfl
@[simp] theorem setPair_pwr (s : State) (o v : Nat) : (s.setPair o v).pwr = s.pwr := rfl
@[simp] theorem setPair_boot (s : State) (o v : Nat) : (s.setPair o v).boot = s.boot := rfl
@[simp] theorem setPair_gb (s : State) (o v : Nat) : (s.setPair o v).gb = s.gb := rfl
@[simp] theorem setPair_th (s : State) (o v : Nat) : (s.setPair o v).th = s.th := rfl
@[simp] theorem setPair_tst (s : State) (o v : Nat) : (s.setPair o v).tst = s.tst := rfl
@[simp] theorem setPair_out (s : State) (o v : Nat) : (s.setPair o v).out = s.out := rfl
@[simp] theorem setPair_freeCtr (s : State) (o v : Nat) : (s.setPair o v).freeCtr = s.freeCtr := rfl
@[simp] theorem setPair_pending (s : State) (o v : Nat) : (s.setPair o v).pending = s.pending := rfl
@[simp] theorem setPair_now (s : State) (o v : Nat) : (s.setPair o v).now = s.now := rfl

/-! ### emit -/

@[simp] theorem emit_variant (s : State) (x : Out) : (s.emit x).variant = s.variant := rfl
@[simp] theorem emit_regs (s : State) (x : Out) : (s.emit x).regs = s.regs := rfl
@[simp] theorem emit_ttu (s : State) (x : Out) : (s.emit x).ttu = s.ttu := rfl
@[simp] theorem emit_zyn (s : State) (x : Out) : (s.emit x).zyn = s.zyn := rfl
@[simp] theorem emit_host (s : State) (x : Out) : (s.emit x).host = s.host := rfl
@[simp] theorem emit_sc (s : State) (x : Out) : (s.emit x).sc = s.sc := rfl
@[simp] theorem emit_map (s : State) (x : Out) : (s.emit x).map = s.map := rfl
@[simp] theorem emit_media (s : State) (x : Out) : (s.emit x).media = s.media := rfl
@[simp] theorem emit_jnl (s : State) (x : Out) : (s.emit x).jnl = s.jnl := rfl
@[simp] theorem emit_mram (s : State) (x : Out) : (s.emit x).mram = s.mram := rfl
@[simp] theorem emit_ecc (s : State) (x : Out) : (s.emit x).ecc = s.ecc := rfl
@[simp] theorem emit_dmc (s : State) (x : Out) : (s.emit x).dmc = s.dmc := rfl
@[simp] theorem emit_sec (s : State) (x : Out) : (s.emit x).sec = s.sec := rfl
@[simp] theorem emit_pwr (s : State) (x : Out) : (s.emit x).pwr = s.pwr := rfl
@[simp] theorem emit_boot (s : State) (x : Out) : (s.emit x).boot = s.boot := rfl
@[simp] theorem emit_gb (s : State) (x : Out) : (s.emit x).gb = s.gb := rfl
@[simp] theorem emit_th (s : State) (x : Out) : (s.emit x).th = s.th := rfl
@[simp] theorem emit_tst (s : State) (x : Out) : (s.emit x).tst = s.tst := rfl
@[simp] theorem emit_freeCtr (s : State) (x : Out) : (s.emit x).freeCtr = s.freeCtr := rfl
@[simp] theorem emit_pending (s : State) (x : Out) : (s.emit x).pending = s.pending := rfl
@[simp] theorem emit_reg (s : State) (x : Out) (o : Nat) : (s.emit x).reg o = s.reg o := rfl
@[simp] theorem emit_fld (s : State) (x : Out) (fd : Field) : (s.emit x).fld fd = s.fld fd := rfl
@[simp] theorem emit_now (s : State) (x : Out) : (s.emit x).now = s.now := rfl

/-! ### setFunc -/

@[simp] theorem setFunc_variant (s : State) (f : Nat) (g : Func) : (s.setFunc f g).variant = s.variant := rfl
@[simp] theorem setFunc_regs (s : State) (f : Nat) (g : Func) : (s.setFunc f g).regs = s.regs := rfl
@[simp] theorem setFunc_ttu (s : State) (f : Nat) (g : Func) : (s.setFunc f g).ttu = s.ttu := rfl
@[simp] theorem setFunc_zyn (s : State) (f : Nat) (g : Func) : (s.setFunc f g).zyn = s.zyn := rfl
@[simp] theorem setFunc_sc (s : State) (f : Nat) (g : Func) : (s.setFunc f g).sc = s.sc := rfl
@[simp] theorem setFunc_map (s : State) (f : Nat) (g : Func) : (s.setFunc f g).map = s.map := rfl
@[simp] theorem setFunc_media (s : State) (f : Nat) (g : Func) : (s.setFunc f g).media = s.media := rfl
@[simp] theorem setFunc_jnl (s : State) (f : Nat) (g : Func) : (s.setFunc f g).jnl = s.jnl := rfl
@[simp] theorem setFunc_mram (s : State) (f : Nat) (g : Func) : (s.setFunc f g).mram = s.mram := rfl
@[simp] theorem setFunc_ecc (s : State) (f : Nat) (g : Func) : (s.setFunc f g).ecc = s.ecc := rfl
@[simp] theorem setFunc_dmc (s : State) (f : Nat) (g : Func) : (s.setFunc f g).dmc = s.dmc := rfl
@[simp] theorem setFunc_sec (s : State) (f : Nat) (g : Func) : (s.setFunc f g).sec = s.sec := rfl
@[simp] theorem setFunc_pwr (s : State) (f : Nat) (g : Func) : (s.setFunc f g).pwr = s.pwr := rfl
@[simp] theorem setFunc_boot (s : State) (f : Nat) (g : Func) : (s.setFunc f g).boot = s.boot := rfl
@[simp] theorem setFunc_gb (s : State) (f : Nat) (g : Func) : (s.setFunc f g).gb = s.gb := rfl
@[simp] theorem setFunc_th (s : State) (f : Nat) (g : Func) : (s.setFunc f g).th = s.th := rfl
@[simp] theorem setFunc_tst (s : State) (f : Nat) (g : Func) : (s.setFunc f g).tst = s.tst := rfl
@[simp] theorem setFunc_out (s : State) (f : Nat) (g : Func) : (s.setFunc f g).out = s.out := rfl
@[simp] theorem setFunc_freeCtr (s : State) (f : Nat) (g : Func) : (s.setFunc f g).freeCtr = s.freeCtr := rfl
@[simp] theorem setFunc_pending (s : State) (f : Nat) (g : Func) : (s.setFunc f g).pending = s.pending := rfl
@[simp] theorem setFunc_host_sqs (s : State) (f : Nat) (g : Func) : (s.setFunc f g).host.sqs = s.host.sqs := rfl
@[simp] theorem setFunc_host_cqs (s : State) (f : Nat) (g : Func) : (s.setFunc f g).host.cqs = s.host.cqs := rfl
@[simp] theorem setFunc_host_cmds (s : State) (f : Nat) (g : Func) : (s.setFunc f g).host.cmds = s.host.cmds := rfl
@[simp] theorem setFunc_host_rlt (s : State) (f : Nat) (g : Func) : (s.setFunc f g).host.rlt = s.host.rlt := rfl
@[simp] theorem setFunc_host_bufs (s : State) (f : Nat) (g : Func) : (s.setFunc f g).host.bufs = s.host.bufs := rfl
@[simp] theorem setFunc_reg (s : State) (f : Nat) (g : Func) (o : Nat) : (s.setFunc f g).reg o = s.reg o := rfl
@[simp] theorem setFunc_fld (s : State) (f : Nat) (g : Func) (fd : Field) : (s.setFunc f g).fld fd = s.fld fd := rfl
@[simp] theorem setFunc_now (s : State) (f : Nat) (g : Func) : (s.setFunc f g).now = s.now := rfl

/-! ### setSq -/

@[simp] theorem setSq_variant (s : State) (f q : Nat) (x : Sq) : (s.setSq f q x).variant = s.variant := rfl
@[simp] theorem setSq_regs (s : State) (f q : Nat) (x : Sq) : (s.setSq f q x).regs = s.regs := rfl
@[simp] theorem setSq_ttu (s : State) (f q : Nat) (x : Sq) : (s.setSq f q x).ttu = s.ttu := rfl
@[simp] theorem setSq_zyn (s : State) (f q : Nat) (x : Sq) : (s.setSq f q x).zyn = s.zyn := rfl
@[simp] theorem setSq_sc (s : State) (f q : Nat) (x : Sq) : (s.setSq f q x).sc = s.sc := rfl
@[simp] theorem setSq_map (s : State) (f q : Nat) (x : Sq) : (s.setSq f q x).map = s.map := rfl
@[simp] theorem setSq_media (s : State) (f q : Nat) (x : Sq) : (s.setSq f q x).media = s.media := rfl
@[simp] theorem setSq_jnl (s : State) (f q : Nat) (x : Sq) : (s.setSq f q x).jnl = s.jnl := rfl
@[simp] theorem setSq_mram (s : State) (f q : Nat) (x : Sq) : (s.setSq f q x).mram = s.mram := rfl
@[simp] theorem setSq_ecc (s : State) (f q : Nat) (x : Sq) : (s.setSq f q x).ecc = s.ecc := rfl
@[simp] theorem setSq_dmc (s : State) (f q : Nat) (x : Sq) : (s.setSq f q x).dmc = s.dmc := rfl
@[simp] theorem setSq_sec (s : State) (f q : Nat) (x : Sq) : (s.setSq f q x).sec = s.sec := rfl
@[simp] theorem setSq_pwr (s : State) (f q : Nat) (x : Sq) : (s.setSq f q x).pwr = s.pwr := rfl
@[simp] theorem setSq_boot (s : State) (f q : Nat) (x : Sq) : (s.setSq f q x).boot = s.boot := rfl
@[simp] theorem setSq_gb (s : State) (f q : Nat) (x : Sq) : (s.setSq f q x).gb = s.gb := rfl
@[simp] theorem setSq_th (s : State) (f q : Nat) (x : Sq) : (s.setSq f q x).th = s.th := rfl
@[simp] theorem setSq_tst (s : State) (f q : Nat) (x : Sq) : (s.setSq f q x).tst = s.tst := rfl
@[simp] theorem setSq_out (s : State) (f q : Nat) (x : Sq) : (s.setSq f q x).out = s.out := rfl
@[simp] theorem setSq_freeCtr (s : State) (f q : Nat) (x : Sq) : (s.setSq f q x).freeCtr = s.freeCtr := rfl
@[simp] theorem setSq_pending (s : State) (f q : Nat) (x : Sq) : (s.setSq f q x).pending = s.pending := rfl
@[simp] theorem setSq_host_funcs (s : State) (f q : Nat) (x : Sq) : (s.setSq f q x).host.funcs = s.host.funcs := rfl
@[simp] theorem setSq_host_cqs (s : State) (f q : Nat) (x : Sq) : (s.setSq f q x).host.cqs = s.host.cqs := rfl
@[simp] theorem setSq_host_cmds (s : State) (f q : Nat) (x : Sq) : (s.setSq f q x).host.cmds = s.host.cmds := rfl
@[simp] theorem setSq_host_rlt (s : State) (f q : Nat) (x : Sq) : (s.setSq f q x).host.rlt = s.host.rlt := rfl
@[simp] theorem setSq_host_bufs (s : State) (f q : Nat) (x : Sq) : (s.setSq f q x).host.bufs = s.host.bufs := rfl
@[simp] theorem setSq_reg (s : State) (f q : Nat) (x : Sq) (o : Nat) : (s.setSq f q x).reg o = s.reg o := rfl
@[simp] theorem setSq_fld (s : State) (f q : Nat) (x : Sq) (fd : Field) : (s.setSq f q x).fld fd = s.fld fd := rfl
@[simp] theorem setSq_now (s : State) (f q : Nat) (x : Sq) : (s.setSq f q x).now = s.now := rfl

/-! ### setCq -/

@[simp] theorem setCq_variant (s : State) (f q : Nat) (x : Cq) : (s.setCq f q x).variant = s.variant := rfl
@[simp] theorem setCq_regs (s : State) (f q : Nat) (x : Cq) : (s.setCq f q x).regs = s.regs := rfl
@[simp] theorem setCq_ttu (s : State) (f q : Nat) (x : Cq) : (s.setCq f q x).ttu = s.ttu := rfl
@[simp] theorem setCq_zyn (s : State) (f q : Nat) (x : Cq) : (s.setCq f q x).zyn = s.zyn := rfl
@[simp] theorem setCq_sc (s : State) (f q : Nat) (x : Cq) : (s.setCq f q x).sc = s.sc := rfl
@[simp] theorem setCq_map (s : State) (f q : Nat) (x : Cq) : (s.setCq f q x).map = s.map := rfl
@[simp] theorem setCq_media (s : State) (f q : Nat) (x : Cq) : (s.setCq f q x).media = s.media := rfl
@[simp] theorem setCq_jnl (s : State) (f q : Nat) (x : Cq) : (s.setCq f q x).jnl = s.jnl := rfl
@[simp] theorem setCq_mram (s : State) (f q : Nat) (x : Cq) : (s.setCq f q x).mram = s.mram := rfl
@[simp] theorem setCq_ecc (s : State) (f q : Nat) (x : Cq) : (s.setCq f q x).ecc = s.ecc := rfl
@[simp] theorem setCq_dmc (s : State) (f q : Nat) (x : Cq) : (s.setCq f q x).dmc = s.dmc := rfl
@[simp] theorem setCq_sec (s : State) (f q : Nat) (x : Cq) : (s.setCq f q x).sec = s.sec := rfl
@[simp] theorem setCq_pwr (s : State) (f q : Nat) (x : Cq) : (s.setCq f q x).pwr = s.pwr := rfl
@[simp] theorem setCq_boot (s : State) (f q : Nat) (x : Cq) : (s.setCq f q x).boot = s.boot := rfl
@[simp] theorem setCq_gb (s : State) (f q : Nat) (x : Cq) : (s.setCq f q x).gb = s.gb := rfl
@[simp] theorem setCq_th (s : State) (f q : Nat) (x : Cq) : (s.setCq f q x).th = s.th := rfl
@[simp] theorem setCq_tst (s : State) (f q : Nat) (x : Cq) : (s.setCq f q x).tst = s.tst := rfl
@[simp] theorem setCq_out (s : State) (f q : Nat) (x : Cq) : (s.setCq f q x).out = s.out := rfl
@[simp] theorem setCq_freeCtr (s : State) (f q : Nat) (x : Cq) : (s.setCq f q x).freeCtr = s.freeCtr := rfl
@[simp] theorem setCq_pending (s : State) (f q : Nat) (x : Cq) : (s.setCq f q x).pending = s.pending := rfl
@[simp] theorem setCq_host_funcs (s : State) (f q : Nat) (x : Cq) : (s.setCq f q x).host.funcs = s.host.funcs := rfl
@[simp] theorem setCq_host_sqs (s : State) (f q : Nat) (x : Cq) : (s.setCq f q x).host.sqs = s.host.sqs := rfl
@[simp] theorem setCq_host_cmds (s : State) (f q : Nat) (x : Cq) : (s.setCq f q x).host.cmds = s.host.cmds := rfl
@[simp] theorem setCq_host_rlt (s : State) (f q : Nat) (x : Cq) : (s.setCq f q x).host.rlt = s.host.rlt := rfl
@[simp] theorem setCq_host_bufs (s : State) (f q : Nat) (x : Cq) : (s.setCq f q x).host.bufs = s.host.bufs := rfl
@[simp] theorem setCq_reg (s : State) (f q : Nat) (x : Cq) (o : Nat) : (s.setCq f q x).reg o = s.reg o := rfl
@[simp] theorem setCq_fld (s : State) (f q : Nat) (x : Cq) (fd : Field) : (s.setCq f q x).fld fd = s.fld fd := rfl
@[simp] theorem setCq_now (s : State) (f q : Nat) (x : Cq) : (s.setCq f q x).now = s.now := rfl

/-! ### setCmd -/

@[simp] theorem setCmd_variant (s : State) (c : Nat) (x : Cmd) : (s.setCmd c x).variant = s.variant := rfl
@[simp] theorem setCmd_regs (s : State) (c : Nat) (x : Cmd) : (s.setCmd c x).regs = s.regs := rfl
@[simp] theorem setCmd_ttu (s : State) (c : Nat) (x : Cmd) : (s.setCmd c x).ttu = s.ttu := rfl
@[simp] theorem setCmd_zyn (s : State) (c : Nat) (x : Cmd) : (s.setCmd c x).zyn = s.zyn := rfl
@[simp] theorem setCmd_sc (s : State) (c : Nat) (x : Cmd) : (s.setCmd c x).sc = s.sc := rfl
@[simp] theorem setCmd_map (s : State) (c : Nat) (x : Cmd) : (s.setCmd c x).map = s.map := rfl
@[simp] theorem setCmd_media (s : State) (c : Nat) (x : Cmd) : (s.setCmd c x).media = s.media := rfl
@[simp] theorem setCmd_jnl (s : State) (c : Nat) (x : Cmd) : (s.setCmd c x).jnl = s.jnl := rfl
@[simp] theorem setCmd_mram (s : State) (c : Nat) (x : Cmd) : (s.setCmd c x).mram = s.mram := rfl
@[simp] theorem setCmd_ecc (s : State) (c : Nat) (x : Cmd) : (s.setCmd c x).ecc = s.ecc := rfl
@[simp] theorem setCmd_dmc (s : State) (c : Nat) (x : Cmd) : (s.setCmd c x).dmc = s.dmc := rfl
@[simp] theorem setCmd_sec (s : State) (c : Nat) (x : Cmd) : (s.setCmd c x).sec = s.sec := rfl
@[simp] theorem setCmd_pwr (s : State) (c : Nat) (x : Cmd) : (s.setCmd c x).pwr = s.pwr := rfl
@[simp] theorem setCmd_boot (s : State) (c : Nat) (x : Cmd) : (s.setCmd c x).boot = s.boot := rfl
@[simp] theorem setCmd_gb (s : State) (c : Nat) (x : Cmd) : (s.setCmd c x).gb = s.gb := rfl
@[simp] theorem setCmd_th (s : State) (c : Nat) (x : Cmd) : (s.setCmd c x).th = s.th := rfl
@[simp] theorem setCmd_tst (s : State) (c : Nat) (x : Cmd) : (s.setCmd c x).tst = s.tst := rfl
@[simp] theorem setCmd_out (s : State) (c : Nat) (x : Cmd) : (s.setCmd c x).out = s.out := rfl
@[simp] theorem setCmd_freeCtr (s : State) (c : Nat) (x : Cmd) : (s.setCmd c x).freeCtr = s.freeCtr := rfl
@[simp] theorem setCmd_pending (s : State) (c : Nat) (x : Cmd) : (s.setCmd c x).pending = s.pending := rfl
@[simp] theorem setCmd_host_funcs (s : State) (c : Nat) (x : Cmd) : (s.setCmd c x).host.funcs = s.host.funcs := rfl
@[simp] theorem setCmd_host_sqs (s : State) (c : Nat) (x : Cmd) : (s.setCmd c x).host.sqs = s.host.sqs := rfl
@[simp] theorem setCmd_host_cqs (s : State) (c : Nat) (x : Cmd) : (s.setCmd c x).host.cqs = s.host.cqs := rfl
@[simp] theorem setCmd_host_rlt (s : State) (c : Nat) (x : Cmd) : (s.setCmd c x).host.rlt = s.host.rlt := rfl
@[simp] theorem setCmd_host_bufs (s : State) (c : Nat) (x : Cmd) : (s.setCmd c x).host.bufs = s.host.bufs := rfl
@[simp] theorem setCmd_reg (s : State) (c : Nat) (x : Cmd) (o : Nat) : (s.setCmd c x).reg o = s.reg o := rfl
@[simp] theorem setCmd_fld (s : State) (c : Nat) (x : Cmd) (fd : Field) : (s.setCmd c x).fld fd = s.fld fd := rfl
@[simp] theorem setCmd_now (s : State) (c : Nat) (x : Cmd) : (s.setCmd c x).now = s.now := rfl

/-! ### setBuf -/

@[simp] theorem setBuf_variant (s : State) (h : Nat) (x : Buf) : (s.setBuf h x).variant = s.variant := rfl
@[simp] theorem setBuf_regs (s : State) (h : Nat) (x : Buf) : (s.setBuf h x).regs = s.regs := rfl
@[simp] theorem setBuf_ttu (s : State) (h : Nat) (x : Buf) : (s.setBuf h x).ttu = s.ttu := rfl
@[simp] theorem setBuf_zyn (s : State) (h : Nat) (x : Buf) : (s.setBuf h x).zyn = s.zyn := rfl
@[simp] theorem setBuf_sc (s : State) (h : Nat) (x : Buf) : (s.setBuf h x).sc = s.sc := rfl
@[simp] theorem setBuf_map (s : State) (h : Nat) (x : Buf) : (s.setBuf h x).map = s.map := rfl
@[simp] theorem setBuf_media (s : State) (h : Nat) (x : Buf) : (s.setBuf h x).media = s.media := rfl
@[simp] theorem setBuf_jnl (s : State) (h : Nat) (x : Buf) : (s.setBuf h x).jnl = s.jnl := rfl
@[simp] theorem setBuf_mram (s : State) (h : Nat) (x : Buf) : (s.setBuf h x).mram = s.mram := rfl
@[simp] theorem setBuf_ecc (s : State) (h : Nat) (x : Buf) : (s.setBuf h x).ecc = s.ecc := rfl
@[simp] theorem setBuf_dmc (s : State) (h : Nat) (x : Buf) : (s.setBuf h x).dmc = s.dmc := rfl
@[simp] theorem setBuf_sec (s : State) (h : Nat) (x : Buf) : (s.setBuf h x).sec = s.sec := rfl
@[simp] theorem setBuf_pwr (s : State) (h : Nat) (x : Buf) : (s.setBuf h x).pwr = s.pwr := rfl
@[simp] theorem setBuf_boot (s : State) (h : Nat) (x : Buf) : (s.setBuf h x).boot = s.boot := rfl
@[simp] theorem setBuf_gb (s : State) (h : Nat) (x : Buf) : (s.setBuf h x).gb = s.gb := rfl
@[simp] theorem setBuf_th (s : State) (h : Nat) (x : Buf) : (s.setBuf h x).th = s.th := rfl
@[simp] theorem setBuf_tst (s : State) (h : Nat) (x : Buf) : (s.setBuf h x).tst = s.tst := rfl
@[simp] theorem setBuf_out (s : State) (h : Nat) (x : Buf) : (s.setBuf h x).out = s.out := rfl
@[simp] theorem setBuf_freeCtr (s : State) (h : Nat) (x : Buf) : (s.setBuf h x).freeCtr = s.freeCtr := rfl
@[simp] theorem setBuf_pending (s : State) (h : Nat) (x : Buf) : (s.setBuf h x).pending = s.pending := rfl
@[simp] theorem setBuf_host_funcs (s : State) (h : Nat) (x : Buf) : (s.setBuf h x).host.funcs = s.host.funcs := rfl
@[simp] theorem setBuf_host_sqs (s : State) (h : Nat) (x : Buf) : (s.setBuf h x).host.sqs = s.host.sqs := rfl
@[simp] theorem setBuf_host_cqs (s : State) (h : Nat) (x : Buf) : (s.setBuf h x).host.cqs = s.host.cqs := rfl
@[simp] theorem setBuf_host_cmds (s : State) (h : Nat) (x : Buf) : (s.setBuf h x).host.cmds = s.host.cmds := rfl
@[simp] theorem setBuf_host_rlt (s : State) (h : Nat) (x : Buf) : (s.setBuf h x).host.rlt = s.host.rlt := rfl
@[simp] theorem setBuf_reg (s : State) (h : Nat) (x : Buf) (o : Nat) : (s.setBuf h x).reg o = s.reg o := rfl
@[simp] theorem setBuf_fld (s : State) (h : Nat) (x : Buf) (fd : Field) : (s.setBuf h x).fld fd = s.fld fd := rfl
@[simp] theorem setBuf_now (s : State) (h : Nat) (x : Buf) : (s.setBuf h x).now = s.now := rfl

/-! ### setTab -/

@[simp] theorem setTab_variant (s : State) (t : Tables) : (s.setTab t).variant = s.variant := rfl
@[simp] theorem setTab_regs (s : State) (t : Tables) : (s.setTab t).regs = s.regs := rfl
@[simp] theorem setTab_ttu (s : State) (t : Tables) : (s.setTab t).ttu = s.ttu := rfl
@[simp] theorem setTab_host (s : State) (t : Tables) : (s.setTab t).host = s.host := rfl
@[simp] theorem setTab_sc (s : State) (t : Tables) : (s.setTab t).sc = s.sc := rfl
@[simp] theorem setTab_map (s : State) (t : Tables) : (s.setTab t).map = s.map := rfl
@[simp] theorem setTab_media (s : State) (t : Tables) : (s.setTab t).media = s.media := rfl
@[simp] theorem setTab_jnl (s : State) (t : Tables) : (s.setTab t).jnl = s.jnl := rfl
@[simp] theorem setTab_mram (s : State) (t : Tables) : (s.setTab t).mram = s.mram := rfl
@[simp] theorem setTab_ecc (s : State) (t : Tables) : (s.setTab t).ecc = s.ecc := rfl
@[simp] theorem setTab_dmc (s : State) (t : Tables) : (s.setTab t).dmc = s.dmc := rfl
@[simp] theorem setTab_sec (s : State) (t : Tables) : (s.setTab t).sec = s.sec := rfl
@[simp] theorem setTab_pwr (s : State) (t : Tables) : (s.setTab t).pwr = s.pwr := rfl
@[simp] theorem setTab_boot (s : State) (t : Tables) : (s.setTab t).boot = s.boot := rfl
@[simp] theorem setTab_gb (s : State) (t : Tables) : (s.setTab t).gb = s.gb := rfl
@[simp] theorem setTab_th (s : State) (t : Tables) : (s.setTab t).th = s.th := rfl
@[simp] theorem setTab_tst (s : State) (t : Tables) : (s.setTab t).tst = s.tst := rfl
@[simp] theorem setTab_out (s : State) (t : Tables) : (s.setTab t).out = s.out := rfl
@[simp] theorem setTab_freeCtr (s : State) (t : Tables) : (s.setTab t).freeCtr = s.freeCtr := rfl
@[simp] theorem setTab_pending (s : State) (t : Tables) : (s.setTab t).pending = s.pending := rfl
@[simp] theorem setTab_zyn_ctxs (s : State) (t : Tables) : (s.setTab t).zyn.ctxs = s.zyn.ctxs := rfl
@[simp] theorem setTab_zyn_scratch (s : State) (t : Tables) : (s.setTab t).zyn.scratch = s.zyn.scratch := rfl
@[simp] theorem setTab_zyn_mail (s : State) (t : Tables) : (s.setTab t).zyn.mail = s.zyn.mail := rfl
@[simp] theorem setTab_zyn_queues (s : State) (t : Tables) : (s.setTab t).zyn.queues = s.zyn.queues := rfl
@[simp] theorem setTab_zyn_faultQ (s : State) (t : Tables) : (s.setTab t).zyn.faultQ = s.zyn.faultQ := rfl
@[simp] theorem setTab_zyn_bundle (s : State) (t : Tables) : (s.setTab t).zyn.bundle = s.zyn.bundle := rfl
@[simp] theorem setTab_reg (s : State) (t : Tables) (o : Nat) : (s.setTab t).reg o = s.reg o := rfl
@[simp] theorem setTab_fld (s : State) (t : Tables) (fd : Field) : (s.setTab t).fld fd = s.fld fd := rfl
@[simp] theorem setTab_now (s : State) (t : Tables) : (s.setTab t).now = s.now := rfl

/-! ### setCtx -/

@[simp] theorem setCtx_variant (s : State) (i : CtxId) (x : Ctx) : (s.setCtx i x).variant = s.variant := rfl
@[simp] theorem setCtx_regs (s : State) (i : CtxId) (x : Ctx) : (s.setCtx i x).regs = s.regs := rfl
@[simp] theorem setCtx_ttu (s : State) (i : CtxId) (x : Ctx) : (s.setCtx i x).ttu = s.ttu := rfl
@[simp] theorem setCtx_host (s : State) (i : CtxId) (x : Ctx) : (s.setCtx i x).host = s.host := rfl
@[simp] theorem setCtx_sc (s : State) (i : CtxId) (x : Ctx) : (s.setCtx i x).sc = s.sc := rfl
@[simp] theorem setCtx_map (s : State) (i : CtxId) (x : Ctx) : (s.setCtx i x).map = s.map := rfl
@[simp] theorem setCtx_media (s : State) (i : CtxId) (x : Ctx) : (s.setCtx i x).media = s.media := rfl
@[simp] theorem setCtx_jnl (s : State) (i : CtxId) (x : Ctx) : (s.setCtx i x).jnl = s.jnl := rfl
@[simp] theorem setCtx_mram (s : State) (i : CtxId) (x : Ctx) : (s.setCtx i x).mram = s.mram := rfl
@[simp] theorem setCtx_ecc (s : State) (i : CtxId) (x : Ctx) : (s.setCtx i x).ecc = s.ecc := rfl
@[simp] theorem setCtx_dmc (s : State) (i : CtxId) (x : Ctx) : (s.setCtx i x).dmc = s.dmc := rfl
@[simp] theorem setCtx_sec (s : State) (i : CtxId) (x : Ctx) : (s.setCtx i x).sec = s.sec := rfl
@[simp] theorem setCtx_pwr (s : State) (i : CtxId) (x : Ctx) : (s.setCtx i x).pwr = s.pwr := rfl
@[simp] theorem setCtx_boot (s : State) (i : CtxId) (x : Ctx) : (s.setCtx i x).boot = s.boot := rfl
@[simp] theorem setCtx_gb (s : State) (i : CtxId) (x : Ctx) : (s.setCtx i x).gb = s.gb := rfl
@[simp] theorem setCtx_th (s : State) (i : CtxId) (x : Ctx) : (s.setCtx i x).th = s.th := rfl
@[simp] theorem setCtx_tst (s : State) (i : CtxId) (x : Ctx) : (s.setCtx i x).tst = s.tst := rfl
@[simp] theorem setCtx_out (s : State) (i : CtxId) (x : Ctx) : (s.setCtx i x).out = s.out := rfl
@[simp] theorem setCtx_freeCtr (s : State) (i : CtxId) (x : Ctx) : (s.setCtx i x).freeCtr = s.freeCtr := rfl
@[simp] theorem setCtx_pending (s : State) (i : CtxId) (x : Ctx) : (s.setCtx i x).pending = s.pending := rfl
@[simp] theorem setCtx_zyn_scratch (s : State) (i : CtxId) (x : Ctx) : (s.setCtx i x).zyn.scratch = s.zyn.scratch := rfl
@[simp] theorem setCtx_zyn_mail (s : State) (i : CtxId) (x : Ctx) : (s.setCtx i x).zyn.mail = s.zyn.mail := rfl
@[simp] theorem setCtx_zyn_queues (s : State) (i : CtxId) (x : Ctx) : (s.setCtx i x).zyn.queues = s.zyn.queues := rfl
@[simp] theorem setCtx_zyn_faultQ (s : State) (i : CtxId) (x : Ctx) : (s.setCtx i x).zyn.faultQ = s.zyn.faultQ := rfl
@[simp] theorem setCtx_zyn_bundle (s : State) (i : CtxId) (x : Ctx) : (s.setCtx i x).zyn.bundle = s.zyn.bundle := rfl
@[simp] theorem setCtx_zyn_tab (s : State) (i : CtxId) (x : Ctx) : (s.setCtx i x).zyn.tab = s.zyn.tab := rfl
@[simp] theorem setCtx_reg (s : State) (i : CtxId) (x : Ctx) (o : Nat) : (s.setCtx i x).reg o = s.reg o := rfl
@[simp] theorem setCtx_fld (s : State) (i : CtxId) (x : Ctx) (fd : Field) : (s.setCtx i x).fld fd = s.fld fd := rfl
@[simp] theorem setCtx_now (s : State) (i : CtxId) (x : Ctx) : (s.setCtx i x).now = s.now := rfl

/-! ### setScratch -/

@[simp] theorem setScratch_variant (s : State) (p k : Nat) (b : Byte) : (s.setScratch p k b).variant = s.variant := rfl
@[simp] theorem setScratch_regs (s : State) (p k : Nat) (b : Byte) : (s.setScratch p k b).regs = s.regs := rfl
@[simp] theorem setScratch_ttu (s : State) (p k : Nat) (b : Byte) : (s.setScratch p k b).ttu = s.ttu := rfl
@[simp] theorem setScratch_host (s : State) (p k : Nat) (b : Byte) : (s.setScratch p k b).host = s.host := rfl
@[simp] theorem setScratch_sc (s : State) (p k : Nat) (b : Byte) : (s.setScratch p k b).sc = s.sc := rfl
@[simp] theorem setScratch_map (s : State) (p k : Nat) (b : Byte) : (s.setScratch p k b).map = s.map := rfl
@[simp] theorem setScratch_media (s : State) (p k : Nat) (b : Byte) : (s.setScratch p k b).media = s.media := rfl
@[simp] theorem setScratch_jnl (s : State) (p k : Nat) (b : Byte) : (s.setScratch p k b).jnl = s.jnl := rfl
@[simp] theorem setScratch_mram (s : State) (p k : Nat) (b : Byte) : (s.setScratch p k b).mram = s.mram := rfl
@[simp] theorem setScratch_ecc (s : State) (p k : Nat) (b : Byte) : (s.setScratch p k b).ecc = s.ecc := rfl
@[simp] theorem setScratch_dmc (s : State) (p k : Nat) (b : Byte) : (s.setScratch p k b).dmc = s.dmc := rfl
@[simp] theorem setScratch_sec (s : State) (p k : Nat) (b : Byte) : (s.setScratch p k b).sec = s.sec := rfl
@[simp] theorem setScratch_pwr (s : State) (p k : Nat) (b : Byte) : (s.setScratch p k b).pwr = s.pwr := rfl
@[simp] theorem setScratch_boot (s : State) (p k : Nat) (b : Byte) : (s.setScratch p k b).boot = s.boot := rfl
@[simp] theorem setScratch_gb (s : State) (p k : Nat) (b : Byte) : (s.setScratch p k b).gb = s.gb := rfl
@[simp] theorem setScratch_th (s : State) (p k : Nat) (b : Byte) : (s.setScratch p k b).th = s.th := rfl
@[simp] theorem setScratch_tst (s : State) (p k : Nat) (b : Byte) : (s.setScratch p k b).tst = s.tst := rfl
@[simp] theorem setScratch_out (s : State) (p k : Nat) (b : Byte) : (s.setScratch p k b).out = s.out := rfl
@[simp] theorem setScratch_freeCtr (s : State) (p k : Nat) (b : Byte) : (s.setScratch p k b).freeCtr = s.freeCtr := rfl
@[simp] theorem setScratch_pending (s : State) (p k : Nat) (b : Byte) : (s.setScratch p k b).pending = s.pending := rfl
@[simp] theorem setScratch_zyn_ctxs (s : State) (p k : Nat) (b : Byte) : (s.setScratch p k b).zyn.ctxs = s.zyn.ctxs := rfl
@[simp] theorem setScratch_zyn_mail (s : State) (p k : Nat) (b : Byte) : (s.setScratch p k b).zyn.mail = s.zyn.mail := rfl
@[simp] theorem setScratch_zyn_queues (s : State) (p k : Nat) (b : Byte) : (s.setScratch p k b).zyn.queues = s.zyn.queues := rfl
@[simp] theorem setScratch_zyn_faultQ (s : State) (p k : Nat) (b : Byte) : (s.setScratch p k b).zyn.faultQ = s.zyn.faultQ := rfl
@[simp] theorem setScratch_zyn_bundle (s : State) (p k : Nat) (b : Byte) : (s.setScratch p k b).zyn.bundle = s.zyn.bundle := rfl
@[simp] theorem setScratch_zyn_tab (s : State) (p k : Nat) (b : Byte) : (s.setScratch p k b).zyn.tab = s.zyn.tab := rfl
@[simp] theorem setScratch_reg (s : State) (p k : Nat) (b : Byte) (o : Nat) : (s.setScratch p k b).reg o = s.reg o := rfl
@[simp] theorem setScratch_fld (s : State) (p k : Nat) (b : Byte) (fd : Field) : (s.setScratch p k b).fld fd = s.fld fd := rfl
@[simp] theorem setScratch_now (s : State) (p k : Nat) (b : Byte) : (s.setScratch p k b).now = s.now := rfl

/-! ### setQueue -/

@[simp] theorem setQueue_variant (s : State) (p : Nat) (l : List Request) : (s.setQueue p l).variant = s.variant := rfl
@[simp] theorem setQueue_regs (s : State) (p : Nat) (l : List Request) : (s.setQueue p l).regs = s.regs := rfl
@[simp] theorem setQueue_ttu (s : State) (p : Nat) (l : List Request) : (s.setQueue p l).ttu = s.ttu := rfl
@[simp] theorem setQueue_host (s : State) (p : Nat) (l : List Request) : (s.setQueue p l).host = s.host := rfl
@[simp] theorem setQueue_sc (s : State) (p : Nat) (l : List Request) : (s.setQueue p l).sc = s.sc := rfl
@[simp] theorem setQueue_map (s : State) (p : Nat) (l : List Request) : (s.setQueue p l).map = s.map := rfl
@[simp] theorem setQueue_media (s : State) (p : Nat) (l : List Request) : (s.setQueue p l).media = s.media := rfl
@[simp] theorem setQueue_jnl (s : State) (p : Nat) (l : List Request) : (s.setQueue p l).jnl = s.jnl := rfl
@[simp] theorem setQueue_mram (s : State) (p : Nat) (l : List Request) : (s.setQueue p l).mram = s.mram := rfl
@[simp] theorem setQueue_ecc (s : State) (p : Nat) (l : List Request) : (s.setQueue p l).ecc = s.ecc := rfl
@[simp] theorem setQueue_dmc (s : State) (p : Nat) (l : List Request) : (s.setQueue p l).dmc = s.dmc := rfl
@[simp] theorem setQueue_sec (s : State) (p : Nat) (l : List Request) : (s.setQueue p l).sec = s.sec := rfl
@[simp] theorem setQueue_pwr (s : State) (p : Nat) (l : List Request) : (s.setQueue p l).pwr = s.pwr := rfl
@[simp] theorem setQueue_boot (s : State) (p : Nat) (l : List Request) : (s.setQueue p l).boot = s.boot := rfl
@[simp] theorem setQueue_gb (s : State) (p : Nat) (l : List Request) : (s.setQueue p l).gb = s.gb := rfl
@[simp] theorem setQueue_th (s : State) (p : Nat) (l : List Request) : (s.setQueue p l).th = s.th := rfl
@[simp] theorem setQueue_tst (s : State) (p : Nat) (l : List Request) : (s.setQueue p l).tst = s.tst := rfl
@[simp] theorem setQueue_out (s : State) (p : Nat) (l : List Request) : (s.setQueue p l).out = s.out := rfl
@[simp] theorem setQueue_freeCtr (s : State) (p : Nat) (l : List Request) : (s.setQueue p l).freeCtr = s.freeCtr := rfl
@[simp] theorem setQueue_pending (s : State) (p : Nat) (l : List Request) : (s.setQueue p l).pending = s.pending := rfl
@[simp] theorem setQueue_zyn_ctxs (s : State) (p : Nat) (l : List Request) : (s.setQueue p l).zyn.ctxs = s.zyn.ctxs := rfl
@[simp] theorem setQueue_zyn_scratch (s : State) (p : Nat) (l : List Request) : (s.setQueue p l).zyn.scratch = s.zyn.scratch := rfl
@[simp] theorem setQueue_zyn_mail (s : State) (p : Nat) (l : List Request) : (s.setQueue p l).zyn.mail = s.zyn.mail := rfl
@[simp] theorem setQueue_zyn_faultQ (s : State) (p : Nat) (l : List Request) : (s.setQueue p l).zyn.faultQ = s.zyn.faultQ := rfl
@[simp] theorem setQueue_zyn_bundle (s : State) (p : Nat) (l : List Request) : (s.setQueue p l).zyn.bundle = s.zyn.bundle := rfl
@[simp] theorem setQueue_zyn_tab (s : State) (p : Nat) (l : List Request) : (s.setQueue p l).zyn.tab = s.zyn.tab := rfl
@[simp] theorem setQueue_reg (s : State) (p : Nat) (l : List Request) (o : Nat) : (s.setQueue p l).reg o = s.reg o := rfl
@[simp] theorem setQueue_fld (s : State) (p : Nat) (l : List Request) (fd : Field) : (s.setQueue p l).fld fd = s.fld fd := rfl
@[simp] theorem setQueue_now (s : State) (p : Nat) (l : List Request) : (s.setQueue p l).now = s.now := rfl

/-! ### setMailbox -/

@[simp] theorem setMailbox_variant (s : State) (k : Nat) (l : List Word64) : (s.setMailbox k l).variant = s.variant := rfl
@[simp] theorem setMailbox_regs (s : State) (k : Nat) (l : List Word64) : (s.setMailbox k l).regs = s.regs := rfl
@[simp] theorem setMailbox_ttu (s : State) (k : Nat) (l : List Word64) : (s.setMailbox k l).ttu = s.ttu := rfl
@[simp] theorem setMailbox_host (s : State) (k : Nat) (l : List Word64) : (s.setMailbox k l).host = s.host := rfl
@[simp] theorem setMailbox_sc (s : State) (k : Nat) (l : List Word64) : (s.setMailbox k l).sc = s.sc := rfl
@[simp] theorem setMailbox_map (s : State) (k : Nat) (l : List Word64) : (s.setMailbox k l).map = s.map := rfl
@[simp] theorem setMailbox_media (s : State) (k : Nat) (l : List Word64) : (s.setMailbox k l).media = s.media := rfl
@[simp] theorem setMailbox_jnl (s : State) (k : Nat) (l : List Word64) : (s.setMailbox k l).jnl = s.jnl := rfl
@[simp] theorem setMailbox_mram (s : State) (k : Nat) (l : List Word64) : (s.setMailbox k l).mram = s.mram := rfl
@[simp] theorem setMailbox_ecc (s : State) (k : Nat) (l : List Word64) : (s.setMailbox k l).ecc = s.ecc := rfl
@[simp] theorem setMailbox_dmc (s : State) (k : Nat) (l : List Word64) : (s.setMailbox k l).dmc = s.dmc := rfl
@[simp] theorem setMailbox_sec (s : State) (k : Nat) (l : List Word64) : (s.setMailbox k l).sec = s.sec := rfl
@[simp] theorem setMailbox_pwr (s : State) (k : Nat) (l : List Word64) : (s.setMailbox k l).pwr = s.pwr := rfl
@[simp] theorem setMailbox_boot (s : State) (k : Nat) (l : List Word64) : (s.setMailbox k l).boot = s.boot := rfl
@[simp] theorem setMailbox_gb (s : State) (k : Nat) (l : List Word64) : (s.setMailbox k l).gb = s.gb := rfl
@[simp] theorem setMailbox_th (s : State) (k : Nat) (l : List Word64) : (s.setMailbox k l).th = s.th := rfl
@[simp] theorem setMailbox_tst (s : State) (k : Nat) (l : List Word64) : (s.setMailbox k l).tst = s.tst := rfl
@[simp] theorem setMailbox_out (s : State) (k : Nat) (l : List Word64) : (s.setMailbox k l).out = s.out := rfl
@[simp] theorem setMailbox_freeCtr (s : State) (k : Nat) (l : List Word64) : (s.setMailbox k l).freeCtr = s.freeCtr := rfl
@[simp] theorem setMailbox_pending (s : State) (k : Nat) (l : List Word64) : (s.setMailbox k l).pending = s.pending := rfl
@[simp] theorem setMailbox_zyn_ctxs (s : State) (k : Nat) (l : List Word64) : (s.setMailbox k l).zyn.ctxs = s.zyn.ctxs := rfl
@[simp] theorem setMailbox_zyn_scratch (s : State) (k : Nat) (l : List Word64) : (s.setMailbox k l).zyn.scratch = s.zyn.scratch := rfl
@[simp] theorem setMailbox_zyn_queues (s : State) (k : Nat) (l : List Word64) : (s.setMailbox k l).zyn.queues = s.zyn.queues := rfl
@[simp] theorem setMailbox_zyn_faultQ (s : State) (k : Nat) (l : List Word64) : (s.setMailbox k l).zyn.faultQ = s.zyn.faultQ := rfl
@[simp] theorem setMailbox_zyn_bundle (s : State) (k : Nat) (l : List Word64) : (s.setMailbox k l).zyn.bundle = s.zyn.bundle := rfl
@[simp] theorem setMailbox_zyn_tab (s : State) (k : Nat) (l : List Word64) : (s.setMailbox k l).zyn.tab = s.zyn.tab := rfl
@[simp] theorem setMailbox_reg (s : State) (k : Nat) (l : List Word64) (o : Nat) : (s.setMailbox k l).reg o = s.reg o := rfl
@[simp] theorem setMailbox_fld (s : State) (k : Nat) (l : List Word64) (fd : Field) : (s.setMailbox k l).fld fd = s.fld fd := rfl
@[simp] theorem setMailbox_now (s : State) (k : Nat) (l : List Word64) : (s.setMailbox k l).now = s.now := rfl

/-! ### setWays -/

@[simp] theorem setWays_variant (s : State) (k : Nat) (l : List CacheLine) : (s.setWays k l).variant = s.variant := rfl
@[simp] theorem setWays_regs (s : State) (k : Nat) (l : List CacheLine) : (s.setWays k l).regs = s.regs := rfl
@[simp] theorem setWays_ttu (s : State) (k : Nat) (l : List CacheLine) : (s.setWays k l).ttu = s.ttu := rfl
@[simp] theorem setWays_zyn (s : State) (k : Nat) (l : List CacheLine) : (s.setWays k l).zyn = s.zyn := rfl
@[simp] theorem setWays_host (s : State) (k : Nat) (l : List CacheLine) : (s.setWays k l).host = s.host := rfl
@[simp] theorem setWays_sc (s : State) (k : Nat) (l : List CacheLine) : (s.setWays k l).sc = s.sc := rfl
@[simp] theorem setWays_media (s : State) (k : Nat) (l : List CacheLine) : (s.setWays k l).media = s.media := rfl
@[simp] theorem setWays_jnl (s : State) (k : Nat) (l : List CacheLine) : (s.setWays k l).jnl = s.jnl := rfl
@[simp] theorem setWays_mram (s : State) (k : Nat) (l : List CacheLine) : (s.setWays k l).mram = s.mram := rfl
@[simp] theorem setWays_ecc (s : State) (k : Nat) (l : List CacheLine) : (s.setWays k l).ecc = s.ecc := rfl
@[simp] theorem setWays_dmc (s : State) (k : Nat) (l : List CacheLine) : (s.setWays k l).dmc = s.dmc := rfl
@[simp] theorem setWays_sec (s : State) (k : Nat) (l : List CacheLine) : (s.setWays k l).sec = s.sec := rfl
@[simp] theorem setWays_pwr (s : State) (k : Nat) (l : List CacheLine) : (s.setWays k l).pwr = s.pwr := rfl
@[simp] theorem setWays_boot (s : State) (k : Nat) (l : List CacheLine) : (s.setWays k l).boot = s.boot := rfl
@[simp] theorem setWays_gb (s : State) (k : Nat) (l : List CacheLine) : (s.setWays k l).gb = s.gb := rfl
@[simp] theorem setWays_th (s : State) (k : Nat) (l : List CacheLine) : (s.setWays k l).th = s.th := rfl
@[simp] theorem setWays_tst (s : State) (k : Nat) (l : List CacheLine) : (s.setWays k l).tst = s.tst := rfl
@[simp] theorem setWays_out (s : State) (k : Nat) (l : List CacheLine) : (s.setWays k l).out = s.out := rfl
@[simp] theorem setWays_freeCtr (s : State) (k : Nat) (l : List CacheLine) : (s.setWays k l).freeCtr = s.freeCtr := rfl
@[simp] theorem setWays_pending (s : State) (k : Nat) (l : List CacheLine) : (s.setWays k l).pending = s.pending := rfl
@[simp] theorem setWays_map_zstamps (s : State) (k : Nat) (l : List CacheLine) : (s.setWays k l).map.zstamps = s.map.zstamps := rfl
@[simp] theorem setWays_map_rings (s : State) (k : Nat) (l : List CacheLine) : (s.setWays k l).map.rings = s.map.rings := rfl
@[simp] theorem setWays_map_reserved (s : State) (k : Nat) (l : List CacheLine) : (s.setWays k l).map.reserved = s.map.reserved := rfl
@[simp] theorem setWays_reg (s : State) (k : Nat) (l : List CacheLine) (o : Nat) : (s.setWays k l).reg o = s.reg o := rfl
@[simp] theorem setWays_fld (s : State) (k : Nat) (l : List CacheLine) (fd : Field) : (s.setWays k l).fld fd = s.fld fd := rfl
@[simp] theorem setWays_now (s : State) (k : Nat) (l : List CacheLine) : (s.setWays k l).now = s.now := rfl

/-! ### setLun -/

@[simp] theorem setLun_variant (s : State) (d : Nat) (l : Lun) : (s.setLun d l).variant = s.variant := rfl
@[simp] theorem setLun_regs (s : State) (d : Nat) (l : Lun) : (s.setLun d l).regs = s.regs := rfl
@[simp] theorem setLun_ttu (s : State) (d : Nat) (l : Lun) : (s.setLun d l).ttu = s.ttu := rfl
@[simp] theorem setLun_zyn (s : State) (d : Nat) (l : Lun) : (s.setLun d l).zyn = s.zyn := rfl
@[simp] theorem setLun_host (s : State) (d : Nat) (l : Lun) : (s.setLun d l).host = s.host := rfl
@[simp] theorem setLun_sc (s : State) (d : Nat) (l : Lun) : (s.setLun d l).sc = s.sc := rfl
@[simp] theorem setLun_map (s : State) (d : Nat) (l : Lun) : (s.setLun d l).map = s.map := rfl
@[simp] theorem setLun_jnl (s : State) (d : Nat) (l : Lun) : (s.setLun d l).jnl = s.jnl := rfl
@[simp] theorem setLun_mram (s : State) (d : Nat) (l : Lun) : (s.setLun d l).mram = s.mram := rfl
@[simp] theorem setLun_ecc (s : State) (d : Nat) (l : Lun) : (s.setLun d l).ecc = s.ecc := rfl
@[simp] theorem setLun_dmc (s : State) (d : Nat) (l : Lun) : (s.setLun d l).dmc = s.dmc := rfl
@[simp] theorem setLun_sec (s : State) (d : Nat) (l : Lun) : (s.setLun d l).sec = s.sec := rfl
@[simp] theorem setLun_pwr (s : State) (d : Nat) (l : Lun) : (s.setLun d l).pwr = s.pwr := rfl
@[simp] theorem setLun_boot (s : State) (d : Nat) (l : Lun) : (s.setLun d l).boot = s.boot := rfl
@[simp] theorem setLun_gb (s : State) (d : Nat) (l : Lun) : (s.setLun d l).gb = s.gb := rfl
@[simp] theorem setLun_th (s : State) (d : Nat) (l : Lun) : (s.setLun d l).th = s.th := rfl
@[simp] theorem setLun_tst (s : State) (d : Nat) (l : Lun) : (s.setLun d l).tst = s.tst := rfl
@[simp] theorem setLun_out (s : State) (d : Nat) (l : Lun) : (s.setLun d l).out = s.out := rfl
@[simp] theorem setLun_freeCtr (s : State) (d : Nat) (l : Lun) : (s.setLun d l).freeCtr = s.freeCtr := rfl
@[simp] theorem setLun_pending (s : State) (d : Nat) (l : Lun) : (s.setLun d l).pending = s.pending := rfl
@[simp] theorem setLun_media_nand (s : State) (d : Nat) (l : Lun) : (s.setLun d l).media.nand = s.media.nand := rfl
@[simp] theorem setLun_media_slots (s : State) (d : Nat) (l : Lun) : (s.setLun d l).media.slots = s.media.slots := rfl
@[simp] theorem setLun_media_stripes (s : State) (d : Nat) (l : Lun) : (s.setLun d l).media.stripes = s.media.stripes := rfl
@[simp] theorem setLun_media_dies (s : State) (d : Nat) (l : Lun) : (s.setLun d l).media.dies = s.media.dies := rfl
@[simp] theorem setLun_media_decoding (s : State) (d : Nat) (l : Lun) : (s.setLun d l).media.decoding = s.media.decoding := rfl
@[simp] theorem setLun_reg (s : State) (d : Nat) (l : Lun) (o : Nat) : (s.setLun d l).reg o = s.reg o := rfl
@[simp] theorem setLun_fld (s : State) (d : Nat) (l : Lun) (fd : Field) : (s.setLun d l).fld fd = s.fld fd := rfl
@[simp] theorem setLun_now (s : State) (d : Nat) (l : Lun) : (s.setLun d l).now = s.now := rfl

/-! ### setDom -/

@[simp] theorem setDom_variant (s : State) (d v : Nat) : (s.setDom d v).variant = s.variant := rfl
@[simp] theorem setDom_regs (s : State) (d v : Nat) : (s.setDom d v).regs = s.regs := rfl
@[simp] theorem setDom_ttu (s : State) (d v : Nat) : (s.setDom d v).ttu = s.ttu := rfl
@[simp] theorem setDom_zyn (s : State) (d v : Nat) : (s.setDom d v).zyn = s.zyn := rfl
@[simp] theorem setDom_host (s : State) (d v : Nat) : (s.setDom d v).host = s.host := rfl
@[simp] theorem setDom_sc (s : State) (d v : Nat) : (s.setDom d v).sc = s.sc := rfl
@[simp] theorem setDom_map (s : State) (d v : Nat) : (s.setDom d v).map = s.map := rfl
@[simp] theorem setDom_media (s : State) (d v : Nat) : (s.setDom d v).media = s.media := rfl
@[simp] theorem setDom_jnl (s : State) (d v : Nat) : (s.setDom d v).jnl = s.jnl := rfl
@[simp] theorem setDom_mram (s : State) (d v : Nat) : (s.setDom d v).mram = s.mram := rfl
@[simp] theorem setDom_ecc (s : State) (d v : Nat) : (s.setDom d v).ecc = s.ecc := rfl
@[simp] theorem setDom_dmc (s : State) (d v : Nat) : (s.setDom d v).dmc = s.dmc := rfl
@[simp] theorem setDom_sec (s : State) (d v : Nat) : (s.setDom d v).sec = s.sec := rfl
@[simp] theorem setDom_boot (s : State) (d v : Nat) : (s.setDom d v).boot = s.boot := rfl
@[simp] theorem setDom_gb (s : State) (d v : Nat) : (s.setDom d v).gb = s.gb := rfl
@[simp] theorem setDom_th (s : State) (d v : Nat) : (s.setDom d v).th = s.th := rfl
@[simp] theorem setDom_tst (s : State) (d v : Nat) : (s.setDom d v).tst = s.tst := rfl
@[simp] theorem setDom_out (s : State) (d v : Nat) : (s.setDom d v).out = s.out := rfl
@[simp] theorem setDom_freeCtr (s : State) (d v : Nat) : (s.setDom d v).freeCtr = s.freeCtr := rfl
@[simp] theorem setDom_pending (s : State) (d v : Nat) : (s.setDom d v).pending = s.pending := rfl
@[simp] theorem setDom_pwr_entries (s : State) (d v : Nat) : (s.setDom d v).pwr.entries = s.pwr.entries := rfl
@[simp] theorem setDom_pwr_banks (s : State) (d v : Nat) : (s.setDom d v).pwr.banks = s.pwr.banks := rfl
@[simp] theorem setDom_pwr_trans (s : State) (d v : Nat) : (s.setDom d v).pwr.trans = s.pwr.trans := rfl
@[simp] theorem setDom_pwr_s3 (s : State) (d v : Nat) : (s.setDom d v).pwr.s3 = s.pwr.s3 := rfl
@[simp] theorem setDom_pwr_s4 (s : State) (d v : Nat) : (s.setDom d v).pwr.s4 = s.pwr.s4 := rfl
@[simp] theorem setDom_reg (s : State) (d v : Nat) (o : Nat) : (s.setDom d v).reg o = s.reg o := rfl
@[simp] theorem setDom_fld (s : State) (d v : Nat) (fd : Field) : (s.setDom d v).fld fd = s.fld fd := rfl
@[simp] theorem setDom_now (s : State) (d v : Nat) : (s.setDom d v).now = s.now := rfl

/-! ### setFuses -/

@[simp] theorem setFuses_variant (s : State) (f : Fuses) : (s.setFuses f).variant = s.variant := rfl
@[simp] theorem setFuses_regs (s : State) (f : Fuses) : (s.setFuses f).regs = s.regs := rfl
@[simp] theorem setFuses_ttu (s : State) (f : Fuses) : (s.setFuses f).ttu = s.ttu := rfl
@[simp] theorem setFuses_zyn (s : State) (f : Fuses) : (s.setFuses f).zyn = s.zyn := rfl
@[simp] theorem setFuses_host (s : State) (f : Fuses) : (s.setFuses f).host = s.host := rfl
@[simp] theorem setFuses_sc (s : State) (f : Fuses) : (s.setFuses f).sc = s.sc := rfl
@[simp] theorem setFuses_map (s : State) (f : Fuses) : (s.setFuses f).map = s.map := rfl
@[simp] theorem setFuses_media (s : State) (f : Fuses) : (s.setFuses f).media = s.media := rfl
@[simp] theorem setFuses_jnl (s : State) (f : Fuses) : (s.setFuses f).jnl = s.jnl := rfl
@[simp] theorem setFuses_mram (s : State) (f : Fuses) : (s.setFuses f).mram = s.mram := rfl
@[simp] theorem setFuses_ecc (s : State) (f : Fuses) : (s.setFuses f).ecc = s.ecc := rfl
@[simp] theorem setFuses_dmc (s : State) (f : Fuses) : (s.setFuses f).dmc = s.dmc := rfl
@[simp] theorem setFuses_pwr (s : State) (f : Fuses) : (s.setFuses f).pwr = s.pwr := rfl
@[simp] theorem setFuses_boot (s : State) (f : Fuses) : (s.setFuses f).boot = s.boot := rfl
@[simp] theorem setFuses_gb (s : State) (f : Fuses) : (s.setFuses f).gb = s.gb := rfl
@[simp] theorem setFuses_th (s : State) (f : Fuses) : (s.setFuses f).th = s.th := rfl
@[simp] theorem setFuses_tst (s : State) (f : Fuses) : (s.setFuses f).tst = s.tst := rfl
@[simp] theorem setFuses_out (s : State) (f : Fuses) : (s.setFuses f).out = s.out := rfl
@[simp] theorem setFuses_freeCtr (s : State) (f : Fuses) : (s.setFuses f).freeCtr = s.freeCtr := rfl
@[simp] theorem setFuses_pending (s : State) (f : Fuses) : (s.setFuses f).pending = s.pending := rfl
@[simp] theorem setFuses_sec_blocks (s : State) (f : Fuses) : (s.setFuses f).sec.blocks = s.sec.blocks := rfl
@[simp] theorem setFuses_sec_slots (s : State) (f : Fuses) : (s.setFuses f).sec.slots = s.sec.slots := rfl
@[simp] theorem setFuses_sec_ledger (s : State) (f : Fuses) : (s.setFuses f).sec.ledger = s.sec.ledger := rfl
@[simp] theorem setFuses_sec_spdm (s : State) (f : Fuses) : (s.setFuses f).sec.spdm = s.sec.spdm := rfl
@[simp] theorem setFuses_reg (s : State) (f : Fuses) (o : Nat) : (s.setFuses f).reg o = s.reg o := rfl
@[simp] theorem setFuses_fld (s : State) (f : Fuses) (fd : Field) : (s.setFuses f).fld fd = s.fld fd := rfl
@[simp] theorem setFuses_now (s : State) (f : Fuses) : (s.setFuses f).now = s.now := rfl

/-! ### setBlocks -/

@[simp] theorem setBlocks_variant (s : State) (b : KeyBlocks) : (s.setBlocks b).variant = s.variant := rfl
@[simp] theorem setBlocks_regs (s : State) (b : KeyBlocks) : (s.setBlocks b).regs = s.regs := rfl
@[simp] theorem setBlocks_ttu (s : State) (b : KeyBlocks) : (s.setBlocks b).ttu = s.ttu := rfl
@[simp] theorem setBlocks_zyn (s : State) (b : KeyBlocks) : (s.setBlocks b).zyn = s.zyn := rfl
@[simp] theorem setBlocks_host (s : State) (b : KeyBlocks) : (s.setBlocks b).host = s.host := rfl
@[simp] theorem setBlocks_sc (s : State) (b : KeyBlocks) : (s.setBlocks b).sc = s.sc := rfl
@[simp] theorem setBlocks_map (s : State) (b : KeyBlocks) : (s.setBlocks b).map = s.map := rfl
@[simp] theorem setBlocks_media (s : State) (b : KeyBlocks) : (s.setBlocks b).media = s.media := rfl
@[simp] theorem setBlocks_jnl (s : State) (b : KeyBlocks) : (s.setBlocks b).jnl = s.jnl := rfl
@[simp] theorem setBlocks_mram (s : State) (b : KeyBlocks) : (s.setBlocks b).mram = s.mram := rfl
@[simp] theorem setBlocks_ecc (s : State) (b : KeyBlocks) : (s.setBlocks b).ecc = s.ecc := rfl
@[simp] theorem setBlocks_dmc (s : State) (b : KeyBlocks) : (s.setBlocks b).dmc = s.dmc := rfl
@[simp] theorem setBlocks_pwr (s : State) (b : KeyBlocks) : (s.setBlocks b).pwr = s.pwr := rfl
@[simp] theorem setBlocks_boot (s : State) (b : KeyBlocks) : (s.setBlocks b).boot = s.boot := rfl
@[simp] theorem setBlocks_gb (s : State) (b : KeyBlocks) : (s.setBlocks b).gb = s.gb := rfl
@[simp] theorem setBlocks_th (s : State) (b : KeyBlocks) : (s.setBlocks b).th = s.th := rfl
@[simp] theorem setBlocks_tst (s : State) (b : KeyBlocks) : (s.setBlocks b).tst = s.tst := rfl
@[simp] theorem setBlocks_out (s : State) (b : KeyBlocks) : (s.setBlocks b).out = s.out := rfl
@[simp] theorem setBlocks_freeCtr (s : State) (b : KeyBlocks) : (s.setBlocks b).freeCtr = s.freeCtr := rfl
@[simp] theorem setBlocks_pending (s : State) (b : KeyBlocks) : (s.setBlocks b).pending = s.pending := rfl
@[simp] theorem setBlocks_sec_fuses (s : State) (b : KeyBlocks) : (s.setBlocks b).sec.fuses = s.sec.fuses := rfl
@[simp] theorem setBlocks_sec_slots (s : State) (b : KeyBlocks) : (s.setBlocks b).sec.slots = s.sec.slots := rfl
@[simp] theorem setBlocks_sec_ledger (s : State) (b : KeyBlocks) : (s.setBlocks b).sec.ledger = s.sec.ledger := rfl
@[simp] theorem setBlocks_sec_spdm (s : State) (b : KeyBlocks) : (s.setBlocks b).sec.spdm = s.sec.spdm := rfl
@[simp] theorem setBlocks_reg (s : State) (b : KeyBlocks) (o : Nat) : (s.setBlocks b).reg o = s.reg o := rfl
@[simp] theorem setBlocks_fld (s : State) (b : KeyBlocks) (fd : Field) : (s.setBlocks b).fld fd = s.fld fd := rfl
@[simp] theorem setBlocks_now (s : State) (b : KeyBlocks) : (s.setBlocks b).now = s.now := rfl

/-! ### setSlot -/

@[simp] theorem setSlot_variant (s : State) (k : Nat) (v : XtsKey) : (s.setSlot k v).variant = s.variant := rfl
@[simp] theorem setSlot_regs (s : State) (k : Nat) (v : XtsKey) : (s.setSlot k v).regs = s.regs := rfl
@[simp] theorem setSlot_ttu (s : State) (k : Nat) (v : XtsKey) : (s.setSlot k v).ttu = s.ttu := rfl
@[simp] theorem setSlot_zyn (s : State) (k : Nat) (v : XtsKey) : (s.setSlot k v).zyn = s.zyn := rfl
@[simp] theorem setSlot_host (s : State) (k : Nat) (v : XtsKey) : (s.setSlot k v).host = s.host := rfl
@[simp] theorem setSlot_sc (s : State) (k : Nat) (v : XtsKey) : (s.setSlot k v).sc = s.sc := rfl
@[simp] theorem setSlot_map (s : State) (k : Nat) (v : XtsKey) : (s.setSlot k v).map = s.map := rfl
@[simp] theorem setSlot_media (s : State) (k : Nat) (v : XtsKey) : (s.setSlot k v).media = s.media := rfl
@[simp] theorem setSlot_jnl (s : State) (k : Nat) (v : XtsKey) : (s.setSlot k v).jnl = s.jnl := rfl
@[simp] theorem setSlot_mram (s : State) (k : Nat) (v : XtsKey) : (s.setSlot k v).mram = s.mram := rfl
@[simp] theorem setSlot_ecc (s : State) (k : Nat) (v : XtsKey) : (s.setSlot k v).ecc = s.ecc := rfl
@[simp] theorem setSlot_dmc (s : State) (k : Nat) (v : XtsKey) : (s.setSlot k v).dmc = s.dmc := rfl
@[simp] theorem setSlot_pwr (s : State) (k : Nat) (v : XtsKey) : (s.setSlot k v).pwr = s.pwr := rfl
@[simp] theorem setSlot_boot (s : State) (k : Nat) (v : XtsKey) : (s.setSlot k v).boot = s.boot := rfl
@[simp] theorem setSlot_gb (s : State) (k : Nat) (v : XtsKey) : (s.setSlot k v).gb = s.gb := rfl
@[simp] theorem setSlot_th (s : State) (k : Nat) (v : XtsKey) : (s.setSlot k v).th = s.th := rfl
@[simp] theorem setSlot_tst (s : State) (k : Nat) (v : XtsKey) : (s.setSlot k v).tst = s.tst := rfl
@[simp] theorem setSlot_out (s : State) (k : Nat) (v : XtsKey) : (s.setSlot k v).out = s.out := rfl
@[simp] theorem setSlot_freeCtr (s : State) (k : Nat) (v : XtsKey) : (s.setSlot k v).freeCtr = s.freeCtr := rfl
@[simp] theorem setSlot_pending (s : State) (k : Nat) (v : XtsKey) : (s.setSlot k v).pending = s.pending := rfl
@[simp] theorem setSlot_sec_fuses (s : State) (k : Nat) (v : XtsKey) : (s.setSlot k v).sec.fuses = s.sec.fuses := rfl
@[simp] theorem setSlot_sec_blocks (s : State) (k : Nat) (v : XtsKey) : (s.setSlot k v).sec.blocks = s.sec.blocks := rfl
@[simp] theorem setSlot_sec_ledger (s : State) (k : Nat) (v : XtsKey) : (s.setSlot k v).sec.ledger = s.sec.ledger := rfl
@[simp] theorem setSlot_sec_spdm (s : State) (k : Nat) (v : XtsKey) : (s.setSlot k v).sec.spdm = s.sec.spdm := rfl
@[simp] theorem setSlot_reg (s : State) (k : Nat) (v : XtsKey) (o : Nat) : (s.setSlot k v).reg o = s.reg o := rfl
@[simp] theorem setSlot_fld (s : State) (k : Nat) (v : XtsKey) (fd : Field) : (s.setSlot k v).fld fd = s.fld fd := rfl
@[simp] theorem setSlot_now (s : State) (k : Nat) (v : XtsKey) : (s.setSlot k v).now = s.now := rfl

/-! ### setLedger -/

@[simp] theorem setLedger_variant (s : State) (l : Ledger) : (s.setLedger l).variant = s.variant := rfl
@[simp] theorem setLedger_regs (s : State) (l : Ledger) : (s.setLedger l).regs = s.regs := rfl
@[simp] theorem setLedger_ttu (s : State) (l : Ledger) : (s.setLedger l).ttu = s.ttu := rfl
@[simp] theorem setLedger_zyn (s : State) (l : Ledger) : (s.setLedger l).zyn = s.zyn := rfl
@[simp] theorem setLedger_host (s : State) (l : Ledger) : (s.setLedger l).host = s.host := rfl
@[simp] theorem setLedger_sc (s : State) (l : Ledger) : (s.setLedger l).sc = s.sc := rfl
@[simp] theorem setLedger_map (s : State) (l : Ledger) : (s.setLedger l).map = s.map := rfl
@[simp] theorem setLedger_media (s : State) (l : Ledger) : (s.setLedger l).media = s.media := rfl
@[simp] theorem setLedger_jnl (s : State) (l : Ledger) : (s.setLedger l).jnl = s.jnl := rfl
@[simp] theorem setLedger_mram (s : State) (l : Ledger) : (s.setLedger l).mram = s.mram := rfl
@[simp] theorem setLedger_ecc (s : State) (l : Ledger) : (s.setLedger l).ecc = s.ecc := rfl
@[simp] theorem setLedger_dmc (s : State) (l : Ledger) : (s.setLedger l).dmc = s.dmc := rfl
@[simp] theorem setLedger_pwr (s : State) (l : Ledger) : (s.setLedger l).pwr = s.pwr := rfl
@[simp] theorem setLedger_boot (s : State) (l : Ledger) : (s.setLedger l).boot = s.boot := rfl
@[simp] theorem setLedger_gb (s : State) (l : Ledger) : (s.setLedger l).gb = s.gb := rfl
@[simp] theorem setLedger_th (s : State) (l : Ledger) : (s.setLedger l).th = s.th := rfl
@[simp] theorem setLedger_tst (s : State) (l : Ledger) : (s.setLedger l).tst = s.tst := rfl
@[simp] theorem setLedger_out (s : State) (l : Ledger) : (s.setLedger l).out = s.out := rfl
@[simp] theorem setLedger_freeCtr (s : State) (l : Ledger) : (s.setLedger l).freeCtr = s.freeCtr := rfl
@[simp] theorem setLedger_pending (s : State) (l : Ledger) : (s.setLedger l).pending = s.pending := rfl
@[simp] theorem setLedger_sec_fuses (s : State) (l : Ledger) : (s.setLedger l).sec.fuses = s.sec.fuses := rfl
@[simp] theorem setLedger_sec_blocks (s : State) (l : Ledger) : (s.setLedger l).sec.blocks = s.sec.blocks := rfl
@[simp] theorem setLedger_sec_slots (s : State) (l : Ledger) : (s.setLedger l).sec.slots = s.sec.slots := rfl
@[simp] theorem setLedger_sec_spdm (s : State) (l : Ledger) : (s.setLedger l).sec.spdm = s.sec.spdm := rfl
@[simp] theorem setLedger_reg (s : State) (l : Ledger) (o : Nat) : (s.setLedger l).reg o = s.reg o := rfl
@[simp] theorem setLedger_fld (s : State) (l : Ledger) (fd : Field) : (s.setLedger l).fld fd = s.fld fd := rfl
@[simp] theorem setLedger_now (s : State) (l : Ledger) : (s.setLedger l).now = s.now := rfl

/-! ### setSpdm -/

@[simp] theorem setSpdm_variant (s : State) (b : Nat) (x : Spdm) : (s.setSpdm b x).variant = s.variant := rfl
@[simp] theorem setSpdm_regs (s : State) (b : Nat) (x : Spdm) : (s.setSpdm b x).regs = s.regs := rfl
@[simp] theorem setSpdm_ttu (s : State) (b : Nat) (x : Spdm) : (s.setSpdm b x).ttu = s.ttu := rfl
@[simp] theorem setSpdm_zyn (s : State) (b : Nat) (x : Spdm) : (s.setSpdm b x).zyn = s.zyn := rfl
@[simp] theorem setSpdm_host (s : State) (b : Nat) (x : Spdm) : (s.setSpdm b x).host = s.host := rfl
@[simp] theorem setSpdm_sc (s : State) (b : Nat) (x : Spdm) : (s.setSpdm b x).sc = s.sc := rfl
@[simp] theorem setSpdm_map (s : State) (b : Nat) (x : Spdm) : (s.setSpdm b x).map = s.map := rfl
@[simp] theorem setSpdm_media (s : State) (b : Nat) (x : Spdm) : (s.setSpdm b x).media = s.media := rfl
@[simp] theorem setSpdm_jnl (s : State) (b : Nat) (x : Spdm) : (s.setSpdm b x).jnl = s.jnl := rfl
@[simp] theorem setSpdm_mram (s : State) (b : Nat) (x : Spdm) : (s.setSpdm b x).mram = s.mram := rfl
@[simp] theorem setSpdm_ecc (s : State) (b : Nat) (x : Spdm) : (s.setSpdm b x).ecc = s.ecc := rfl
@[simp] theorem setSpdm_dmc (s : State) (b : Nat) (x : Spdm) : (s.setSpdm b x).dmc = s.dmc := rfl
@[simp] theorem setSpdm_pwr (s : State) (b : Nat) (x : Spdm) : (s.setSpdm b x).pwr = s.pwr := rfl
@[simp] theorem setSpdm_boot (s : State) (b : Nat) (x : Spdm) : (s.setSpdm b x).boot = s.boot := rfl
@[simp] theorem setSpdm_gb (s : State) (b : Nat) (x : Spdm) : (s.setSpdm b x).gb = s.gb := rfl
@[simp] theorem setSpdm_th (s : State) (b : Nat) (x : Spdm) : (s.setSpdm b x).th = s.th := rfl
@[simp] theorem setSpdm_tst (s : State) (b : Nat) (x : Spdm) : (s.setSpdm b x).tst = s.tst := rfl
@[simp] theorem setSpdm_out (s : State) (b : Nat) (x : Spdm) : (s.setSpdm b x).out = s.out := rfl
@[simp] theorem setSpdm_freeCtr (s : State) (b : Nat) (x : Spdm) : (s.setSpdm b x).freeCtr = s.freeCtr := rfl
@[simp] theorem setSpdm_pending (s : State) (b : Nat) (x : Spdm) : (s.setSpdm b x).pending = s.pending := rfl
@[simp] theorem setSpdm_sec_fuses (s : State) (b : Nat) (x : Spdm) : (s.setSpdm b x).sec.fuses = s.sec.fuses := rfl
@[simp] theorem setSpdm_sec_blocks (s : State) (b : Nat) (x : Spdm) : (s.setSpdm b x).sec.blocks = s.sec.blocks := rfl
@[simp] theorem setSpdm_sec_slots (s : State) (b : Nat) (x : Spdm) : (s.setSpdm b x).sec.slots = s.sec.slots := rfl
@[simp] theorem setSpdm_sec_ledger (s : State) (b : Nat) (x : Spdm) : (s.setSpdm b x).sec.ledger = s.sec.ledger := rfl
@[simp] theorem setSpdm_reg (s : State) (b : Nat) (x : Spdm) (o : Nat) : (s.setSpdm b x).reg o = s.reg o := rfl
@[simp] theorem setSpdm_fld (s : State) (b : Nat) (x : Spdm) (fd : Field) : (s.setSpdm b x).fld fd = s.fld fd := rfl
@[simp] theorem setSpdm_now (s : State) (b : Nat) (x : Spdm) : (s.setSpdm b x).now = s.now := rfl

/-! ### setLoops -/

@[simp] theorem setLoops_variant (s : State) (l : List Loop) : (s.setLoops l).variant = s.variant := rfl
@[simp] theorem setLoops_regs (s : State) (l : List Loop) : (s.setLoops l).regs = s.regs := rfl
@[simp] theorem setLoops_ttu (s : State) (l : List Loop) : (s.setLoops l).ttu = s.ttu := rfl
@[simp] theorem setLoops_zyn (s : State) (l : List Loop) : (s.setLoops l).zyn = s.zyn := rfl
@[simp] theorem setLoops_host (s : State) (l : List Loop) : (s.setLoops l).host = s.host := rfl
@[simp] theorem setLoops_sc (s : State) (l : List Loop) : (s.setLoops l).sc = s.sc := rfl
@[simp] theorem setLoops_map (s : State) (l : List Loop) : (s.setLoops l).map = s.map := rfl
@[simp] theorem setLoops_media (s : State) (l : List Loop) : (s.setLoops l).media = s.media := rfl
@[simp] theorem setLoops_jnl (s : State) (l : List Loop) : (s.setLoops l).jnl = s.jnl := rfl
@[simp] theorem setLoops_mram (s : State) (l : List Loop) : (s.setLoops l).mram = s.mram := rfl
@[simp] theorem setLoops_ecc (s : State) (l : List Loop) : (s.setLoops l).ecc = s.ecc := rfl
@[simp] theorem setLoops_dmc (s : State) (l : List Loop) : (s.setLoops l).dmc = s.dmc := rfl
@[simp] theorem setLoops_sec (s : State) (l : List Loop) : (s.setLoops l).sec = s.sec := rfl
@[simp] theorem setLoops_pwr (s : State) (l : List Loop) : (s.setLoops l).pwr = s.pwr := rfl
@[simp] theorem setLoops_boot (s : State) (l : List Loop) : (s.setLoops l).boot = s.boot := rfl
@[simp] theorem setLoops_gb (s : State) (l : List Loop) : (s.setLoops l).gb = s.gb := rfl
@[simp] theorem setLoops_th (s : State) (l : List Loop) : (s.setLoops l).th = s.th := rfl
@[simp] theorem setLoops_out (s : State) (l : List Loop) : (s.setLoops l).out = s.out := rfl
@[simp] theorem setLoops_freeCtr (s : State) (l : List Loop) : (s.setLoops l).freeCtr = s.freeCtr := rfl
@[simp] theorem setLoops_pending (s : State) (l : List Loop) : (s.setLoops l).pending = s.pending := rfl
@[simp] theorem setLoops_tst_tap (s : State) (l : List Loop) : (s.setLoops l).tst.tap = s.tst.tap := rfl
@[simp] theorem setLoops_tst_selfTest (s : State) (l : List Loop) : (s.setLoops l).tst.selfTest = s.tst.selfTest := rfl
@[simp] theorem setLoops_reg (s : State) (l : List Loop) (o : Nat) : (s.setLoops l).reg o = s.reg o := rfl
@[simp] theorem setLoops_fld (s : State) (l : List Loop) (fd : Field) : (s.setLoops l).fld fd = s.fld fd := rfl
@[simp] theorem setLoops_now (s : State) (l : List Loop) : (s.setLoops l).now = s.now := rfl

/-! ### setShutdown -/

@[simp] theorem setShutdown_variant (s : State) (v : Nat) : (s.setShutdown v).variant = s.variant := rfl
@[simp] theorem setShutdown_regs (s : State) (v : Nat) : (s.setShutdown v).regs = s.regs := rfl
@[simp] theorem setShutdown_ttu (s : State) (v : Nat) : (s.setShutdown v).ttu = s.ttu := rfl
@[simp] theorem setShutdown_zyn (s : State) (v : Nat) : (s.setShutdown v).zyn = s.zyn := rfl
@[simp] theorem setShutdown_host (s : State) (v : Nat) : (s.setShutdown v).host = s.host := rfl
@[simp] theorem setShutdown_sc (s : State) (v : Nat) : (s.setShutdown v).sc = s.sc := rfl
@[simp] theorem setShutdown_map (s : State) (v : Nat) : (s.setShutdown v).map = s.map := rfl
@[simp] theorem setShutdown_media (s : State) (v : Nat) : (s.setShutdown v).media = s.media := rfl
@[simp] theorem setShutdown_jnl (s : State) (v : Nat) : (s.setShutdown v).jnl = s.jnl := rfl
@[simp] theorem setShutdown_ecc (s : State) (v : Nat) : (s.setShutdown v).ecc = s.ecc := rfl
@[simp] theorem setShutdown_dmc (s : State) (v : Nat) : (s.setShutdown v).dmc = s.dmc := rfl
@[simp] theorem setShutdown_sec (s : State) (v : Nat) : (s.setShutdown v).sec = s.sec := rfl
@[simp] theorem setShutdown_pwr (s : State) (v : Nat) : (s.setShutdown v).pwr = s.pwr := rfl
@[simp] theorem setShutdown_boot (s : State) (v : Nat) : (s.setShutdown v).boot = s.boot := rfl
@[simp] theorem setShutdown_gb (s : State) (v : Nat) : (s.setShutdown v).gb = s.gb := rfl
@[simp] theorem setShutdown_th (s : State) (v : Nat) : (s.setShutdown v).th = s.th := rfl
@[simp] theorem setShutdown_tst (s : State) (v : Nat) : (s.setShutdown v).tst = s.tst := rfl
@[simp] theorem setShutdown_out (s : State) (v : Nat) : (s.setShutdown v).out = s.out := rfl
@[simp] theorem setShutdown_freeCtr (s : State) (v : Nat) : (s.setShutdown v).freeCtr = s.freeCtr := rfl
@[simp] theorem setShutdown_pending (s : State) (v : Nat) : (s.setShutdown v).pending = s.pending := rfl
@[simp] theorem setShutdown_mram_ring (s : State) (v : Nat) : (s.setShutdown v).mram.ring = s.mram.ring := rfl
@[simp] theorem setShutdown_mram_tenant (s : State) (v : Nat) : (s.setShutdown v).mram.tenant = s.mram.tenant := rfl
@[simp] theorem setShutdown_reg (s : State) (v : Nat) (o : Nat) : (s.setShutdown v).reg o = s.reg o := rfl
@[simp] theorem setShutdown_fld (s : State) (v : Nat) (fd : Field) : (s.setShutdown v).fld fd = s.fld fd := rfl
@[simp] theorem setShutdown_now (s : State) (v : Nat) : (s.setShutdown v).now = s.now := rfl

end Sys2Proof.Machine
end

