-- ==== Sys2Proof/Machine/OpsBar.lean ====
section
/-! DEFINITION. What the host reads in a function's BAR0 and BAR4, and the capabilities of its configuration space (R144 to R146, R150, R195). No row of
the opcode table reads or writes these: they are views of the state. -/
namespace Sys2Proof.Machine

/-- The CAP register of every function (R150); the fields R150 does not name are those of the command sets of R149: CSS with the NVM and the
I/O command set bits (PRESUMED: NVMe). -/
def capReg : Word64 :=
  let mqes := 0xFFFF; let cqr := 1; let ams := 0; let tout := 16; let dstrd := 0; let css := 0x41; let mpsmin := 0; let mpsmax := 2
  BitVec.ofNat 64 (mqes + cqr * 2 ^ 16 + ams * 2 ^ 17 + tout * 2 ^ 24 + dstrd * 2 ^ 32 + css * 2 ^ 37 + mpsmin * 2 ^ 48 + mpsmax * 2 ^ 52)

/-- CC: EN and, of a shutdown under way, SHN 01b (R171, R172); entry sizes as SQES and CQES of R150. -/
def ccReg (g : Func) : Word := BitVec.ofNat 32 ((if g.en then 1 else 0) + (if g.shutdown then 2 ^ 14 else 0) + 6 * 2 ^ 16 + 4 * 2 ^ 20)
/-- CSTS: RDY, CFS, SHST. -/
def cstsReg (g : Func) : Word := BitVec.ofNat 32 ((if g.rdy then 1 else 0) + (if g.cfs then 2 else 0) + g.shst.toNat * 4)
/-- AQA: the sizes of the admin queues, 0-based (R154). -/
def aqaReg (s : State) (f : Nat) : Word :=
  BitVec.ofNat 32 (((s.sq f 0).map (·.size - 1)).getD 0 + ((s.cq f 0).map (·.size - 1)).getD 0 * 65536)

/-- A read of a function's BAR0 (R145, R150): all ones during an FLR (R195). Registers that no rule gives a value read 0. -/
def bar0Read (s : State) (f off : Nat) : Word :=
  let g := s.func f
  if g.flr then 0xFFFFFFFF
  else match off with
    | 0x00 => capReg.setWidth 32
    | 0x04 => (capReg >>> 32).setWidth 32
    | 0x08 => 0x00020000
    | 0x14 => ccReg g
    | 0x1C => cstsReg g
    | 0x24 => aqaReg s f
    | _ => 0

/-- Capabilities of a function's configuration space (R146). -/
inductive PcieCap
  | powerManagement | pciExpress | msix | aer | ari | sriov | ptm | l1Substates | secondaryPcie | dataLinkFeature | phys16 | phys32 | phys64
  | laneMargining | flitLogging | serialNumber | vendor1
deriving DecidableEq, Repr

def pfCaps : List PcieCap := [.powerManagement, .pciExpress, .msix, .aer, .ari, .sriov, .ptm, .l1Substates, .secondaryPcie, .dataLinkFeature, .phys16,
  .phys32, .phys64, .laneMargining, .flitLogging, .serialNumber, .vendor1]
def vfCaps : List PcieCap := [.pciExpress, .msix, .ari, .aer]
def State.caps (s : State) (f : Nat) : List PcieCap := if s.isPf f then pfCaps else vfCaps

end Sys2Proof.Machine
end

