-- ==== Sys2Proof/Tests/Slice0.lean ====
section
/-! SUPPORT. The model's own tests, each one step on a small state: for every statement a witness of its hypotheses clause by clause, with the
result the spec gives there; operands that name no unit; and words of the encodings. -/
set_option Elab.async false
namespace Sys2Proof.Machine

/-- A test of one command: it completes, and the check holds of the next state. -/
def gives (s : State) (x : Instr) (p : State → Bool) : Bool := match exec x s with | .next t => p t | _ => false

/-- A reset state with Zyn running an all-zero bundle of 64 words, context `i` as given. -/
def zynWith (i : CtxId) (c : Ctx) : State :=
  let code := List.replicate 64 (0 : Word)
  ({ State.reset with zyn := { State.reset.zyn with bundle := { State.reset.zyn.bundle with code0 := code, code1 := code, code2 := code, code3 := code } } }.setFld F.ZYN_STATUS.STATE 2).setCtx i c

/-- A context at word 8 with R1 = `a`, R2 = `b`, P1 set. -/
def ctxWith (a b : Word64) : Ctx := { st := .ready, budget := 1000, pc := 8, last := 7, p := 2, w := ((Vector.replicate 32 0).set 1 a).set 2 b }

def m0 : CtxId := ⟨.map, 3, 2⟩
def q0 : CtxId := ⟨.seq, 1, 7⟩
def o0 : CtxId := ⟨.pol, 0, 0⟩
def c0 : CtxId := ⟨.cmd, 7, 7⟩

/-- The context issues a one-word instruction. -/
def issues (s : State) (i : CtxId) (n : Nat) : Bool :=
  i.valid && (s.ctx i).st == .ready && s.zynRuns && decide ((s.ctx i).pc + n ≤ (s.zyn.bundle.code i.cls).length) &&
  decide ((s.ctx i).used < (s.ctx i).budget)

/-- The premise of a plain trap. -/
def plain (s : State) (i : CtxId) : Bool :=
  let c := s.ctx i
  c.cmd.isNone && !(i.cls == .pol && c.kind == 3) && decide (s.zyn.faultQ.length < 256) && c.specs == [] && c.zlocks == [] && c.susp == []

/-- The command traps context `i` with a cause. -/
def trapsB (s : State) (i : CtxId) (x : Instr) (cause pc : Nat) : Bool :=
  plain s i && gives s x fun t => (t.ctx i).st == .idle && t.fld F.ZYN_FAULT_LAST0.CAUSE == cause &&
    (match t.zyn.faultQ with | [r] => r.cause.toNat == cause && r.pc == pc | _ => false)

/-- R`d` of context `i` after a command. -/
def regIs (s : State) (i : CtxId) (x : Instr) (d : BitVec 5) (v : Word64) (cost : Nat := 1) : Bool :=
  gives s x fun t => (t.ctx i).reg d == v && (t.ctx i).pc == (s.ctx i).pc + 1 && (t.ctx i).used == cost
def predIs (s : State) (i : CtxId) (x : Instr) (p : BitVec 3) (v : Bool) : Bool :=
  gives s x fun t => (t.ctx i).pred p == v && (t.ctx i).pc == (s.ctx i).pc + 1

theorem issues_iff (s : State) (i : CtxId) (n : Nat) : issues s i n = true ↔ Issues s i n := by
  simp [issues, Issues, and_assoc]

theorem plain_iff (s : State) (i : CtxId) : plain s i = true ↔ PlainTrap s i := by
  simp [plain, PlainTrap, Option.isNone_iff_eq_none, and_assoc]
  tauto
/-! ### Zyn -/

theorem witness_ZynAluResults :
    (let s := zynWith m0 (ctxWith 0x8000000000000001 0x41)
     let a (x : Instr) (v : Word64) (n : Nat := 1) := regIs s m0 x 3 v n
     issues s m0 1 && a (.add m0 3 1 2) 0x8000000000000042 && a (.sub m0 3 2 1) 0x8000000000000040 && a (.and m0 3 1 2) 1 &&
     a (.or m0 3 1 2) 0x8000000000000041 && a (.xor m0 3 1 2) 0x8000000000000040 && a (.andn m0 3 1 2) 0x8000000000000000 &&
     a (.shl m0 3 1 2) 2 && a (.shr m0 3 1 2) 0x4000000000000000 && a (.sar m0 3 1 2) 0xC000000000000000 && a (.shli m0 3 1 63) 0x8000000000000000 &&
     a (.shri m0 3 1 63) 1 && a (.sari m0 3 1 63) 0xFFFFFFFFFFFFFFFF && a (.mullo m0 3 1 2) 0x8000000000000041 3 && a (.mulhu m0 3 1 2) 0x20 3 &&
     a (.minu m0 3 1 2) 0x41 && a (.maxu m0 3 1 2) 0x8000000000000001 && a (.clz m0 3 1) 0 && a (.clz m0 3 2) 57 && a (.clz m0 3 4) 64 &&
     a (.popc m0 3 1) 2 && a (.mov m0 3 2) 0x41 && a (.sel m0 3 1 2 1) 0x8000000000000001 && a (.sel m0 3 1 2 0) 0x41) = true := by decide +kernel

theorem witness_ZynCompareAndPredicates :
    (let s := zynWith q0 (ctxWith 0xFFFFFFFFFFFFFFFF 0x41)
     let p (x : Instr) (v : Bool) := predIs s q0 x 2 v
     issues s q0 1 && p (.cmp q0 2 1 2 .lt .set) true && p (.cmp q0 2 1 2 .ltu .set) false && p (.cmp q0 2 1 2 .ge .or) false &&
     p (.cmp q0 2 1 2 .tst .and) false && p (.cmpi q0 2 2 1 0xFFFF) false && p (.cmpi q0 2 0 2 0x41) true && p (.cmpi q0 2 3 1 0xFFFF) true &&
     p (.pand q0 2 0 1) false && p (.por q0 2 0 1) true && p (.pxor q0 2 1 1) false && p (.pnot q0 2 0) true && p (.pset q0 2) true && p (.pclr q0 2) false) = true := by
  decide +kernel

theorem witness_ZynImmediatesAndSpecials :
    (let s := zynWith c0 { ctxWith 2 0x41 with cmd := none, kind := 9, arg0 := 77, pwrMode := 2, trapPc := 5, rcMask := 6 }
     let q : Sqe := { opc := 2, nsid := 9, fuse := 1, cdw10 := 0x123, cdw12 := 0xC0000007 }
     let m : Cmd := { func := 4095, sqid := 1, sqe := q, fsn := 7, admin := true, committed := true, scr := 33, status := 0x281 }
     let u := (zynWith c0 { ctxWith 2 0x41 with cmd := some 12 }).setCmd 12 m
     let o := zynWith o0 { ctxWith 3 0 with trapCtx := 0x555 }
     let p := zynWith m0 { ctxWith 3 0 with specs := [{ tag := 1, sent := false }] }
     let e := zynWith q0 (ctxWith 3 0)
     let a (x : Instr) (v : Word64) (n : Nat := 1) := regIs s c0 x 3 v n
     let sv (n : BitVec 12) (v : Word64) := a (.svr c0 3 n) v 2
     let uv (n : BitVec 12) (v : Word64) := regIs u c0 (.svr c0 3 n) 3 v 2
     issues s c0 1 && issues u c0 1 && a (.addi c0 3 2 0xFFFF) 0x40 && a (.andi c0 3 2 0xFF01) 1 && a (.ori c0 3 2 0x8000) 0x8041 && a (.xori c0 3 2 1) 0x40 &&
     a (.movi c0 3 0x8000) 0xFFFFFFFFFFFF8000 && a (.movsh c0 3 5) 5 && sv 0 63 && sv 1 9 && sv 2 77 && sv 3 0 && sv 4 0 && sv 5 0 && sv 0x20 0 && sv 0x21 0 &&
     sv 0x22 5 && sv 0x30 2 && sv 0x31 (BitVec.ofNat 64 (s.fld F.PMU_STATUS.PL_CUR)) && sv 0x50 6 &&
     sv 0x10 0xFFFFFFFF && sv 0x11 0 && sv 0x16 0 && sv 0x17 0 && sv 0x18 0 &&
     uv 0x10 12 && uv 0x11 4095 && uv 0x12 9 && uv 0x13 0x123 && uv 0x14 7 && uv 0x15 0x302 && uv 0x16 33 && uv 0x17 0x281 && uv 0x18 1 &&
     regIs o o0 (.svr o0 3 0x23) 3 0x555 2 && regIs p m0 (.svr m0 3 0x40) 3 1 2 && regIs e q0 (.svr q0 3 0x40) 3 0 2 &&
     gives u (.svw c0 0x30 1) (fun t => (t.ctx c0).pwrMode == 2) && gives u (.svw c0 0x17 2) (fun t => (t.cmd 12).map (·.status) == some 0x41) &&
     issues o o0 1 && issues e q0 1 && trapsB s c0 (.svr c0 3 0x23) 4 8 && trapsB s c0 (.svr c0 3 0x40) 4 8 && trapsB e q0 (.svr q0 3 0x18) 4 8 &&
     trapsB s c0 (.svr c0 3 0xFFF) 4 8 && trapsB s c0 (.svw c0 0x10 1) 4 8 && trapsB s c0 (.svw c0 0x17 1) 4 8 && trapsB o o0 (.svw o0 0x30 1) 4 8) = true := by
  decide +kernel

theorem witness_ZynScratchAccess :
    (let i := m0
     let s := zynWith i (ctxWith 0xFFF8 0x8877665544332211)
     let st (x : Instr) (a : Nat) (v : Byte) := gives s x fun t => t.scratch i.part a == v
     let u := ((s.setScratch i.part 0xFFF8 0x11).setScratch i.part 0xFFF9 0x22).setScratch i.part 0xFFFF 0x88
     issues s i 1 && !s.scratchPoison i.part 0xFFF8 && !s.flag F.ECC_INJECT.ARMED && plain s i &&
     st (.st8 i 2 1 7) 0xFFFF 0x11 && st (.st16 i 2 1 0) 0xFFF9 0x22 && st (.st32 i 2 1 4) 0xFFFF 0x44 && st (.st64 i 2 1 0) 0xFFFF 0x88 &&
     regIs u i (.ld8 i 3 1 0) 3 0x11 2 && regIs u i (.ld16 i 3 1 0) 3 0x2211 2 && regIs u i (.ld32 i 3 1 0) 3 0x2211 2 &&
     regIs u i (.ld64 i 3 1 0) 3 0x8800000000002211 2 &&
     trapsB s i (.ld8 i 3 1 8) 7 8 && trapsB s i (.ld16 i 3 1 1) 7 8 && trapsB s i (.ld32 i 3 1 2) 7 8 && trapsB s i (.ld64 i 3 1 4) 7 8 &&
     trapsB s i (.st8 i 3 1 8) 7 8 && trapsB s i (.st16 i 3 1 1) 7 8 && trapsB s i (.st32 i 3 1 2) 7 8 && trapsB s i (.st64 i 3 1 4) 7 8) = true := by
  decide +kernel

theorem witness_ZynControlFlow :
    (let i := q0
     let s := zynWith i { ctxWith 5 0 with inVec := true }
     let u := zynWith i { ctxWith 1 0 with stack := List.replicate 8 3 }
     let v := zynWith i { ctxWith 1 0 with kind := 2 }
     let tg := zynWith i { ctxWith 1 0 with tags := 4 }
     let pc (x : State) (y : Instr) (n : Nat) := gives x y fun t => (t.ctx i).pc == n
     let cm : Cmd := { func := 0, sqid := 1, sqe := { cid := 9 }, fsn := 7 }
     let mb := zynWith m0 { ctxWith 1 0 with kind := 1, cmd := some 40 }
     let mp := ({ mb with zyn := { mb.zyn with bundle := { mb.zyn.bundle with entries0 := [{ kind := 2, codeOffset := 0, budget := 9, bev := 0xFFFFFFFF }] } } }).setCmd 40 cm
     let df := (zynWith i { ctxWith 1 0 with kind := 1, arg0 := 5 }).putSlot (stKey 1 5) { data := some 0 }
     let f : FaultRec := { cause := 1, ctxId := 70, kind := 2, pc := 0, addr := 0, cmd := some 40, timeUs := 0, req := { kind := 2 }, fsn := some 7 }
     let fa (d : Bool) (m : Cmd) := (zynWith o0 { ctxWith 1 0 with kind := 3, fault := some f, disposed := d }).setCmd 40 m
     let fr := fa false { cm with committed := true }
     let fr := { fr with zyn := { fr.zyn with bundle := { fr.zyn.bundle with entries0 := [{ kind := 2, codeOffset := 0, budget := 9, bev := 0xFFFFFFFF }] } } }
     let rs := zynWith o0 { ctxWith 1 0 with kind := 0x1F }
     let im := zynWith m0 { ctxWith 1 0 with kind := 5 }
     let idle (x : State) (j : CtxId) := issues x j 1 && gives x (.ret j) fun t => (t.ctx j).st == .idle
     issues s i 1 && issues u i 1 && issues v i 1 && pc s (.br i (-8)) 0 && pc s (.br i (-9)) (2 ^ 18) && gives s (.brV i 3) (fun t => (t.ctx i).pc == 11 && !(t.ctx i).inVec) &&
     pc s (.brp i 1 3) 11 && pc s (.brp i 0 3) 9 && pc s (.brpFalse i 1 3) 9 && pc s (.brpFalse i 0 3) 11 &&
     gives s (.call i 3) (fun t => (t.ctx i).pc == 11 && (t.ctx i).stack == [9]) && trapsB u i (.call i 3) 8 8 && pc u (.ret i) 3 &&
     trapsB s i (.ret i) 8 8 && trapsB tg i (.ret i) 10 8 && idle v i &&
     idle mp m0 && gives mp (.ret m0) (fun t => match t.queue 8 with | [r] => r.kind == 2 && r.cmd == some 40 | _ => false) &&
     idle df i && gives df (.ret i) (fun t => (sget (stKey 1 5) t.media.slots).isNone) && idle (fa true cm) o0 && idle (fa false cm) o0 &&
     gives (fa false cm) (.ret o0) (fun t => t.out.any fun o => match o with | .cqe 0 _ e => e.cid == 9 && e.sct == 0 && e.sc == 6 | _ => false) &&
     issues fr o0 1 && gives fr (.ret o0) (fun t => t.queue 8 == [{ kind := 2 }]) && idle rs o0 && gives im (.ret m0) (fun _ => true) &&
     pc s (.loopn i 1 2 (-2)) 6 && gives s (.loopn i 1 2 (-2)) (fun t => (t.ctx i).reg 1 == 3) && gives s (.loopn i 1 0 (-2)) (fun t => (t.ctx i).reg 1 == 0 && (t.ctx i).pc == 9) &&
     trapsB s i (.loopn i 1 25 (-2)) 4 8 && trapsB s i (.loopn i 1 2 0) 4 8) = true := by decide +kernel

/-- Tables 2 and 8 with something in them: list entry 5 of ZDESC in an open zone state, dies 0 to 63, 16 pages, 2 planes, 4 codewords, 8 blocks. -/
def withMedia (s : State) : State :=
  let t : Tables := { s.zyn.tab with zdesc := [(40, 2)] }
  let m : Media := { s.media with dies := List.range 64 }
  let u : State := { s with media := m, map := { s.map with listUsed := [5] }, zyn := { s.zyn with tab := t } }
  (((u.setFld F.MED_GEO0.PPB 16).setFld F.MED_GEO0.PLANES 2).setFld F.MED_GEO0.CPP 4).setFld F.MED_GEO1.BLOCKS 8

theorem witness_ZynTableInstructions :
    (let par (s : State) (mx : Sparse Nat) := { s with zyn := { s.zyn with bundle := { s.zyn.bundle with param := [10, 20, 30], paramMax := mx } } }
     let c := ctxWith 2 99
     let s := par (zynWith o0 c) [(2, 99)]
     let w := par (zynWith o0 { c with w := c.w.set 3 30 }) []
     let u := par (zynWith o0 c) [(2, 98)]
     let bit (n : Word64) := par (zynWith o0 (ctxWith n 99)) []
     let four (x : State) (tbl : BitVec 8) (k : Nat) := trapsB x o0 (.tget o0 3 1 tbl) k 8 && trapsB x o0 (.tput o0 1 2 tbl) k 8 &&
       trapsB x o0 (.tcas o0 3 1 2 tbl 2) k 8 && trapsB x o0 (.tjrn o0 3 1 2 tbl) k 8
     let k := zynWith c0 (ctxWith 2 99)
     let m := withMedia (zynWith m0 (ctxWith 5 99))
     let d (n : Word64) := withMedia (zynWith o0 (ctxWith n 99))
     issues s o0 1 && !s.underRebuild 7 2 && four (bit 0x0000080000000002) 7 4 && four (bit 0x0100000000000002) 7 4 && four s 9 4 && four s 0 4 &&
     issues k c0 1 && trapsB k c0 (.tget c0 3 1 4) 6 8 && issues m m0 1 && trapsB m m0 (.tput m0 1 2 7) 6 8 && trapsB m m0 (.tcas m0 3 1 2 4 2) 6 8 &&
     trapsB s o0 (.tjrn o0 3 1 2 7) 6 8 && trapsB (bit 0x0000010000000002) o0 (.tget o0 3 1 7) 5 8 && trapsB (bit 3) o0 (.tput o0 1 2 7) 5 8 &&
     trapsB (bit 3) o0 (.tcas o0 3 1 2 7 2) 5 8 && trapsB (d 4096) o0 (.tjrn o0 3 1 2 5) 5 8 &&
     tabInBounds (d 512) 4 512 && trapsB (d 512) o0 (.tjrn o0 3 1 2 4) 5 8 && trapsB (d 512) o0 (.tcas o0 3 1 2 4 2) 5 8 && trapsB (d 64) o0 (.tput o0 1 2 8) 5 8 &&
     regIs s o0 (.tget o0 3 1 7) 3 30 4 && gives s (.tput o0 1 2 7) (fun t => t.tabGet 7 2 0 == 99) &&
     gives w (.tcas o0 3 1 2 7 2) (fun t => t.tabGet 7 2 0 == 99 && (t.ctx o0).pred 2 && (t.ctx o0).reg 3 == 30) &&
     gives s (.tcas o0 3 1 2 7 2) (fun t => t.tabGet 7 2 0 == 30 && !(t.ctx o0).pred 2 && (t.ctx o0).reg 3 == 30) &&
     trapsB u o0 (.tput o0 1 2 7) 6 8 && trapsB u o0 (.tcas o0 3 1 2 7 2) 6 8 && tabW .pol 8 && (d 63).populated 63 && tabInBounds (d 63) 8 63 && tabW .map 3) = true := by
  decide +kernel

theorem witness_ZynTableInstructions_journaled :
    (let s := withMedia (zynWith m0 (ctxWith 5 0x3000000000000004))
     let cur := s.tabGet 2 5 0
     let e := withMedia (zynWith m0 { ctxWith 5 0x3000000000000004 with w := (ctxWith 5 0x3000000000000004).w.set 3 cur })
     let off := { s with zyn := { s.zyn with tab := { s.zyn.tab with zdesc := [] } } }
     let sn := { s with ttu := { s.ttu with rc := some { ident := 1, kind := .snapshot, mask := 0xFFFFFF, arrived := 1 <<< 19 } } }
     issues s m0 1 && tabInBounds s 2 5 && zActive (s.zs 5) && !s.underRebuild 2 5 && !s.jnlStalled m0 &&
     gives s (.tjrn m0 3 1 2 2) (fun t => (t.ctx m0).reg 3 == BitVec.ofNat 64 s.jnl.next && t.tabGet 2 5 0 == 0x3000000000000004 && t.jnl.next == s.jnl.next + 1) &&
     gives s (.tcas m0 3 1 2 2 2) (fun t => (t.ctx m0).reg 3 == cur && !(t.ctx m0).pred 2 && t.jnl.next == s.jnl.next) &&
     gives e (.tcas m0 3 1 2 2 2) (fun t => (t.ctx m0).reg 3 == cur && (t.ctx m0).pred 2 && t.tabGet 2 5 0 == 0x3000000000000004 && t.jnl.next == s.jnl.next + 1) &&
     !(off.onChip 2 5).1 && gives off (.tget m0 3 1 2) (fun t => (t.ctx m0).st == .blocked (.table (.get 3) 2 5 0) && gives t (.tableDataReturn m0 false) fun v =>
       (v.ctx m0).st == .ready && (v.ctx m0).reg 3 == 0) &&
     sn.snapStalled m0.part && gives sn (.tjrn m0 3 1 2 2) (fun t => t.ctx m0 == sn.ctx m0 && t.jnl == sn.jnl)) = true := by decide +kernel

theorem witness_ZynDataReturnAndTraps :
    (let i := q0
     let tb : CtxSt := .blocked (.table (.get 3) 7 1 0)
     let par (s : State) := { s with zyn := { s.zyn with bundle := { s.zyn.bundle with param := [10, 20, 30] } } }
     let s := par (zynWith i { ctxWith 5 0 with st := tb, bev := some 40 })
     let u := par (zynWith i { ctxWith 5 0 with st := tb })
     let v := zynWith i (ctxWith 5 0)
     let wl (since now : Nat) := { zynWith i { ctxWith 5 0 with st := .blocked (.events 4 1), since := since } with ttu := { State.reset.ttu with elapsed := now } }
     let rb := zynWith i { ctxWith 5 0 with st := .blocked (.rebuild (.get 3) 1 5 0) }
     let sl (n : Nat) := zynWith i { ctxWith 5 0 with st := .asleep, used := n }
     let same (x : State) (y : Instr) := gives x y fun t => t == x
     let lim := waitLimit v .seq
     gives s (.tableDataReturn i false) (fun t => (t.ctx i).reg 3 == 20 && (t.ctx i).st == .ready) &&
     gives s (.tableDataReturn i true) (fun t => (t.ctx i).pc == 40 && (t.ctx i).inVec && (t.ctx i).trapAddr == 0x0007000000000001 && (t.ctx i).trapPc == 7) &&
     trapsB u i (.tableDataReturn i true) 3 7 && same v (.tableDataReturn i true) && same v (.waitLimit i) && same rb (.waitLimit i) &&
     issues v i 1 && trapsB v i (.trap i 9) 11 8 && trapsB v i (.undefinedInstruction i false) 4 8 && trapsB v i (.undefinedInstruction i true) 3 8 &&
     ((wl 0 lim).reach lim).isSome && trapsB (wl 0 lim) i (.waitLimit i) 2 7 && ((wl 0 0).reach lim).isNone && same (wl 0 0) (.waitLimit i) &&
     gives v (.budgetTrap i 999) (fun t => (t.ctx i).used == 999 && (t.ctx i).st == .ready) && trapsB v i (.budgetTrap i 1000) 1 7 &&
     same (sl 999) (.budgetTrap i 5) && trapsB (sl 1000) i (.budgetTrap i 0) 1 7) = true := by decide +kernel

theorem witness_ZynQueuesAndEvents :
    (let i := m0
     let c := { ctxWith 0x12 0x41 with events := 0x30 }
     let s := zynWith i c
     let box (k : Nat) (l : List Word64) := s.setMailbox k l
     let u := box (i.part * 8 + 7) [5, 6]
     let full := box (i.part * 8 + 7) (List.replicate 256 1)
     let polA (a : Word64) := zynWith o0 (ctxWith a 0x41)
     let pol := polA 0x22
     let pe := { pol with zyn := { pol.zyn with bundle := { pol.zyn.bundle with entries3 := [{ kind := 2, codeOffset := 4, budget := 100, bev := 0xFFFFFFFF }] } } }
     let fq := pe.setQueue 57 (List.replicate 1024 { kind := 2 })
     let far := zynWith i (ctxWith 0x47 9)
     let j : CtxId := ⟨.map, 3, 7⟩
     let key := BitVec.ofNat 64 j.key
     let two := (zynWith i (ctxWith key 0)).setCtx j { ctxWith 0 0 with events := 1 }
     let wt (m : Word64) := (zynWith i (ctxWith key 0)).setCtx j { ctxWith 0 0 with st := .blocked (.events m 4) }
     let self := zynWith i (ctxWith (BitVec.ofNat 64 i.key) 0)
     let zero := zynWith i (ctxWith 0 0)
     issues s i 1 && gives u (.qpop i 3 7 2) (fun t => (t.ctx i).reg 3 == 5 && (t.ctx i).pred 2 && sgetD [] (i.part * 8 + 7) t.zyn.mail == [6]) &&
     gives u (.qpeek i 3 7 2) (fun t => (t.ctx i).reg 3 == 5 && (t.ctx i).pred 2 && t.zyn.mail == u.zyn.mail) &&
     gives s (.qpop i 3 0 1) (fun t => !(t.ctx i).pred 1) && gives s (.qpeek i 3 0 1) (fun t => !(t.ctx i).pred 1) && trapsB s i (.qpop i 3 8 1) 4 8 &&
     trapsB s i (.qpeek i 3 8 1) 4 8 && gives u (.qpush i 3 1 2 7 2) (fun t => (t.ctx i).pred 2 && sgetD [] (i.part * 8 + 7) t.zyn.mail == [5, 6, 0x41]) &&
     gives full (.qpush i 3 1 2 7 1) (fun t => !(t.ctx i).pred 1 && (t.ctx i).used == 2) &&
     gives far (.qpush i 3 1 2 15 2) (fun t => (t.ctx i).pred 2 && sgetD [] ((16 + 7) * 8 + 7) t.zyn.mail == [9]) && trapsB zero i (.qpush i 3 1 2 8 2) 4 8 &&
     trapsB s i (.qpush i 3 1 2 0x11 2) 4 8 && trapsB s i (.qpush i 3 1 2 0x14 2) 4 8 &&
     issues pe o0 1 && gives pe (.qpush o0 3 1 2 0x13 2) (fun t => (t.ctx o0).pred 2 && (match t.queue 57 with | [r] => r.kind == 2 && r.arg0 == 0x41 && r.arg1 == 0 | _ => false)) &&
     gives fq (.qpush o0 3 1 2 0x13 1) (fun t => !(t.ctx o0).pred 1 && t.queue 57 == fq.queue 57) && trapsB (polA 0x80) o0 (.qpush o0 3 1 2 0x13 2) 4 8 &&
     gives (polA 0x22) (.qpush o0 3 1 2 0x13 2) (fun t => (t.ctx o0).pred 2 && t.zyn.queues == []) && affinity pol .cmd 0 0x41 == 1 &&
     gives (polA 0x7E0) (.qpush o0 3 1 2 0x10 2) (fun t => (t.ctx o0).pred 2) &&
     gives s (.wev i 3 1) (fun t => (t.ctx i).reg 3 == 4 && (t.ctx i).events == 0x20) &&
     gives s (.wev i 3 2) (fun t => (t.ctx i).st == .blocked (.events 0x41 3)) && trapsB zero i (.wev i 3 1) 4 8 &&
     trapsB zero i (.sev i 1 0) 4 8 && trapsB (zynWith i (ctxWith 0x800 0)) i (.sev i 1 0) 4 8 &&
     gives two (.sev i 1 15) (fun t => (t.ctx j).events == 0x800000000001) && gives self (.sev i 1 0) (fun t => (t.ctx i).events == 0x100000000) &&
     gives (zynWith i (ctxWith key 0)) (.sev i 1 0) (fun t => (t.ctx j).st == .idle && (t.ctx j).events == 0) &&
     gives (wt 0x200000000) (.sev i 1 1) (fun t => (t.ctx j).st == .ready && (t.ctx j).reg 4 == 33 && (t.ctx j).events == 0) &&
     gives (wt 0x200000000) (.sev i 1 2) (fun t => (t.ctx j).st == .blocked (.events 0x200000000 4) && (t.ctx j).events == 0x400000000)) = true := by decide +kernel

theorem witness_ZynTimeWaitsAndRollCalls :
    (let s := zynWith o0 { ctxWith 0x3 0x10007 with kind := 8 }
     let i := q0
     let qs := zynWith i (ctxWith 3 7)
     let kinds (ring : Bool) : List (Instr × RcKind) := [(.rcallBarrier o0 3 1 2 ring 2, .barrier), (.rcallBroadcast o0 3 1 2 ring 2, .broadcast), (.rcallSnapshot o0 3 1 2 ring 2, .snapshot)]
     let fresh (ring : Bool) (k : RcKind) (r : RollCall) : Bool := r.kind == k && r.mask == 3 && r.ident == 7 && r.arrived.getLsbD o0.part && r.waiters == [o0.key] && r.ring == ring
     let waits (t : State) : Bool := (t.ctx o0).st == .blocked (.rollCall 3 2)
     let call (id : BitVec 16) (m : Word64) (k : RcKind) : RollCall := { ident := id, kind := k, mask := m }
     let at_ (o : RollCall) (q : List RollCall) := { s with ttu := { s.ttu with rc := some o, rcQueue := q } }
     let fails (t : State) : Bool := (t.ctx o0).st == .ready && !(t.ctx o0).pred 2 && (t.ctx o0).reg 3 == 0
     let four := [call 1 0 .barrier, call 2 0 .barrier, call 3 0 .barrier, call 4 0 .barrier]
     let g : GcFlight := { kind := .timetable, b := 5000, members := 0xFFFF }
     let v := { s with ttu := { s.ttu with gc := some g } }
     let w := { zynWith o0 (ctxWith 3 0x10007) with ttu := { s.ttu with gc := some g } }
     let late := { s with ttu := { s.ttu with gc := some { g with b := 1999 } } }
     let acked := { s with ttu := { s.ttu with gc := some { g with acks := 1 <<< 56 } } }
     let e := { s with ttu := { s.ttu with time := 5999 } }
     let no (x : State) := gives x (.rcallCommitVote o0 2 1) fun t => !(t.ctx o0).pred 1 && (t.ctx o0).used == 2 && t.ttu.gc == x.ttu.gc
     issues s o0 1 && regIs e o0 (.tnow o0 3) 3 5 2 && regIs s o0 (.ptype o0 3) 3 (BitVec.ofNat 64 s.ptype) &&
     gives s (.wper o0) (fun t => (t.ctx o0).st == .blocked .period) && gives s (.pwait o0) (fun t => (t.ctx o0).st == .asleep) &&
     gives (s.setCtx o0 { ctxWith 0 0 with events := 0x800000000000 }) (.pwait o0) (fun t => (t.ctx o0).st == .ready) &&
     issues qs i 1 && trapsB qs i (.wper i) 4 8 && trapsB qs i (.rcallCommitVote i 2 1) 4 8 && trapsB qs i (.rcallBarrier i 3 1 2 true 2) 4 8 &&
     trapsB qs i (.rcallBroadcast i 3 1 2 true 2) 4 8 && trapsB qs i (.rcallSnapshot i 3 1 2 true 2) 4 8 &&
     ([false, true].all fun ring => (kinds ring).all fun x =>
       gives s x.1 (fun t => waits t && (match t.ttu.rc with | some r => fresh ring x.2 r | none => false)) &&
       gives (at_ (call 7 3 x.2) []) x.1 (fun t => waits t && (match t.ttu.rc with | some r => r.arrived == 1 <<< 56 && r.waiters == [o0.key] | none => false)) &&
       gives (at_ (call 7 2 x.2) []) x.1 fails &&
       gives (at_ (call 9 3 x.2) [call 1 0 .barrier]) x.1 (fun t => waits t && (match t.ttu.rcQueue with | [_, r] => fresh ring x.2 r | _ => false)) &&
       gives (at_ (call 9 3 x.2) four) x.1 (fun t => (t.ctx o0).st == .blocked (.rcSlot 3 2) && (match t.ttu.rcBlocked with | [(k, r)] => k == o0.key && fresh ring x.2 r | _ => false)) &&
       gives (at_ (call 9 3 x.2) [call 7 3 x.2]) x.1 (fun t => waits t && t.ttu.rcQueue.length == 1) &&
       gives (at_ (call 9 3 x.2) [call 7 1 x.2]) x.1 fails) &&
     no s && decide (v.now + 2000 < g.b.toNat) &&
     gives v (.rcallCommitVote o0 2 2) (fun t => (t.ctx o0).pred 2 && (match t.ttu.gc with | some x => x.acks.getLsbD 56 && !x.nacks.getLsbD 56 | none => false)) &&
     gives v (.rcallCommitVote o0 1 2) (fun t => (t.ctx o0).pred 2 && (match t.ttu.gc with | some x => !x.acks.getLsbD 56 && x.nacks.getLsbD 56 | none => false)) &&
     no w && no late && no acked) = true := by decide +kernel

/-- A Sequencer context of channel 1 whose R1 names die 33, block 2, page 1, and a LUN state for die 33. -/
def nandWith (w0 w1 : Nat) (l : Lun) : State :=
  let c := { ctxWith (BitVec.ofNat 64 (33 * 2 ^ 38 + 2 * 2 ^ 20 + 256)) 0x2000000000000103 with origin := .host }
  let s := withMedia (zynWith q0 c)
  ((s.putBlock (bkey s 33 2) w0).putBlock (bkey s 33 2 + 1) w1).setLun 33 l

theorem witness_ZynNandOperations :
    (let i := q0
     let crec : BitVec 16 := 0x40
     let tbl : State := nandWith 0x10000 0 {}
     let rd0 : NandReq := { op := .read 0 0 false, kind := 0, addr := 0, cls := 1 }
     let full (x : State) := { x with media := { x.media with slots := (List.range 112).map fun k => (stKey 1 k, ({} : Slot)) } }
     let pg := nandWith 0x10000 64 {}
     let er := nandWith 0x20000 0 {}
     let u : Unit_ := { kind := 0, addr := 0, slc := true }
     let pu := nandWith 0x10000 64 { unit := some u }
     let pd := pu.putSlot (stKey 1 3) { data := some 5, acc := true }
     let su := nandWith 0x10000 64 { run := .program u }
     let re := nandWith 0x10000 64 { run := .program u, suspended := true, suspBy := some i.key }
     let top := nandWith 0x10000 64 { run := .program u, suspends := 2 }
     let ctxIs (x : State) (f : Ctx → Ctx) := x.setCtx i (f (x.ctx i))
     let wide := ctxIs tbl fun c => { c with w := c.w.set 1 (1 <<< 48) }
     let back := (ctxIs tbl fun c => { c with origin := .background }).setFld F.TT_CTRL.EN 1
     let none_ := ctxIs tbl fun c => { c with tags := 0xFFFF }
     let gone (x : State) := { x with media := { x.media with dies := [] } }
     let ok (t : State) := (t.ctx i).reg 3 == 0 && (t.ctx i).pc == 10
     let busy (t : State) := ok t && (t.ctx i).tags.getLsbD 0
     let ended (st : Nat) (t : State) := ok t && !(t.ctx i).tags.getLsbD 0 && (t.ctx i).events.getLsbD 0 && t.scratchN i.part 0x40 2 == st
     let all (k : BitVec 4) (cr : BitVec 16) : List Instr := [.nrd i 3 1 1 2 k cr, .npg i 3 1 2 k false true cr, .ner i 3 1 k cr, .nsus i 3 1 ⟨k, cr⟩, .nres i 3 1 ⟨k, cr⟩]
     issues tbl i 2 && ((all 0 0x41).all fun x => trapsB tbl i x 7 8) && ((all 0 crec).all fun x => trapsB none_ i x 9 8) &&
     ((all 0 crec).all fun x => trapsB wide i x 4 8) && ((all 8 crec).all fun x => trapsB tbl i x 4 8) &&
     gives tbl (.nrd i 3 1 0 0 7 crec) (fun t => busy t && (match (t.lun 33).run with | .read r => r.kind == 0 && r.slot == some (stKey 1 0) && r.crec == 0x40 | _ => false)) &&
     gives (nandWith 0x30000 0 {}) (.nrd i 3 1 0 0 0 crec) (ended 2) && gives (nandWith 0x10000 0 { failed := true }) (.nrd i 3 1 0 0 0 crec) (fun t => busy t && t.media.decoding.length == 1) &&
     gives (nandWith 0x10000 0 { run := .read rd0 }) (.nrd i 3 1 3 15 0 crec) (fun t => busy t && (match (t.lun 33).queue with | [r] => r.op == .read 3 15 false | _ => false)) &&
     !readAllowed back { rd0 with kind := 6, addr := 33 * 2 ^ 38 + 2 * 2 ^ 20 + 256 } && gives back (.nrd i 3 1 0 0 6 crec) (ended 1) && ((full tbl).findSlots 1 1).isNone &&
     gives pg (.npg i 3 1 2 0 false true crec) (fun t => busy t && (match t.media.envQ with | [r] => r.op == .npg true true 0x2000000000000103 | _ => false)) &&
     gives back (.npg i 3 1 2 3 false true crec) (ended 12) && gives pg (.npg i 3 1 2 0 true true crec) (ended 2) && trapsB pg i (.npg i 3 2 1 0 false true crec) 4 8 &&
     unitOpen pu 33 && gives pu (.npg i 3 1 2 0 false true crec) (ended 12) &&
     gives pd (.npg i 3 1 2 0 false false crec) (fun t => ended 0 t && ((t.lun 33).unit.map (·.loaded.length) == some 1)) &&
     gives pd (.npg i 3 1 2 0 false true crec) (fun t => busy t && (match (t.lun 33).run with | .program v => v.loaded.length == 1 | _ => false)) &&
     gives er (.ner i 3 1 0 crec) (fun t => busy t && (match t.media.envQ with | [r] => r.op == .erase | _ => false)) && gives tbl (.ner i 3 1 0 crec) (ended 12) &&
     gives (nandWith 0x30000 0 {}) (.ner i 3 1 0 crec) (ended 2) &&
     gives su (.nsus i 3 1 ⟨0, crec⟩) (fun t => ended 0 t && (t.lun 33).suspended && (t.lun 33).suspends == 1 && (t.lun 33).run == .program u) &&
     gives re (.nres i 3 1 ⟨0, crec⟩) (fun t => ended 0 t && !(t.lun 33).suspended && (t.lun 33).run == .program u) &&
     gives re (.nsus i 3 1 ⟨0, crec⟩) (ended 9) && gives top (.nsus i 3 1 ⟨0, crec⟩) (ended 8) && gives su (.nres i 3 1 ⟨0, crec⟩) (ended 9) &&
     gives (gone su) (.nsus i 3 1 ⟨0, crec⟩) (ended 2) && gives (gone su) (.nres i 3 1 ⟨0, crec⟩) (ended 2)) = true := by decide +kernel

theorem witness_EraseGuards :
    (let i := q0
     let s := nandWith 0x20000 0 {}
     let open' := { s with jnl := { s.jnl with openSlots := [33 * 2 ^ 15 + 2], openRecs := [0], openBase := 9, next := 10 } }
     let bad := nandWith 0x20000 256 {}
     let denied (t : State) := !(t.ctx i).tags.getLsbD 0 && (t.ctx i).events.getLsbD 0 && t.scratchN i.part 0x40 2 == 12 && t.media.envQ == []
     issues s i 2 && paOk s 1 (Pa.of (33 * 2 ^ 38 + 2 * 2 ^ 20 + 256)) false && s.blockSt 33 2 == 2 && !open'.jnl.inhibit &&
     gives open' (.ner i 3 1 0 0x40) (fun t => denied t && t.jnl.sealed == 9 && t.jnl.openRecs == []) &&
     gives bad (.ner i 3 1 0 0x40) (fun t => denied t && t.jnl.next == bad.jnl.next + 1 && t.blockSt 33 2 == 3)) = true := by decide +kernel

/-- A command context 40 of function 0, SQ 1. -/
def cmd40 (q : Sqe) : Cmd := { func := 0, sqid := 1, sqe := q, fsn := 7, classified := true }

theorem witness_ZynCommandOperations :
    (let crec : BitVec 16 := 0x40
     let ok (j : CtxId) (t : State) := (t.ctx j).reg 3 == 0 && (t.ctx j).pc == 10
     let opn (j : CtxId) (t : State) := ok j t && (t.ctx j).tags.getLsbD 0 && !(t.ctx j).events.getLsbD 0
     let ended (j : CtxId) (st : Nat) (t : State) := ok j t && !(t.ctx j).tags.getLsbD 0 && (t.ctx j).events.getLsbD 0 && t.scratchN j.part 0x40 2 == st
     let lk := zynWith c0 (ctxWith 0xFFF0 0)
     let z := zynWith m0 (ctxWith 9 0)
     let zb := z.setZlock 9 (true, [.cmd 4])
     let zh := (zynWith m0 { ctxWith 9 0 with zlocks := [9] }).setZlock 9 (true, [.ctx m0.key 1, .cmd 4])
     let m := { cmd40 { cid := 5 } with status := 0x281 }
     let cb := zynWith c0 { ctxWith 0x500000004D 0 with cmd := some 40 }
     let cc := cb.setCmd 40 m
     let ab := cb.setCmd 40 { m with abort := true }
     let co := cb.setCmd 40 { m with committed := true }
     let r : LockReq := { cmd := 40, fsn := 7, nsid := 1, sq := 1, ranges := [(0, 1, .excl)] }
     let locks (x : State) (l : List LockReq) := { x with host := { x.host with rlt := l } }
     let r2 := { r with cmd := 41 }
     let cf := (cc.setSq 0 1 { size := 4, cq := 2 }).setCq 0 2 { size := 2, tail := 1 }
     let none_ (x : State) (j : CtxId) := x.setCtx j { x.ctx j with tags := 0xFFFF }
     let illegal (x : State) (y : Instr) := gives x y fun t => (t.ctx c0).st == .idle && t.fld F.ZYN_FAULT_LAST0.CAUSE == 4
     let spent (t : State) := (t.ctx c0).pc == 10 && (t.ctx c0).used == 1 && (t.ctx c0).st == .ready
     issues lk c0 2 && issues z m0 2 && issues cc c0 2 &&
     trapsB lk c0 (.lookup c0 3 1 0 0x41) 7 8 && trapsB z m0 (.zoneLock m0 3 1 0x41) 7 8 && trapsB lk c0 (.cqpost c0 3 1 0x41) 7 8 && trapsB (none_ lk c0) c0 (.lookup c0 3 1 0 crec) 9 8 &&
     trapsB (none_ z m0) m0 (.zoneLock m0 3 1 crec) 9 8 && trapsB (none_ lk c0) c0 (.cqpost c0 3 1 crec) 9 8 && trapsB lk c0 (.rangeLock ⟨c0, 0x41⟩) 7 8 &&
     trapsB lk c0 (.rangeUnlock ⟨c0, 0x41⟩) 7 8 && trapsB z m0 (.zoneUnlock ⟨m0, 0x41⟩ 1) 7 8 &&
     gives lk (.lookup c0 3 1 0 crec) (fun t => ended c0 0 t && t.scratchN c0.part 0x48 8 == 0xFFFFFFFFFFFFFFFF) && trapsB lk c0 (.lookup c0 3 1 1 crec) 7 8 &&
     trapsB lk c0 (.lookup c0 3 1 3 crec) 4 8 && trapsB z m0 (.zoneUnlock ⟨m0, crec⟩ 1) 4 8 &&
     gives z (.zoneLock m0 3 1 crec) (fun t => ended m0 0 t && t.zlock 9 == (true, [.ctx m0.key 0]) && (t.ctx m0).zlocks == [9]) &&
     gives zb (.zoneLock m0 3 1 crec) (fun t => opn m0 t && t.zlock 9 == (true, [.cmd 4, .ctx m0.key 0])) &&
     gives zh (.zoneUnlock ⟨m0, crec⟩ 1) (fun t => t.zlock 9 == (false, [.cmd 4]) && (t.ctx m0).zlocks == []) &&
     trapsB lk c0 (.cqpost c0 3 1 crec) 4 8 && gives cb (.cqpost c0 3 1 crec) (ended c0 12) && gives co (.cqpost c0 3 1 crec) (ended c0 12) &&
     cqFull cf m && gives cf (.cqpost c0 3 1 crec) (fun t => opn c0 { t with zyn := { t.zyn with ctxs := t.zyn.ctxs } } && (t.ctx c0).st == .blocked (.cq 0 77 80 0x40) && t.out == []) &&
     !cqFull cc m && gives cc (.cqpost c0 3 1 crec) (fun t => !(t.ctx c0).tags.getLsbD 0 && t.scratchN c0.part 0x40 2 == 0 &&
       t.out.any fun o => match o with | .cqe 0 _ e => e.cid == 5 && e.sct == 2 && e.sc == 0x81 && e.dw0 == 77 && e.dw1 == 80 | _ => false) &&
     gives ab (.cqpost c0 3 1 crec) (fun t => t.scratchN c0.part 0x40 2 == 7 && t.out.any fun o => match o with | .cqe 0 _ e => e.cid == 5 && e.sct == 0 && e.sc == 7 | _ => false) &&
     trapsB lk c0 (.rangeLock ⟨c0, crec⟩) 4 8 && trapsB lk c0 (.rangeUnlock ⟨c0, crec⟩) 4 8 &&
     gives (locks cc [r2, r]) (.rangeLock ⟨c0, crec⟩) (fun t => spent t && (t.cmd 40).map (·.st) == some .lockWait && t.host.rlt == [r2, { r with armed := true }]) &&
     gives cc (.rangeLock ⟨c0, crec⟩) (fun t => spent t && (t.cmd 40).map (·.locked) == some true && t.host.rlt == []) &&
     illegal (cb.setCmd 40 { m with locked := true }) (.rangeLock ⟨c0, crec⟩) && illegal (locks cc [{ r with armed := true }]) (.rangeLock ⟨c0, crec⟩) &&
     gives (locks cc [{ r with armed := true, held := true }, r2]) (.rangeUnlock ⟨c0, crec⟩) (fun t => spent t && t.host.rlt == [r2]) &&
     gives (locks cc [r]) (.rangeUnlock ⟨c0, crec⟩) (fun t => spent t && t.host.rlt == [r])) = true := by decide +kernel

theorem witness_ZynTransfers :
    (let crec : BitVec 16 := 0x40
     let st (ch sl : Nat) : Word64 := BitVec.ofNat 64 (2 * 2 ^ 60 + ch * 256 + sl)
     let ho (o : Nat) : Word64 := BitVec.ofNat 64 o
     let po (h : Nat) : Word64 := BitVec.ofNat 64 (2 ^ 60 + h)
     let sq (a b : Word64) := zynWith q0 (ctxWith a b)
     let q : Sqe := { opc := 2, nsid := 1, cdw12 := 3 }
     let m := { cmd40 q with fsn := 7 }
     let f := { m with sqe := { q with opc := 0x82 }, pau := some (0, 2) }
     let w (n : Cmd) (a b : Word64) := (zynWith c0 { ctxWith a b with cmd := some 40 }).setCmd 40 n
     let buf (x : State) := x.setBuf 5 { cmd := 40, account := 0, nsid := 1, lba := 3, readers := 2 }
     let x (j : CtxId) (n : BitVec 8) (p : Bool) : Instr := .xfer j 3 1 2 n p crec
     let ok (j : CtxId) (t : State) := (t.ctx j).reg 3 == 0 && (t.ctx j).pc == 10
     let starts (j : CtxId) (t : State) := ok j t && (t.ctx j).tags.getLsbD 0 && (t.ctx j).xfers.length == 1
     let ended (j : CtxId) (s : Nat) (t : State) := ok j t && (t.ctx j).tags == 0 && (t.ctx j).events.getLsbD 0 && t.scratchN j.part 0x40 2 == s
     let spec (s : State) := s.putSlot (stKey 1 3) { spec := true }
     let halt (s : State) := s.setFld F.SEC_STATUS.STATE 2
     let two := sq (st 1 0) (st 2 110)
     issues two q0 2 && gives two (x q0 1 false) (starts q0) && trapsB two q0 (x q0 2 false) 4 8 && trapsB (sq (st 1 112) (st 2 0)) q0 (x q0 0 false) 4 8 &&
     trapsB (sq (ho 0) (st 2 0)) q0 (x q0 0 false) 4 8 && trapsB two q0 (x q0 0 true) 4 8 && gives (spec (sq (st 1 2) (st 2 0))) (x q0 1 false) (ended q0 6) &&
     trapsB (zynWith c0 (ctxWith (st 1 0) (ho 0))) c0 (x c0 0 false) 4 8 && gives (zynWith c0 { ctxWith (st 1 0) (ho 0) with cmd := some 40 }) (x c0 0 false) (ended c0 12) &&
     gives (w m (st 1 0) (ho 0)) (x c0 3 false) (starts c0) && gives (w m (st 1 0) (ho 0)) (x c0 4 false) (ended c0 12) && gives (w m (st 1 0) (ho 0)) (x c0 0 true) (ended c0 12) &&
     gives (w f (st 1 0) (ho 0)) (x c0 0 false) (ended c0 12) && gives (spec (w m (st 1 2) (ho 0))) (x c0 1 false) (ended c0 6) && gives (halt (w m (st 1 0) (ho 0))) (x c0 0 false) (ended c0 13) &&
     gives (w f (st 1 0) (ho 2)) (x c0 0 true) (starts c0) && gives (w f (st 1 0) (ho 1)) (x c0 0 true) (fun t => (t.ctx c0).st == .blocked .pau && (t.ctx c0).pc == 8 && (t.ctx c0).tags == 0) &&
     gives (buf (w m (ho 0) (po 5))) (x c0 0 false) (starts c0) && gives (w m (ho 0) (po 5)) (x c0 0 false) (ended c0 12) && gives (halt (buf (w m (ho 0) (po 5)))) (x c0 0 false) (ended c0 13) &&
     gives (buf (w m (po 5) (ho 3))) (x c0 0 false) (fun t => starts c0 t && (t.buf 5).map (·.readers) == some 3) && gives (buf (w m (po 5) (ho 4))) (x c0 0 false) (ended c0 12) &&
     gives (halt (buf (w m (po 5) (ho 3)))) (x c0 0 false) (ended c0 13)) = true := by decide +kernel

theorem witness_ZynSpeculation :
    (let pa : Nat := 33 * 2 ^ 38 + 2 * 2 ^ 20 + 256
     let crec : BitVec 16 := 0x40
     let c := ctxWith (BitVec.ofNat 64 pa) 6
     let off := (withMedia (zynWith m0 c)).setFld F.MAP_CTRL.SPEC_EN 0
     let on := withMedia (zynWith m0 c)
     let r : NandReq := { op := .read 0 0 false, kind := 0, addr := 0, cls := 1 }
     let zd : Sparse Word64 := on.zyn.tab.zdesc ++ [(41, BitVec.ofNat 64 (16 * 2 ^ 32)), (43, 6), (48, BitVec.ofNat 64 (33 + 2 * 1024))]
     let idle := ({ on with zyn := { on.zyn with tab := { on.zyn.tab with zdesc := zd } } }).setCtx m0 (ctxWith (BitVec.ofNat 64 pa) 0xFF00000000000005)
     let on := idle.setLun 33 { run := .read r }
     let p := Pa.of (BitVec.ofNat 48 pa)
     let rt (l : Lun) := (((withMedia (zynWith q0 { ctxWith (BitVec.ofNat 64 pa) 0x35 with origin := .host })).putBlock (bkey (withMedia State.reset) 33 2) 0x10000).setFld F.MAP_CTRL.RETRY_SPEC_EN 1).setLun 33 l
     let sp : Spec := { tag := 4, sent := false, landed := true }
     let cs := { ctxWith 0xFFF4 0 with specs := [sp], tags := 16 }
     let un := zynWith m0 cs
     let se := (zynWith q0 { cs with specs := [{ sp with sent := true, slots := some (stKey 1 2, 1), landed := false }] }).putSlot (stKey 1 2) { spec := true, data := some 1 }
     let mp (n : Nat) := idle.setCtx m0 { cs with specs := [{ sp with sent := true, map := some (true, 5, n, BitVec.ofNat 64 pa) }] }
     let no := zynWith m0 (ctxWith 4 0)
     let full := zynWith m0 { c with tags := 0xFFFF }
     let gone (t : State) (j : CtxId) := (t.ctx j).specs == [] && (t.ctx j).tags == 0
     issues off m0 2 && trapsB off m0 (.spec m0 3 1 2 false 0x41) 7 8 && trapsB full m0 (.spec m0 3 1 2 false crec) 9 8 && trapsB no m0 (.spec m0 3 0 2 false 0x41) 7 8 &&
     trapsB (zynWith m0 (ctxWith 0x1000000000000 0)) m0 (.spec m0 3 1 2 false crec) 4 8 &&
     !off.flag F.MAP_CTRL.SPEC_EN && gives off (.spec m0 3 1 2 false crec) (fun t => (t.ctx m0).specs == [{ tag := 0, sent := false, landed := true, crec := crec }] &&
       (t.ctx m0).events.getLsbD 0 && t.scratchN m0.part 0x40 2 == 5 && t.scratchN m0.part 0x48 8 == 2 ^ 64 - 1) &&
     on.flag F.MAP_CTRL.SPEC_EN && entryStamp on true 5 == some 0 && readAddrOk on 1 p && specAgrees on true 5 p && issues on m0 2 &&
     gives on (.spec m0 3 1 2 true crec) (fun t => !(t.ctx m0).events.getLsbD 0 && t.fld F.MAP_SPEC_ISSUED.COUNT == 1 && (t.ctx m0).specs.length == 1 &&
       (match (t.lun 33).queue with | [r] => r.spec && r.ctx == some (m0.key, 0) | _ => false)) &&
     gives idle (.spec m0 3 1 2 true crec) (fun t => !(t.ctx m0).events.getLsbD 0 && (match (t.lun 33).run with | .read r => r.spec && r.slot == some (stKey 1 0) | _ => false) &&
       (t.ctx m0).specs.map (·.slots) == [some (stKey 1 0, 1)]) &&
     readAddrOk (rt {}) 1 p && gives (rt { run := .read r }) (.spec q0 3 1 2 false crec) (fun t => t.fld F.MAP_RETRY_ISSUED.COUNT == 1 &&
       (match (t.lun 33).queue with | [r] => r.op == .read 3 5 false && r.cls == 2 | _ => false)) &&
     gives (rt {}) (.spec q0 3 1 2 false crec) (fun t => match (t.lun 33).run with | .read r => r.spec | _ => false) &&
     gives ((rt {}).setFld F.MAP_CTRL.RETRY_SPEC_EN 0) (.spec q0 3 1 2 false crec) (fun t => (t.ctx q0).events.getLsbD 0) &&
     issues un m0 1 && gives un (.conf m0 1 1) (fun t => !(t.ctx m0).pred 1 && gone t m0) &&
     gives se (.conf q0 1 2) (fun t => (t.ctx q0).pred 2 && (t.ctx q0).specs == [] && (t.ctx q0).tags == 16 && t.fld F.MAP_RETRY_USED.COUNT == 1 &&
       (sget (stKey 1 2) t.media.slots).map (·.spec) == some false) &&
     gives (mp 0) (.conf m0 1 2) (fun t => (t.ctx m0).pred 2 && gone t m0) && gives (mp 1) (.conf m0 1 1) (fun t => !(t.ctx m0).pred 1 && gone t m0 && t.fld F.MAP_SPEC_SQUASHED.COUNT == 1) &&
     gives un (.sqsh m0 1) (fun t => gone t m0 && t.fld F.MAP_SPEC_SQUASHED.COUNT == 0) && gives (mp 0) (.sqsh m0 1) (fun t => gone t m0 && t.fld F.MAP_SPEC_SQUASHED.COUNT == 1) &&
     trapsB no m0 (.conf m0 1 1) 4 8 && trapsB no m0 (.sqsh m0 1) 4 8) = true := by decide +kernel

theorem witness_ZynDispatch :
    (let base := zynWith m0 {}
     let es : List Entry := [{ kind := 6, codeOffset := 4, budget := 100, bev := 0xFFFFFFFF }, { kind := 8, codeOffset := 5, budget := 100, bev := 7 }, { kind := 0x1F, codeOffset := 6, budget := 100, bev := 7 },
       { kind := 3, codeOffset := 9, budget := 100, bev := 7 }]
     let s := { base with zyn := { base.zyn with bundle := { base.zyn.bundle with entries1 := es, entries3 := es } } }
     let i : CtxId := ⟨.map, 3, 0⟩
     let x : Instr := .activationDispatch (BitVec.ofNat 6 i.part)
     let y : Instr := .activationDispatch 56
     let same (u : State) (x : Instr) := gives u x fun t => t == u
     let u := (s.setQueue i.part [{ kind := 6, arg2 := 9, cmd := some 40 }, { kind := 2 }]).setStalled i.part [{ kind := 6, arg0 := 1 }]
     let un := s.setQueue i.part [{ kind := 2 }]
     let hold := { u with zyn := { u.zyn with held := true } }
     let prep := (hold.setQueue 56 [{ kind := 6 }, { kind := 8 }])
     let busy (c : Ctx) (v : State) := v.each (List.range 8) fun v k => v.setCtx ⟨.map, 3, k⟩ c
     let rs := ({ u with zyn := { u.zyn with restore := [i.part] } })
     let rsRun := u.setCtx ⟨.map, 3, 5⟩ { st := .ready, kind := 0x1F }
     let f : FaultRec := { cause := 1, ctxId := 70, kind := 2, pc := 5, addr := 6, cmd := none, timeUs := 0, req := { kind := 2 }, fsn := none }
     let fq := { s with zyn := { s.zyn with faultQ := [f] } }
     i.valid && s.zynRuns && s.powered (partDom i.part) && same (u.setFld F.ZYN_STATUS.STATE 4) x && same u (.activationDispatch 60) && same { u with pwr := { u.pwr with doms := [(0, 2)] } } x &&
     same s x && same hold x &&
     gives rs x (fun t => (t.ctx i).kind == 0x1F && (t.ctx i).pc == 6 && t.zyn.restore == []) && same { rs with zyn := { rs.zyn with held := true } } x && same (busy { st := .ready } rs) x && same rsRun x &&
     gives fq y (fun t => t.zyn.faultQ == [] && (t.ctx ⟨.pol, 0, 7⟩).trapCause == 1 && (t.ctx ⟨.pol, 0, 7⟩).trapPc == 5 && (t.ctx ⟨.pol, 0, 7⟩).pc == 9) &&
     gives u x (fun t => (t.queue i.part) == [{ kind := 2 }, { kind := 6, arg0 := 1 }] && (t.ctx i).pc == 4 && (t.ctx i).budget == 100 && (t.ctx i).arg2 == 9 && (t.ctx i).cmd == some 40 && (t.ctx i).st == .ready) &&
     gives un x (fun t => t.queue i.part == [] && (t.ctx i).st == .idle) && gives prep y (fun t => t.queue 56 == [{ kind := 6 }] && (t.ctx o0).kind == 8) &&
     gives (busy { st := .asleep } u) x (fun t => (t.ctx i).st == .ready && (t.ctx ⟨.map, 3, 1⟩).st == .asleep && (t.queue i.part).length == 2) && same (busy { st := .ready } u) x) = true := by
  decide +kernel

theorem witness_ZynDecodeEncodeAgree :
    ((zynEncode (.loopn m0 7 12 0xFFF7)).isSome && (zynEncode (.undefinedInstruction m0 true)).isNone &&
     (zynEncode (.spec q0 31 30 29 true 0xFFFF)).isSome && (zynEncode (.nres q0 1 2 ⟨3, 0x20⟩)).isSome) = true := by decide +kernel

/-! ### Timetable -/

/-- Fields set one after the other. -/
def flds (s : State) (l : List (Field × Nat)) : State := l.foldl (fun s (f, n) => s.setFld f n) s

theorem witness_BellSourcesAndReference :
    (let src : List (Field × Nat) := [(F.TT_SRC.SRC_PRI, 1), (F.TT_SRC.SRC_SEC, 2)]
     let at' (st act : Nat) := flds State.reset (src ++ [(F.TT_STATUS.STATE, st), (F.TT_STATUS.ACTIVE_SRC, act)])
     let tu (s : State) (f : Ttu → Ttu) : State := { s with ttu := f s.ttu }
     let tm (s : State) (ns : Nat) := tu s fun u => { u with time := BitVec.ofNat 64 ns }
     let st (t : State) := (t.fld F.TT_STATUS.STATE, t.fld F.TT_STATUS.ACTIVE_SRC)
     let same (s : State) (x : Instr) := gives s x fun t => t == s
     let far := tm (at' 2 1) 500010001
     let far2 := tu far fun u => { u with src1 := { valid := true, misses := 2 } }
     let b : BellSrc := { valid := true }
     let near (n : Nat) (run : Nat) := tu (tm (at' 1 1) (2000000000 + n)) fun u => { u with src1 := b, lockRun := run }
     let set (n : Nat) := tu (tm (at' 2 1) 2000000000) fun u => { u with src1 := b, setSec := some (BitVec.ofNat 32 n) }
     let lost (l : Int) := tu (tm (at' 3 0) 2000000000) fun u => { u with src1 := { lost := true, last := some l } }
     let held := tu (at' 2 1) fun u => { u with src1 := b }
     let acq (r : Bool) := tu (at' 1 1) fun u => { u with src1 := b, referenced := r }
     let miss (n : Nat) := tu (at' 2 1) fun u => { u with src2 := { b with misses := n } }
     let lk := State.reset.setReg R.TT_CTRL 0x80000000
     let high (s : State) : State := { s with boot := { s.boot with bell := true } }
     sources far == [1, 2] && !far.boot.bell && !(far.flag F.TT_SRC.BELL_EDGE) && gives (high far) .bellEdge (fun t => t == far) && gives State.reset .bellEdge (fun t => t == high State.reset) && decide (10000 < (bellError far).natAbs) &&
     gives far .bellEdge (fun t => t.ttu.src1.misses == 1 && t.regs == far.regs) &&
     gives far2 .bellEdge (fun t => st t == (3, 0) && !t.ttu.src1.valid && t.ttu.src1.misses == 0) &&
     decide ((bellError (near 250 3)).natAbs ≤ (near 250 3).fld F.TT_LOCK_THRESH.THRESH_NS) &&
     gives (near 250 3) .bellEdge (fun t => st t == (2, 1) && t.ttu.referenced && t.ttu.slew == bellError (near 250 3) * 1000 && t.flag F.TT_EVT.RELOCKED) &&
     gives (near 250 2) .bellEdge (fun t => st t == (1, 1) && t.ttu.lockRun == 3) && gives (near 9000 3) .bellEdge (fun t => st t == (1, 1) && t.ttu.lockRun == 0) &&
     gives (at' 0 0) .bellEdge (fun t => st t == (1, 1) && t.ttu.src1.valid && t.ttu.src1.last == some 0) &&
     gives (lost 10000) .bellEdge (fun t => t.ttu.src1.valid && (st t).1 == 1) && gives (lost 10001) .bellEdge (fun t => !t.ttu.src1.valid && t.ttu.src1.last == some 0) &&
     gives (set 2) .bellEdge (fun t => t.ttu.setSec == none && t.ttu.slew == 0) && gives (set 3) .bellEdge (fun t => t.ttu.setSec == none && t.ttu.step == some 1000000000) &&
     gives held .bellEdgeTimeout (fun t => st t == (3, 0) && !t.ttu.src1.valid && t.ttu.holdover && t.flag F.TT_EVT.HOLDOVER && t.flag F.TT_EVT.SRC_LOST) &&
     gives (held.setFld F.TT_HOLDOVER_LIMIT.LIMIT_S 0) .bellEdgeTimeout (fun t => st t == (4, 0) && t.flag F.TT_EVT.FREERUN) &&
     gives (tu held fun u => { u with src2 := b }) .bellEdgeTimeout (fun t => st t == (2, 2) && t.flag F.TT_EVT.SRC_LOST) &&
     gives (acq true) .bellEdgeTimeout (fun t => st t == (3, 0)) && gives (acq false) .bellEdgeTimeout (fun t => st t == (0, 0)) && same State.reset .bellEdgeTimeout &&
     gives (at' 2 2) .bellEdgeTimeout (fun t => st t == (2, 2)) &&
     (at' 4 0).ttu.src2 == {} && gives (at' 4 0) (.ptmDialog 5) (fun t => t.flag F.HIU_PORT_STATUS.PTM_VALID && t.ttu.src2.valid && t.now == 0) &&
     gives State.reset (.ptmDialog 5) (fun t => t.flag F.HIU_PORT_STATUS.PTM_VALID && t.ttu == State.reset.ttu) && same State.reset .ptmIntervalMiss &&
     gives (miss 1) .ptmIntervalMiss (fun t => t.ttu.src2.misses == 2 && t.ttu.src2.valid) &&
     gives ((miss 2).setFld F.TT_STATUS.ACTIVE_SRC 2) .ptmIntervalMiss (fun t => !t.ttu.src2.valid && !t.flag F.HIU_PORT_STATUS.PTM_VALID && st t == (3, 0)) &&
     gives (at' 3 0) .holdoverTimeout (fun t => (st t).1 == 4 && t.flag F.TT_EVT.FREERUN) && same (at' 2 1) .holdoverTimeout && same (tu (at' 3 0) fun u => { u with src1 := b }) .holdoverTimeout &&
     lk.locked R.TT_SRC && same lk (.ttSrcWrite 1) && !held.locked R.TT_SRC &&
     gives held (.ttSrcWrite 0) (fun t => st t == (4, 0) && t.fld F.TT_STATUS.UNALIGNED == 0 && t.ttu.src1 == {}) &&
     gives (at' 4 0) (.ttSrcWrite 2) (fun t => (st t).1 == 0 && t.flag F.TT_STATUS.UNALIGNED) && gives (tu (at' 4 0) fun u => { u with referenced := true }) (.ttSrcWrite 2) (fun t => (st t).1 == 4) &&
     gives held (.ttSrcWrite 1) (fun t => st t == (2, 1) && t.ttu.src1 == b) && gives held (.ttSrcWrite 2) (fun t => st t == (3, 0) && t.ttu.src1 == {})) = true := by decide +kernel

theorem witness_TimetableControls :
    (let s := State.reset
     let lk := s.setReg R.TT_CTRL 0x80000000
     let ok := flds s [(F.TT_GEOM_STAGE.CYCLE_M1, 1), (F.TT_GEOM_STAGE.LEN_US, 250)]
     let ok := ok.setReg R.TT_TABLE_STAGE 0x00000008
     let bad := ok.setReg R.TT_TABLE_STAGE 0
     let src2 := s.setFld F.TT_STATUS.ACTIVE_SRC 2
     let r : GcReq := { kind := .timetable }
     let qq (l : List GcReq) := { s with ttu := { s.ttu with gcQueue := l } }
     let lvl : GcReq := { kind := .perfLevel, arg := 2 }
     let n := (s.setReg R.TT_NAMED_PNUM_LO 2)
     gives lk (.ttCtrlEnWrite 1) (fun t => t == lk) && stagedValid ok && !ok.locked R.TT_CTRL && !ok.flag F.TT_CTRL.EN &&
     gives ok (.ttCtrlEnWrite 1) (fun t => !t.flag F.TT_CTRL.EN && t.ttu.enPending) && !stagedValid bad &&
     gives bad (.ttCtrlEnWrite 1) (fun t => !t.ttu.enPending && t.flag F.TT_GC_STATUS.INVALID) &&
     gives s (.ttSetSecWrite 9) (fun t => t.ttu.setSec == some 9) && gives src2 (.ttSetSecWrite 9) (fun t => t == src2) &&
     gives (qq (List.replicate 7 lvl)) .ttGcCtrlReq (fun t => t.ttu.gcQueue.length == 8) &&
     gives (qq (List.replicate 8 lvl)) .ttGcCtrlReq (fun t => t.ttu.gcQueue.length == 8 && t.flag F.TT_GC_STATUS.QFULL) &&
     gives (qq [{ r with since := 9 }, lvl]) .ttGcCtrlReq (fun t => t.ttu.gcQueue.length == 2 && t.ttu.gcQueue.contains r) &&
     gives n .ttNamedCtrlArm (fun t => t.ttu.named == some 2 && t.flag F.TT_NAMED_CTRL.ARMED) &&
     gives s .ttNamedCtrlArm (fun t => t.ttu.named == none && t.flag F.TT_NAMED_CTRL.LATE) &&
     gives s (.timetableCommand 0 5 false 2) (fun t => t.ttu.named == some 2) && gives s (.timetableCommand 0 5 false 1) (fun t => t.flag F.TT_NAMED_CTRL.LATE) &&
     gives s (.timetableCommand 0 5 true 77) (fun t => t.ttu.setSec == some 77) && !s.isPf 1 &&
     gives s (.timetableCommand 1 5 true 77) (fun t => t.ttu == s.ttu && t.regs == s.regs)) = true := by decide +kernel

theorem witness_PeriodsAndRollCalls :
    (let s := { State.reset with ttu := { State.reset.ttu with time := 1500000, elapsed := 9 } }
     let ok := (flds s [(F.TT_GEOM_STAGE.CYCLE_M1, 1), (F.TT_GEOM_STAGE.LEN_US, 250)]).setReg R.TT_TABLE_STAGE 8
     let tu (s : State) (f : Ttu → Ttu) : State := { s with ttu := f s.ttu }
     let en (s : State) := tu s fun u => { u with enPending := true }
     let i := o0
     let wp := (zynWith i { ctxWith 0 0 with st := .blocked .period })
     let w := zynWith i { ctxWith 0 0 with st := .blocked (.rollCall 3 2) }
     let r (k : RcKind) : RollCall := { ident := 1, kind := k, mask := 1, waiters := [i.key] }
     let rc (r : RollCall) (e : Nat) := tu w fun u => { u with rc := some r, elapsed := e, time := BitVec.ofNat 64 e }
     let full (k : RcKind) : RollCall := { r k with arrived := 1 }
     let rdy (v : Word64) (p : Bool) (t : State) := (t.ctx i).st == .ready && (t.ctx i).reg 3 == v && (t.ctx i).pred 2 == p && (t.ctx i).events.getLsbD 25
     let lim := rcTimeout w (r .barrier)
     let ahead := { rc (full .snapshot) 0 with jnl := { w.jnl with next := 8, sealed := 5 } }
     let at' := { rc (full .snapshot) 0 with jnl := { w.jnl with next := 8, sealed := 7 } }
     periodNs s == 1000000 && gives s .periodBoundary (fun t => t.now == 2000000 && t.ttu.pnum == 2 && t.ttu.elapsed == 500009) &&
     gives (tu s fun u => { u with step := some (-1999999) }) .periodBoundary (fun t => t.ttu.time == 1 && t.flag F.TT_EVT.STEPPED && t.ttu.step == none) &&
     gives wp .periodBoundary (fun t => (t.ctx i).st == .ready) &&
     stagedValid (en ok) && gives (en ok) .periodBoundary (fun t => t.flag F.TT_CTRL.EN && t.fld F.TT_GEOM_ACT.LEN_US == 250 && !t.ttu.enPending && t.ttu.pnum == 8) &&
     !stagedValid (en (ok.setReg R.TT_TABLE_STAGE 0)) && gives (en (ok.setReg R.TT_TABLE_STAGE 0)) .periodBoundary (fun t => t.flag F.TT_GC_STATUS.INVALID && !t.flag F.TT_CTRL.EN && !t.ttu.enPending) &&
     gives s .rollCallRelease (fun t => t == s) && gives s .rollCallTimeout (fun t => t == s) && !rcComplete (rc (r .barrier) 0) (r .barrier) && rcComplete (rc (full .barrier) 0) (full .barrier) &&
     gives (rc (r .barrier) 0) .rollCallRelease (fun t => t == rc (r .barrier) 0) && gives (rc (full .barrier) 0) .rollCallTimeout (fun t => t == rc (full .barrier) 0) &&
     gives (rc (full .barrier) 0) .rollCallRelease (fun t => t.ttu.rc.isNone && rdy 1 true t) &&
     gives (rc { full .broadcast with offers := [(0, 77)] } 0) .rollCallRelease (rdy 77 true) &&
     gives (rc { full .broadcast with ring := true, origin := 2, ringGot := [(2, 99)] } 0) .rollCallRelease (rdy 99 true) &&
     gives ahead .rollCallRelease (fun t => rdy 7 true t && t.ttu.cutWait == [(7, [i.key])]) && gives at' .rollCallRelease (fun t => rdy 7 true t && (t.ctx i).events.getLsbD 26) &&
     gives (rc { full .snapshot with ring := true, ringGot := [(2, 5)], cut := some 3 } 0) .rollCallRelease (fun t => rdy 3 true t && t.ttu.cutVec == [(0, 3), (2, 5)]) &&
     ((rc (r .barrier) 0).reach lim).isSome && ((tu (rc (r .barrier) 0) fun u => { u with time := 999999 }).reach lim).isNone &&
     gives (tu (rc (r .barrier) 0) fun u => { u with time := 999999 }) .rollCallTimeout (fun t => t.ttu.rc.isSome) &&
     gives (rc (r .barrier) 0) .rollCallTimeout (fun t => t.ttu.rc.isNone && rdy 0 false t && t.flag F.TT_EVT.RC_TIMEOUT && t.ttu.elapsed == lim) &&
     gives (tu (rc (r .barrier) lim) fun u => { u with rcQueue := [{ r .barrier with ident := 4 }] }) .rollCallTimeout (fun t => (t.ttu.rc.map (·.ident)) == some 4)) = true := by decide +kernel

theorem witness_GlobalCommits :
    (let ok := (flds State.reset [(F.TT_GEOM_STAGE.CYCLE_M1, 1), (F.TT_GEOM_STAGE.LEN_US, 250), (F.TT_CTRL.EN, 1)]).setReg R.TT_TABLE_STAGE 8
     let bad := ok.setReg R.TT_TABLE_STAGE 0
     let r : GcReq := { kind := .timetable }
     let qs (r : GcReq) (s : State) := { s with ttu := { s.ttu with gcQueue := [r] } }
     let qq := qs r
     let gc (s : State) (g : GcFlight) := { s with ttu := { s.ttu with gc := some g } }
     let g : GcFlight := { kind := .timetable, b := 5000000, members := 0, staged := stagedNow ok }
     let lost := { g with members := 1#64 <<< 56 }
     let at' (s : State) (g : GcFlight) := let t := gc s { g with armed := true }; { t with ttu := { t.ttu with time := 5000000 } }
     let due := at' ok g
     let same (s : State) (x : Instr) := gives s x fun t => t == s
     let off (s : State) := s.setFld F.TT_CTRL.EN 0
     let never := (List.range 256).foldl (fun (s : State) k => s.setReg (R.TT_TABLE_ACT + 4 * k) 0) (qq ok)
     let pend := { ok with host := { ok.host with fwSlot := true, fwCommit := some (0, 5) }, zyn := { ok.zyn with next := some { ok.zyn.bundle with id := 9 }, held := true, scratch := [(1, 2)] } }
     gives (qq bad) .commitRequestService (fun t => t.ttu.gcQueue == [] && t.ttu.gc.isNone && t.fld F.TT_GC_STATUS.RESULT == 2 && t.flag F.TT_GC_STATUS.INVALID) &&
     (commitB (qq ok) 0).isSome && gives (qq ok) .commitRequestService (fun t => t.ttu.gc.isSome && t.fld F.TT_GC_STATUS.RESULT == 3 && t.fld F.TT_GC_STATUS.KIND == 1 &&
       (t.queue 59).map (·.kind) == [8]) &&
     gives (qs { kind := .perfLevel, arg := 3 } ok) .commitRequestService (fun t => match t.ttu.gc with | some x => x.arg == 3 && x.staged == [] | none => false) &&
     gives (qs { kind := .envelope } ok) .commitRequestService (fun t => match t.ttu.gc with | some x => x.staged.length == 2 | none => false) &&
     gives (qs { kind := .activation } pend) .commitRequestService (fun t => t.boot.sel0.next || t.boot.sel1.next) &&
     same ok .commitRequestService && same (off (qq ok)) .commitRequestService && same (gc (qq ok) g) .commitRequestService && (commitB never 0).isNone && same never .commitRequestService &&
     same ok .commitDeadline && same ok .commitApply && same due .commitDeadline && same (off (gc ok g)) .commitDeadline && same (off due) .commitApply && commitFails (gc ok g) g == 0 &&
     gives (gc ok g) .commitDeadline (fun t => t.ttu.gc == some { g with armed := true } && t.now == 4998000) && commitFails (gc ok lost) lost != 0 &&
     gives (gc ok lost) .commitDeadline (fun t => t.ttu.gc.isNone && t.fld F.TT_GC_STATUS.RESULT == 2 && t.flag F.TT_EVT.COMMIT_ROLLBACK && t.pair R.TT_GC_FAIL_LO == 2 ^ 56) &&
     gives (gc pend { lost with kind := .activation }) .commitDeadline (fun t => t.zyn.next.isNone && !t.zyn.held && t.host.fwCommit.isNone) &&
     gives (gc ok g) .commitApply (fun t => t == gc ok g) &&
     gives due .commitApply (fun t => t.ttu.gc.isNone && t.fld F.TT_GC_STATUS.RESULT == 1 && t.fld F.TT_GEOM_ACT.LEN_US == 250 && t.ttu.pnum == 20) &&
     gives (at' ok { g with kind := .perfLevel, arg := 3 }) .commitApply (fun t => t.ttu.gc.isNone) &&
     gives (at' ok { g with kind := .envelope, staged := [(R.MED_ENV_STAGE, 77), (R.MED_ENV_WEIGHT, 0x01020304)] }) .commitApply (fun t => t.fld F.MED_ENV_ACT.BUDGET == 77 && t.media.weights == 0x01020304) &&
     gives (at' ok { g with kind := .activation }) .commitApply (fun t => t.ttu.gc.isNone && t.zyn == ok.zyn) &&
     gives (at' pend { g with kind := .activation }) .commitApply (fun t => t.zyn.bundle.id == 9 && t.zyn.scratch == [] && t.boot.slot && (t.queue 56).map (·.kind) == [9] &&
       t.out.any fun o => match o with | .cqe 0 _ e => e.cid == 5 && e.sc == 0 | _ => false)) = true := by decide +kernel

/-! ### Tether -/

/-- Device 0 of a ring of two, both links up. -/
def ring2 (s : State) : State :=
  flds s [(F.TH_CTRL.EN, 1), (F.TH_CTRL.RING_ID, 0), (F.TH_CTRL.RING_SIZE_M1, 1), (F.TH_LINK.UP.ix 0, 1), (F.TH_LINK.UP.ix 1, 1)]

/-- Entry 0 of the declarations: namespace 5, MODE, members 0 and 1, a primary. -/
def declared (s : State) (mode primary : Nat) : State :=
  flds s [(F.TH_NSCFG.NSID.ix 0, 5), (F.TH_NSCFG.MODE.ix 0, mode), (F.TH_NSCFG.MEMBERS.ix 0, 3), (F.TH_NSCFG.PRIMARY.ix 0, primary)]

def hd1 : TetherHdr := { link := true, src := 1, dst := 0, tag := 40 }

/-- Device 0 of a ring of three, and a message of device 1 for device 2. -/
def ring3 (s : State) : State := (ring2 s).setFld F.TH_CTRL.RING_SIZE_M1 2
def hd2 : TetherHdr := { link := true, src := 1, dst := 2, tag := 40 }
def fwd (x : Instr) (ty : Nat) : Bool := gives (ring3 State.reset) x fun t => t.out.any fun o => match o with | .frame 0 y 1 _ => y == ty | _ => false
def same (s : State) (x : Instr) : Bool := gives s x fun t => t == s

/-- A frame of a type has left. -/
def sent (t : State) (ty : Nat) : Bool := t.out.any fun o => match o with | .frame _ y 0 _ => y == ty | _ => false

theorem witness_TetherRingAndLinks :
    (let off := State.reset
     let s := ring2 State.reset
     let fr : TFrame := { ty := 7, src := 0, dst := 1, tag := 9, body := [3] }
     let hung (n : Nat) := s.setLink true { unacked := [fr], tries := n, next := 8 }
     let heard := { s with th := { s.th with peer1 := { heardW := true } } }
     let dn := s.setReg R.TH_CTRL 8
     let both := { s with th := { s.th with peer1 := { heardW := true, heardE := true, missed := 1 } } }
     let own : TetherHdr := { hd1 with src := 0 }
     let cut := s.setFld (F.TH_LINK.UP.ix 1) 0
     let lkd := (off.setFld F.TH_CTRL.LOCK 1)
     linkUp s true && ringSize s == 2 && gives s (.hello hd1 1 1 7 []) (fun t => (t.peer 1).hello == some { sizeM1 := 1, bundle := 7, nscfg := [] }) &&
     gives s (.hello hd1 0 1 7 []) (fun t => t.flag F.TH_STATUS.CONFLICT && t.flag F.TH_EVT.CONFLICT) && gives s (.hello hd1 1 2 7 []) (fun t => t.flag F.TH_EVT.CONFLICT) &&
     gives s (.heartbeat hd1 0) (fun t => (t.peer 1).heardE && !(t.peer 1).lost && (t.fld F.TH_STATUS.PRESENT).testBit 1) &&
     gives s .heartbeatSend (fun t => sent t 1) && !off.flag F.TH_CTRL.EN && gives off .heartbeatSend (fun t => t == off) &&
     same off (.hello hd1 1 1 7 []) && same cut (.heartbeat hd1 0) && same s (.heartbeat own 0) && gives both (.peerLoss 1) (fun t => t.peer 1 == {} && t.regs == both.regs) &&
     same s (.peerLoss 0) && same s (.peerLoss 2) && same off (.peerLoss 1) && same off (.linkRetrainComplete false true true) && same s (.replayTimeout true) && same cut (.replayTimeout true) &&
     same cut (.idleFrame true 1 true) && gives (hung 2) (.idleFrame true 0 true) (fun t => sent t 7 && (t.link true).unacked == [fr]) &&
     lkd.locked R.TH_CTRL && gives lkd (.thCtrlEnWrite 1) (fun t => !t.flag F.TH_CTRL.EN && t.th == lkd.th) &&
     gives heard (.peerLoss 1) (fun t => t.flag F.TH_EVT.PATH_LOST && !(t.peer 1).heardW) && gives s (.peerLoss 1) (fun t => (t.peer 1).missed == 1) &&
     gives (s.setFld (F.TH_LINK.UP.ix 0) 0) (.linkRetrainComplete false true false) (fun t => linkUp t false && t.flag (F.TH_LINK.RATE.ix 0) && !t.flag (F.TH_LINK.WIDTH.ix 0) && sent t 2) &&
     gives (hung 2) (.replayTimeout true) (fun t => (t.link true).tries == 3 && sent t 7 && t.fld (F.TH_LINK.REPLAYS.ix 1) == 1) &&
     gives (hung 3) (.replayTimeout true) (fun t => !linkUp t true && t.flag (F.TH_LINK.RETRAIN.ix 1) && (t.link true).unacked == []) &&
     gives (hung 2) (.idleFrame true 1 false) (fun t => (t.link true).unacked == [] && (t.link true).next == 8) &&
     !dn.flag F.TH_CTRL.EN && !dn.locked R.TH_CTRL && gives dn (.thCtrlEnWrite 9) (fun t => t.flag F.TH_CTRL.EN && t.flag (F.TH_LINK.RETRAIN.ix 0) && t.th.forming) &&
     gives s (.thCtrlEnWrite 0) (fun t => !t.flag F.TH_CTRL.EN && !linkUp t false && !linkUp t true)) = true := by decide +kernel

theorem witness_TetherMirrorStates :
    (let peer (s : State) (p : Peer) := { s with th := { s.th with peer1 := p } }
     let hel : Hello := { sizeM1 := 1, bundle := 0, nscfg := [] }
     let gone (pr : Nat) := peer (declared (ring2 State.reset) 1 pr) { hello := some hel, missed := 2 }
     let fm (pr : Nat) := { gone pr with th := { (gone pr).th with forming := true } }
     let ripe (tk : Nat) := (peer (declared (ring2 State.reset) 1 1) { lost := true }).setThState 0 2 |>.setFld F.TH_CTRL.TAKEOVER tk
     mirrorsWith (gone 0) 1 == [0] && gives (gone 0) (.peerLoss 1) (fun t => (t.peer 1).lost && thState t 0 == 1) &&
     gives (gone 1) (.peerLoss 1) (fun t => thState t 0 == 2 && thState t 1 == thState (gone 1) 1) &&
     gives (fm 0) .formationTimeout (fun t => !t.th.forming && thState t 0 == 1) && gives (fm 1) .formationTimeout (fun t => thState t 0 == 2) &&
     gives (gone 0) .formationTimeout (fun t => t == gone 0) && thPeer (ripe 1) 0 == 1 &&
     gives (ripe 1) (.fenceTimeout 0) (fun t => thState t 0 == 1 && t.flag F.TH_EVT.SOLE) && gives (ripe 0) (.fenceTimeout 0) (fun t => t == ripe 0) &&
     gives (gone 0) (.fenceTimeout 63) (fun t => t == gone 0) && gives (ripe 0) (.thNsCmdTakeover 0x40) (fun t => thState t 0 == 1 && t.flag F.TH_EVT.SOLE) &&
     gives (ripe 0) (.thNsCmdTakeover 0) (fun t => thState t 0 == 2) && gives (gone 0) (.thNsCmdTakeover 0x40) (fun t => thState t 0 == 0) &&
     mirrorsWith (gone 0) 1 != [] && gives ((gone 0).setThState 0 3) (.peerLoss 1) (fun t => thState t 0 == 3) && gives ((fm 0).setFld (F.TH_NSCFG.MODE.ix 0) 2) .formationTimeout (fun t => thState t 0 == 0) &&
     same (((fm 0)).setFld F.TH_STATUS.FORMED 1) .formationTimeout) = true := by decide +kernel

/-- A device in Mission with room in the pool and under the Dirty Ceiling; namespace 5 has 64 blocks of 4 096 B at MAP index 16, namespace 6
two zones of 64 blocks, 60 of them writable, at ZDESC index 100; both are ready and attached to function 0. -/
def withNs5 (s : State) : State :=
  let t : Tables := { s.zyn.tab with nsrec := [(32, 1), (33, 64), (34, 16), (38, 2 + 3 * 256), (40, 13), (41, 128), (42, 100), (43, 6 + 60 * 32 + 2 * 2 ^ 26), (44, 4)] }
  let u : State := { withMedia s with zyn := { s.zyn with tab := t }, sec := { s.sec with fuses := { s.sec.fuses with lifecycle := 3 }, keysReady := true } }
  let u : State := { u with host := { u.host with poolCount := 4096 }, mram := { u.mram with plan := [(1, 0), (2, 0)] } }
  flds (u.setFunc 0 { u.func 0 with attached := [5, 6] }) [(F.BPM_FREE.FREE, 1000), (F.MED_GEO0.PPB, 2048)]

theorem witness_TetherMirroredWrites :
    (let s := withNs5 (declared (ring2 State.reset) 1 0)
     let c (m : MirrorPh) := s.setCmd 40 { cmd40 { opc := 1, nsid := 5, cid := 5 } with mirror := m }
     let ap := s.setCmd 40 { cmd40 { opc := 0x7D, nsid := 5 } with mirror := .waitGrant }
     let r : LockReq := { cmd := peerKey 1 40, fsn := 3, nsid := 5, sq := 0, ranges := [(0, 4, .excl)], armed := true, peer := some 1 }
     let lk := { s with host := { s.host with rlt := [r] } }
     let before := { s with host := { s.host with rlt := [{ r with cmd := 7, fsn := 1, held := true }, r] } }
     let away := withNs5 (declared (ring2 State.reset) 1 1)
     let z6 := (withNs5 (declared (ring2 State.reset) 1 0)).setFld (F.TH_NSCFG.NSID.ix 0) 6
     let roz := z6.setTab { z6.zyn.tab with zdesc := (List.range 8).map fun k => (800 + k, if k = 0 then (13 : Word64) else 0) }
     let tight := flds s [(F.BPM_FREE.FREE, 0)]
     let wd (n : Nat) : List (BitVec 40 × BitVec 8 × Block) := (List.range n).map fun k => (BitVec.ofNat 40 k, 0xFF, 0)
     thEntry s 5 == some 0 && spanOf s 5 == none && lockHome s 0 && !s.nsZoned 5 && hd1.srcN != ringId s &&
     gives s (.lockRequest hd1 1 5 0 4) (fun t => sent t 4 && t.host.fsn == 1 && t.host.rlt.length == 1 && (t.lock (peerKey 1 40)).any (·.held)) &&
     !lockHome away 0 && gives away (.lockRequest hd1 1 5 0 4) (fun t => t.host == away.host && t.out == []) && gives State.reset (.lockRequest hd1 1 5 0 4) (fun t => t.out == []) &&
     (thEntry s 9).isNone && gives s (.lockRequest hd1 1 9 0 4) (fun t => t.host == s.host && t.out == []) &&
     (zoneStatus roz 6 (roz.zoneOf 6 0) 1 (some 0) false).isSome && gives roz (.lockRequest hd1 1 6 0 1) (fun t => sent t 4 && t.host == roz.host) &&
     gives (c .waitGrant) (.lockGrant false hd1 0 0 7) (fun t => (t.cmd 40).any fun y => y.mirror == .granted) &&
     gives ap (.lockGrant false hd1 0 0 7) (fun t => (t.cmd 40).any fun y => y.assigned == some 7) &&
     gives (c .waitGrant) (.lockGrant false hd1 1 0xB9 7) (fun t => t.out.any fun o => match o with | .cqe 0 _ e => e.cid == 5 && e.sct == 1 && e.sc == 0xB9 | _ => false) &&
     gives (c .granted) (.lockGrant false hd1 0 0 7) (fun t => t.host == (c .granted).host) &&
     lockFree lk r && gives lk (.lockGrant true hd1 0 0 7) (fun t => sent t 4 && (t.lock (peerKey 1 40)).any (·.held)) && !lockFree before r && same before (.lockGrant true hd1 0 0 7) && same s (.lockGrant true hd1 0 0 7) &&
     same tight (.writeData hd1 false 1 5 0 1 (wd 1)) && gives s (.writeData hd1 true 1 5 0 1 (wd 1)) (fun t => sent t 0x0A) &&
     (zoneStatus roz 6 (roz.zoneOf 6 0) 1 (some 0) true).isSome && gives roz (.writeData hd1 true 1 6 0 1 (wd 1)) (fun t => sent t 0x0A && t.host == roz.host) &&
     withinCeiling s 1 && decide (1 ≤ freeBufs s) && !partialWaits s 5 0 1 && gives s (.writeData hd1 false 1 5 0 1 (wd 1)) (fun t => sent t 6 && t.th.rx.length == 1) &&
     gives (c .granted) (.writeAck hd1) (fun t => t.out == []) && gives (c .sent) (.writeAck hd1) (fun t => sent t 7) &&
     gives lk (.commitNotice hd1) (fun t => t.host.rlt == []) &&
     fwd (.lockRequest hd2 1 5 0 4) 3 && fwd (.lockGrant false hd2 0 0 7) 4 && fwd (.writeData hd2 false 1 5 0 1 (wd 1)) 5 && fwd (.writeAck hd2) 6 && fwd (.commitNotice hd2) 7 &&
     same State.reset (.writeAck hd2)) = true := by decide +kernel

theorem witness_TetherPiecesBellAndResync :
    (let s := withNs5 (declared (ring2 State.reset) 2 0)
     let b : Buf := { cmd := 3, account := 0, nsid := 5, lba := 0, wsn := 1 }
     let pool := (s.setBuf 9 b).setTab { s.zyn.tab with map := [(16, 0x8000000009)] }
     let rd (cm : Bool) := s.setCmd 40 { cmd40 { opc := 2, nsid := 5 } with committed := cm }
     let pc (l : List (Nat × Option (Nat × Nat))) := s.setCmd 40 { cmd40 { opc := 2, nsid := 5, cid := 5 } with pieces := l }
     let two := pc [(1, none), (0, none)]
     let one := pc [(1, none)]
     let cqe (sct sc : Nat) (t : State) := t.out.any fun o => match o with | .cqe 0 _ e => e.cid == 5 && e.sct == sct && e.sc == sc | _ => false
     let r : RollCall := { ident := 7, kind := .barrier, mask := 1, ring := true, ringWait := [1] }
     let rc (q : List RollCall) := { s with ttu := { s.ttu with rc := some r, rcQueue := q } }
     let call (n : BitVec 16) : RollCall := { r with ident := n }
     let full := rc [call 1, call 2, call 3, call 4]
     let relay := s.setFld F.TT_SRC.SRC_PRI 3
     let beat := flds s [(F.TT_STATUS.STATE, 2), (F.TT_STATUS.ACTIVE_SRC, 2)]
     let rj := s.setThState 0 3
     let lkd := { pool with host := { pool.host with rlt := [{ cmd := 8, fsn := 1, nsid := 5, sq := 1, ranges := [(0, 1, .excl)], armed := true, held := true }] } }
     let gone := pool.setTab { pool.zyn.tab with map := [(16, 5)] }
     let off6 := { s.zyn.tab with zdesc := (List.range 8).map fun k => (800 + k, if k = 0 then (15 : Word64) else 0) }
     (match got pool 5 0 false with | .data _ => true | _ => false) && !localConflict pool 5 0 1 (peerKey 1 40) .shared &&
     gives pool (.readRequest hd1 5 0 1 []) (fun t => sent t 9 && sent t 0x0A) && localConflict lkd 5 0 1 (peerKey 1 40) .shared && same lkd (.readRequest hd1 5 0 1 []) &&
     (match got gone 5 0 false with | .lost _ => true | _ => false) && gives gone (.readRequest hd1 5 0 1 []) (fun t => sent t 0x0A && !sent t 9) &&
     anyOffline (s.setTab off6) 6 0 1 && gives (s.setTab off6) (.readRequest hd1 6 0 1 []) (fun t => sent t 0x0A && !sent t 9) &&
     gives (rd false) (.readData hd1 [(0, some 5)]) (fun t => t.out.length == 1) && gives (rd true) (.readData hd1 [(0, some 5)]) (fun t => t.out == []) &&
     (setFirst 1 (0, 0) [(1, none), (0, none)]).any (·.2.isNone) && gives two (.pieceCompletion hd1 0 0) (fun t => t.out == [] && (t.cmd 40).any fun y => y.pieces == [(1, some (0, 0)), (0, none)]) &&
     gives one (.pieceCompletion hd1 2 0x81) (cqe 2 0x81) && gives one (.pieceCompletion hd1 0 0) (cqe 0 0) && gives s (.pieceCompletion hd1 0 0) (fun t => t.host == s.host && t.out == []) &&
     gives s (.rollCallFrame hd1 7 ⟨1, 3, true, 5⟩) (fun t => t.ttu == s.ttu) &&
     gives s (.rollCallFrame hd1 7 ⟨1, 2, true, 5⟩) (fun t => match t.ttu.rc with | some q => q.ident == 7 && q.kind == .snapshot && q.ring && q.ringWait == [] && q.ringGot == [(1, 5)] | none => false) &&
     gives (rc []) (.rollCallFrame hd1 7 ⟨1, 0, true, 5⟩) (fun t => (t.ttu.rc.map fun q => (q.ringWait, q.ringGot)) == some ([], [(1, 5)])) &&
     gives (rc []) (.rollCallFrame hd1 8 ⟨1, 0, true, 5⟩) (fun t => (t.ttu.rcQueue.map fun q => (q.ident, q.ringGot)) == [(8, [(1, 5)])]) &&
     gives full (.rollCallFrame hd1 8 ⟨1, 0, true, 5⟩) (fun t => t.th.rcHeard == [(8, 1, 5)] && t.ttu == full.ttu) &&
     sources relay == [3] && gives relay (.bellBeat hd1 1000 10) (fun t => t.ttu.src3.valid && t.now == 0) && gives s (.bellBeat hd1 1000 10) (fun t => t.ttu == s.ttu) &&
     gives beat .bellBeatSend (fun t => sent t 0x0C) && same s .bellBeatSend &&
     gives rj (.resyncData hd1 0 true []) (fun t => thState t 0 == 0) && gives rj (.resyncData hd1 0 false []) (fun t => thState t 0 == 3) && gives rj (.resyncData hd1 63 true []) (fun t => t.regs == rj.regs) &&
     same (flds rj [(F.BPM_FREE.FREE, 0)]) (.resyncData hd1 0 true [(0, 0)]) &&
     fwd (.readRequest hd2 5 0 1 []) 8 && fwd (.readData hd2 []) 9 && fwd (.pieceCompletion hd2 0 0) 0x0A && fwd (.resyncData hd2 0 true []) 0x0D && same State.reset (.readData hd1 []) &&
     same State.reset (.rollCallFrame hd1 7 ⟨1, 0, true, 5⟩) && same State.reset (.bellBeat hd1 0 0)) = true := by decide +kernel

/-! ### Commands of the host -/

/-- A CQE with a status has left for function 0. -/
def posted (t : State) (sct sc : Nat) : Bool := t.out.any fun o => match o with | .cqe 0 _ e => e.cid == 5 && e.sct == sct && e.sc == sc | _ => false
def noData (t : State) : Bool := t.out.all fun o => match o with | .data _ _ _ _ => false | _ => true
def dataOut (t : State) (l : List Block) : Bool := t.out.any fun o => match o with | .data 0 _ 0 m => m == l | _ => false

/-- The premise of the I/O statements. -/
def ungated (s : State) (c : Nat) (data : Bool) : Bool :=
  match s.cmd c with
  | none => false
  | some x => !x.committed && !x.admin && x.classified && !x.waitBank && x.cqWait.isNone && !x.abort && x.fused.isNone && x.st != .posted && !s.flushing &&
    gateStatus s data x == none && (spanOf s x.sqe.nsid.toNat).isNone && !(s.func x.func).resetting && !(s.func x.func).flr && !cqFull s x &&
    (s.sq x.func x.sqid).all (·.cq != 0) && (match s.lock c with | some r => r.held | none => true)

/-- Command 40 with an opcode on namespace 5, one block at LBA 3. -/
def io5 (opc : BitVec 8) (f : Sqe → Sqe := id) (g : Cmd → Cmd := id) (s : State := withNs5 State.reset) : State :=
  s.setCmd 40 (g (cmd40 (f { opc := opc, nsid := 5, cid := 5, cdw10 := 3 })))

def withMap (s : State) (e : Word64) : State := s.setTab { s.zyn.tab with map := [(19, e)] }

theorem witness_ReadCommands :
    (let rd := io5 2
     let far := io5 2 (fun q => { q with cdw10 := 64 })
     let bad := withMap rd 0xD000000000
     let flt := (io5 0x82 (fun q => { q with cdw13 := 1, cdw15 := 0x100 }) (fun x => { x with scr := BitVec.ofNat 64 (3 * 2 ^ 48), filter := some [] }))
     let flt := { flt.setTab { flt.zyn.tab with tenant := [(4, 3)] } with sc := { flt.sc with engines := [(2, 40)] } }
     let mode3 := io5 0x82 (fun q => { q with cdw13 := 3 })
     ungated rd 40 true && !rd.nsZoned 5 && gives far (.read 40 []) (fun t => posted t 0 0x80 && noData t) &&
     gives rd (.read 40 []) (fun t => posted t 0 0 && dataOut t [0]) && gives (io5 0x0C) (.verify 40 [] []) (fun t => posted t 0 0 && noData t) &&
     gives (io5 5) (.compare 40 [0] [] []) (fun t => posted t 0 0) && gives (io5 5) (.compare 40 [1] [] []) (fun t => posted t 2 0x85) &&
     (match got bad 5 3 false with | .lost false => true | _ => false) && gives bad (.read 40 []) (fun t => posted t 2 0x81 && noData t) && ungated flt 40 true &&
     gives flt (.filteredRead 40 [] []) (fun t => posted t 0 0 && t.out.any fun o => match o with | .bytes 0 _ _ => true | _ => false) &&
     gives mode3 (.filteredRead 40 [] []) (fun t => posted t 0 2 && noData t)) = true := by decide +kernel

/-- Namespace 6 with zone 100 in a state, its write pointers 7. -/
def zone6 (zs : Nat) (opc : BitVec 8) (f : Sqe → Sqe := id) : State :=
  let s := io5 opc (fun q => f { q with nsid := 6, cdw10 := 7 })
  (s.setTab { s.zyn.tab with zdesc := [(800, BitVec.ofNat 64 (zs + 7 * 2 ^ 32)), (801, BitVec.ofNat 64 (7 + 7 * 2 ^ 32)), (804, 6)] })

theorem witness_ReadCommands_held :
    (let big (opc : BitVec 8) := io5 opc (fun q => { q with cdw12 := 600, cdw10 := 0 })
     let off (opc : BitVec 8) := zone6 0xF opc
     let hold (opc : BitVec 8) := let s := zone6 2 opc; { s with host := { s.host with barriers := [(100, 1, 9)] } }
     let bad (opc : BitVec 8) := withMap (io5 opc) 0xD000000000
     let full := { (io5 0x82 (fun q => { q with cdw13 := 1, cdw15 := 0x100 }) (fun x => { x with filter := some [] })) with sc := { (State.reset).sc with engines := (List.range 8).map fun e => (e, 90 + e) } }
     let wide (s : State) := s.setTab { s.zyn.tab with nsrec := s.zyn.tab.nsrec.map fun (k, v) => if k = 33 then (k, 4096) else (k, v) }
     let span := (wide (withNs5 (declared (ring2 State.reset) 2 0))).setCmd 40 (cmd40 { opc := 2, nsid := 5, cid := 5, cdw10 := 512, keyTag := 1 })
     let span := span.setFld (F.TH_NSCFG.AGREED.ix 0) 1
     (spanOf span 5).isSome && spanPieces span 0 5 512 1 == [(1, 512, 1)] && (span.cmd 40).any (gateStatus span true · == none) && !ownerGone span 1 &&
     gives span (.read 40 []) (fun t => sent t 8 && (t.cmd 40).any (·.pieces == [(1, none)])) &&
     [2, 5].all (fun o => ungated (big o) 40 true) && gives (big 2) (.read 40 []) (fun t => posted t 0 2) && gives (big 5) (.compare 40 [] [] []) (fun t => posted t 0 2) &&
     ungated (off 2) 40 true && anyOffline (off 2) 6 7 1 && gives (off 2) (.read 40 []) (fun t => posted t 1 0xBB && noData t) &&
     gives (off 0xC) (.verify 40 [] []) (fun t => posted t 1 0xBB) && gives (off 5) (.compare 40 [] [] []) (fun t => posted t 1 0xBB) &&
     barred (hold 2) (cmd40 {}) 100 && same (hold 2) (.read 40 []) && same (hold 0xC) (.verify 40 [] []) && same (hold 5) (.compare 40 [] [] []) &&
     gives (bad 0xC) (.verify 40 [] []) (fun t => posted t 2 0x81) && gives (bad 5) (.compare 40 [0] [] []) (fun t => posted t 2 0x81 && noData t) &&
     gives (io5 0xC) (.verify 40 [] []) (fun t => posted t 0 0) && gives full (.filteredRead 40 [] []) (fun t => t.sc.pauWait == [40] && t.out == []))
     = true := by decide +kernel

theorem witness_WriteCommands :
    (let wr := io5 1
     let low := { wr with mram := { wr.mram with plan := [] } }
     let apd := io5 0x7D (fun q => { q with nsid := 6, cdw10 := 64 })
     let apd := { (apd.setTab { apd.zyn.tab with zdesc := [(808, 2 + 7 * 2 ^ 32), (809, 7), (812, 6)] }) with map := { apd.map with listUsed := [] } }
     let f := (low.setCmd 40 { cmd40 { opc := 5, nsid := 5, cid := 5, cdw10 := 3 } with fused := some 41 })
     let f := f.setCmd 41 { cmd40 { opc := 1, nsid := 5, cid := 6, cdw10 := 3 } with fused := some 40 }
     let inPool (t : State) (i : Nat) := match Place.of (t.mapEntry i) with | .buffer h => (t.buf h).isSome | _ => false
     ungated wr 40 true && withinCeiling wr 1 && gives wr (.write 40 [7]) (fun t => posted t 0 0 && inPool t 19 && (t.cmd 40).any fun y => y.committed && y.st == .posted) &&
     !withinCeiling low 1 && gives low (.write 40 [7]) (fun t => t.out == [] && inPool t 19 && (t.cmd 40).any fun y => !y.committed && y.placed && y.ceilWait) &&
     ungated apd 40 true && apd.zoneOf 6 64 == 101 && zoneStatus apd 6 101 1 none true == none && !zoneBehind apd (cmd40 { opc := 0x7D, nsid := 6, cid := 5, cdw10 := 64 }) 101 &&
     gives apd (.zoneAppend 40 [7]) (fun t => t.zrwp 101 == 8 && t.out.any fun o => match o with | .cqe 0 _ e => e.sc == 0 && e.dw0 == 71 | _ => false) &&
     gives f (.fusedCompareAndWrite 40 [1] [] []) (fun t => posted t 2 0x85 && t.zyn.tab.map == []) &&
     (match f.cmd 40, f.cmd 41 with | some x, some y => readBack f x 3 1 == hostData f x [0] && gateStatus f true y == none && (stream f y).isSome | _, _ => false) &&
     !withinCeiling f 1 && (f.lock 41).isNone && !f.underRebuild 1 19) = true := by decide +kernel

/-- Namespace 5 with 512 B blocks, eight to a unit. -/
def iu8 (s : State) : State := s.setTab { s.zyn.tab with nsrec := s.zyn.tab.nsrec.map fun (k, v) => if k = 32 then (k, 9) else (k, v) }
/-- Namespaces 5 and 6 under key slot 0, which holds a key. -/
def keyed (s : State) : State :=
  let s := s.setTab { s.zyn.tab with nsrec := (s.zyn.tab.nsrec.filter fun (k, _) => k < 37) ++ [(37, 65536)] ++ (s.zyn.tab.nsrec.filter fun (k, _) => 37 < k) ++ [(45, 65536)] }
  { s with sec := { s.sec with slots := [(0, 5)] } }
def withBuf (s : State) : State :=
  (s.setBuf 9 { cmd := 3, account := 0, nsid := 5, lba := 0, wsn := 1 }).setTab { s.zyn.tab with map := [(16, 0x8000000009)] }

theorem witness_WriteCommands_refused :
    (let inp := withBuf (iu8 (io5 1))
     let far := io5 1 (fun q => { q with cdw10 := 64 })
     let fdp := io5 1 (fun q => { q with cdw12 := 0x200000, cdw13 := 0x30000 })
     let zw := zone6 2 1
     let full := zone6 0xE 1
     let put := io5 1 id (fun x => { x with placed := true, bufs := [9] })
     let cut := { (put) with mram := { put.mram with plan := [] } }
     let pair := (withMap (io5 5 id (fun x => { x with fused := some 41, sqe := { x.sqe with fuse := 1 } })) 0xD000000000).setCmd 41 { cmd40 { opc := 1, nsid := 5, cid := 6, cdw10 := 3 } with fused := some 40 }
     let good := (io5 5 id (fun x => { x with fused := some 41, sqe := { x.sqe with fuse := 1 } })).setCmd 41 { cmd40 { opc := 1, nsid := 5, cid := 6, cdw10 := 3 } with fused := some 40 }
     let inPool (t : State) (i : Nat) := match Place.of (t.mapEntry i) with | .buffer h => (t.buf h).isSome | _ => false
     let waits (t : State) := t.out == [] && (t.cmd 40).any fun y => !y.placed && !y.committed
     partialWaits inp 5 3 1 && ungated inp 40 true && gives inp (.write 40 [7]) waits && gives far (.write 40 [7]) (fun t => posted t 0 0x80) &&
     gives (io5 1 (fun q => { q with cdw12 := 600 })) (.write 40 []) (fun t => posted t 0 2) && (stream fdp (cmd40 { opc := 1, nsid := 5, cdw12 := 0x200000, cdw13 := 0x30000 })).isNone && gives fdp (.write 40 [7]) (fun t => posted t 0 2) &&
     ungated zw 40 true && zw.zrwp 100 == 7 && gives zw (.write 40 [7]) (fun t => posted t 0 0 && t.zrwp 100 == 8) && gives full (.write 40 [7]) (fun t => posted t 1 0xB9) &&
     ungated put 40 true && gives put (.write 40 []) (fun t => posted t 0 0) && !withinCeiling cut 1 && gives cut (.write 40 []) (fun t => t.out == []) &&
     gives (io5 0x7D) (.zoneAppend 40 [7]) (fun t => posted t 0 1) && gives (io5 0x7D (fun q => { q with nsid := 6, cdw10 := 128 })) (.zoneAppend 40 [7]) (fun t => posted t 0 0x80) &&
     gives (zone6 0xE 0x7D (fun q => { q with cdw10 := 0 })) (.zoneAppend 40 [7]) (fun t => posted t 1 0xB9) && gives (io5 0x7D (fun q => { q with nsid := 6, cdw12 := 600 })) (.zoneAppend 40 []) (fun t => posted t 0 2) &&
     gives pair (.fusedCompareAndWrite 40 [1] [0] []) (fun t => posted t 2 0x81 && t.zyn.tab.map == pair.zyn.tab.map && (t.cmd 41).all (·.st == .posted)) &&
     !partialWaits good 5 3 1 && (match good.cmd 40, good.cmd 41 with | some x, some y => readBack good x 3 1 == hostData good x [0] && gateStatus good true y == none && (stream good y).isSome && withinCeiling good (pieces good y 3 (hostData good y [1])).length | _, _ => false)) = true := by decide +kernel

theorem witness_MarkingAndManagementCommands :
    (let un (t : State) := Place.of (t.mapEntry 19) == .unwritten
     let dsm (v : Word) := withMap (io5 9 (fun q => { q with cdw11 := v, cdw10 := 0, ranges := [(0, 1)] })) 0
     let fl (l : List (Nat × List Nat)) := let s := io5 0; s.setFunc 0 { s.func 0 with flushes := l }
     let ru (opc : BitVec 8) (mo : Word) := io5 opc (fun q => { q with cdw10 := mo })
     ungated (io5 4) 40 true && gives (io5 4) (.writeUncorrectable 40) (fun t => posted t 0 0 && Place.of (t.mapEntry 19) == .writeUncorr) &&
     gives (withMap (io5 8) 0xD000000000) (.writeZeroes 40) (fun t => posted t 0 0 && un t) &&
     gives (dsm 4) (.datasetManagement 40) (fun t => posted t 0 0 && Place.of (t.mapEntry 16) == .unwritten) && gives (dsm 0) (.datasetManagement 40) (fun t => posted t 0 0) &&
     ungated (fl [(40, [])]) 40 false && gives (fl [(40, [])]) (.flush 40) (fun t => posted t 0 0) && gives (fl [(40, [41])]) (.flush 40) (fun t => t == fl [(40, [41])]) &&
     (ru 0x12 1).nsFdp 5 == 2 && gives (ru 0x12 1) (.ioManagementReceive 40) (fun t => posted t 0 0 && t.out.any fun o => match o with | .bytes 0 _ b => b.length == 80 | _ => false) &&
     gives (ru 0x1D 1) (.reclaimUnitHandleUpdate 40 [0, 1]) (fun t => posted t 0 0) && gives (ru 0x12 2) (.ioManagementReceive 40) (fun t => posted t 0 2) &&
     gives (ru 0x1D 2) (.reclaimUnitHandleUpdate 40 []) (fun t => posted t 0 2)) = true := by decide +kernel

theorem witness_MarkingAndManagementCommands_refused :
    (let un (o : BitVec 8) (f : Sqe → Sqe := id) := iu8 (io5 o f)
     let far (o : BitVec 8) := io5 o (fun q => { q with cdw10 := 64, cdw11 := 4, ranges := [(64, 1)] })
     let part (o : BitVec 8) := keyed (withBuf (iu8 (io5 o (fun q => { q with cdw11 := if o = 9 then 4 else 0, ranges := [(3, 1)] }))))
     let waits (s : State) (x : Instr) := gives s x fun t => t.out == [] && (t.cmd 40).any fun y => !y.placed && !y.committed
     let put (o : BitVec 8) := io5 o (fun q => { q with cdw11 := 4, ranges := [(3, 0)] }) (fun x => { x with placed := true })
     let z (st : Nat) (o : BitVec 8) := zone6 st o
     let cp (f : Sqe → Sqe) := keyed (io5 0x19 (fun q => f { q with ranges := [(7, 0)] }))
     let lost := withMap (cp id) 0xD000000000
     let lost := lost.setTab { lost.zyn.tab with map := [(23, 0xD000000000)] }
     let zc := io5 0x19 (fun q => { q with nsid := 6, cdw10 := 7, ranges := [(0, 0)] }) id (keyed (z 2 0x19))
     let zc := { zc with map := { zc.map with zeroed := [100 * 2 ^ 21] } }
     let reads (s : State) (src : Nat) := (s.cmd 40).any fun x => (match s.settleKeys { x with sqe := { x.sqe with opc := 2, cdw10 := BitVec.ofNat 32 src, cdw12 := 0, ranges := [] } } with | .ok _ => true | _ => false) &&
       (match got s x.sqe.nsid.toNat src false with | .lost _ => false | _ => true)
     let nope := let s := io5 0; s.setFunc 0 { s.func 0 with attached := [] }
     let fdp (o : BitVec 8) (k : Word64) := let s := io5 o (fun q => { q with cdw10 := 1 }); s.setTab { s.zyn.tab with nsrec := s.zyn.tab.nsrec.map fun (i, v) => if i = 38 then (i, k) else (i, v) }
     gives (un 4) (.writeUncorrectable 40) (fun t => posted t 0 2) && gives (un 8) (.writeZeroes 40) (fun t => posted t 0 0 && t.host.bufs.length == 1) &&
     gives (far 4) (.writeUncorrectable 40) (fun t => posted t 0 0x80) && gives (far 8) (.writeZeroes 40) (fun t => posted t 0 0x80) && gives (far 9) (.datasetManagement 40) (fun t => posted t 0 0x80) &&
     ungated (part 8) 40 true && waits (part 8) (.writeZeroes 40) && waits (part 9) (.datasetManagement 40) &&
     gives (put 8) (.writeZeroes 40) (fun t => posted t 0 0) && gives (put 9) (.datasetManagement 40) (fun t => posted t 0 0) && gives (put 0x19) (.copy 40 []) (fun t => posted t 0 0) &&
     gives (z 2 4) (.writeUncorrectable 40) (fun t => posted t 0 0 && t.map.voids == [100 * 2 ^ 21 + 7]) && gives (z 2 8) (.writeZeroes 40) (fun t => posted t 0 0 && t.map.zeroed == [100 * 2 ^ 21 + 7]) &&
     gives (z 0xE 4) (.writeUncorrectable 40) (fun t => posted t 1 0xB9) && gives (z 0xE 8) (.writeZeroes 40) (fun t => posted t 1 0xB9) &&
     gives (io5 9 (fun q => { q with cdw11 := 4, ranges := List.replicate 257 (0, 1) })) (.datasetManagement 40) (fun t => posted t 0 2) &&
     gives (io5 0x19) (.copy 40 []) (fun t => posted t 0 2) && gives (cp fun q => { q with cdw12 := 0x100 }) (.copy 40 []) (fun t => posted t 0 2) &&
     gives (cp fun q => { q with cdw10 := 64 }) (.copy 40 []) (fun t => posted t 0 0x80) && reads (cp id) 7 && withinCeiling (cp id) 1 && gives lost (.copy 40 []) (fun t => posted t 2 0x81) &&
     reads zc 0 && !waitsReserved zc 40 6 0 1 && gives zc (.copy 40 []) (fun t => posted t 0 0 && t.zrwp 100 == 8) &&
     gives (io5 0x19 (fun q => { q with ranges := [(7, 0)] })) (.copy 40 []) (fun t => posted t 2 0x86) && gives nope (.flush 40) (fun t => posted t 0 0xB) && (fdp 0x12 0).nsFdp 5 == 0 && gives (fdp 0x12 0) (.ioManagementReceive 40) (fun t => posted t 0 0x29) &&
     gives (fdp 0x1D 0) (.reclaimUnitHandleUpdate 40 []) (fun t => posted t 0 0x29) && gives (fdp 0x1D 2) (.reclaimUnitHandleUpdate 40 [2]) (fun t => posted t 0 2)) = true := by decide +kernel

theorem witness_ZoneManagement :
    (let zone (zs : Nat) (rest : Sparse Word64) (act : Word) (opc : BitVec 8 := 0x79) := let s := io5 opc (fun q => { q with nsid := 6, cdw10 := 0, cdw13 := act }); s.setTab { s.zyn.tab with zdesc := [(800, BitVec.ofNat 64 (zs + 7 * 2 ^ 32))] ++ rest }
     let at' (t : State) (zs : Nat) := posted t 0 0 && t.zs 100 == zs
     let own : Sparse Word64 := [(804, 6)]
     ungated (zone 2 own 3) 40 false && !zoneBusy (zone 2 own 3) (cmd40 { opc := 0x79, nsid := 6, cid := 5, cdw13 := 3 }) 100 &&
     gives (zone 2 own 3) (.zoneOpen 40) (at' · 3) && gives (zone 4 own 3) (.zoneOpen 40) (at' · 3) && gives (zone 0xE own 3) (.zoneOpen 40) (fun t => posted t 1 0xBF) &&
     gives (zone 2 own 1) (.zoneClose 40) (at' · 4) && gives (zone 4 ([(801, 9)] ++ own) 2) (.zoneFinish 40) (fun t => at' t 0xE && t.zwp 100 == 60) &&
     gives (zone 2 own 4) (.zoneReset 40) (fun t => at' t 1 && t.zwp 100 == 0 && t.zlgen 100 == 1) &&
     gives (zone 0xD own 5) (.zoneOffline 40) (fun t => at' t 0xF && t.flag F.MAP_EVT.ZONE_OFFLINE) && gives (zone 1 [] 5) (.zoneOffline 40) (fun t => posted t 1 0xBF) &&
     gives (zone 2 own 0 0x7A) (.reportZones 40) (fun t => posted t 0 0 && t.out.any fun o => match o with | .bytes 0 _ b => decide (64 ≤ b.length) | _ => false)) = true := by
  decide +kernel

theorem witness_ZoneManagement_refused :
    (let zone (act : Word) (s : State) := s.modCmd 40 fun x => { x with sqe := { x.sqe with cdw10 := 0, cdw13 := act } }
     let z (st : Nat) (act : Word) := zone act (zone6 st 0x79)
     let hold (s : State) := { s with host := { s.host with barriers := [(100, 1, 9)] } }
     let mar (n : Word64) (s : State) := s.setTab { s.zyn.tab with nsrec := s.zyn.tab.nsrec.map fun (k, v) => if k = 44 then (k, n) else (k, v) }
     let at0 (act lba : Word) := let s := z 2 act; s.modCmd 40 fun x => { x with sqe := { x.sqe with cdw10 := lba } }
     let conv (act : Word) (o : BitVec 8 := 0x79) := io5 o (fun q => { q with cdw10 := 0, cdw13 := act })
     let rz (act : Word) := zone act (zone6 2 0x7A)
     let all (act : Word) := z 2 (act + 0x100)
     let gone (s : State) := s.setTab { s.zyn.tab with zdesc := [] }
     [(Instr.zoneOpen 40, 3), (.zoneClose 40, 1), (.zoneFinish 40, 2), (.zoneReset 40, 4), (.zoneOffline 40, 5)].all (fun (x, a) => same (z 2 0xFF) x &&
       gives (conv a) x (fun t => posted t 0 1) && gives (at0 a 128) x (fun t => posted t 0 0x80) && gives (at0 a 1) x (fun t => posted t 0 2) && gives (all a) x (fun t => posted t 0 0)) &&
     [(Instr.zoneClose 40, 1), (.zoneFinish 40, 2), (.zoneReset 40, 4)].all (fun (x, a) => gives (hold (z 2 a)) x (fun t => t.out == [] && t.zs 100 == 2)) && zoneBusy (hold (z 2 1)) (cmd40 {}) 100 &&
     gives (mar 1 (gone (z 1 3))) (.zoneOpen 40) (fun t => posted t 0 0x80 || posted t 1 0xBF || t.out != []) && gives (mar 0 (z 1 3)) (.zoneOpen 40) (fun t => posted t 1 0xBD) && gives (mar 0 (z 4 3)) (.zoneOpen 40) (fun t => posted t 1 0xBE) &&
     gives (z 4 1) (.zoneClose 40) (fun t => posted t 0 0) && gives (z 0xE 1) (.zoneClose 40) (fun t => posted t 1 0xBF) && gives (z 0xF 2) (.zoneFinish 40) (fun t => posted t 1 0xBF) &&
     gives (z 0xD 4) (.zoneReset 40) (fun t => posted t 1 0xBF) && gives (z 0xF 5) (.zoneOffline 40) (fun t => posted t 0 0) && gives (z 2 5) (.zoneOffline 40) (fun t => posted t 1 0xBF) &&
     gives (conv 0 0x7A) (.reportZones 40) (fun t => posted t 0 1) && gives (rz 1) (.reportZones 40) (fun t => posted t 0 2) && gives (rz 0x800) (.reportZones 40) (fun t => posted t 0 2) &&
     gives ((rz 0).modCmd 40 fun x => { x with sqe := { x.sqe with cdw10 := 128 } }) (.reportZones 40) (fun t => posted t 0 0x80)) = true := by decide +kernel

theorem witness_GatesOfIoCommands :
    (let user := [(0x02, Instr.read 40 []), (0x0C, .verify 40 [] []), (0x05, .compare 40 [] [] []), (0x82, .filteredRead 40 [] []), (0x01, .write 40 []),
       (0x7D, .zoneAppend 40 []), (0x05, .fusedCompareAndWrite 40 [] [] []), (0x04, .writeUncorrectable 40), (0x08, .writeZeroes 40), (0x09, .datasetManagement 40), (0x19, .copy 40 [])]
     let plain := [(0x12, Instr.ioManagementReceive 40), (0x1D, .reclaimUnitHandleUpdate 40 []), (0x79, .zoneOpen 40), (0x79, .zoneClose 40), (0x79, .zoneFinish 40),
       (0x79, .zoneReset 40), (0x79, .zoneOffline 40), (0x7A, .reportZones 40)]
     let with' (o : Nat) (g : Cmd → Cmd) := io5 (BitVec.ofNat 8 o) id g
     let out (o : Nat) := let s := io5 (BitVec.ofNat 8 o); s.setFunc 0 { s.func 0 with attached := [] }
     (user ++ plain ++ [(0, Instr.flush 40)]).all (fun (o, x) => same State.reset x && same (with' o fun y => { y with committed := true }) x && same (with' (o + 1) id) x &&
       gives (with' o fun y => { y with abort := true }) x (fun t => posted t 0 7)) &&
     (user ++ plain).all (fun (o, x) => same (with' o fun y => { y with waitBank := true }) x && gives (out o) x (fun t => posted t 0 0xB))) = true := by decide +kernel

theorem witness_DoorbellsAndAdmission :
    (let s := State.reset
     let q1 : Sq := { size := 4, cq := 1, head := 3, tail := 3 }
     let s1 := (s.setSq 0 1 q1).setCq 0 1 { size := 4, head := 1, tail := 3 }
     let s0 := s.setFunc 0 { s.func 0 with rdy := true }
     let ad := withNs5 (s0.setSq 0 1 { q1 with sqes := [{ opc := 2, nsid := 5, cid := 5 }], submitted := 1, tail := 0 })
     let cl (opc : BitVec 8) (off : Nat) := ((withNs5 s).setFld F.SC_STATUS.OFFLINE off).setCmd 40 { cmd40 { opc := opc, nsid := 5, cid := 5 } with classified := false }
     let hit (s : State) := { s with sc := { s.sc with prefilter := [(2, 0)] } }
     bar0 s 0 && gives s (.sqTailDoorbell 0 1 2 []) (fun t => t.flag F.HIU_EVT.DOORBELL_ERR) && gives s (.cqHeadDoorbell 0 1 2) (fun t => t.flag F.HIU_EVT.DOORBELL_ERR) &&
     gives s1 (.sqTailDoorbell 0 1 4 []) (fun t => t.flag F.HIU_EVT.DOORBELL_ERR && t.sq 0 1 == some q1) &&
     gives s1 (.sqTailDoorbell 0 1 1 [{ cid := 7 }]) (fun t => (t.sq 0 1).any fun r => r.tail == 1 && r.submitted == 2 && r.sqes == [{ cid := 7 }, {}]) &&
     gives s1 (.cqHeadDoorbell 0 1 3) (fun t => (t.cq 0 1).any fun c => c.head == 3 && c.tail == 3) && gives s .arbiterDecision (fun t => t.host.cmds == []) &&
     headFree ad 0 1 { q1 with sqes := [{ opc := 2, nsid := 5, cid := 5 }], submitted := 1, tail := 0 } &&
     gives ad .arbiterDecision (fun t => t.host.fsn == 1 && ((t.cmd 0).any fun y => y.sqe.cid == 5 && y.sqid == 1) && (t.sq 0 1).any fun r => r.sqes == [] && r.head == 0) &&
     coreOn (cl 2 0) && gives (cl 0x33 0) (.classification 40) (fun t => posted t 0 1) && preHit (hit (cl 2 1)) 0 2 && gives (hit (cl 2 1)) (.classification 40) (fun t => (t.cmd 40).any (·.waitBank)) &&
     gives (cl 0 1) (.classification 40) (fun t => (t.cmd 40).any fun y => y.classified && y.scr == 0xFFFFFFFFFFFFFFFF) &&
     gives (cl 0 0) (.classification 40) (fun t => (t.cmd 40).any fun y => y.classified && y.scr == 0xFFFFFFFFFFFFFFFF)) = true := by decide +kernel

theorem witness_DoorbellsAndAdmission_forms :
    (let s := State.reset
     let s0 := s.setFunc 0 { s.func 0 with rdy := true }
     let sq (l : List Sqe) : Sq := { size := 4, cq := 1, head := 3, tail := 1, sqes := l, submitted := l.length }
     let at' (l : List Sqe) := withNs5 (s0.setSq 0 1 (sq l))
     let adm (e : Sqe) := withNs5 (s0.setSq 0 0 (sq [e]))
     let pair := at' [{ opc := 5, nsid := 5, cid := 5, fuse := 1, cdw10 := 3 }, { opc := 1, nsid := 5, cid := 6, fuse := 2, cdw10 := 3 }]
     let c1 := s.setCq 0 1 { size := 4, head := 1, tail := 3 }
     let cl (opc : BitVec 8) (f : State → State) := (f (withNs5 s)).setCmd 40 { cmd40 { opc := opc, nsid := 5, cid := 5, cdw10 := 3 } with classified := false }
     let held (s : State) := { s with zyn := { s.zyn with stalled := [(8, [{ kind := 1 }])] } }
     let adm0 := { (cl 2 keyed) with host := { (cl 2 keyed).host with cmds := [(40, cmd40 { opc := 2 })] } }
     gives c1 (.cqHeadDoorbell 0 1 0) (fun t => t.flag F.HIU_EVT.DOORBELL_ERR && (t.cq 0 1).any (·.head == 1)) && gives c1 (.cqHeadDoorbell 0 1 4) (fun t => t.flag F.HIU_EVT.DOORBELL_ERR) &&
     !bar0 (s.setFunc 0 { s.func 0 with flr := true }) 0 && gives (s.setFunc 0 { s.func 0 with flr := true }) (.sqTailDoorbell 0 1 2 []) (fun t => !t.flag F.HIU_EVT.DOORBELL_ERR) &&
     sqeRefused s 0 0 { opc := 3 } == some (0, 1) && gives (adm { opc := 3, cid := 5 }) .arbiterDecision (fun t => posted t 0 1) &&
     gives (at' [{ opc := 2, nsid := 5, cid := 5, sgl := [.keyed] }]) .arbiterDecision (fun t => posted t 0 0x11) &&
     gives (at' [{ opc := 5, nsid := 5, cid := 5, fuse := 1 }]) .arbiterDecision (fun t => posted t 0 0x0A) && (sq [{ fuse := 1 }, { fuse := 2 }]).pair &&
     gives pair .arbiterDecision (fun t => t.host.fsn == 2 && ((t.cmd 0).any (·.fused == some 1)) && ((t.cmd 1).any (·.fused == some 0))) &&
     same adm0 (.classification 40) && same (held (cl 2 keyed)) (.classification 40) && same s (.classification 40) &&
     gives (cl 2 keyed) (.classification 40) (fun t => (t.cmd 40).any fun y => y.classified && y.keys == [(1, 0)] && y.st == .lockWait) && gives (cl 2 id) (.classification 40) (fun t => posted t 2 0x86) &&
     gives (cl 2 fun s => s.setFunc 0 { s.func 0 with attached := [] }) (.classification 40) (fun t => posted t 0 0xB)) = true := by decide +kernel

theorem witness_QueueCommandsAndTimeouts :
    (let s := State.reset
     let c1 := s.setCq 0 1 { size := 4, vector := 3, held := 2 }
     let s1 := c1.setSq 0 1 { size := 4, cq := 1 }
     let b := s1.setCmd 40 (cmd40 { opc := 1, cid := 9 })
     let bq := b.setQueue 0 [{ kind := 1, cmd := some 40 }]
     let ev := s.setFunc 0 { s.func 0 with events := [(1, 2)] }
     let ok (t : State) := posted t 0 0
     decide (1 ≤ queueLimit s 0) && gives s (.createIoCq 0 5 1 3 7 true true) (fun t => ok t && t.cq 0 1 == some { size := 4, vector := 7, irq := true }) &&
     gives c1 (.createIoSq 0 5 1 3 1 true) (fun t => ok t && t.sq 0 1 == some { size := 4, cq := 1 }) && gives c1 (.createIoCq 0 5 1 3 7 true true) (fun t => posted t 1 1) &&
     gives s1 (.deleteIoSq 0 5 1) (fun t => ok t && (t.sq 0 1).isNone) && gives c1 (.deleteIoCq 0 5 1) (fun t => ok t && (t.cq 0 1).isNone) &&
     gives s1 (.deleteIoCq 0 5 1) (fun t => posted t 1 0x0C && (t.cq 0 1).isSome) &&
     gives s1 (.abort 0 5 1 9) (fun t => t.fld F.CMD_ABORT_CNT.NOT_ABORTED == 1 && t.out.any fun o => match o with | .cqe 0 _ e => e.dw0 == 1 && e.cid == 5 | _ => false) &&
     gives bq (.abort 0 5 1 9) (fun t => ((t.cmd 40).any fun y => y.abort && !y.committed) && (t.func 0).aborts.contains (5, 40)) &&
     gives s (.asynchronousEventRequest 0 5) (fun t => (t.func 0).aers == [5]) &&
     gives ev (.asynchronousEventRequest 0 5) (fun t => (t.func 0).events == [] && t.out.any fun o => match o with | .cqe 0 _ e => e.dw0 == 0x201 | _ => false) &&
     gives s1 (.orderedSubmission 0 5 0x10001) (fun t => ok t && (t.sq 0 1).any (·.ordered)) &&
     gives b (.commandTimeout 40) (fun t => (t.cmd 40).any (·.timedOut)) && gives s (.dmaError 0 3 40) (fun t => (t.func 0).cfs && t.flag F.HIU_EVT.DMA_ERR) &&
     gives c1 (.interruptAggregationTimeout 0 3) (fun t => t.out == [.msix 0 3] && (t.cq 0 1).any (·.held == 0))) = true := by decide +kernel

theorem witness_QueueCommandsAndTimeouts_refused :
    (let s := State.reset
     let c1 := s.setCq 0 1 { size := 4, vector := 3, held := 2 }
     let s1 := c1.setSq 0 1 { size := 4, cq := 1 }
     let b := s1.setCmd 40 (cmd40 { opc := 1, cid := 9 })
     let com := s1.setCmd 40 { cmd40 { opc := 1, cid := 9 } with committed := true }
     let del := s1.setSq 0 1 { size := 4, cq := 1, deleting := some 3 }
     let many := s.setFunc 0 { s.func 0 with aborts := (List.range 256).map fun i => (BitVec.ofNat 16 i, i), aers := (List.range 16).map (BitVec.ofNat 16) }
     let adm := s.setCmd 40 { func := 0, sqid := 0, sqe := { opc := 6, cid := 9 }, fsn := 7, admin := true }
     let lim := flds b [(F.CMD_TIMEOUT.LIMIT_MS.ix 0, 0)]
     let cqe0 (t : State) (cid sct sc : Nat) := t.out.any fun o => match o with | .cqe 0 _ e => e.cid.toNat == cid && e.sct == sct && e.sc == sc | _ => false
     let ends (x : Instr) (st : State) (a b : Nat) := gives st x fun t => posted t a b && t.host.sqs == st.host.sqs
     !(s.func 0).resetting && ends (.createIoCq 0 5 0 3 7 true true) s 1 1 && ends (.createIoCq 0 5 1 0 7 true true) s 1 2 && ends (.createIoCq 0 5 1 3 7 true false) s 0 2 && decide (vectorLimit s 0 ≤ 2048) &&
     ends (.createIoCq 0 5 1 3 2048 true true) s 1 8 && ends (.createIoSq 0 5 1 3 0 true) c1 1 0 && ends (.createIoSq 0 5 1 3 2 true) c1 1 0 && ends (.createIoSq 0 5 1 3 1 true) s1 1 1 &&
     ends (.createIoSq 0 5 1 0 1 true) c1 1 2 && ends (.createIoSq 0 5 1 3 1 false) c1 0 2 && ends (.deleteIoSq 0 5 0) s 1 1 && ends (.deleteIoSq 0 5 1) s 1 1 && ends (.deleteIoSq 0 5 1) del 1 1 &&
     gives com (.deleteIoSq 0 5 1) (fun t => t.out == [] && (t.sq 0 1).any (·.deleting == some 5)) && gives b (.deleteIoSq 0 5 1) (fun t => cqe0 t 9 0 8) && ends (.deleteIoCq 0 5 0) s 1 1 && ends (.deleteIoCq 0 5 1) s 1 1 &&
     ends (.abort 0 5 1 9) many 1 3 && abortable adm 0 5 9 && gives adm (.abort 0 5 0 9) (fun t => cqe0 t 9 0 7 && t.fld F.CMD_ABORT_CNT.ABORTED == 1) &&
     gives b (.abort 0 5 1 9) (fun t => cqe0 t 9 0 7 && cqe0 t 5 0 0 && t.fld F.CMD_ABORT_CNT.ABORTED == 1) && ends (.asynchronousEventRequest 0 5) many 1 5 &&
     ends (.orderedSubmission 0 5 0x10001) s 0 2 && same s (.commandTimeout 40) && same com (.commandTimeout 40) && same lim (.commandTimeout 40) &&
     gives b (.dmaError 0 1 40) (fun t => cqe0 t 9 0 4 && t.out.any fun o => match o with | .aer 0 => true | _ => false) && gives b (.dmaError 1 1 40) (fun t => t.host.cmds == b.host.cmds) &&
     same s (.interruptAggregationTimeout 0 3)) = true := by decide +kernel

theorem witness_TransfersAndGrants :
    (let xf : Xfer := { tag := 4, src := 0x2000000000000100, dst := 0x2000000000000200, blocks := 1 }
     let sl : Slot := { data := some 9 }
     let x := zynWith q0 { ctxWith 0 0 with xfers := [xf], tags := 16 }
     let x := { x with media := { x.media with slots := [(128, sl), (256, {})] } }
     let zl := (zynWith m0 { ctxWith 0 0 with xfers := [{ xf with blocks := 0 }], tags := 16 }).setZlock 9 (false, [.ctx m0.key 4, .cmd 3])
     let r : LockReq := { cmd := 40, fsn := 7, nsid := 5, sq := 1, ranges := [(0, 1, .excl)], armed := true }
     let rl (l : List LockReq) := let s := io5 1; { s with host := { s.host with rlt := l } }
     let full (s : State) := (s.setSq 0 1 { size := 4, cq := 2 }).setCq 0 2 { size := 2, tail := 1 }
     let cqw := io5 1 id fun y => { y with cqWait := some (0, 0), status := 0x281 }
     let ceil := io5 1 id fun y => { y with ceilWait := true, placed := true, bufs := [3] }
     let tight := { ceil with mram := { ceil.mram with plan := [] } }
     gives x (.xferComplete q0 4 false []) (fun t => (t.ctx q0).events == 16 && (t.ctx q0).xfers == [] && (sget 256 t.media.slots).bind (·.data) == some 9) &&
     gives x (.xferComplete q0 4 true []) (fun t => (t.ctx q0).events == 16 && t.media == x.media) && gives x (.xferComplete q0 3 false []) (fun t => t == x) &&
     gives zl (.zoneLockGrant 9) (fun t => (t.ctx m0).events == 16 && (t.ctx m0).zlocks == [9] && t.zlock 9 == (true, [.ctx m0.key 4, .cmd 3])) &&
     lockFree (rl [r]) r && gives (rl [r]) (.rangeLockGrant 40) (fun t => ((t.lock 40).any (·.held)) && (t.cmd 40).any (·.st == .executing)) &&
     gives (rl [{ r with cmd := 39, fsn := 3, held := true }, r]) (.rangeLockGrant 40) (fun t => t == rl [{ r with cmd := 39, fsn := 3, held := true }, r]) &&
     cqFull (full cqw) (cmd40 {}) && gives (full cqw) (.commitPoint 40) (fun t => t == full cqw) && gives cqw (.commitPoint 40) (fun t => posted t 2 0x81) &&
     gives tight (.commitPoint 40) (fun t => t == tight) && gives ceil (.commitPoint 40) (fun t => posted t 0 0)) = true := by decide +kernel

/-- Command 40 in context `q0` with a transfer of tag 4. -/
def xferOf (src dst : Word64) (s : State := io5 2) (pau : Bool := false) : State :=
  let z := zynWith q0 { ctxWith 0 0 with cmd := some 40, xfers := [{ tag := 4, src := src, dst := dst, blocks := 1, pau := pau }], tags := 16 }
  { s with zyn := { z.zyn with tab := s.zyn.tab } }

theorem witness_TransfersAndGrants_forms :
    (let st : Word64 := 0x2000000000000100
     let host : Word64 := 0
     let pool : Word64 := 0x1000000000000009
     let slot (s : State) := s.putSlot 128 { data := some 9 }
     let bad (store k : Nat) (s : State) := { s with ecc := { s.ecc with poison := [(store, k)] } }
     let b : Buf := { cmd := 40, account := 0, nsid := 5, lba := 0 }
     let up := slot (xferOf st host)
     let pl := (xferOf pool host).setBuf 9 { b with data := 7 }
     let dn := (xferOf host pool).setBuf 9 b
     let un := (xferOf pool host State.reset).setBuf 9 b
     let tags (t : State) := (t.ctx q0).xfers == [] && (t.ctx q0).tags == 0
     let again (t : State) := (t.ctx q0).xfers != [] && (t.ctx q0).tags == 16
     let three (s : State) := { s with ecc := { s.ecc with reissues := [(128, 2)] } }
     let zl := State.reset.setZlock 9 (false, [.cmd 3])
     let zc := (zynWith m0 (ctxWith 0 0)).setZlock 9 (false, [.ctx m0.key 4])
     let ceil := io5 1 id fun y => { y with ceilWait := true, placed := true, bufs := [3] }
     let full (s : State) := (s.setSq 0 1 { size := 4, cq := 2 }).setCq 0 2 { size := 2, tail := 1 }
     let wait := (io5 1 id fun y => { y with cqWait := some (0, 0) })
     let wait := { wait with zyn := { (zynWith q0 { ctxWith 0 0 with st := .blocked (.cq 4 0 0 0xFFFF), cmd := some 40, tags := 16 }).zyn with tab := wait.zyn.tab } }
     (match exec (.xferComplete ⟨.pol, 5, 0⟩ 4 false []) State.reset with | .fault _ => true | _ => false) &&
     gives up (.xferComplete q0 4 false []) (fun t => tags t && dataOut t [9]) && poisonedAt (bad 1 128 up) 1 128 1 == some 0 &&
     gives (bad 1 128 up) (.xferComplete q0 4 false []) (fun t => again t && noData t && sgetD 0 128 t.ecc.reissues == 1) && gives up (.xferComplete q0 4 true []) again &&
     gives (three up) (.xferComplete q0 4 true []) (fun t => t.ecc.reissues == [] && noData t) &&
     gives pl (.xferComplete q0 4 false []) (fun t => tags t && dataOut t [7]) && gives pl (.xferComplete q0 4 true []) (fun t => tags t && noData t) &&
     gives dn (.xferComplete q0 4 false [6]) (fun t => tags t && (t.buf 9).any fun b => b.data == 6 && b.lba == 3) && gives dn (.xferComplete q0 4 true [6]) (fun t => tags t && t.host.bufs == dn.host.bufs) &&
     gives un (.xferComplete q0 4 false []) (fun t => tags t && t.out == [] && t.host == un.host) &&
     gives zl (.zoneLockGrant 9) (fun t => t.zlock 9 == (true, [.cmd 3])) && gives zc (.zoneLockGrant 9) (fun t => t.zlock 9 == (false, []) && t.zyn == zc.zyn) && same State.reset (.zoneLockGrant 9) &&
     same State.reset (.rangeLockGrant 40) && same State.reset (.commitPoint 40) && same (io5 1) (.commitPoint 40) &&
     gives (full ceil) (.commitPoint 40) (fun t => (t.cmd 40).any fun y => y.cqWait.isSome && !y.ceilWait && !y.committed) &&
     (cqWaiter wait 40).isSome && gives wait (.commitPoint 40) (fun t => posted t 0 0 && (t.ctx q0).st == .ready && (t.ctx q0).tags == 0)) = true := by decide +kernel

/-! ### Media -/

theorem witness_NandAndDecode :
    (let no := State.reset
     let r : NandReq := { op := .read 0 0 false, kind := 0, addr := BitVec.ofNat 48 (33 * 2 ^ 38 + 2 * 2 ^ 20 + 256), cls := 1, slot := some 128 }
     let s := withMedia no
     let lun (l : Lun) := s.setLun 33 l
     let u : Unit_ := { kind := 1, addr := 0, slc := true }
     let late (l : Lun) := let t := lun l; { t with ttu := { t.ttu with elapsed := 10000000 } }
     let sl := lun { run := .program u, suspended := true }
     let dec := { s with media := { s.media with decoding := [{ req := r }], slots := [(128, {})], nand := [(nandKey 33 ((Pa.of r.addr).slot s), 77)] } }
     !no.populated 33 && (match exec (.readyTimeout 33) no with | .fault _ => true | _ => false) && s.populated 33 && !padBurst s 33 &&
     gives (lun { run := .read r }) (.nandOperationComplete 33 false) (fun t => (t.lun 33).run == .none && t.media.decoding == [{ req := r }]) &&
     gives s (.readyTimeout 33) (fun t => t == s) && gives (lun { run := .read r }) (.readyTimeout 33) (fun t => (t.lun 33).run == .reset && t.flag (F.SEQ_EVT.READY_TMO.ix 1)) &&
     gives (late { run := .program u, queue := [r] }) (.readPreemptSuspend 33) (fun t => (t.lun 33).suspended && (t.lun 33).suspends == 1) &&
     gives s (.readPreemptSuspend 33) (fun t => t == s) && gives sl (.suspendResume 33) (fun t => !(t.lun 33).suspended) &&
     gives dec (.decodeComplete 0 true 5 0 false) (fun t => t == dec) && (Pa.of r.addr).count == 1 && wrongSlot dec 33 ((Pa.of r.addr).slot s) 77 == [] &&
     gives dec (.decodeComplete 1 true 5 0 false) (fun t => t.media.decoding == [] && (sget 128 t.media.slots).bind (·.data) == some 77 && t.fld (F.SEQ_CNT_CORR.COUNT.ix 1) == 5)) = true := by
  decide +kernel

theorem witness_NandAndDecode_forms :
    (let s := withMedia State.reset
     let r : NandReq := { op := .read 0 0 false, kind := 0, addr := BitVec.ofNat 48 (33 * 2 ^ 38 + 2 * 2 ^ 20 + 256), cls := 1, slot := some 128 }
     let l0 : Latched := { pos := 0, page := 0, payload := 77 }
     let u : Unit_ := { kind := 1, addr := r.addr, slc := true, loaded := [l0] }
     let er : NandReq := { r with op := .erase, cls := 6 }
     let at_ := ((Pa.of r.addr).block * geoPpb s + 0) * pageSlots s + 0
     let lun (l : Lun) := s.setLun 33 l
     let pad := { s with tst := { s.tst with loops := [{ iface := 2, inst := 1, depth := 3, lun := 1 }] } }
     let full := { (lun { run := .erase er }) with media := { (lun { run := .erase er }).media with nand := [(nandKey 33 at_, 5)] } }
     let thrice := { (lun { run := .read r, timeouts := [1, 0] }) with ttu := { s.ttu with elapsed := 5 } }
     let cw (x : NandReq) (i : Nat) := { s with media := { s.media with decoding := [{ req := x, idx := i }], slots := [(128, {})], nand := [(nandKey 33 ((Pa.of r.addr).slot s + i), 77)] } }
     let run2 := { r with addr := r.addr + BitVec.ofNat 48 8 }
     let hard := (cw { r with op := .read 3 0 false } 0).setFld (F.SEQ_LADDER.OUTER_EN.ix 1) 1
     s.populated 33 && padBurst pad 33 && same pad (.nandOperationComplete 33 false) && same pad (.readyTimeout 33) && same pad (.suspendResume 33) &&
     gives (lun { run := .program u }) (.nandOperationComplete 33 false) (fun t => t.codeword 33 at_ == some 77) &&
     gives (lun { run := .program u }) (.nandOperationComplete 33 true) (fun t => t.flag (F.SEQ_EVT.MEDIA_FAIL.ix 1)) &&
     gives full (.nandOperationComplete 33 false) (fun t => t.codeword 33 at_ == none) && gives full (.nandOperationComplete 33 true) (fun t => t.flag (F.SEQ_EVT.MEDIA_FAIL.ix 1)) &&
     gives (lun { run := .reset }) (.nandOperationComplete 33 true) (fun t => (t.lun 33).failed) && gives (lun { run := .reset }) (.nandOperationComplete 33 false) (fun t => (t.lun 33).run == .none) &&
     gives (lun { run := .program u, suspended := true }) (.nandOperationComplete 33 false) (fun t => t.media.nand == s.media.nand) && gives s (.nandOperationComplete 33 true) (fun t => t.media.nand == s.media.nand) &&
     gives (lun { run := .reset }) (.readyTimeout 33) (fun t => (t.lun 33).failed) && gives thrice (.readyTimeout 33) (fun t => (t.lun 33).failed) &&
     same s (.suspendResume 33) && same s (.decodeComplete 1 true 5 0 false) &&
     (Pa.of run2.addr).count == 2 && gives (cw run2 0) (.decodeComplete 1 true 5 0 false) (fun t => match t.media.decoding with | [y] => y.idx == 1 | _ => false) &&
     gives (cw r 0) (.decodeComplete 1 false 5 0 false) (fun t => t.flag (F.SEQ_EVT.UNCORR.ix 1) && t.fld (F.SEQ_CNT_UNCORR.COUNT.ix 1) == 1) &&
     gives hard (.decodeComplete 1 false 5 0 true) (fun t => t.flag (F.SEQ_EVT.OUTER_OK.ix 1) && t.fld (F.SEQ_CNT_OUTER.COUNT.ix 1) == 1) &&
     gives ((cw r 0).setTab { s.zyn.tab with map := [(19, 0x8400000000 + BitVec.ofNat 64 ((Pa.of r.addr).slot s))] }) (.decodeComplete 1 true 5 0 false) (fun t => t.media.decoding == [])) = true := by decide +kernel

theorem witness_EnvelopeStagingAndScrub :
    (let s := withMedia State.reset
     let r : NandReq := { op := .erase, kind := 1, addr := BitVec.ofNat 48 (33 * 2 ^ 38 + 2 * 2 ^ 20), cls := 6 }
     let env := let t := s.putBlock (bkey s 33 2) 0x20000; { t with media := { t.media with envQ := [r] } }
     let none' := env.setFld F.MED_ENV_ACT.BUDGET 0
     let slots (x : Slot) := { s with media := { s.media with slots := [(131, x)] } }
     let stp (t : Stripe) := { s with media := { s.media with stripes := [(1, t)] } }
     let st : Stripe := { slc := true, bg := false, parity := 7 }
     let pat (ns : Nat) := { s with media := { s.media with dies := [33] }, ttu := { s.ttu with time := BitVec.ofNat 64 ns } }
     let off := s.setFld F.ECC_CTRL.SCRUB_EN 0
     let on := s.setFld F.ECC_CTRL.SCRUB_EN 1
     let reb := { s with ecc := { s.ecc with rebuilds := [{ tbl := 4, line := 3 }] } }
     envNext s == none && gives s .envelopeAdmission (fun t => t == s) && envNext env == some r && decide (envBudget none' < envSum none' + reqWeight none' r) &&
     gives none' .envelopeAdmission (fun t => t == none') && decide (envSum env + reqWeight env r ≤ envBudget env) && eraseAllowed env 33 false &&
     gives env .envelopeAdmission (fun t => (t.lun 33).run == .erase r && t.media.envQ == []) && gives s .medEnvStageReq (fun t => t.ttu.gcQueue.length == 1) &&
     gives (slots {}) (.stagingSlotReclaim 1 3) (fun t => t == slots {}) && gives (slots { data := some 4 }) (.stagingSlotReclaim 1 3) (fun t => t.media.slots == [] && t.flag (F.SEQ_EVT.SLOT_RECLAIM.ix 1)) &&
     gives (stp { st with running := 1 }) (.stripeClose 1) (fun t => t.media.envQ == [] && (sget 1 t.media.stripes).any (·.closed)) &&
     gives (stp st) (.stripeClose 1) (fun t => match t.media.envQ with | [x] => x.op == .parity 1 && x.addr == 7 | _ => false) &&
     gives (pat (14 * 86400 * 1000000000)) .patrolOverdueCheck (fun t => !t.flag F.MED_PATROL.OVERDUE) && gives (pat (14 * 86400 * 1000000000 + 1000000000)) .patrolOverdueCheck (fun t => t.flag F.MED_PATROL.OVERDUE) &&
     gives off (.scrub (.sram 3 9) (.corrected 5) 0 false) (fun t => t == off) && gives on (.scrub (.sram 3 9) (.corrected 5) 0 false) (fun t => t.fld (F.ECC_CE_CNT.COUNT.ix 3) == 1) &&
     gives s (.tableRebuildComplete true) (fun t => t == s) && gives reb (.tableRebuildComplete true) (fun t => t.ecc.rebuilds == [] && t.flag F.ECC_EVT.REBUILD_DONE)) = true := by decide +kernel

theorem witness_EnvelopeStagingAndScrub_forms :
    (let s := withMedia State.reset
     let addr : BitVec 48 := BitVec.ofNat 48 (33 * 2 ^ 38 + 2 * 2 ^ 20)
     let env (r : NandReq) (x : State := s) := { x with media := { x.media with envQ := [r] } }
     let pg (fin : Bool) : NandReq := { op := .npg true fin 0x2000000000000103, kind := 0, addr := addr, cls := 5 }
     let load (x : State) := x.putSlot 131 { data := some 9 }
     let er : NandReq := { op := .erase, kind := 1, addr := addr, cls := 6 }
     let go (x : State) := env er x
     let closed := s.putBlock (bkey s 33 2) 0x20000
     let st : Stripe := { slc := true, bg := false, parity := addr, acc := [(0, 5)], closed := true }
     let par := { (env { op := .parity 1, kind := 0, addr := addr, cls := 5 }) with media := { (env { op := .parity 1, kind := 0, addr := addr, cls := 5 }).media with stripes := [(1, st)] } }
     let im : NandReq := { op := .image 3 7, kind := 6, addr := addr, cls := 5 }
     let fl : NandReq := { op := .flush [3], kind := 0, addr := addr, cls := 5 }
     let stripe (x : State) (t : Stripe) := { x with media := { x.media with stripes := [(1, t)] } }
     let cut := { st with closed := true, members := [addr + 4096] }
     let gc (l : List GcReq) := { s with ttu := { s.ttu with gcQueue := l } }
     let g1 : GcReq := { kind := .envelope, since := 4 }
     let on := s.setFld F.ECC_CTRL.SCRUB_EN 1
     let prog (x : State) := (x.lun 33).run
     envNext (env (pg true) (load s)) == some (pg true) && gives (env (pg true) (load s)) .envelopeAdmission (fun t => match prog t with | .program u => u.loaded.map (·.payload) == [9] && u.addr == addr | _ => false) &&
     gives (env (pg false) (load s)) .envelopeAdmission (fun t => (t.lun 33).unit.isSome) && gives (env (pg true)) .envelopeAdmission (fun t => prog t == .none && t.media.envQ == []) &&
     gives (go s) .envelopeAdmission (fun t => prog t == .none) && gives (go (closed)) .envelopeAdmission (fun t => prog t == .erase er) &&
     gives par .envelopeAdmission (fun t => match prog t with | .program u => u.parity == some 1 && u.addr == addr | _ => false) &&
     (let x := env im; if kindAllowed x 33 6 then gives x .envelopeAdmission (fun t => match prog t with | .program u => u.image == some 3 | _ => t.media.envQ != []) else gives x .envelopeAdmission (fun t => t.media.envQ == [im] && prog t == .none)) &&
     gives (env fl) .envelopeAdmission (fun t => match prog t with | .program u => u.flush && u.addr == addr | _ => t.media.stripes != []) &&
     ((stripe s cut).joinStripe 1 addr true false).isNone && gives (stripe (env fl) cut) .envelopeAdmission (fun t => prog t == .none && (sget 1 t.media.stripes).any (·.closed)) &&
     gives (gc [g1]) .medEnvStageReq (fun t => t.ttu.gcQueue.length == 1 && t.ttu.gcQueue != [g1]) && gives (gc (List.replicate 8 { g1 with kind := .timetable })) .medEnvStageReq (fun t => t.flag F.TT_GC_STATUS.QFULL) &&
     same s (.stagingSlotReclaim 1 3) && same (s.putSlot 131 { data := some 4, acc := true }) (.stagingSlotReclaim 1 3) && same s (.stripeClose 1) &&
     same { s with media := { s.media with dies := [] } } .patrolOverdueCheck && gives s .thresholdSave (fun t => t.mram.offsets == s.media.offsets) &&
     gives on (.scrub (.sram 3 9) .clean 50 false) (fun t => t.fld F.ECC_STATUS.SRAM_PCT == 50) && gives on (.scrub (.sram 3 9) .clean 50 true) (fun t => t.fld F.ECC_STATUS.SRAM_PCT == 0) &&
     gives on (.scrub (.sram 3 9) .uncorrectable 0 false) (fun t => t.flag F.ECC_EVT.UE && t.fld (F.ECC_UE_CNT.COUNT.ix 3) == 1) &&
     gives on (.scrub (.critical 3 3) .uncorrectable 0 false) (fun t => t.flag F.ECC_EVT.UE && t.flag F.ECC_EVT.TRIPLE_FAIL) &&
     gives { on with mram := { on.mram with ring := [(4, { base := 1 })] } } (.scrub (.batch 4) .uncorrectable 0 false) (fun t => t.flag F.ECC_STATUS.JNL_REPAIR && t.jnl.repair == some 4)) = true := by decide +kernel

/-- An awake DMC of 64 GiB, one rank, full population. -/
def dmc64 : State := flds (State.reset.setReg (R.PMU_VOTE + 32) 0) [(F.DMC_STATUS.STATE, 2), (F.DMC_CFG.CAP_GIB, 64)]

/-- The worked example of R346: pool buffer 1 000. -/
theorem test_dram_decode :
    (dramLoc dmc64 0x1426800 == { ch := 1, sc := 0, rank := 0, bg := 6, ba := 1, row := 20, col := 256 } && (dramLoc dmc64 0x1426840).ch == 0 &&
     (dramLoc dmc64 0x1426880).sub == 3 && (dramLoc dmc64 0x1426900).col == 272 && (dramLoc dmc64 0x1426C00).bg != 6) = true := by decide +kernel

theorem witness_DramMaintenance :
    (let s := dmc64
     let d (f : Dmc → Dmc) := { s with dmc := f s.dmc }
     let off := State.reset
     let rd : DramReq := { addr := 0x1426800, port := 2 }
     let wr : DramReq := { rd with write := true }
     let q (r : DramReq) : DramQ := { req := r, since := 0 }
     let key := (dramLoc s 0x1426800).key
     let asks := d fun x => { x with rq := [(0, [q { rd with addr := 0 }])] }
     let late := { asks with ttu := { asks.ttu with elapsed := 10000 } }
     let held := d fun x => { x with wq := [(2, [q wr])] }
     let full := flds (d fun x => { x with wq := [(2, (List.range 3).map fun i => q { wr with addr := BitVec.ofNat 37 (256 * i) })] }) [(F.DMC_WQ.WR_HI, 3), (F.DMC_WQ.WR_LO, 1)]
     let lone := d fun x => { x with rq := [(2, [q rd])] }
     dmcAwake s && gives (d fun x => { x with postponed := [(5, 3)] }) (.refresh 5 true false) (fun t => t.dmc.postponed == []) && decide (0 < urgency late (q rd)) &&
     gives { late with dmc := { late.dmc with postponed := [(5, 3)] } } (.refresh 5 true false) (fun t => sgetD 0 5 t.dmc.postponed == 4) &&
     gives { late with dmc := { late.dmc with postponed := [(5, 4)] } } (.refresh 5 true false) (fun t => t.dmc.postponed == []) &&
     gives (d fun x => { x with acts := [(5 * 2 ^ 17 + 9, 4)], openRow := [(5, 9)] }) (.refresh 5 false true) (fun t => t.dmc.acts == [] && t.dmc.openRow == []) &&
     gives (d fun x => { x with acts := [(5 * 2 ^ 17 + 9, 4)] }) (.refresh 5 false false) (fun t => t.dmc.acts == [(5 * 2 ^ 17 + 9, 4)]) && gives s (.mr4Read 1950) (fun t => t.dmc.refi == 1950) &&
     gives s (.rowProtectionMitigation 0x1426800 16383 true) (fun t => t.fld F.DMC_RP_CNT.COUNT == 2 && t.dmc.acts == []) && gives s (.rowProtectionMitigation 0x1426800 255 false) (fun t => t.dmc.acts == [(key, 255)]) &&
     same s (.rowProtectionMitigation 0x1000000000 255 true) && gives s .zqCalibration (fun t => t.dmc.zqDone == 1) && gives s (.dqsOscillatorMeasurement 3 true) (fun t => sgetD 0 7 t.dmc.oscDone == 1) &&
     !dmcAwake off && same off .zqCalibration && same off (.refresh 5 true true) && same off (.writeBatch 2 [rd] 1 [rd] 1) && dramHas s 0x1426800 &&
     gives held (.writeBatch 0 [wr] 0 [] 0) (fun t => t.dmc.wq == [(2, [q wr])]) && gives held (.writeBatch 0 [rd] 0 [] 0) (fun t => t.dmc == held.dmc) && gives s (.writeBatch 0 [rd] 0 [] 0) (fun t => t.dmc.rq == [(2, [q rd])]) &&
     gives full (.writeBatch 2 [] 1 [] 0) (fun t => (sgetD [] 2 t.dmc.wq).length == 2 && t.flag F.DMC_STATUS.WBATCH) && gives lone (.writeBatch 2 [] 1 [] 0) (fun t => t.dmc.rq == [] && t.dmc.openRow == [(281, 20)]) &&
     gives s (.powerDownEntry true true 320 false) (fun t => t.fld F.DMC_STATUS.PD == 8) && same s (.powerDownEntry true true 320 true) && rankAsked lone true false && same lone (.powerDownEntry true false 320 false) &&
     !voted s 8 && gives s (.selfRefreshEntry false false) (fun t => t.dmc.sr == .selfRefresh && t.fld F.DMC_STATUS.STATE == 5) &&
     gives (s.setFld F.DMC_PWR.SR_IDLE_US 7) (.selfRefreshEntry true false) (fun t => t.dmc.sr == .selfRefresh) &&
     gives s (.selfRefreshEntry false true) (fun t => t.dmc.sr == .active && t.flag F.DMC_EVT.SR_ABANDON) && gives (d fun x => { x with sr := .selfRefresh }) (.minimumResidencyElapsed true) (fun t => t.dmc.sr == .exit) &&
     gives (d fun x => { x with sr := .exit }) .selfRefreshExit (fun t => t.dmc.sr == .active && t.dmc.zqDone == 1)) = true := by decide +kernel

theorem witness_DramErrorsAndPowerFail :
    (let s := flds State.reset [(F.DMC_STATUS.STATE, 2), (F.JNL_STATUS.RECOV_PHASE, 7)]
     let em := s.setFld F.DMC_CTRL.ERR_MODE 1
     let wc (p : Option Nat) := let t := s.setFld F.DMC_CTRL.WCRC_EN 1; { t with dmc := { t.dmc with reissue := p } }
     let jn := { s with jnl := { s.jnl with openRecs := [1, 2, 3], openBase := 7 } }
     let fl (n : Nat) (pw : Bool) := let t := s.setFld F.JNL_STATUS.FLUSH_STATE n; { t with jnl := { t.jnl with flushPower := pw } }
     let u : Unit_ := { kind := 1, addr := 0, slc := true }
     let ab := (fl 1 true).setLun 33 { run := .program u }
     let tt := { s with pwr := { s.pwr with thermTrip := true } }
     gives (s.setFld F.DMC_CTRL.ERR_MODE 0) (.dramCapture 0x1234 (.table 0x1234) false none none false) (fun t => t.flag F.DMC_EVT.UE && t.flag F.DMC_EVT.CAPTURE && t.pair R.DMC_CAP_ADDR_LO == 0x1234) &&
     gives em (.dramCapture 0x1234 (.table 0x1234) false none none false) (fun t => t.fld F.DMC_STATUS.STATE == 4 && t.flag F.DMC_EVT.FREEZE) &&
     gives (s.setFld F.DMC_CTRL.WCRC_EN 0) (.alertN 2) (fun t => t.dmc.reissue == none) && gives (wc none) (.alertN 2) (fun t => t.flag F.DMC_EVT.ALERT_RETRY && t.dmc.reissue == some 0) &&
     gives (wc (some 0)) (.alertN 2) (fun t => t.fld F.DMC_STATUS.STATE == 4) && gives jn .batchSeal (fun t => t.jnl.openRecs == [] && t.jnl.sealed == 9 && t.jnl.openBase == 10) &&
     (fl 1 true).flushing && gives (fl 1 true) .pfail (fun t => t == fl 1 true) && gives s .pfail (fun t => t.fld F.JNL_STATUS.FLUSH_STATE == 1 && t.mram.shutdown.vote == some 2 && t.host.stopAll) &&
     gives (s.setFld F.JNL_STATUS.RECOV_PHASE 6) .pfail (fun t => t.fld F.JNL_STATUS.FLUSH_STATE == 3 && t.jnl.inhibit) && gives (fl 2 true) .pfailRelease (fun t => t.jnl.pfailRose) &&
     gives ab (.flushProgramAbandon 33) (fun t => (t.lun 33).run == .none && t.flag F.JNL_EVT.LOST_REPLAY && t.reg R.JNL_LOST_CNT == 1) &&
     flushIdle (fl 1 true) && gives (fl 1 true) .tier1End (fun t => t.fld F.JNL_STATUS.FLUSH_STATE == 2 && t.mram.shutdown.vote == some 3) &&
     lunsIdle (fl 2 true) && gives (fl 2 true) .tier2End (fun t => t.fld F.JNL_STATUS.FLUSH_STATE == 3 && t.jnl.inhibit) && gives s .tier1End (fun t => t == s) && gives s .tier2End (fun t => t == s) &&
     gives s .thermtrip (fun t => t.pwr.thermTrip && t.out.any fun o => match o with | .pin _ l => !l | _ => false) && gives tt .thermtrip (fun t => t == tt)) = true := by decide +kernel

/-! ### Power and thermal -/

theorem witness_LevelsAndPowerStates :
    (let s := State.reset
     let pw (f : Power → Power) := { s with pwr := f s.pwr }
     let av (r : AvsReq) := pw fun p => { p with avs := some r }
     let lo : AvsReq := { rail := 0, mv := 700 }
     let up : AvsReq := { rail := 1, mv := 800, raise := some 1, next := some (0, 750) }
     let st (tgt done : Nat) (ent : Bool) := let t := flds s [(F.PMU_STATUS.PS_TARGET, tgt), (F.PMU_STATUS.TRANS, 1), (F.PMU_STATUS.PL_CUR, 5)]
       { t with pwr := { t.pwr with trans := some { target := tgt, done := done, entering := ent } } }
     let busy := (st 3 0 true).setCmd 40 (cmd40 {})
     let dn (t : State) (n : Nat) := (match t.pwr.trans with | some x => x.done == n | none => false)
     let apst := s.setFunc 0 { s.func 0 with feats := [(0x0C, 1)] }
     gives (av lo) (.avsbusStatusRead true) (fun t => t.fld F.PMU_AVS_STATUS.VCORE_MV == 700 && t.pwr.avs.isNone && !t.flag F.PMU_STATUS.VHIGH) &&
     gives (av up) (.avsbusStatusRead true) (fun t => t.fld F.PMU_AVS_STATUS.VSRAM_MV == 800 && t.pwr.avs == some { up with rail := 0, mv := 750, next := none }) &&
     gives (av lo) (.avsbusStatusRead false) (fun t => t == av lo) && gives (av lo) .avsbusTimeout (fun t => t.flag F.PMU_STATUS.VHIGH && t.flag F.PMU_EVT.AVS_TIMEOUT) &&
     gives ((av up).setFld F.PMU_AVS_STATUS.RAISE_FAILS 6) .avsbusTimeout (fun t => t.pwr.avs.isNone && t.pwr.raiseRetry && !t.pwr.raiseStop) &&
     gives ((av up).setFld F.PMU_AVS_STATUS.RAISE_FAILS 7) .avsbusTimeout (fun t => !t.pwr.raiseRetry && t.pwr.raiseStop) &&
     gives s (.pmuPlCapWrite 7) (fun t => t.fld F.PMU_PL_CAP.CAP == 7 && t.fld F.PMU_STATUS.PL_TARGET == 5) &&
     gives s (.powerManagement 0 5 5) (fun t => posted t 0 2 && t.pwr == s.pwr) && gives s (.powerManagement 0 5 2) (fun t => posted t 0 0 && t.fld F.PMU_STATUS.PS_CUR == 2 && t.flag F.PMU_EVT.PS_DONE) &&
     gives s (.powerManagement 0 5 3) (fun t => posted t 0 0 && t.flag F.PMU_STATUS.TRANS && t.pwr.trans == some { target := 3, done := 0, entering := true }) &&
     gives (st 3 0 true) .powerStateStep (dn · 1) && gives busy .powerStateStep (fun t => t == busy) && gives (st 4 1 true) .powerStateStep (dn · 2) && gives (st 4 2 true) .powerStateStep (dn · 3) &&
     gives (st 4 3 true) .powerStateStep (dn · 4) && gives (st 3 3 true) .powerStateStep (fun t => t.pwr.trans.isNone && t.fld F.PMU_STATUS.PS_CUR == 3 && !t.flag (F.PMU_VOTE.PMU.ix 0) && t.flag (F.PMU_VOTE.PMU.ix 8)) &&
     gives (st 4 4 true) .powerStateStep (dn · 5) && gives (st 4 5 true) .powerStateStep (fun t => t.pwr.trans.isNone && t.dom 0 == 2 && t.dom 10 == 1 && t.dom 12 == 1) &&
     gives (st 2 6 false) .powerStateStep (dn · 5) && gives (st 2 5 false) .powerStateStep (dn · 4) && gives (st 2 4 false) .powerStateStep (fun t => t.pwr.trans.isNone && t.fld F.PMU_STATUS.PS_CUR == 2 && t.dom 8 == 0) &&
     gives (pw fun p => { p with adminWake := true }) .ps4AdminIdleReturn (fun t => !t.pwr.adminWake && t.dom 0 == 2 && !t.flag (F.PMU_VOTE.PMU.ix 8)) &&
     gives apst (.apstTransition false) (fun t => t.pwr.trans == some { target := 3, done := 0, entering := true }) &&
     gives (apst.setFld F.PMU_STATUS.PS_CUR 3) (.apstTransition true) (fun t => t.pwr.trans == some { target := 4, done := 4, entering := true })) = true := by decide +kernel

theorem witness_SleepVotesAndDomains :
    (let s := State.reset
     let r := flds s [(F.PMU_STATUS.PS_CUR, 4), (F.PMU_CTRL.S3_EN, 1), (F.PMU_CTRL.S3_DWELL_S, 60)]
     let r := { r with sec := { r.sec with session := none }, host := { r.host with l1Port0 := 3 }, ttu := { r.ttu with elapsed := 60 * 1000000000 } }
     let inS3 := { s with pwr := { s.pwr with s3 := true } }
     let low := { s with boot := { s.boot with perst := false } }
     let hi := { s with boot := { s.boot with perst := true } }
     let nov := flds s [(F.PMU_VOTE.PMU.ix 0, 0), (F.PMU_VOTE.HOST.ix 0, 0), (F.PMU_VOTE.PMU.ix 8, 0), (F.PMU_VOTE.HOST.ix 8, 0)]
     let slp : Ctx := { st := .asleep, pwrMode := 2 }
     let nov := (List.range 4).foldl (fun s k => s.setCtx ⟨.seq, k, 0⟩ slp) nov
     let pop := { s with media := { s.media with dies := [0] } }
     let at' (d n : Nat) := pop.setDom d n
     let ab := s.setDom 2 3
     s3Ready r && gives r .s3Entry (fun t => t.pwr.s3 && t.flag F.PMU_EVT.S3_ENTER && t.sec.slots == [] && t.dom 0 == 2 && t.dom 8 == 3) && !s3Ready s && gives s .s3Entry (fun t => t == s) &&
     gives inS3 (.s3Exit []) (fun t => !t.pwr.s3 && t.pwr.adminWake && t.dom 8 == 0 && t.dom 12 == 0) && gives s (.s3Exit []) (fun t => t == s) &&
     gives low .s4Entry (fun t => t.pwr.s4 && t.dom 13 == 0 && t.dom 12 == 3) && gives hi .s4Entry (fun t => t == hi) &&
     gives s (.pmuVoteHostWrite 9 0x80) (fun t => t.flag (F.PMU_VOTE.HOST.ix 9)) && gives s (.pmuVoteHostWrite 0 0) (fun t => !t.flag (F.PMU_VOTE.HOST.ix 0)) &&
     domVote 1 == some 0 && gives s (.domainEntry 1 true true) (fun t => t.flag F.PMU_EVT.ABANDON && t.dom 1 == 0) && !voted nov 0 && gives nov (.domainEntry 1 true false) (fun t => t.dom 1 == 3) &&
     gives nov (.domainEntry 1 false false) (fun t => t.dom 1 == 2) && domVote 9 == some 8 && !voted nov 8 && gives nov (.domainEntry 9 true false) (fun t => t.dmc.sr == .selfRefresh) &&
     domVote 13 == none && gives s (.domainEntry 13 true false) (fun t => t == s) && gives (at' 1 3) (.domainRestore 1 []) (fun t => t.dom 1 == 0 && t.dom 2 == 0) &&
     gives (at' 13 2) (.domainRestore 13 []) (fun t => t.dom 13 == 0) && gives s (.domainRestore 0 []) (fun t => t == s) && gives ab (.domainRestore 2 []) (fun t => t == ab)) = true := by decide +kernel

theorem witness_ThermalModelAndThrottling :
    (let s := State.reset
     let warm (n : Nat) := { s with pwr := { s.pwr with tiles := Vector.replicate 16 (n : Rat), dSeen := 0xFF } }
     let lost := { s with pwr := { s.pwr with iFails := 2 } }
     let dbl := { warm 50 with pwr := { (warm 50).pwr with dBad := (Vector.replicate 8 0).set 7 2 } }
     let dbl := dbl.setFld F.TMU_CTRL.COMPAT 0
     let bad := (flds (warm 50) [(F.TMU_DIODE.BAD.ix 7, 1), (F.TMU_DIODE.READING.ix 7, 1600)])
     gives lost (.gainUpdate none 5) (fun t => t.flag F.TMU_GAIN.FROZEN && t.flag F.TMU_EVT.IOUT_LOST) &&
     !diodeBad dbl 7 && gives dbl (.diodeReading 7 true 0) (fun t => diodeBad t 7 && t.fld (F.TMU_DIODE.CAUSE.ix 7) == 1 && t.flag F.TMU_EVT.DIODE_BAD) && diodeBad bad 7 &&
     composite (warm 107) == 107 && gives (warm 107) .throttleStep (fun t => t.fld F.TMU_STATUS.LEVEL == 1) && gives (warm 105) .throttleStep (fun t => t == warm 105) &&
     gives ((warm 50).setFld F.TMU_STATUS.LEVEL 9) .throttleStep (fun t => t.fld F.TMU_STATUS.LEVEL == 8) &&
     gives s (.tmuThreshWrite 0x78736964) (fun t => t.reg R.TMU_THRESH == 0x78736964) && gives s (.tmuThreshWrite 0x79736964) (fun t => t.flag F.TMU_EVT.THRESH_REJECT) &&
     gives s (.tmuThreshWrite 0x78787878) (fun t => t.flag F.TMU_EVT.THRESH_REJECT && t.reg R.TMU_THRESH == 0x78736964) &&
     gives s (.hostControlledThermalManagement 0 5 0x01500160) (fun t => posted t 0 0 && t.pwr.tmt1 == 0x150 && t.pwr.tmt2 == 0x160) &&
     gives (warm 50) (.temperatureThreshold 0 5 0x160) (fun t => posted t 0 0 && t.pwr.tmpOver == 0x160)) = true := by decide +kernel

/-- Function 1 is a VF with an admin completion queue. -/
def withVf (s : State) : State := (s.setFunc 1 { present := true }).setCq 1 0 { size := 4 }
/-- A status has been posted to function 1. -/
def postedVf (t : State) (sct sc : Nat) : Bool := t.out.any fun o => match o with | .cqe 1 _ e => e.cid == 5 && e.sct == sct && e.sc == sc | _ => false
/-- The command is refused to function 1 with Invalid Command Opcode, or another status. -/
def vfRefused (s : State) (l : List Instr) (sc : Nat := 1) : Bool := l.all fun x => gives (withVf s) x fun t => postedVf t 0 sc && t.zyn == s.zyn && t.sec == s.sec

theorem witness_LevelsAndPowerStates_idle :
    (let s := State.reset
     let tr := { s with pwr := { s.pwr with trans := some { target := 3, done := 0, entering := true } } }
     same s (.avsbusStatusRead true) && same s .avsbusTimeout && same s .powerStateStep && same s .ps4AdminIdleReturn && same s (.apstTransition false) && same tr (.apstTransition true) &&
     gives s (.powerManagement 0 5 4) (fun t => posted t 0 0) && gives (withVf s) (.powerManagement 1 5 3) (fun t => postedVf t 0 2) && gives (withVf s) (.powerManagement 1 5 0) (fun t => postedVf t 0 0)) = true := by decide +kernel

theorem witness_SleepVotesAndDomains_restore :
    (let s := { State.reset with media := { State.reset.media with dies := [0] } }
     let off := (s.setDom 1 3).setReg R.MED_CTRL 5
     let im (seq : Nat) : RetImage := { seq := seq, regs := [(R.SC_BANK_CFG, 7)] }
     let low (l : List (Nat × RetImage)) := let t := s.setDom 12 2; { t with pwr := { t.pwr with banks := l } }
     let held := let t := s.setDom 1 3; { t with pwr := { t.pwr with s3 := true } }
     (match exec (.pmuVoteHostWrite 10 0) s, exec (.domainRestore 14 []) s with | .fault _, .fault _ => true | _, _ => false) &&
     domParts 1 == [24, 25, 26, 27] && gives off (.domainRestore 1 []) (fun t => t.dom 1 == 0 && t.zyn.restore == [24, 25, 26, 27]) && groupAbsent s 2 && same (s.setDom 2 3) (.domainRestore 2 []) &&
     domBanks 12 == [6] && gives (low [(6, im 0)]) (.domainRestore 12 []) (fun t => t.dom 12 == 0 && !t.flag F.PMU_EVT.RET_FAIL) && gives (low [(6, im 0)]) (.domainRestore 12 [6]) (fun t => t.flag F.PMU_EVT.RET_FAIL && (t.fld F.PMU_WAKE_STATUS.BANK_FAIL).testBit 6) &&
     gives (s.setDom 9 1) (.domainRestore 9 []) (fun t => t.dom 9 == 0) && same held (.domainRestore 1 [])) = true := by decide +kernel

theorem witness_ThermalModelAndThrottling_forms :
    (let s := State.reset
     let seen := { s with pwr := { s.pwr with tiles := Vector.replicate 16 (50 : Rat), sink := 40, dSeen := 0xFF } }
     let bad := (flds seen [(F.TMU_DIODE.BAD.ix 7, 1), (F.TMU_DIODE.READING.ix 7, 0)])
     let near (x : State) := { x with pwr := { x.pwr with dGood := Vector.replicate 8 59999 } }
     let back := near (bad.setFld (F.TMU_DIODE.READING.ix 7) 720)
     let lkd := s.setFld F.TMU_CTRL.LOCK 1
     let ok (t : State) := posted t 0 0
     same s .sinkUpdate && residual seen 0 != 0 && gives seen .sinkUpdate (fun t => t.pwr.sink != 40) && gives s (.gainUpdate (some 8) 0) (fun t => t.pwr.gain == s.pwr.gain) && gives s (.gainUpdate (some 9) 8) (fun t => decide (1 < t.pwr.gain)) &&
     gives s (.diodeReading 2 false 720) (fun t => t.pwr.dSeen == 4 && diodeTemp t 2 == eighths 720) && diodeBad back 7 && eighths 720 == diodeTemp back 7 && ratAbs (eighths 720 - back.tile (diodeTile 7)) != 1000 &&
     same lkd (.tmuThreshWrite 0) && gives s (.hostControlledThermalManagement 0 5 0x01600150) (fun t => posted t 0 2) && gives s (.temperatureThreshold 0 5 0x100160) (fun t => ok t && t.pwr.tmpUnder == 0x160) &&
     gives s (.temperatureThreshold 0 5 0x200160) (fun t => posted t 0 2) && gives s (.temperatureThreshold 0 5 0x10160) (fun t => posted t 0 2) && vfRefused s [.hostControlledThermalManagement 1 5 0, .temperatureThreshold 1 5 0] 2) = true := by decide +kernel

/-! ### Resets, boot, test and registers -/

/-- An image that passes every check of B5 and B6 (R95, R390): a code section of 64 words a class, its mandatory kinds, and a PARAM image. -/
def goodImage : Image :=
  let es (c : Nat) : List Entry := (mandatoryKinds c).map fun k => { kind := BitVec.ofNat 8 k, codeOffset := 0, budget := 100 }
  let all {α : Type} (v : α) : Sparse α := (List.range 4).flatMap fun c => (mandatoryKinds c).map fun k => (c * 256 + k, v)
  let sig : SigBlock := { magic := 0x474D495A, format := 1, ecdsaOk := true, mldsaOk := true }
  let code := List.replicate 64 (0 : Word)
  let codes : Sparse Digest := [(1, 7), (2, 7), (3, 7), (4, 7)]
  { block := sig, vendor := sig, magic := 0x424E595A, bformat := 2, totalLen := 16384, sections := 5, dir := (List.range 4).map (fun i => { type := BitVec.ofNat 16 (i + 1), offset := BitVec.ofNat 32 (512 + 256 * i), length := 256 }) ++ [{ type := 0x20, offset := 8192, length := 6784 }], codeHash := codes, attest := { code := codes, props := all 0x7F, worst := all 1 }, bundle := { flags := 1, code0 := code, code1 := code, code2 := code, code3 := code, entries0 := es 0, entries1 := es 1, entries2 := es 2, entries3 := es 3 } }

theorem test_image_checks :
    (let s := State.reset
     let b := goodImage
     imageCode s b 0 == 0 && imageCode s { b with block := { b.block with flags := 1 } } 0 == 0x30 && imageCode s { b with block := { b.block with mldsaOk := false } } 0 == 0x33 &&
     imageCode s { b with magic := 0 } 0 == 0x41 && imageCode s { b with contentHash := 1 } 0 == 0x42 && imageCode s { b with attest := { b.attest with bundleId := 1 } } 0 == 0x43 &&
     imageCode s { b with sections := 4 } 0 == 0x44 && imageCode s { b with bundle := { b.bundle with entries0 := [] } } 0 == 0x45 && imageCode s { b with attest := { b.attest with worst := [] } } 0 == 0x46)
    = true := by decide +kernel

theorem witness_ResetsAndBoot :
    (let s := { State.reset with boot := { State.reset.boot with coldHeld := false } }
     let hi := { s with boot := { s.boot with perst := true } }
     let low := { s with boot := { s.boot with perst := false } }
     let fl := hi.setFld F.JNL_STATUS.FLUSH_STATE 2
     let bf : Buf := { cmd := 3, account := 0, nsid := 5, lba := 0, wsn := 1 }
     let dirty := flds { hi with host := { hi.host with bufs := [(0, bf)] } } [(F.JNL_STATUS.RECOV_PHASE, 7)]
     let lat := { low with jnl := { low.jnl with perstLatched := true } }
     let cold := { hi with boot := { hi.boot with coldHeld := true } }
     let noNor : BootIn := { xspiOk := false }
     let ptm := s.setFld F.TT_SRC.SRC_TER 2
     gives fl .perstAssert (fun t => t.jnl.perstLatched && !t.boot.perst) && gives hi .perstAssert (fun t => !t.boot.perst && t.boot.cause == 2 && t.host.cmds == []) &&
     gives dirty .perstAssert (fun t => t.flushing && t.jnl.perstLatched) && gives hi (.perstRelease noNor) (fun t => t == hi) && gives low .perstAssert (fun t => t == low) &&
     gives lat (.perstRelease noNor) (fun t => t.boot.waiting == some noNor && t.boot.perst) && gives low (.perstRelease noNor) (fun t => t.fld F.BOOT_STATUS.STATE == 2 && t.fld F.BOOT_STATUS.CODE == 0x20 && t.fld F.BOOT_STATUS.STEP == 4) &&
     gives s (.coldReset true) (fun t => t.boot.coldHeld && t.boot.cause == 3) && gives cold (.coldResetRelease noNor) (fun t => t.fld F.BOOT_STATUS.CODE == 0x20) &&
     gives { low with boot := { low.boot with coldHeld := true } } (.coldResetRelease noNor) (fun t => !t.boot.coldHeld && t.fld F.BOOT_STATUS.STATE == 0) &&
     gives s (.pcieLinkUp false 5 4 true) (fun t => t.fld F.HIU_PORT_STATUS.P0_RATE == 5 && t.fld F.HIU_PORT_STATUS.P0_WIDTH == 4) &&
     !(sources s).contains 2 && gives s (.aspmL1Entry ⟨false, 0⟩) (fun t => t.host.l1Port0 == 1) && gives s (.aspmL1Entry ⟨false, 2⟩) (fun t => t.host.l1Port0 == 3) && (sources ptm).contains 2 && same ptm (.aspmL1Entry ⟨false, 0⟩) && same s (.aspmL1Entry ⟨true, 1⟩)) = true := by decide +kernel

theorem witness_ResetsAndBoot_images :
    (let s := { State.reset with boot := { State.reset.boot with coldHeld := false, perst := false } }
     let at' (a b : Image) (x : State := s) := { x with boot := { x.boot with slotA := a, slotB := b } }
     let i (ok : Bool) : BootIn := { xspiOk := true, trainOk := ok }
     let bad3 := { goodImage with block := { goodImage.block with ecdsaOk := false } }
     let cfg := { goodImage with bundle := { goodImage.bundle with param := List.replicate 0x300 0 ++ [128] } }
     let up (x : State) := { x with boot := { x.boot with perst := true } }
     let held (x : State) := { x with boot := { x.boot with coldHeld := true } }
     let failed (t : State) (step code : Nat) := t.fld F.BOOT_STATUS.STATE == 2 && t.fld F.BOOT_STATUS.STEP == step && t.fld F.BOOT_STATUS.CODE == code
     let loaded (t : State) (slot : Bool) := t.fld F.BOOT_STATUS.STATE == 1 && t.fld F.BOOT_STATUS.STEP == 11 && t.boot.slot == slot && t.zyn.bundle == goodImage.bundle
     gives (at' goodImage {}) (.perstRelease (i true)) (loaded · false) && gives (at' bad3 goodImage) (.perstRelease (i true)) (fun t => loaded t true && t.boot.cause == 4) &&
     gives (at' goodImage {}) (.perstRelease (i false)) (fun t => failed t 9 0x60 && t.boot.noReady) && gives (at' cfg {}) (.perstRelease (i true)) (failed · 9 0x61) &&
     gives (at' {} bad3) (.perstRelease (i true)) (failed · 5 0x32) && gives (held (up (at' goodImage {}))) (.coldResetRelease (i true)) (loaded · false) && gives (held s) (.perstRelease (i true)) (fun t => t == up (held s)) &&
     same s (.coldResetRelease (i true)) && gives (held (up s)) .perstAssert (fun t => t == held s)) = true := by decide +kernel

theorem witness_ControllersFunctionsAndRecovery :
    (let s := State.reset
     let on := s.setFunc 0 { s.func 0 with en := true, rdy := true }
     let ph (p : Nat) := { s with jnl := { s.jnl with phase := some p } }
     let hl := flds on [(F.ZYN_STATUS.STATE, 4), (F.JNL_STATUS.FLUSH_STATE, 1)]
     let cm := s.setCmd 40 (cmd40 {})
     let vf := s.setFunc 7 { present := true }
     let flr := s.setFunc 7 { present := true, flr := true, leaving := true }
     let three := (List.range 3).foldl (fun s k => s.setFunc (k + 1) { present := true }) { s with host := { s.host with numVfs0 := 3 } }
     gives (s.setFld F.BOOT_STATUS.STATE 2) (.ccEnSet 0 31 31) (fun t => (t.func 0).cfs && !(t.func 0).en) &&
     gives (s.setFld F.BOOT_STATUS.STATE 1) (.ccEnSet 0 31 15) (fun t => (t.func 0).en && t.sq 0 0 == some { size := 32, cq := 0 } && t.cq 0 0 == some { size := 16 } && t.host.configured && t.jnl.phase == some 0) &&
     gives (ph 3) (.recoveryPhase []) (fun t => t.jnl.phase == some 4 && t.fld F.JNL_STATUS.RECOV_PHASE == 4) && !recoverBusy (ph 5) &&
     gives (ph 5) (.recoveryPhase []) (fun t => t.jnl.phase.isNone && t.boot.recovered && t.fld F.JNL_STATUS.RECOV_PHASE == 7 && t.flag F.MAP_STATUS.READY) && gives s (.recoveryPhase []) (fun t => t == s) &&
     gives on (.controllerReset 0 true) (fun t => !(t.func 0).en && !(t.func 0).rdy && !(t.func 0).resetting) && gives hl (.controllerReset 0 true) (fun t => (t.func 0).heldReset && (t.func 0).en) &&
     gives on (.abruptShutdown 0) (fun t => (t.func 0).shst == 2 && !(t.func 0).rdy) && cm.ctxCount 0 != 0 && gives cm (.normalShutdown 0) (fun t => (t.func 0).shst == 1 && t.host.cmds == cm.host.cmds) &&
     !shutdownDirty vf 7 && gives vf (.normalShutdown 7) (fun t => (t.func 7).shst == 2) && gives on (.hotReset false true) (fun t => !(t.func 0).en && t.flag F.HIU_EVT.P0_LINK_DOWN && t.fld F.HIU_PORT_STATUS.P0_WIDTH == 0) &&
     gives vf (.functionLevelReset 7 []) (fun t => (t.func 7).flr && (t.func 7).stop) && gives flr (.flrComplete 7) (fun t => !(t.func 7).flr && !(t.func 7).present && t.flag F.TEN_EVT.FLR_DONE) &&
     gives s (.vfEnableSet false 2) (fun t => t.host.numVfs0 == 2 && (t.func 2).present && !(t.func 3).present) &&
     gives three (.vfEnableClear false 1 []) (fun t => t.host.numVfs0 == 1 && (t.func 2).leaving && (t.func 3).flr && !(t.func 1).flr)) = true := by decide +kernel

theorem witness_ControllersFunctionsAndRecovery_forms :
    (let s := State.reset
     let on := s.setFunc 0 { s.func 0 with en := true, rdy := true }
     let load := s.setFld F.BOOT_STATUS.STATE 1
     let cmd (x : State) (g : Cmd → Cmd) := x.setCmd 40 (g (cmd40 { opc := 2, nsid := 5, cid := 5 }))
     let busy := (cmd on fun c => { c with dma := true }).setQueue 0 [{ kind := 0, cmd := some 40 }]
     let halt := on.setFld F.ZYN_STATUS.STATE 4
     let froz := on.setFld F.DMC_STATUS.STATE 4
     let vf (g : Func → Func) := s.setFunc 7 (g { present := true })
     let ph := { s with jnl := { s.jnl with phase := some 5 } }
     let fl := { ph with jnl := { ph.jnl with flushPower := true } }.setFld F.JNL_STATUS.FLUSH_STATE 1
     same s (.ccEnSet 0 31 15) && same load (.ccEnSet 0 0 15) && same on (.ccEnSet 0 31 15) && same fl (.recoveryPhase []) && recoverBusy (ph.setQueue 56 [{ kind := 0x0A }]) && same (ph.setQueue 56 [{ kind := 0x0A }]) (.recoveryPhase []) &&
     same s (.controllerReset 0 true) && gives busy (.controllerReset 0 true) (fun t => (t.func 0).resetting && (t.func 0).rdy && (t.cmd 40).any (·.st == .draining)) && gives (cmd on id) (.controllerReset 0 true) (fun t => !(t.func 0).resetting && (t.cmd 40).isNone) &&
     gives halt (.controllerReset 0 true) (fun t => t.mram.flushNo == trip (s.mram.flushNo.vote.getD 0 + 1)) && gives froz (.controllerReset 0 false) (fun t => (t.func 0).heldReset && t.boot.noReady && t.flag F.DMC_EVT.TRAIN_FAIL) &&
     same (vf fun g => { g with flr := true }) (.abruptShutdown 7) && same (vf fun g => { g with shutdown := true }) (.normalShutdown 7) && wholeShutdown on 0 && checkpointDone (on.setFunc 0 { on.func 0 with shutdown := true, shst := 1 }).seal &&
     gives on (.normalShutdown 0) (fun t => (t.func 0).shst == 2 && t.mram.ring == [] && t.mram.shutdown == trip sdClean) &&
     (let d := { on with jnl := { on.jnl with firstDirty := [(3, 1)] } }; !checkpointDone (d.setFunc 0 { d.func 0 with shutdown := true, shst := 1 }).seal && gives d (.normalShutdown 0) (fun t => (t.func 0).shst == 1)) &&
     same s (.hotReset true true) && same s (.vfEnableSet true 3) && same s (.vfEnableClear true 0 []) && same s (.functionLevelReset 9 []) && gives (vf fun g => { g with resetting := true }) (.functionLevelReset 7 []) (fun t => !(t.func 7).flr) &&
     gives (cmd on id) (.functionLevelReset 0 []) (fun t => (t.func 0).flr && (t.cmd 40).isNone) && same s (.flrComplete 0) && same ((vf fun g => { g with flr := true }).setCmd 40 { cmd40 {} with func := 7 }) (.flrComplete 7)) = true := by decide +kernel

theorem witness_LoopbacksLanesAndMargin :
    (let s := withMedia State.reset
     let lb (depth inst : Nat) : Word := BitVec.ofNat 32 ((State.reset.storeReg R.TST_LB_CTRL 0 |> fun t => flds t [(F.TST_LB_CTRL.IFACE, 2), (F.TST_LB_CTRL.DEPTH, depth), (F.TST_LB_CTRL.INST, inst)]).reg R.TST_LB_CTRL).toNat
     let run (l : Loop) := s.setLoops [l]
     let burst : Loop := { iface := 2, inst := 1, depth := 1, bursts := 3, inBurst := true }
     let p : Loop := { iface := 0, inst := 0, depth := 1 }
     let chk := (run p).setFld (F.TST_PRBS.CHK_EN.ix 7) 1
     let lkd := chk.setFld (F.TST_PRBS.LOCKED.ix 7) 1
     let mg := { s with tst := { s.tst with margin := some 3 } }
     gives (run burst) (.loopbackStart false false true (lb 3 1)) (fun t => t.fld F.TST_LB_STATUS.RESULT == 4) && gives s (.loopbackStart false false true (lb 0 1)) (fun t => t.fld F.TST_LB_STATUS.RESULT == 5) &&
     gives s (.loopbackStart false false true (lb 3 1)) (fun t => (t.loop 2 1).isSome && t.flag F.TST_LB_STATUS.RUNNING && t.fld F.TST_LB_STATUS.ERRORS == 0) &&
     gives s (.loopbackStop (lb 3 1)) (fun t => (t.loop 2 1).isNone) && gives (run burst) (.loopbackStop (lb 3 1)) (fun t => (t.loop 2 1).isNone) &&
     gives (run burst) (.padBurstEnd 1) (fun t => (t.loop 2 1).any (·.bursts == 2)) && gives (run { burst with depth := 3 }) (.padBurstEnd 1) (fun t => t == run { burst with depth := 3 }) && gives s (.padBurstEnd 1) (fun t => t == s) &&
     gives (run { burst with depth := 3 }) (.loopbackComplete 2 1 0) (fun t => (t.loop 2 1).isNone && t.fld F.TST_LB_STATUS.RESULT == 1) && gives (run { burst with depth := 3 }) (.loopbackComplete 2 1 4) (fun t => t.fld F.TST_LB_STATUS.RESULT == 2 && t.fld F.TST_LB_STATUS.ERRORS == 4) &&
     gives (run burst) (.loopbackComplete 2 1 0) (fun t => t == run burst) && laneLooped chk 7 && gives chk (.prbsLock 7 5) (fun t => t.flag (F.TST_PRBS.LOCKED.ix 7) && t.fld (F.TST_PRBS_ERR.COUNT.ix 7) == 5) &&
     gives s (.prbsLock 11 5) (fun t => t == s) && gives lkd (.prbsLockLoss 7 6) (fun t => !t.flag (F.TST_PRBS.LOCKED.ix 7) && t.fld (F.TST_PRBS_ERR.COUNT.ix 7) == 6) && gives s (.prbsLockLoss 11 5) (fun t => t == s) &&
     gives s (.marginPointStart 0) (fun t => t.tst.margin == some 0 && !t.flag F.TST_MARGIN_CTRL.DONE) && gives mg (.marginDone 9) (fun t => t.tst.margin.isNone && t.reg R.TST_MARGIN_RES == 9 && t.flag F.TST_MARGIN_CTRL.DONE) &&
     gives s (.marginDone 9) (fun t => t == s)) = true := by decide +kernel

theorem witness_TapInstrumentsAndBanks :
    (let s := { State.reset with boot := { State.reset.boot with perst := true } }
     let low := { s with boot := { s.boot with perst := false } }
     let rst := { s with tst := { s.tst with trst := true } }
     let ex := { low with tst := { low.tst with extest := true, driven := some 5 } }
     let en := s.setFunc 0 { s.func 0 with en := true }
     let fl := s.setFld F.JNL_STATUS.FLUSH_STATE 1
     let reb := { (s.setFld F.SC_STATUS.OFFLINE 0x8000) with sc := { s.sc with layout := some 0xA5550000, faults := [15] } }
     gives s (.trst true) (fun t => t.tst.trst && t.tst.tap == .idcode) && gives rst .bypass (fun t => t == rst) && gives rst (.ieee1687Access true 0 0) (fun t => t == rst) && gives s .bypass (fun t => t.tst.tap == .bypass && !t.tst.bypassBit) &&
     gives s .idcode (fun t => t.out == [.tdo 0x29680E3D]) && gives s (.samplePreload 6 7) (fun t => t.tst.cells == 7 && t.out == [.tdo 6]) && gives low .extest (fun t => t.tst.extest && t.tst.tap == .extest) &&
     gives s .highz (fun t => t.tst.tap == .bypass && t.flag F.TST_STATUS.SCAN_REFUSED) && (findReg 0x1500000).isSome && gives s (.ieee1687Access false 0 0) (fun t => t.out.length == 1 && t.tst.tap == .access1687) &&
     findReg 0x15FFFFC == none && gives s (.ieee1687Access true 0xFFFFF 1) (fun t => t.regs == s.regs) && gives ex (.extestExit {}) (fun t => !t.tst.extest && t.tst.driven.isNone && t.boot.cause == 2) &&
     gives s (.extestExit {}) (fun t => t == s) && gives s (.sramBist 9 none (some 4)) (fun t => sget 9 t.tst.sramBist == some { pass := false, addr := 4 } && t.tst.bistFail.contains 9) && gives en (.sramBist 9 none none) (fun t => t == en) &&
     gives en (.sramBist 9 (some 15) none) (fun t => (t.fld F.SC_STATUS.OFFLINE).testBit 15 && t.flag F.SC_STATUS.PREFILTER) && gives s (.mramBist true none) (fun t => t.tst.mramBist == some { pass := true }) &&
     gives fl (.mramBist true none) (fun t => t == fl) && gives s (.scBackgroundCheck 0 true) (fun t => t.flag F.SC_EVT.BANK_FAULT && t.sc.faults.contains 0) && gives s (.scBackgroundCheck 15 false) (fun t => t.mram.scBad == [15] && t.flag F.SC_EVT.SHADOW_FAIL) &&
     gives reb (.scBankRebuildComplete 15) (fun t => !(t.fld F.SC_STATUS.OFFLINE).testBit 15 && t.flag F.SC_EVT.REBUILT && t.sc.faults == []) && gives reb (.scBankRebuildComplete 0) (fun t => t == reb)) = true := by decide +kernel

theorem witness_DeviceSelfTest :
    (let s := State.reset
     let run (x : SelfTest) := { s with tst := { s.tst with selfTest := some x } }
     let x : SelfTest := { func := 0, ext := true, nsid := 0 }
     gives s (.deviceSelfTestShort 0 5 0 none) (fun t => posted t 0 0 && t.tst.selfTest == some { func := 0, ext := false, nsid := 0 }) && gives s (.deviceSelfTestExtended 0 5 9 none) (fun t => posted t 0 0x0B) &&
     gives (run x) (.deviceSelfTestShort 0 5 0 none) (fun t => posted t 1 0x1D) && gives (run x) (.deviceSelfTestExtended 0 5 0 (some (true, none))) (fun t => t.tst.selfTest == some { x with seg := 2 }) &&
     gives (run { x with seg := 9 }) (.deviceSelfTestExtended 0 5 0 (some (true, none))) (fun t => t.tst.selfTest.isNone && t.tst.stLog == [{ code := 2, result := 0 }]) &&
     gives (run { x with seg := 3 }) (.deviceSelfTestExtended 0 5 0 (some (false, some 7))) (fun t => t.tst.stLog == [{ code := 2, result := 7, seg := 3, lba := some 7 }] && t.fld F.SEC_STATUS.STATE == 2) &&
     gives (run x) (.deviceSelfTestShort 0 5 0 (some (true, none))) (fun t => t == run x) && gives (run x) (.deviceSelfTestAbort 0 5) (fun t => posted t 0 0 && t.tst.stLog == [{ code := 2, result := 1 }])) = true := by decide +kernel

/-- For RegisterWritesAndAccessErrors, RegisterReadsLatchAndClear and LocksExtendMeasurement. -/
theorem witness_RegisterWritesReadsAndLocks :
    (let s := State.reset.setFld F.BOOT_STATUS.STATE 1
     let off (r : Nat) : BitVec 26 := BitVec.ofNat 26 (r / 4)
     let raw (r : Nat) : BitVec 26 := if dwOff (off r) = r then off r else BitVec.ofNat 26 r
     let clr := s.setReg R.TT_EVT 0xFF
     let lk := s.setReg R.MED_CTRL 0x80000000
     let lat := { s with host := { s.host with latch := [(latchKey false (R.TT_TIME_LO + 4), 7)] } }
     accessOf s R.TT_EVT == .mapped && gives clr (.registerWrite false (raw R.TT_EVT) [0x0F] true) (fun t => t.reg R.TT_EVT == 0xF0) &&
     gives s (.registerWrite false (raw R.TT_EVT) [1, 2, 3] true) (fun t => t.flag F.GLB_ERR.BAD_WIDTH && t.reg R.TT_EVT == s.reg R.TT_EVT) && gives s (.registerWrite false (raw R.TT_EVT) [1] false) (fun t => t.flag F.GLB_ERR.BAD_WIDTH) &&
     gives s (.readClear false (raw R.TT_EVT) 17) (fun t => t.flag F.GLB_ERR.BAD_WIDTH) && accessOf s 0x1700000 == .unmapped && gives s (.registerWrite false (raw 0x1700000) [1] true) (fun t => t.flag F.GLB_ERR.UNMAPPED) &&
     gives s (.readClear false (raw 0x1700000) 1) (fun t => t.flag F.GLB_ERR.UNMAPPED && t.out == [.reg false 0x1700000 0]) && accessOf State.reset R.TT_EVT == .notLoaded &&
     gives State.reset (.loLatchRead false (raw R.TT_EVT) 1) (fun t => t.flag F.GLB_ERR.NOT_LOADED && t.out == [.reg false R.TT_EVT 0]) && !s.x4x4 && gives s (.registerWrite true (raw R.TT_EVT) [1] true) (fun t => t == s) &&
     gives s (.bpmShareWrite 4096 77) (fun t => t.fld (F.BPM_SHARE.SHARE.ix 4096) == 77) && isLatchLo R.TT_TIME_LO &&
     gives { s with ttu := { s.ttu with time := 0x500000003 } } (.loLatchRead false (raw R.TT_TIME_LO) 1) (fun t => t.out == [.reg false R.TT_TIME_LO 3] && sgetD 0 (latchKey false (R.TT_TIME_LO + 4)) t.host.latch == 5) &&
     gives lat (.loLatchRead false (raw (R.TT_TIME_LO + 4)) 1) (fun t => t.out == [.reg false (R.TT_TIME_LO + 4) 7]) && !isLatchLo R.TT_GUARD && gives s (.readClear false (raw R.TT_GUARD) 1) (fun t => t.out == [.reg false R.TT_GUARD 0] && t.host.latch == []) &&
     lockList.any (fun x => x.2.2 == 0) && lockList.any (fun x => x.2.2 == 18) && gives s (.lockWrite 18 0) (fun t => t.regs != s.regs) && gives lk .lockAll (fun t => t.locked R.TT_SRC) && gives s (.coldReset false) (fun t => t.sec.m6 == 0)) = true := by decide +kernel

/-! ### Gradebook, ledger, security and administration -/

/-- Bytes have been returned to function 0. -/
def bytesOut (t : State) (n : Nat) : Bool := t.out.any fun o => match o with | .bytes 0 _ b => b.length == n | _ => false

theorem witness_GradebookClosesAndReads :
    (let s := State.reset
     let u : Summary := { no := 4, compact := false, cause := 1, closeAt := (0, 0), bellClose := 0, bundle := 0, svn := 0, body := {} }
     let wr := { s with gb := { s.gb with writing := some (2, u) } }
     let both := { wr with gb := { wr.gb with deferred := some 1 } }
     let full := { s with gb := { s.gb with slots := (List.range 112).map fun k => (k, { u with no := k, body := { sev := 3 } }) } }
     let one := { s with gb := { s.gb with slots := [(47, u)], diags := [(7, { stamp := (0, 0), kind := 1, addr := 5 })] } }
     let b3 := s.setFld F.BOOT_STATUS.STEP 3
     gbSlot [] 0 == some (0, false) && gives s .intervalClose (fun t => t.gb.writing.any fun x => x.1 == 0 && x.2.cause == 1) && gives s .gbCtrlClose (fun t => t.gb.writing.any fun x => x.2.cause == 5) &&
     gbSlot full.gb.slots 0 == none && gives full .intervalClose (fun t => t.gb.lost == 1 && t.flag F.GB_EVT.LOST) && gives wr .gbCtrlClose (fun t => t.gb.deferred == some 5 && t.gb.writing == wr.gb.writing) &&
     gives wr .summaryWriteComplete (fun t => sget 2 t.gb.slots == some u && t.gb.nextNo == 5 && t.gb.writing.isNone && t.flag F.GB_EVT.CLOSED) && gives both .summaryWriteComplete (fun t => t.gb.deferred.isNone && t.gb.nextNo == 5) &&
     gives s .summaryWriteComplete (fun t => t == s) && gives s (.gradebookReadDirectory false 0 5 0 0 1) (fun t => posted t 0 0 && bytesOut t 4096) && gives s (.gradebookReadDirectory false 0 5 1 0 1) (fun t => posted t 0 2) &&
     gives one (.gradebookReadSummary false 0 5 47 39 1) (fun t => t.out.any fun o => match o with | .cqe 0 _ e => e.dw0 == 4 && e.sc == 0 | _ => false) && gives one (.gradebookReadSummary false 0 5 48 1 1) (fun t => posted t 0 2) &&
     gives one (.gradebookReadSummary false 0 5 111 0 1) (fun t => posted t 0 0) && gives wr (.gradebookReadSummary false 0 5 2 0 1) (fun t => posted t 0 0) && (sget 7 one.gb.diags).isSome &&
     gives s (.gradebookReadStatus false 0 5 0 0 1) (fun t => posted t 0 0) && gives s (.gradebookReadOpenInterval false 0 5 0 0 0) (fun t => posted t 0 2) && gives s (.gradebookReadStatus false 1 5 0 0 1) (fun t => !posted t 0 0 && t.gb == s.gb) &&
     gives b3 (.gradebookReadStatus true 0 5 0 0 1) (fun t => t.out.any fun o => match o with | .mctp _ => true | _ => false)) = true := by decide +kernel

theorem witness_LedgerCommands :
    (let base := { State.reset with sec := { State.reset.sec with keysReady := true, fuses := { State.reset.sec.fuses with lifecycle := 3 } } }
     let r : LedgerRec := { kind := 1, no := 0, prev := 0, image := 0, svn := 0, bundle := 0, lifecycle := 3, slot := 0, romRev := 0, cycles := 0, seconds := 0, bell := 0, flags := 0, aliasId := 0 }
     let led (l : Ledger) := base.setLedger l
     let two := led { head := 2, ring := [(0, r), (1, { r with no := 1 })] }
     let due := led { head := 2, ring := [(0, r), (1, { r with no := 1 })], cpDue := some 1, cpReq := [(0, 5)] }
     let long := led { head := 4096, ack := 4095 }
     let ok (t : State) := posted t 0 0
     gives due .ledgerCheckpoint (fun t => t.sec.ledger.cpDue.isNone && t.sec.ledger.cps.length == 1 && ok t) && gives two .ledgerCheckpoint (fun t => t == two) && ledgerOpen long &&
     gives long .ledgerCompaction (fun t => t.sec.ledger.tail == 4096 && t.sec.ledger.head == 4097 && t.flag F.SEC_EVT.COMPACTED) && gives two .ledgerCompaction (fun t => t == two) &&
     two.sec.ledger.ring.length == 2 && gives two (.ledgerReadRecords 0 5 1 1) (fun t => posted t 0 2) && gives two (.ledgerReadRecords 0 5 0 4096) (fun t => posted t 0 2) &&
     gives two (.ledgerReadCheckpoints 0 5 29 0) (fun t => ok t && bytesOut t 8192) && gives two (.ledgerReadCheckpoints 0 5 30 0) (fun t => posted t 0 2) && gives two (.ledgerReadOverflow 0 5) (fun t => ok t && bytesOut t 256) &&
      gives two (.ledgerReadStatus 0 5) ok && two.ledgerRec 1 == some { r with no := 1 } &&
     gives two (.ledgerAcknowledge 0 5 2 0) (fun t => posted t 0 2) && gives base (.ledgerCheckpointRequest 0 5) (fun t => posted t 0 2) && gives { two with sec := { two.sec with keysReady := false } } (.ledgerCheckpointRequest 0 5) (fun t => posted t 7 0x90) &&
     gives two (.ledgerCheckpointRequest 0 5) (fun t => t.out == [] && t.sec.ledger.cpDue == some 1 && t.sec.ledger.cpReq == [(0, 5)]) && gives two (.ledgerReadStatus 1 5) (fun t => t.sec == two.sec && !ok t)) = true := by decide +kernel

/-- A device in a lifecycle with function 0's CO session open. -/
def coSession (lc : BitVec 8) : State :=
  { State.reset with sec := { State.reset.sec with keysReady := true, session := some 0, fuses := { State.reset.sec.fuses with lifecycle := lc } } }

theorem witness_RolesLifecycleAndSelfTests :
    (let s := coSession 1
     let none' := { s with sec := { s.sec with session := none } }
     let halt := s.setFld F.SEC_STATUS.STATE 2
     let auth (n : Nat) (co : Option Digest) := { none' with sec := { none'.sec with failures := n, blocks := { none'.sec.blocks with co := co } } }
     let blank := (coSession 0).setFld F.SEC_STATUS.STATE 1
     let full := s.setLedger { head := 15360 }
     let ok (t : State) := posted t 0 0
     gives none' (.authenticate 1 5 0) (fun t => t.sec == none'.sec) && gives halt (.zeroizeAll 0 5) (fun t => posted t 7 0x90 && t.sec == halt.sec) && gives none' (.zeroizeAll 0 5) (fun t => posted t 2 0x86) &&
     gives (auth 0 none) (.authenticate 0 5 9) (fun t => posted t 2 0x86 && t.sec.failures == 1 && t.flag F.SEC_EVT.AUTH_FAIL) && gives (auth 4 none) (.authenticate 0 5 9) (fun t => t.flag F.SEC_STATUS.CO_LOCKOUT) &&
     gives (auth 5 none) (.authenticate 0 5 9) (fun t => posted t 2 0x86 && t.sec.session.isNone) && gives blank (.provision 0 5 0 7) (fun t => ok t && t.lifecycle == 1 && t.sec.ledger.head == 1) && gives s (.provision 0 5 0 7) (fun t => posted t 0 0x0C) &&
     gives s (.readCertificates 0 5) ok && gives s (.securityReceive 0 5 0xF0 0x0100) ok && gives s (.changeCoCredential 0 5 3) ok && gives s (.enterMission 0 5) (fun t => ok t && t.lifecycle == 3) && gives s (.enterRma 0 5 true) (fun t => ok t && t.lifecycle == 7 && t.sec.session.isNone) &&
     gives s (.enterRma 0 5 false) (fun t => !ok t && t.lifecycle == 1) && gives s (.decommission 0 5) (fun t => ok t && t.lifecycle == 15 && t.sec.fuses.udsKilled) && gives s (.zeroizeAll 0 5) (fun t => ok t && t.sec.fuses.epoch == 1 && t.sec.slots == []) &&
     ledgerFull full && gives full (.enterMission 0 5) (fun t => posted t 0 0x0C) && gives (coSession 3) (.enterMission 0 5) (fun t => posted t 0 0x0C) && gives (coSession 15) (.decommission 0 5) (fun t => posted t 0 0x0C) && gives (coSession 3) (.enterRma 0 5 false) (fun t => posted t 2 0x86) &&
     gives s (.setLedgerPolicy 0 5 true) (fun t => ok t && t.sec.ledger.policy) && gives s (.runSelfTests 0 5 true 3) ok && gives s (.runSelfTests 0 5 false 3) (fun t => posted t 7 0x90 && t.secHalted) && gives s .coSessionTimeout (fun t => t.sec.session.isNone) &&
     gives s (.periodicCast true 3) (fun t => t.regs == s.regs) && gives s (.periodicCast false 3) (fun t => t.secHalted && t.fld F.SEC_ERR.ALG == 3) && gives s .entropyHealthFailure (fun t => t.fld F.SEC_ERR.CAUSE == 3) && gives halt .entropyHealthFailure (fun t => t == halt)) = true := by decide +kernel

/-- The right CO credential, the owner hash of a Blank device, and the accepted image's version. -/
theorem witness_RolesLifecycleAndSelfTests_values (cred : BitVec 256) :
    let b : KeyBlocks := { co := some (coVerifier cred) }
    b.co = some (coVerifier cred) ∧ (State.reset.slotImage State.reset.boot.slot).keyHash = 0 ∧ goodImage.svn = 0 := ⟨rfl, rfl, rfl⟩

theorem witness_KeyPerIoAndOpal :
    (let s0 := coSession 3
     let s := s0.setTab { s0.zyn.tab with tenant := [(0, 2), (2, BitVec.ofNat 64 (4 + 2 * 2 ^ 16 + 9 * 2 ^ 32))] }
     let kek := { s with sec := { s.sec with keks := [(kekKey 0 5, 77)] } }
     let held := s.setSlot 10 3
     let halt := s.setFld F.SEC_STATUS.STATE 2
     let op (l : List Nat) := { s with sec := { s.sec with opalAuth := l } }
     let ok (t : State) := posted t 0 0
     let x : OpalRange := { nsid := 5, start := 0, len := 8, slot := 60000 }
     let rg := { withNs5 (op [16]) with sec := { (op [16]).sec with blocks := { (op [16]).sec.blocks with meks := [(60000, 1)], ranges := [(1, x)] } } }
     let clr := { s with sec := { s.sec with clearing := [(9, some (0, 5))] } }
     let cnt := { clr with sec := { clr.sec with counts := [(9, 2)] } }
     gives s (.keyInjection 1 5 0 5 0 true) (fun t => t.sec == s.sec) && gives halt (.clearKey 0 5 0 5) (fun t => posted t 7 0x90) && gives { s with sec := { s.sec with session := none } } (.establishTagKek 0 5 0 5 0 true) (fun t => posted t 2 0x86) &&
     s.tagSlot 0 4 == some 9 && s.tagSlot 0 5 == some 10 && s.tagSlot 0 6 == none && gives s (.establishTagKek 0 5 0 5 0 true) (fun t => ok t && (sget (kekKey 0 5) t.sec.keks).isSome) && gives s (.keyInjection 0 5 0 6 0 true) (fun t => posted t 0 2) &&
     gives held (.keyInjection 0 5 0 5 1 true) (fun t => ok t && t.slotKey 10 == some 3) && gives s (.keyInjection 0 5 0 5 1 true) (fun t => ok t && (t.slotKey 10).isNone) && gives kek (.keyInjection 0 5 0 5 0 true) (fun t => ok t && (t.slotKey 10).isNone) &&
     gives kek (.keyInjection 0 5 0 5 1 true) (fun t => ok t && t.slotKey 10 == some 1) && gives s (.clearKey 0 5 0 4) (fun t => t.sec.clearing == [(9, some (0, 5))] && t.out == []) &&
     !spOpen s true && gives s (.genkey 0 5 1 5) ok && gives s (.revertsp 0 5 false) ok && spOpen (op [16]) true && gives (op [16]) (.lockingRangeSet 0 5 0 0 0 0 true false true) (fun t => ok t && t.sec.blocks.lockingActive) &&
     rg.pfOwned 5 && gives rg (.lockingRangeSet 0 5 1 5 8 56 true true false) (fun t => (sget 1 t.sec.blocks.ranges).any fun y => y.start == 8 && y.len == 56 && y.loaded && y.slot == 60000) && gives rg (.genkey 0 5 1 5) ok &&
     spOpen (op [0]) false && gives (op [0]) (.revertsp 0 5 true) (fun t => ok t && t.sec.opalAuth == []) && gives clr (.slotZeroize 9 false) (fun t => t.sec.clearing == [] && ok t) && gives cnt (.slotZeroize 9 true) (fun t => t.sec.clearing == []) &&
     gives cnt (.slotZeroize 9 false) (fun t => t == cnt) && gives clr (.slotZeroize 8 false) (fun t => t == clr)) = true := by decide +kernel

theorem witness_SpdmResponder :
    (let s := coSession 3
     let st (x : Spdm) := s.setSpdm 0 x
     let all : Spdm := { version := true, caps := true, algs := true }
     let s3 := { s with pwr := { s.pwr with s3 := true } }
     let replies (s : State) (c : Instr) (y : Spdm) := gives s c fun t => t.out.length == s.out.length + 1 && t.spdmState 0 == y
     bindingOk s 0 && !bindingOk s 1 && gives s (.getVersion 1) (fun t => t == s) && gives s3 (.getVersion 0) (fun t => t == s3) && spdmUnsigned State.reset && replies State.reset (.getVersion 0) {} && !spdmUnsigned s &&
     replies s (.getVersion 0) { version := true } && replies (st { version := true }) (.getCapabilities 0 0x13) { version := true, caps := true } && replies (st { version := true }) (.getCapabilities 0 0x12) { version := true } && replies s (.getCapabilities 0 0x13) {} &&
     replies (st { version := true, caps := true }) (.negotiateAlgorithms 0 true) all && replies (st { version := true, caps := true }) (.negotiateAlgorithms 0 false) { version := true, caps := true } && replies s (.getDigests 0) {} && replies (st all) (.getDigests 0) all &&
     replies (st all) (.getCertificate 0 1 0 4) all && replies (st all) (.challenge 0 0 9) all && replies (st all) (.getMeasurements 0 6 false 9) all && replies (st all) (.getMeasurements 0 0 false 9) all && replies (st all) (.getMeasurements 0 7 true 9) all &&
     gives s (.mctpEcho false (List.replicate 64 1)) (fun t => t.out.length == 1) && gives s (.mctpEcho false (List.replicate 65 1)) (fun t => t == s)) = true := by decide +kernel

theorem witness_LogsIdentifyAndFeatures :
    (let s := State.reset
     let rep := s.setFunc 0 { s.func 0 with reported := [(1, 2), (0, 3)] }
     let ok (t : State) := posted t 0 0
     (logPage s 0 2).isSome && gives rep (.getLogPage 0 5 2 true 0 4) (fun t => ok t && (t.func 0).reported == [(1, 2), (0, 3)]) && gives rep (.getLogPage 0 5 2 false 0 4) (fun t => ok t && (t.func 0).reported == [(0, 3)]) && (logPage s 1 2).isNone && (logPage s 0 0xC0).isSome &&
     gives s (.getLogPage 1 5 0xC0 true 0 4) (fun t => t.func 1 == s.func 1) && (identifyData s 0 1 0 0).isSome && gives s (.identify 0 5 1 0 0) ok && (identifyData s 0 0 9 0).isNone == !gives s (.identify 0 5 0 9 0) ok && wideFeatures.contains 0x0C || ownFeatures.contains 0x0C) = true := by decide +kernel

theorem witness_LogsIdentifyAndFeatures_features :
    (let s := State.reset
     let ok (t : State) := posted t 0 0
     ownFeatures.contains 0x0B && gives s (.setFeatures 0 5 0x0B 7) (fun t => ok t && sget 0x0B (t.func 0).feats == some 7) && gives s (.setFeatures 0 5 0xEE 7) (fun t => posted t 0 2) && gives s (.getFeatures 0 5 0xEE 0) (fun t => posted t 0 2) &&
     gives s (.setFeatures 0 5 7 0) ok && gives s (.getFeatures 0 5 2 0) ok && gives s (.nvmeMiReceive 0 5 []) ok && gives s (.nvmeMiSend 0 5 []) ok && gives s (.nvmeMiSend 1 5 []) (fun t => !ok t)) = true := by decide +kernel

theorem witness_NamespacesFormatAndSanitize :
    (let s := withNs5 (coSession 3)
     let cap := flds (s.setReg R.MED_CAP_LO 1000000) [(F.DMC_REGION_MAP.SIZE_16M, 64)]
     let one := s.setTab { s.zyn.tab with nsrec := s.zyn.tab.nsrec.filter fun (k, _) => k < 40 }
     let prov := { s with boot := { s.boot with provisioned := true } }
     let ok (t : State) := posted t 0 0
     let no := { withNs5 (coSession 3) with host := { s.host with funcs := [] } }
     gives s (.namespaceCreate 1 5 64 0 0 0 0 0 0) (fun t => t.zyn == s.zyn) && gives prov (.namespaceCreate 0 5 64 0 0 0 0 0 0) (fun t => posted t 0 0x0C) && gives s (.namespaceCreate 0 5 0 0 0 0 0 0 0) (fun t => posted t 0 2) &&
     gives s (.namespaceCreate 0 5 64 0 0 0 0 0 0) (fun t => posted t 1 0x15) && gives cap (.namespaceCreate 0 5 64 0 0 0 0 4 0) (fun t => t.nsState 1 == 1 && t.nsSize 1 == 64 && t.nsFdp 1 == 4 && t.out.any fun o => match o with | .cqe 0 _ e => e.dw0 == 1 | _ => false) &&
     gives s (.namespaceDelete 0 5 5) (fun t => ok t && t.nsState 5 == 0 && (t.func 0).attached == [6]) && gives s (.namespaceDelete 0 5 7) (fun t => posted t 0 0x0B) && gives s (.namespaceAttachment 0 5 7 true [0]) (fun t => posted t 0 0x0B) &&
     gives s (.namespaceAttachment 0 5 5 true []) (fun t => posted t 1 0x1C) && gives no (.namespaceAttachment 0 5 5 true [0]) (fun t => ok t && (t.func 0).attached == [5]) && gives s (.namespaceAttachment 0 5 5 true [0]) (fun t => posted t 1 0x18) &&
     gives s (.namespaceAttachment 0 5 5 false [0]) (fun t => ok t && (t.func 0).attached == [6]) && gives no (.namespaceAttachment 0 5 5 false [0]) (fun t => posted t 1 0x1A) && gives s (.formatNvm 0 5 7 0 0) (fun t => posted t 0 0x0B) &&
     gives s (.formatNvm 0 5 5 0 3) (fun t => posted t 0 2) && gives s (.formatNvm 0 5 5 4 2) (fun t => posted t 1 0x0A) && gives (withMap s 0xD000000000) (.formatNvm 0 5 5 0 1) (fun t => ok t && Place.of (t.mapEntry 19) == .unwritten) &&
     gives one (.sanitizeCryptoErase 0 5) ok && gives one (.sanitizeBlockErase 0 5) ok) = true := by decide +kernel

theorem witness_FirmwareAndVirtualization :
    (let s := coSession 3
     let good : Image := goodImage
     let dl (i : Image) := { s with boot := { s.boot with slotB := i } }
     let ten := s.setTab { s.zyn.tab with tenant := [(56, 1)] }
     let on := ten.setFunc 7 { ten.func 7 with online := true }
     let ok (t : State) := posted t 0 0
     gives s (.firmwareImageDownload 1 5 true good) (fun t => t.boot == s.boot) && gives s (.secondaryOnline 1 5 7) (fun t => t.zyn == s.zyn) && gives s (.firmwareImageDownload 0 5 false good) (fun t => posted t 0 2) && gives s (.firmwareImageDownload 0 5 true good) (fun t => ok t && t.boot.slotB == good) &&
     fwSlotOf s 2 == some true && gives s (.firmwareCommitNextReset 0 5 1 2) (fun t => ok t && t.selector.map (·.next) == some true) && gives s (.firmwareCommitNextReset 0 5 0 0) ok && gives s (.firmwareCommitNextReset 0 5 3 1) (fun t => posted t 0 2) &&
     gives (dl {}) (.activationWithoutReset 0 5 2) (fun t => posted t 1 0x13) && gives (dl { good with bundle := { good.bundle with flags := 0 } }) (.activationWithoutReset 0 5 2) (fun t => posted t 1 0xB) && gives (dl good) (.activationWithoutReset 0 5 2) (fun t => t.host.fwCommit == some (0, 5) && t.host.stopAll && t.zyn.next == some good.bundle && t.host.fwRecorded && t.ttu.gcQueue.length == 1) && fwSlotOf s 3 == none && gives s (.firmwareCommitNextReset 0 5 1 3) (fun t => posted t 0 2) && gives s (.activationWithoutReset 0 5 7) (fun t => posted t 0 2) &&
     gives s (.secondaryOnline 0 5 7) (fun t => posted t 0 2) && gives s (.secondaryOffline 0 5 0) (fun t => posted t 0 2) && gives ten (.secondaryOnline 0 5 7) (fun t => ok t && (t.func 7).online && t.tenState 7 == 2) && gives on (.secondaryOffline 0 5 7) (fun t => ok t && !(t.func 7).online) &&
     gives s (.primaryFlexibleAllocation 0 5 false 1024) (fun t => (t.func 0).vq == 1024 && t.out.any fun o => match o with | .cqe 0 _ e => e.dw0 == 1024 | _ => false) && gives s (.primaryFlexibleAllocation 0 5 false 12290) (fun t => posted t 0 2) &&
     gives ten (.secondaryAssign 0 5 7 true 2047) (fun t => (t.func 7).vi == 2048) && gives on (.secondaryAssign 0 5 7 true 1) (fun t => posted t 1 0x20) && gives s (.secondaryAssign 0 5 7 false 1025) (fun t => posted t 0 2)) = true := by decide +kernel

theorem witness_TenantSetUp :
    (let s := { coSession 3 with host := { State.reset.host with poolCount := 4096 } }
     let ten (st : Nat) := s.setTab { s.zyn.tab with tenant := [(56, BitVec.ofNat 64 (st + 7 * 32))] }
     let ok (t : State) := posted t 0 0
     let w (a n k : Nat) : BitVec 64 := BitVec.ofNat 64 (a + n * 2 ^ 16 + k * 2 ^ 32)
     gives s (.createTenant 1 5 7 64 2 false) (fun t => t.zyn == s.zyn) && gives s (.createTenant 0 5 7 64 2 true) (fun t => posted t 0 2) && gives s (.setShare 0 5 7 64 false) (fun t => posted t 7 0x80) && gives (ten 3) (.setShare 0 5 7 64 false) (fun t => posted t 7 0x83) &&
     gives (ten 1) (.createTenant 0 5 7 64 2 false) (fun t => posted t 7 0x81) && gives s (.createTenant 0 5 7 4097 2 false) (fun t => posted t 0 2) && gives s (.createTenant 0 5 7 64 8 false) (fun t => posted t 0 2) && gives s (.readRecord 0 5 7 false) (fun t => ok t && bytesOut t 64) &&
     gives s (.createTenant 0 5 7 4096 7 false) (fun t => ok t && t.tenState 7 == 1 && t.tenClass 7 == 7 && t.tenAccount 7 == 7 && t.tenWord 7 1 == 4096) && gives (ten 2) (.setQosClass 0 5 7 3 false) (fun t => ok t && t.tenClass 7 == 3 && t.tenState 7 == 2) &&
     gives (ten 1) (.setQosClass 0 5 7 8 false) (fun t => posted t 0 2) && gives (ten 1) (.setShare 0 5 7 77 false) (fun t => ok t && t.tenWord 7 1 == 77 && share t 7 == 77) && gives (ten 1) (.setShare 0 5 7 4097 false) (fun t => posted t 0 2) &&
     tagRangeOk (w 1 4 9) && !tagRangeOk (w 0 4 9) && gives (ten 1) (.bindKeyTags 0 5 7 (w 1 4 9) (w 5 2 20) false) (fun t => ok t && t.tenWord 7 2 == (w 1 4 9).toNat && t.tenWord 7 3 == (w 5 2 20).toNat) && gives (ten 1) (.bindKeyTags 0 5 7 (w 0 4 9) 0 false) (fun t => posted t 0 2) &&
     gives (ten 1) (.installEntriesReplace 0 5 7 [] false true) (fun t => posted t 0 2) && gives (ten 1) (.installEntriesReplace 0 5 7 [] false false) (fun t => !t.out.isEmpty) && gives (ten 1) (.installFilter 0 5 7 0 false (List.replicate 64 1) false) (fun t => ok t && (sget 7 t.host.assembly).isSome) &&
     gives (ten 1) (.installFilter 0 5 7 1 false [] false) (fun t => posted t 0 2) && gives (ten 1) (.removeTenant 0 5 7 false) (fun t => ok t && t.tenState 7 == 0) && gives (ten 2) (.removeTenant 0 5 7 false) (fun t => posted t 7 0x83)) = true := by decide +kernel

/-- The right PIN of an authority; the PSID on the label meets its clause by definition. -/
theorem witness_KeyPerIoAndOpal_pin (auth : BitVec 8) (pin : BitVec 256) :
    let s : State := { coSession 3 with sec := { (coSession 3).sec with blocks := { opal := [(auth.toNat, opalVerifier auth.toNat pin)] } } }
    opalVerifier auth.toNat pin = opalStored s auth.toNat := by simp [opalStored, sget]

/-! ### The refused and remaining forms -/

theorem witness_GradebookAndLedger_refused :
    (let s := State.reset
     let base := { s with sec := { s.sec with keysReady := true, fuses := { s.sec.fuses with lifecycle := 3 } } }
     let r : LedgerRec := { kind := 1, no := 0, prev := 0, image := 0, svn := 0, bundle := 0, lifecycle := 3, slot := 0, romRev := 0, cycles := 0, seconds := 0, bell := 0, flags := 0, aliasId := 0 }
     let led (l : Ledger) := base.setLedger l
     let two := led { head := 2, ring := [(0, r), (1, { r with no := 1 })], ovf := some r }
     let ok (t : State) := posted t 0 0
     gives s (.gradebookReadOpenInterval false 0 5 0 0 1) (fun t => ok t && bytesOut t 4096) && gives s (.gradebookReadDiagnostic false 0 5 7 0 4) (fun t => ok t && bytesOut t 16384) && gives s (.gradebookReadDiagnostic false 0 5 8 0 4) (fun t => posted t 0 2) &&
     vfRefused s [.gradebookReadDirectory false 1 5 0 0 1, .gradebookReadSummary false 1 5 0 0 1, .gradebookReadOpenInterval false 1 5 0 0 1, .gradebookReadDiagnostic false 1 5 0 0 1, .gradebookReadStatus false 1 5 0 0 1] &&
     two.sec.ledger.tail == 0 && two.sec.ledger.head == 2 && two.sec.ledger.ovf.isSome &&
     same { two with sec := { two.sec with keysReady := false, ledger := { two.sec.ledger with cpDue := some 1 } } } .ledgerCheckpoint &&
     vfRefused s [.ledgerReadRecords 1 5 0 0, .ledgerReadCheckpoints 1 5 0 0, .ledgerReadOverflow 1 5, .ledgerReadStatus 1 5, .ledgerAcknowledge 1 5 0 0, .ledgerCheckpointRequest 1 5]) = true := by decide +kernel

/-- The hash that acknowledges a record of the ring. -/
theorem witness_LedgerCommands_acknowledge (h : Digest) (r : LedgerRec) (hr : r.hash = h) :
    let s := State.reset.setLedger { head := 1, ring := [(0, r)] }
    s.sec.ledger.ring = [(0, r)] ∧ h = r.hash := ⟨rfl, hr.symm⟩

theorem witness_RolesKeysAndOpal_refused :
    (let s := coSession 3
     let ok (t : State) := posted t 0 0
     let epo := { s with sec := { s.sec with fuses := { s.sec.fuses with epoch := 32 } } }
     let svn := { s with boot := { s.boot with slotB := goodImage } }
     let other := ((coSession 0).setFld F.SEC_STATUS.STATE 1)
     let halt := s.setFld F.SEC_STATUS.STATE 2
     let op (l : List Nat) := { withNs5 s with sec := { s.sec with opalAuth := l } }
     let full := { op [16] with sec := { (op [16]).sec with blocks := { (op [16]).sec.blocks with ranges := [(2, { nsid := 5, start := 0, len := 8, slot := 60000 })] } } }
     let none' := { s with sec := { s.sec with session := none } }
     vfRefused s [.changeCoCredential 1 5 0, .authenticate 1 5 0, .provision 1 5 0 0, .readCertificates 1 5, .securityReceive 1 5 1 0, .enterMission 1 5, .enterRma 1 5 true, .decommission 1 5, .zeroizeAll 1 5, .setLedgerPolicy 1 5 true, .commitSvn 1 5, .runSelfTests 1 5 true 0] &&
     [Instr.changeCoCredential 0 5 0, .authenticate 0 5 0, .provision 0 5 0 0, .readCertificates 0 5, .securityReceive 0 5 1 0, .commitSvn 0 5].all (fun x => gives halt x fun t => posted t 7 0x90 && t.sec == halt.sec) &&
     gives other (.provision 0 5 1 7) (fun t => posted t 0 2) && gives s (.securityReceive 0 5 2 0) ok && gives s (.securityReceive 0 5 3 0) (fun t => posted t 0 2) && gives s (.securityReceive 0 5 0xF0 0x0101) (fun t => posted t 0 2) &&
     gives none' (.changeCoCredential 0 5 3) ok && gives { other with sec := { other.sec with session := none } } (.changeCoCredential 0 5 3) (fun t => posted t 2 0x86) && gives epo (.zeroizeAll 0 5) (fun t => posted t 0 0x0C) && gives s (.commitSvn 0 5) (fun t => posted t 0 0x0C) &&
     gives svn (.commitSvn 0 5) (fun t => ok t && t.sec.ledger.head == 1) && same halt (.periodicCast true 3) &&
     vfRefused s [.establishTagKek 1 5 0 5 0 true, .keyInjection 1 5 0 5 0 true, .clearKey 1 5 0 5, .opalAuthenticate 1 5 16 0 none, .lockingRangeSet 1 5 0 0 0 0 true true true, .genkey 1 5 0 0, .revertsp 1 5 true, .psidRevert 1 5 0] &&
     gives s (.establishTagKek 0 5 0 5 0 true) (fun t => posted t 0 2) && gives s (.clearKey 0 5 0 5) (fun t => posted t 0 2) &&
     gives (op [16]) (.lockingRangeSet 0 5 1 5 60 8 true true false) (fun t => ok t && (sget 1 t.sec.blocks.ranges).isNone) && gives (op [16]) (.lockingRangeSet 0 5 1 5 0 8 true true false) (fun t => ok t && (sget 1 t.sec.blocks.ranges).isSome && t.sec.blocks.meks.length == 1) &&
     gives full (.lockingRangeSet 0 5 1 5 4 8 true true false) (fun t => ok t && (sget 1 t.sec.blocks.ranges).isNone) && gives (op [16]) (.genkey 0 5 1 5) ok && gives (op [16]) (.revertsp 0 5 false) (fun t => ok t && !t.sec.blocks.lockingActive)) = true := by decide +kernel

theorem witness_SpdmResponder_forms :
    (let s := coSession 3
     let all : Spdm := { version := true, caps := true, algs := true }
     let st (k : Nat) (x : Spdm) := s.setSpdm k x
     let s3 := { s with pwr := { s.pwr with s3 := true } }
     let replies (s : State) (c : Instr) (y : Spdm) := gives s c fun t => t.out.length == s.out.length + 1 && t.spdmState 0 == y
     bindingOk s3 2 && gives s3 (.getVersion 2) (fun t => t.out.length == 1 && (t.spdmState 2).version) && replies s (.negotiateAlgorithms 0 true) {} && replies (st 0 all) (.challenge 0 1 9) all && replies (st 0 all) (.getMeasurements 0 0xFF true 9) all &&
     same s3 (.mctpEcho false [1]) && gives s3 (.mctpEcho true [1]) (fun t => t.out.length == 1)) = true := by decide +kernel

theorem witness_LogsIdentifyAndFeatures_forms :
    (let s := State.reset
     let ok (t : State) := posted t 0 0
     let q := s.setSq 0 1 { size := 4, cq := 1, ordered := true }
     [1, 2, 5, 6, 0xC0].all (fun n => (logPage s 0 n).isSome) && (logPage (withVf s) 1 1).isSome && (logPage (withVf s) 1 6).isNone && gives s (.getLogPage 0 5 0xEE true 0 4) (fun t => posted t 1 9) && gives s (.identify 0 5 0xEE 0 0) (fun t => posted t 0 2) &&
     gives s (.getFeatures 0 5 0x10 0) ok && gives s (.getFeatures 0 5 0x04 0x100000) ok && gives (withVf s) (.getFeatures 1 5 0x10 0) (fun t => postedVf t 0 2) && gives s (.getFeatures 0 5 0x0B 0) ok &&
     gives q (.getFeatures 0 5 0xC2 1) (fun t => t.out.any fun o => match o with | .cqe 0 _ e => e.dw0 == 0x10001 | _ => false) && gives s (.getFeatures 0 5 0xC2 1) (fun t => posted t 0 2) && vfRefused s [.nvmeMiSend 1 5 [], .nvmeMiReceive 1 5 []] &&
     gives s (.setFeatures 0 5 0x02 0) ok && gives s (.setFeatures 0 5 0x04 0x160) ok && gives s (.setFeatures 0 5 0x10 0) ok && gives s (.setFeatures 0 5 0xC2 1) (fun t => posted t 0 2)) = true := by decide +kernel

theorem witness_NamespacesAndVirtualization_forms :
    (let s := withNs5 (coSession 3)
     let cap := flds (s.setReg R.MED_CAP_LO 1000000) [(F.DMC_REGION_MAP.SIZE_16M, 64)]
     let ok (t : State) := posted t 0 0
     let fw := coSession 3
     let ten (st : Word64) := fw.setTab { fw.zyn.tab with tenant := [(56, st)] }
     vfRefused s [.namespaceCreate 1 5 64 0 0 0 0 0 0, .namespaceDelete 1 5 5, .namespaceAttachment 1 5 5 true [0], .formatNvm 1 5 5 0 0, .sanitizeCryptoErase 1 5, .sanitizeBlockErase 1 5] &&
     gives (flds (s.setReg R.MED_CAP_LO 1000000) []) (.namespaceCreate 0 5 0x100000000 0 0 0 0 0 0) (fun t => posted t 1 0x15 && t.flag F.MAP_EVT.REGION_FULL) && gives cap (.namespaceCreate 0 5 64 0 0 0 0 200 0) (fun t => posted t 0 2) &&
     gives cap (.formatNvm 0 5 5 1 0) (fun t => ok t && t.nsLbaf 5 == 1 && t.nsSize 5 == 64) && gives s (.formatNvm 0 5 6 0 0) (fun t => posted t 1 0x0A) &&
     (let x := { s with host := { s.host with funcs := [] } }; gives (x.setTab { x.zyn.tab with nsrec := x.zyn.tab.nsrec.filter fun (k, _) => k < 40 }) (.namespaceDelete 0 5 0xFFFFFFFF) (fun t => ok t && t.nsState 5 == 0)) &&
     vfRefused fw [.firmwareImageDownload 1 5 true goodImage, .firmwareCommitNextReset 1 5 1 1, .activationWithoutReset 1 5 1, .secondaryOnline 1 5 7, .secondaryOffline 1 5 7, .primaryFlexibleAllocation 1 5 true 4, .secondaryAssign 1 5 7 true 4] &&
     gives (ten 2) (.secondaryOnline 0 5 7) (fun t => ok t && t.tenState 7 == 2) && gives (ten 2) (.secondaryOffline 0 5 7) (fun t => ok t && t.tenState 7 == 1) && gives (ten 3) (.secondaryOffline 0 5 7) (fun t => ok t && t.tenState 7 == 3) && gives fw (.secondaryAssign 0 5 0 true 4) (fun t => posted t 0 2)) = true := by decide +kernel

theorem witness_TenantSetUp_forms :
    (let s := { coSession 3 with host := { State.reset.host with poolCount := 4096 } }
     let ten (st : Nat) (x : State := s) := x.setTab { x.zyn.tab with tenant := [(56, BitVec.ofNat 64 (st + 7 * 32))] }
     let ok (t : State) := posted t 0 0
     let w (a n k : Nat) : BitVec 64 := BitVec.ofNat 64 (a + n * 2 ^ 16 + k * 2 ^ 32)
     let acts (r : Bool) : List Instr := [.setQosClass 0 5 7 1 r, .setShare 0 5 7 64 r, .bindKeyTags 0 5 7 0 0 r, .installFilter 0 5 7 0 false [1] r, .removeTenant 0 5 7 r, .installEntriesReplace 0 5 7 [] r false, .installEntriesAdd 0 5 7 [] r false, .installEntriesRemove 0 5 7 [] r false]
     let own := let x := ten 1; x.setTab { x.zyn.tab with tenant := [(56, BitVec.ofNat 64 (1 + 7 * 32)), (64, 1), (66, w 1 4 9)] }
     let chunk := { (ten 1) with host := { (ten 1).host with assembly := [(7, 1, List.replicate 4096 1)] } }
     let att := (ten 1).setFunc 7 { present := true, attached := [5] }
     let kept := let x := ten 1; (x.setTab { x.zyn.tab with tenant := [(56, BitVec.ofNat 64 (1 + 7 * 32)), (58, w 1 4 9)] }).setSlot 9 3
     vfRefused s ([.createTenant 1 5 7 64 2 false, .readRecord 1 5 7 false, .setQosClass 1 5 7 1 false, .setShare 1 5 7 64 false, .bindKeyTags 1 5 7 0 0 false, .installFilter 1 5 7 0 false [1] false, .removeTenant 1 5 7 false, .installEntriesAdd 1 5 7 [] false false]) &&
     (acts true).all (fun x => gives (ten 1) x fun t => posted t 0 2) && (acts false).all (fun x => gives s x fun t => posted t 7 0x80) && (acts false).all (fun x => gives (ten 3) x fun t => posted t 7 0x83) && gives s (.readRecord 0 5 7 true) (fun t => posted t 0 2) &&
     gives (ten 1) (.bindKeyTags 0 5 7 (w 1 4 9) (w 3 4 20) false) (fun t => posted t 0 2) && gives own (.bindKeyTags 0 5 7 (w 1 4 9) 0 false) (fun t => posted t 7 0x82) && gives (ten 1) (.installEntriesAdd 0 5 7 [] true true) (fun t => posted t 0 2) &&
     gives chunk (.installFilter 0 5 7 2 false [] false) (fun t => posted t 0 2) && gives chunk (.installFilter 0 5 7 1 true [] false) (fun t => posted t 0 2) && gives att (.removeTenant 0 5 7 false) (fun t => posted t 7 0x83) && gives kept (.removeTenant 0 5 7 false) (fun t => t.out == [] && t.tenState 7 == 1 && t.sec.clearing != [])) = true := by decide +kernel

/-- A wrong PIN, and a wrong PSID. -/
theorem witness_KeyPerIoAndOpal_wrong (auth : BitVec 8) (pin : BitVec 256) :
    let s : State := { coSession 3 with sec := { (coSession 3).sec with blocks := { opal := [(auth.toNat, opalVerifier auth.toNat pin + 1)] } } }
    opalVerifier auth.toNat pin ≠ opalStored s auth.toNat ∧ Config.psid + 1 ≠ Config.psid := by
  constructor
  · simp [opalStored, sget]
  · simp

/-! ### Words of the encodings (R104 to R140), bit by bit: major, then the form's fields -/

/-- A word decodes to an instruction, and the instruction encodes to it. -/
def word (x : Instr) (w v : Word) : Bool := zynDecode m0 w v == some x && zynEncode x == some (m0, w, v)

theorem test_decode_alu_and_predicates :
    (word (.sar m0 1 2 3) (0b000001#6 ++ 0b00001#5 ++ 0b00010#5 ++ 0b00011#5 ++ 0b01000#5 ++ 0b000000#6) 0 && word (.shri m0 1 2 33) (0b000001#6 ++ 0b00001#5 ++ 0b00010#5 ++ 0b00000#5 ++ 0b01010#5 ++ 0b100001#6) 0 &&
     word (.mulhu m0 31 30 29) (0b000001#6 ++ 0b11111#5 ++ 0b11110#5 ++ 0b11101#5 ++ 0b01101#5 ++ 0b000000#6) 0 && word (.clz m0 4 5) (0b000001#6 ++ 0b00100#5 ++ 0b00101#5 ++ 0b00000#5 ++ 0b10000#5 ++ 0b000000#6) 0 &&
     word (.sel m0 1 2 3 5) (0b000001#6 ++ 0b00001#5 ++ 0b00010#5 ++ 0b00011#5 ++ 0b10011#5 ++ 0b000101#6) 0 && word (.cmp m0 6 1 2 .ge .or) (0b000010#6 ++ 0b00110#5 ++ 0b00001#5 ++ 0b00010#5 ++ 0b000000#6 ++ 0b10#2 ++ 0b101#3) 0 &&
     word (.cmpi m0 5 1 7 0x1234) (0b001110#6 ++ 0b101#3 ++ 0b01#2 ++ 0b00111#5 ++ 0x1234#16) 0 && word (.pxor m0 1 2 3) (0b000011#6 ++ 0b00001#5 ++ 0b00010#5 ++ 0b00011#5 ++ 0b00000000010#11) 0 && word (.pnot m0 7 6) (0b000011#6 ++ 0b00111#5 ++ 0b00110#5 ++ 0b00000#5 ++ 0b00000000011#11) 0 &&
     word (.addi m0 3 4 0xFFF0) (0b001000#6 ++ 0b00011#5 ++ 0b00100#5 ++ 0xFFF0#16) 0 && word (.movsh m0 3 0xBEEF) (0b001101#6 ++ 0b00011#5 ++ 0b00000#5 ++ 0xBEEF#16) 0) = true := by decide +kernel

theorem test_decode_values_tables_and_queues :
    (word (.svr m0 9 0x0A1) (0b000100#6 ++ 0b01001#5 ++ 0b00000#5 ++ 0x00A1#16) 0 && word (.svw m0 0x0A1 9) (0b000101#6 ++ 0b00000#5 ++ 0b01001#5 ++ 0x00A1#16) 0 && word (.ld32 m0 2 3 8) (0b010010#6 ++ 0b00010#5 ++ 0b00011#5 ++ 8#16) 0 &&
     word (.st64 m0 2 3 0xFFF8) (0b010111#6 ++ 0b00010#5 ++ 0b00011#5 ++ 0xFFF8#16) 0 && word (.tput m0 2 3 5) (0b011001#6 ++ 0b00000#5 ++ 0b00010#5 ++ 0b00011#5 ++ 0b000#3 ++ 5#8) 0 && word (.tcas m0 1 2 3 1 4) (0b011010#6 ++ 0b00001#5 ++ 0b00010#5 ++ 0b00011#5 ++ 0b100#3 ++ 1#8) 0 &&
     word (.tjrn m0 1 2 3 1) (0b011011#6 ++ 0b00001#5 ++ 0b00010#5 ++ 0b00011#5 ++ 0b000#3 ++ 1#8) 0 && word (.qpop m0 1 7 2) (0b011100#6 ++ 0b00001#5 ++ 0b0000000000#10 ++ 0b010#3 ++ 7#8) 0 && word (.qpush m0 1 2 3 0x12 1) (0b011101#6 ++ 0b00001#5 ++ 0b00010#5 ++ 0b00011#5 ++ 0b001#3 ++ 0x12#8) 0 &&
     word (.qpeek m0 1 7 2) (0b011110#6 ++ 0b00001#5 ++ 0b0000000000#10 ++ 0b010#3 ++ 7#8) 0) = true := by decide +kernel

theorem test_decode_time_and_control :
    (word (.wev m0 1 2) (0b100000#6 ++ 0b00001#5 ++ 0b00010#5 ++ 0#16) 0 && word (.sev m0 6 15) (0b100001#6 ++ 0b00000#5 ++ 0b00110#5 ++ 0b00000#5 ++ 0b00000001111#11) 0 && word (.tnow m0 4) (0b100010#6 ++ 0b00100#5 ++ 0#21) 0 && word (.ptype m0 4) (0b100010#6 ++ 0b00100#5 ++ 1#21) 0 &&
     word (.wper m0) (0b100010#6 ++ 2#26) 0 && word (.pwait m0) (0b100100#6 ++ 0#26) 0 && word (.rcallSnapshot m0 1 2 4 true 3) (0b100101#6 ++ 0b00001#5 ++ 0b00010#5 ++ 0b00100#5 ++ 0b011#3 ++ 0b00000#5 ++ 0b1#1 ++ 0b10#2) 0 &&
     word (.rcallCommitVote m0 4 1) (0b100101#6 ++ 0b00000#5 ++ 0b00000#5 ++ 0b00100#5 ++ 0b001#3 ++ 0b00000#5 ++ 0b0#1 ++ 0b11#2) 0 && word (.trap m0 77) (0b100110#6 ++ 0#10 ++ 77#16) 0 && word (.br m0 0x7FFFFF) (0b110000#6 ++ 0b000#3 ++ 0x7FFFFF#23) 0 && word (.brV m0 5) (0b110000#6 ++ 0b001#3 ++ 5#23) 0 &&
     word (.brp m0 2 0x7FFFFF) (0b110001#6 ++ 0b010#3 ++ 0x7FFFFF#23) 0 && word (.brpFalse m0 2 9) (0b110010#6 ++ 0b010#3 ++ 9#23) 0 && word (.call m0 9) (0b110011#6 ++ 0b000#3 ++ 9#23) 0 && word (.ret m0) (0b110100#6 ++ 0#26) 0 && word (.loopn m0 7 12 0xFFF7) (0b110101#6 ++ 0b00111#5 ++ 0b01100#5 ++ 0xFFF7#16) 0 &&
     word (.conf m0 6 3) (0b101110#6 ++ 0b00000#5 ++ 0b00110#5 ++ 0b00000#5 ++ 0b011#3 ++ 0#8) 0 && word (.sqsh m0 6) (0b101110#6 ++ 0b00000#5 ++ 0b00110#5 ++ 0b00000#5 ++ 0b000#3 ++ 1#8) 0) = true := by decide +kernel

theorem test_decode_device_operations :
    (word (.nrd m0 5 3 2 9 1 0x40) (0b101000#6 ++ 0b00101#5 ++ 0b00011#5 ++ 0b00000#5 ++ 0b0000000#7 ++ 0b0000#4) (0b0000#4 ++ 0b1001#4 ++ 0b10#2 ++ 0b00#2 ++ 0b0001#4 ++ 0x40#16) &&
     word (.npg m0 5 6 7 1 true true 0x20) (0b101000#6 ++ 0b00101#5 ++ 0b00110#5 ++ 0b00111#5 ++ 0b0000000#7 ++ 0b0001#4) (0b000000000#9 ++ 0b1#1 ++ 0b0#1 ++ 0b1#1 ++ 0b0001#4 ++ 0x20#16) &&
     word (.ner m0 5 6 4 0x20) (0b101000#6 ++ 0b00101#5 ++ 0b00110#5 ++ 0b00000#5 ++ 0b0000000#7 ++ 0b0010#4) (4#16 ++ 0x20#16) && word (.nsus m0 5 6 ⟨9, 0x20⟩) (0b101000#6 ++ 0b00101#5 ++ 0b00110#5 ++ 0b00000#5 ++ 0b0000000#7 ++ 0b0011#4) (0#12 ++ 9#4 ++ 0x20#16) &&
     word (.nres m0 5 6 ⟨9, 0x20⟩) (0b101000#6 ++ 0b00101#5 ++ 0b00110#5 ++ 0b00000#5 ++ 0b0000000#7 ++ 0b0100#4) (0#12 ++ 9#4 ++ 0x20#16) && word (.xfer m0 5 6 7 3 true 0xFFFF) (0b101001#6 ++ 0b00101#5 ++ 0b00110#5 ++ 0b00111#5 ++ 0#11) (0b0000000#7 ++ 0b1#1 ++ 3#8 ++ 0xFFFF#16) &&
     word (.lookup m0 5 6 2 0x20) (0b101010#6 ++ 0b00101#5 ++ 0b00110#5 ++ 0b00000#5 ++ 0#11) (2#16 ++ 0x20#16) && word (.rangeLock ⟨m0, 0x30⟩) (0b101011#6 ++ 0#26) 0x30 && word (.rangeUnlock ⟨m0, 0xFFFF⟩) (0b101011#6 ++ 1#26) 0xFFFF && word (.zoneLock m0 5 6 0x20) (0b101011#6 ++ 0b00101#5 ++ 0b00110#5 ++ 2#16) 0x20 &&
     word (.zoneUnlock ⟨m0, 0xFFFF⟩ 6) (0b101011#6 ++ 0b00000#5 ++ 0b00110#5 ++ 3#16) 0xFFFF && word (.cqpost m0 5 6 0x20) (0b101100#6 ++ 0b00101#5 ++ 0b00110#5 ++ 0#16) 0x20 && word (.spec m0 5 6 7 true 0x20) (0b101101#6 ++ 0b00101#5 ++ 0b00110#5 ++ 0b00111#5 ++ 0b0000001#7 ++ 0b0000#4) 0x20) = true := by decide +kernel

/-- R105: an unassigned major, an undefined code or a reserved field that is not 0 spells no instruction. -/
theorem test_decode_refuses :
    ([0, 0b000110#6 ++ 0#26, 0b000001#6 ++ 0#15 ++ 0b10100#5 ++ 0#6, 0b000001#6 ++ 0#15 ++ 0b10011#5 ++ 0b001000#6, 0b000010#6 ++ 0#21 ++ 0b11#2 ++ 0#3, 0b000010#6 ++ 0#23 ++ 0b111#3, 0b000010#6 ++ 0b01000#5 ++ 0#21, 0b000011#6 ++ 6#26, 0b011000#6 ++ 0#10 ++ 0x0800#16,
      0b011100#6 ++ 0#5 ++ 1#5 ++ 0#16, 0b100010#6 ++ 3#26, 0b100100#6 ++ 1#26, 0b110000#6 ++ 0b010#3 ++ 0#23, 0b110011#6 ++ 0b001#3 ++ 0#23, 0b101000#6 ++ 5#26, 0b101001#6 ++ 1#26, 0b000100#6 ++ 0x1000#26] : List Word).all (fun w => zynDecode m0 w 0 == none) = true := by decide +kernel

/-! ### Operands that name no unit of the device -/

def noCtx : CtxId := ⟨.seq, 63, 0⟩

/-- Not well-formed, and the command faults. -/
def illFormed (i : Instr) : Bool := !i.wellFormed && (match exec i State.reset with | .fault f => f == .noSuchUnit | _ => false)

theorem test_ill_formed_events_and_alu :
    ([.waitLimit noCtx, .budgetTrap noCtx 0, .tableDataReturn noCtx false, .add noCtx 0 0 0, .sub noCtx 0 0 0, .and noCtx 0 0 0, .or noCtx 0 0 0, .xor noCtx 0 0 0, .andn noCtx 0 0 0, .shl noCtx 0 0 0, .shr noCtx 0 0 0, .sar noCtx 0 0 0, .shli noCtx 0 0 0, .shri noCtx 0 0 0, .sari noCtx 0 0 0, .mullo noCtx 0 0 0, .mulhu noCtx 0 0 0, .minu noCtx 0 0 0, .maxu noCtx 0 0 0, .clz noCtx 0 0, .popc noCtx 0 0, .mov noCtx 0 0, .sel noCtx 0 0 0 0, .cmp noCtx 0 0 0 .eq .set, .cmpi noCtx 0 0 0 0, .pand noCtx 0 0 0, .por noCtx 0 0 0, .pxor noCtx 0 0 0, .pnot noCtx 0 0, .pset noCtx 0] : List Instr).all illFormed = true := by decide +kernel

theorem test_ill_formed_immediates_tables_and_queues :
    ([.pclr noCtx 0, .addi noCtx 0 0 0, .andi noCtx 0 0 0, .ori noCtx 0 0 0, .xori noCtx 0 0 0, .movi noCtx 0 0, .movsh noCtx 0 0, .svr noCtx 0 0, .svw noCtx 0 0, .ld8 noCtx 0 0 0, .ld16 noCtx 0 0 0, .ld32 noCtx 0 0 0, .ld64 noCtx 0 0 0, .st8 noCtx 0 0 0, .st16 noCtx 0 0 0, .st32 noCtx 0 0 0, .st64 noCtx 0 0 0, .tget noCtx 0 0 0, .tput noCtx 0 0 0, .tcas noCtx 0 0 0 0 0, .tjrn noCtx 0 0 0 0, .qpop noCtx 0 0 0, .qpeek noCtx 0 0 0, .qpush noCtx 0 0 0 0 0, .wev noCtx 0 0, .sev noCtx 0 0, .tnow noCtx 0, .ptype noCtx 0, .wper noCtx, .pwait noCtx] : List Instr).all illFormed = true := by decide +kernel

theorem test_ill_formed_calls_devices_and_branches :
    ([.rcallBarrier noCtx 0 0 0 false 0, .rcallBroadcast noCtx 0 0 0 false 0, .rcallSnapshot noCtx 0 0 0 false 0, .rcallCommitVote noCtx 0 0, .trap noCtx 0, .nrd noCtx 0 0 0 0 0 0, .npg noCtx 0 0 0 0 false false 0, .ner noCtx 0 0 0 0, .nsus noCtx 0 0 ⟨0, 0⟩, .nres noCtx 0 0 ⟨0, 0⟩, .xfer noCtx 0 0 0 0 false 0, .lookup noCtx 0 0 0 0, .rangeLock ⟨noCtx, 0⟩, .rangeUnlock ⟨noCtx, 0⟩, .zoneLock noCtx 0 0 0, .zoneUnlock ⟨noCtx, 0⟩ 0, .cqpost noCtx 0 0 0, .spec noCtx 0 0 0 false 0, .conf noCtx 0 0, .sqsh noCtx 0, .br noCtx 0, .brV noCtx 0, .brp noCtx 0 0, .brpFalse noCtx 0 0, .call noCtx 0, .ret noCtx, .loopn noCtx 0 0 0, .xferComplete noCtx 0 false [], .dramCapture 0 (.buffer 0) false (some noCtx) none false, .undefinedInstruction noCtx false] : List Instr).all illFormed = true := by decide +kernel

theorem test_ill_formed_units :
    ([.domainRestore 14 [], .pmuVoteHostWrite 10 0, .prbsLock 12 0, .prbsLockLoss 12 0, .bpmShareWrite 4097 0, .lockWrite 19 0] : List Instr).all illFormed = true := by decide +kernel

/-! ### The step and the reset state -/

theorem witness_StepRunsFront :
    (let s := { State.reset with pending := [.pfail, .getVersion 0] }
     match step s, step State.reset with | .next t, .next u => t.pending == [.getVersion 0] && t.regs != s.regs && u.pending == [] | _, _ => false) = true := by decide +kernel

theorem witness_ResetValues :
    (State.reset.reg R.TT_SRC == 0x03E80000 && State.reset.reg R.MED_SPOOL == 0x00CB2110 && State.reset.pending == []) = true := by decide +kernel

theorem witness_CommandsStopOnlyOnUnitsThatAreAbsent :
    (illFormed (.wper noCtx) && (Instr.wper m0).wellFormed && gives State.reset (.wper m0) (fun _ => true) && (Instr.readyTimeout 0).wellFormed && !State.reset.populated 0) = true := by decide +kernel
end Sys2Proof.Machine
end

section
/-! SUPPORT. Registers that hold their reset value, and the reset state (R8). -/
namespace Sys2Proof.Machine

/-- A register that the state does not list reads as its reset value. -/
theorem reg_eq_reset {s : State} (h : s.regs = []) (off : Nat) : s.reg off = regReset s.variant off := by
  simp [State.reg, h]

end Sys2Proof.Machine

open Sys2Proof Sys2Proof.Machine in
/-- Settles O8: no register is listed at reset, so each reads as its reset value, and the tables that are named start empty. -/
theorem resetValues : Obligations.ResetValues := by
  refine ⟨fun off => reg_eq_reset rfl off, by decide, ?_⟩
  simp [State.reset, State.now]
end

section
/-! SUPPORT. PERST# low with pool data (R313): the state in which the flush path deals its programs, and a state in which the release of a buffer
ends the flush. -/
namespace Sys2Proof.Machine

theorem exec_perstAssert (s : State) : exec .perstAssert s = execPerstAssert s := by rfl

/-- PERST# is low and no boot waits (R430). -/
def State.perstLow (s : State) : State := { s with boot := { s.boot with perst := false, waiting := none } }

/-- Outside a held cold reset and a running flush, PERST# low with pool data starts a flush and is latched (R313). -/
theorem execPerstAssert_of_dirty {s : State} (hp : s.boot.perst = true) (hc : s.boot.coldHeld = false)
    (h1 : s.fld F.JNL_STATUS.FLUSH_STATE ≠ 1) (h2 : s.fld F.JNL_STATUS.FLUSH_STATE ≠ 2) (hi : s.jnl.inhibit = false)
    (hd : s.host.bufs.any (fun x => x.2.wsn != 0) = true) :
    execPerstAssert s = .next { s.perstLow.flushStart true with jnl := { (s.perstLow.flushStart true).jnl with perstLatched := true } } := by
  simp [execPerstAssert, hp, hc, h1, h2, hi, hd, done, State.perstLow]

/-- Steps 1 to 4 of the flush path have been taken, and the flush has its number (R311). -/
def State.flushNumbered (s : State) (power : Bool) : State :=
  let t := ((s.entry 0x0C sevNotice).gbClose 2).flushHalt
  { t with mram := { t.mram with flushNo := trip ((t.mram.flushNo.vote.getD 0) + 1) }, jnl := { t.jnl with flushPower := power, pfailRose := false } }

/-- The flush path has entered tier 1 and has not dealt its buffers yet (R311 step 5). -/
def State.flushEntered (s : State) (power : Bool) : State :=
  ((s.flushNumbered power).setShutdown sdFlushing).setFld F.JNL_STATUS.FLUSH_STATE 1

/-- Once recovery has ended, the flush path deals the buffers of tier 1 in the state it has entered (R311, R312). -/
theorem flushStart_of_ready {s : State} {power : Bool} (hf : s.flushing = false)
    (hr : ((s.entry 0x0C sevNotice).gbClose 2).fld F.JNL_STATUS.RECOV_PHASE = 7) :
    s.flushStart power = (s.flushEntered power).flushDeal (tierBufs (s.flushNumbered power) true) := by
  simp [State.flushStart, hf, hr, State.flushEntered, State.flushNumbered]

/-- Buffers in rising order of WSN are dealt in the order of their handles' list (R312). -/
theorem tierBufs_of_sorted {s : State} {one : Bool} {l : List (Nat × Buf)}
    (h : (s.host.bufs.filter fun (x : Nat × Buf) => x.2.wsn != 0 && x.2.acked == one && !s.ecc.poison.contains (8, x.1)) = l)
    (hs : l.Pairwise fun a b => a.2.wsn ≤ b.2.wsn) : tierBufs s one = l.map (·.1) := by
  simp only [tierBufs, h]
  rw [List.mergeSort_of_pairwise (by simpa using hs)]

/-- An acknowledged buffer of the pool, which the flush path programs. -/
def dirtyBuf (h : Nat) : Nat × Buf := (h, { cmd := 0, account := 0, nsid := 0, lba := 0, wsn := 1, acked := true })

/-- A buffer whose map change is sealed: the next seal releases it. BPM_USED of its account, which no device has, lies at the offset of JNL_STATUS. -/
def strayBuf : Nat × Buf := (64, { cmd := 0, account := 0x1F8001, nsid := 0, lba := 0, doneSeq := some 0 })

/-- Recovery has ended, four dies have an armed block and 16 free ones, and the pool holds 64 acknowledged buffers. No geometry is set, so every flush
program takes a block of its own, and the 64 records of these blocks fill a batch. -/
def strayState : State :=
  { regs := [(R.MED_BALLAST, 0), (R.JNL_STATUS, 7 * 2 ^ 15)]
    boot := { perst := true }
    media := { dies := [0, 1, 2, 3] }
    mram := { plan := [(0, 0), (1, 0), (2, 0), (3, 0)] }
    zyn := { tab := { heap := (List.range 4).map fun d => (d, (List.range 16).map fun b => (0, b)) } }
    host := { bufs := (List.range 64).map dirtyBuf ++ [strayBuf] } }

theorem tierBufs_strayState : tierBufs (strayState.perstLow.flushNumbered true) true = List.range 64 := by
  rw [tierBufs_of_sorted (l := (List.range 64).map dirtyBuf) (by decide +kernel) (List.pairwise_map.2 (List.pairwise_of_forall fun _ _ => le_rfl))]
  decide

/-- The flush of this state is over as soon as it has dealt its buffers: the seal of the 64th record releases the stray buffer, and FLUSH_STATE is 0. -/
theorem flushing_flushStart_strayState : (strayState.perstLow.flushStart true).flushing = false := by
  rw [flushStart_of_ready (by decide +kernel) (by decide +kernel), tierBufs_strayState]
  decide +kernel

end Sys2Proof.Machine

open Sys2Proof Sys2Proof.Machine in
/-- Refutes O32: with pool data PERST# low must leave a flush running, but the statement is about every state, and in `strayState` an account number that no
device has makes the release of a buffer write JNL_STATUS: FLUSH_STATE goes from 1 to 0 within the same command. -/
theorem not_resetsAndBoot : ¬ Obligations.ResetsAndBoot := by
  unfold Obligations.ResetsAndBoot
  intro h
  obtain ⟨⟨-, -, -, dirty, -⟩, -⟩ := h strayState {} false false false 0 0 0 |>.imp_left (· rfl)
  obtain ⟨t, ht, -, hflush, -⟩ := dirty rfl (by decide) (by decide) ⟨rfl, dirtyBuf 0, List.mem_append_left _ (List.mem_map.2 ⟨0, by decide, rfl⟩), by decide⟩
  rw [exec_perstAssert, execPerstAssert_of_dirty rfl rfl (by decide) (by decide) rfl (by decide)] at ht
  obtain rfl := Host.Outcome.next.inj ht
  exact absurd (flushing_flushStart_strayState.symm.trans hflush) (by decide)
end

section
/-! SUPPORT. What a share write and a domain restore keep: GLB_ERR, the share registers, the TENANT records and the rebuilds under way. -/
namespace Sys2Proof.Machine

/-- The state that every access and every journal operation of a TENANT record keeps, but for the words it writes. -/
structure Ground where
  variant : Variant
  tenant : Sparse Word64
  rebuilds : List Rebuild
  glbErr : Word

/-- The ground, and the share of each account. -/
structure Fixed where
  ground : Ground
  shares : Fin 4097 → Word

/-- The frame of a state. -/
def State.fixed (s : State) : Fixed :=
  { ground := { variant := s.variant, tenant := s.zyn.tab.tenant, rebuilds := s.ecc.rebuilds, glbErr := s.reg R.GLB_ERR }
    shares := fun a => s.reg (R.BPM_SHARE + 4 * a) }

/-- The registers of the frame: GLB_ERR and the shares. -/
def fixedReg (off : Nat) : Bool := off == R.GLB_ERR || (decide (R.BPM_SHARE ≤ off) && decide (off < R.BPM_SHARE + 4 * 4097))

/-- A state that keeps the registers, the TENANT records and the rebuilds keeps the frame. -/
theorem fixed_mk (s : State) {zyn : Zyn} {ecc : Protect} (hz : zyn.tab.tenant = s.zyn.tab.tenant) (he : ecc.rebuilds = s.ecc.rebuilds)
    (ttu : Ttu) (host : HostIf) (sc : SeatingChart) (map : MapUnit) (media : Media) (jnl : Journal) (mram : Mram) (dmc : Dmc) (sec : Crypto)
    (pwr : Power) (boot : BootSt) (gb : Gradebook) (th : Tether) (tst : Test) (out : List Out) (freeCtr : Nat) (pending : List Instr) :
    State.fixed { variant := s.variant, regs := s.regs, ttu, zyn, host, sc, map, media, jnl, mram, ecc, dmc, sec, pwr, boot, gb, th, tst, out, freeCtr, pending } = s.fixed := by
  simp [State.fixed, State.reg, hz, he]

@[simp] theorem fixed_when {s : State} {c : Bool} {f : State → State} (h : (f s).fixed = s.fixed) : (s.when c f).fixed = s.fixed := by
  cases c <;> simp [State.when, h]

@[simp] theorem fixed_each {α : Type} {f : State → α → State} (h : ∀ t x, (f t x).fixed = t.fixed) (s : State) (l : List α) :
    (s.each l f).fixed = s.fixed := by
  induction l generalizing s with
  | nil => rfl
  | cons x l ih => exact (ih (f s x)).trans (h s x)

@[simp] theorem fixed_setReg {off : Nat} (h : fixedReg off = false) (s : State) (w : Word) : (s.setReg off w).fixed = s.fixed := by
  have hg : R.GLB_ERR ≠ off := by rintro rfl; simp [fixedReg] at h
  have ha (a : Fin 4097) : R.BPM_SHARE + 4 * a ≠ off := by
    rintro rfl; have := a.isLt; simp [fixedReg] at h; omega
  simp [State.fixed, reg_setReg_ne hg, reg_setReg_ne (ha _)]

@[simp] theorem fixed_setFld {f : Field} (h : fixedReg f.off = false) (s : State) (n : Nat) : (s.setFld f n).fixed = s.fixed := fixed_setReg h s _
@[simp] theorem fixed_setBit {f : Field} (h : fixedReg f.off = false) (s : State) (b : Bool) : (s.setBit f b).fixed = s.fixed := fixed_setFld h s _
@[simp] theorem fixed_raise {f : Field} (h : fixedReg f.off = false) (s : State) : (s.raise f).fixed = s.fixed := fixed_setFld h s _
@[simp] theorem fixed_clear {f : Field} (h : fixedReg f.off = false) (s : State) : (s.clear f).fixed = s.fixed := fixed_setFld h s _
@[simp] theorem fixed_count {f : Field} (h : fixedReg f.off = false) (s : State) (n : Nat) : (s.count f n).fixed = s.fixed := fixed_setFld h s _

theorem fixedReg_of_ge {off : Nat} (h : R.BPM_SHARE + 4 * 4097 ≤ off) : fixedReg off = false := by
  have hg : off ≠ R.GLB_ERR := by rintro rfl; exact absurd h (by decide)
  simp [fixedReg, hg, Nat.not_lt.2 h]

@[simp] theorem fixedReg_bpmUsed (a : Nat) : fixedReg (F.BPM_USED.USED.ix a).off = false :=
  fixedReg_of_ge (by simp only [Field.ix, F.BPM_USED.USED, R.BPM_SHARE]; omega)

@[simp] theorem fixed_setFunc (s : State) (f : Nat) (g : Func) : (s.setFunc f g).fixed = s.fixed := (rfl)
@[simp] theorem fixed_setCq (s : State) (f q : Nat) (c : Cq) : (s.setCq f q c).fixed = s.fixed := (rfl)
@[simp] theorem fixed_emit (s : State) (o : Out) : (s.emit o).fixed = s.fixed := (rfl)
@[simp] theorem fixed_setBuf (s : State) (h : Nat) (b : Buf) : (s.setBuf h b).fixed = s.fixed := (rfl)
@[simp] theorem fixed_zynEvent (s : State) (i : CtxId) (e : Nat) : (s.zynEvent i e).fixed = s.fixed := (rfl)
@[simp] theorem fixed_setQueue (s : State) (p : Nat) (l : List Request) : (s.setQueue p l).fixed = s.fixed := (rfl)
@[simp] theorem fixed_setStalled (s : State) (p : Nat) (l : List Request) : (s.setStalled p l).fixed = s.fixed := (rfl)
@[simp] theorem fixed_setShutdown (s : State) (v : Nat) : (s.setShutdown v).fixed = s.fixed := (rfl)
@[simp] theorem fixed_gauge (s : State) (i v : Nat) : (s.gauge i v).fixed = s.fixed := (rfl)
@[simp] theorem fixed_adjustValid (s : State) (d k : Nat) (up : Bool) : (s.adjustValid d k up).fixed = s.fixed := (rfl)
@[simp] theorem fixed_replayRows (s : State) : (s.replayRows).fixed = s.fixed := (rfl)
@[simp] theorem fixed_resetDone (s : State) (f : Nat) : (s.resetDone f).fixed = s.fixed := (rfl)
@[simp] theorem fixed_setDom (s : State) (d st : Nat) : (s.setDom d st).fixed = s.fixed := (rfl)
@[simp] theorem fixed_powerWake (s : State) (l : List Nat) : (s.powerWake l).fixed = s.fixed := (rfl)

@[simp] theorem fixed_request (s : State) (c : EngClass) (e : Nat) (r : Request) : (s.request c e r).fixed = s.fixed := by
  simp [State.request, apply_ite State.fixed]
@[simp] theorem fixed_policy (s : State) (k a : Nat) (c : Option Nat) : (s.policy k a c).fixed = s.fixed := by
  simp [State.policy]
@[simp] theorem fixed_postCqe (s : State) (f q : Nat) (e : Cqe) : (s.postCqe f q e).fixed = s.fixed := by
  unfold State.postCqe
  split <;> simp [apply_ite State.fixed]
@[simp] theorem fixed_adminPost (s : State) (f : Nat) (cid : BitVec 16) (sct sc : Nat) (a b : Word) : (s.adminPost f cid sct sc a b).fixed = s.fixed := by
  simp [State.adminPost, ↓fixed_mk]
@[simp] theorem fixed_adminDone (s : State) (f : Nat) (cid : BitVec 16) (sct sc : Nat) (a b : Word) : (s.adminDone f cid sct sc a b).fixed = s.fixed := by
  cases h : s.cq f 0 <;> simp [State.adminDone, h, apply_ite State.fixed, ↓fixed_mk]
@[simp] theorem fixed_ok (s : State) (f : Nat) (cid : BitVec 16) (a : Word) : (s.ok f cid a).fixed = s.fixed := by simp [State.ok]
@[simp] theorem fixed_aen (s : State) (f ty info : Nat) : (s.aen f ty info).fixed = s.fixed := by
  cases h : (s.func f).aers <;> simp [State.aen, h, apply_ite State.fixed]
@[simp] theorem fixed_vendorEvent (s : State) (i : Nat) : (s.vendorEvent i).fixed = s.fixed := by simp [State.vendorEvent]
@[simp] theorem fixed_gbTake (s : State) (c : Nat) : (s.gbTake c).fixed = s.fixed := by
  cases h : gbSlot s.gb.slots s.gb.cur.sev <;> simp +decide [State.gbTake, h, ↓fixed_mk]
@[simp] theorem fixed_gbClose (s : State) (c : Nat) : (s.gbClose c).fixed = s.fixed := by
  cases h : s.gb.writing <;> simp [State.gbClose, h, ↓fixed_mk]
@[simp] theorem fixed_entry (s : State) (k v : Nat) : (s.entry k v).fixed = s.fixed := by
  simp [State.entry, ↓fixed_mk, apply_ite State.fixed]
@[simp] theorem fixed_fillUpdate (s : State) : s.fillUpdate.fixed = s.fixed := by
  simp +decide [State.fillUpdate]
@[simp] theorem fixed_poison (s : State) (st a : Nat) : (s.poison st a).fixed = s.fixed := by
  simp +decide [State.poison, ↓fixed_mk, apply_ite State.fixed]
@[simp] theorem fixed_inject (s : State) (st a : Nat) : (s.inject st a).fixed = s.fixed := by
  simp +decide [State.inject, apply_ite State.fixed]
@[simp] theorem fixed_tailAdvance (s : State) : s.tailAdvance.fixed = s.fixed := by
  cases h : s.jnl.repair <;> simp +decide [State.tailAdvance, h, ↓fixed_mk, apply_ite State.fixed]

@[simp] theorem fixed_cover (s : State) : s.cover.fixed = s.fixed := by
  unfold State.cover
  dsimp only
  split
  · rfl
  · rw [fixed_tailAdvance, fixed_each]
    · simp [↓fixed_mk]
    · intro t im
      cases im.loc with
      | none => rfl
      | some loc => cases sget im.page t.mram.cpNewest <;> simp [↓fixed_mk]
@[simp] theorem fixed_cutDurable (s : State) : s.cutDurable.fixed = s.fixed := by
  unfold State.cutDurable
  simp +decide [↓fixed_mk]
@[simp] theorem fixed_deletesDone (s : State) (f : Nat) : (s.deletesDone f).fixed = s.fixed := by
  refine fixed_each (fun t x => ?_) s _
  obtain ⟨k, q⟩ := x
  cases h : q.deleting <;> simp [h, ↓fixed_mk]
@[simp] theorem fixed_ctxGone (s : State) (c f : Nat) : (s.ctxGone c f).fixed = s.fixed := by
  unfold State.ctxGone
  simp +decide [↓fixed_mk]
@[simp] theorem fixed_bufGone (s : State) (c h : Nat) : (s.bufGone c h).fixed = s.fixed := by
  cases hc : sget c s.host.cmds <;> simp [State.bufGone, hc, ↓fixed_mk, apply_ite State.fixed]
@[simp] theorem fixed_bpmEval (s : State) (a : Nat) : (s.bpmEval a).fixed = s.fixed := by
  unfold State.bpmEval
  simp +decide [↓fixed_mk]
@[simp] theorem fixed_unreserve (s : State) (a n : Nat) : (s.unreserve a n).fixed = s.fixed := by
  unfold State.unreserve
  simp +decide
@[simp] theorem fixed_freeBuf (s : State) (h : Nat) : (s.freeBuf h).fixed = s.fixed := by
  cases hb : s.buf h <;> simp +decide [State.freeBuf, hb, ↓fixed_mk, apply_ite State.fixed]
@[simp] theorem fixed_releaseSealed (s : State) : s.releaseSealed.fixed = s.fixed := by
  unfold State.releaseSealed
  simp
@[simp] theorem fixed_seal (s : State) (b : Bool) : (s.seal b).fixed = s.fixed := by
  unfold State.seal
  simp [↓fixed_mk, apply_ite State.fixed]
@[simp] theorem fixed_journal (s : State) (r : BitVec 128) (c : Option Nat) : (s.journal r c).2.fixed = s.fixed := by
  unfold State.journal
  simp [↓fixed_mk]
@[simp] theorem fixed_markDirty (s : State) (p n : Nat) : (s.markDirty p n).fixed = s.fixed := by
  unfold State.markDirty
  simp [↓fixed_mk, apply_ite State.fixed]
@[simp] theorem fixed_ttState (s : State) (st : Nat) : (s.ttState st).fixed = s.fixed := by
  unfold State.ttState
  simp +decide
@[simp] theorem fixed_deselect (s : State) (d : Nat) : (s.deselect d).fixed = s.fixed := by
  unfold State.deselect
  simp
@[simp] theorem fixed_dmcWake (s : State) : s.dmcWake.fixed = s.fixed := by
  cases h : s.dmc.sr <;> simp [State.dmcWake, h, ↓fixed_mk]

end Sys2Proof.Machine
end

section
/-! SUPPORT. The restore of a domain before an access (R491) keeps the ground. -/
namespace Sys2Proof.Machine

theorem ground_setReg {off : Nat} (h : off ≠ R.GLB_ERR) (s : State) (w : Word) : (s.setReg off w).fixed.ground = s.fixed.ground := by
  simp [State.fixed, reg_setReg_ne (Ne.symm h)]

theorem ground_each {α : Type} {f : State → α → State} {l : List α} (h : ∀ t, ∀ x ∈ l, (f t x).fixed.ground = t.fixed.ground) (s : State) :
    (s.each l f).fixed.ground = s.fixed.ground := by
  induction l generalizing s with
  | nil => rfl
  | cons x l ih => exact (ih (fun t y hy => h t y (List.mem_cons_of_mem _ hy)) (f s x)).trans (h s x List.mem_cons_self)

theorem le_of_mem_blockOffsets {base : Nat} {x : Nat × RegDef} (h : x ∈ blockOffsets base) : base ≤ x.1 := by
  simp only [blockOffsets, List.mem_flatMap, List.mem_map] at h
  obtain ⟨d, -, i, -, rfl⟩ := h
  simp only; omega

theorem le_of_mem_domBlocks {d base : Nat} (h : base ∈ domBlocks d) : 0x100000 ≤ base := by
  unfold domBlocks at h
  split at h
  · revert base; decide
  · split at h
    · simp only [List.mem_map] at h; omega
    · split at h <;> simp at h <;> omega

theorem ground_restoreBlock {base : Nat} (hb : 0x100000 ≤ base) (s : State) (im : Option (Sparse Word)) :
    (s.restoreBlock base im).fixed.ground = s.fixed.ground := by
  refine ground_each (fun t x hx => ?_) s
  obtain ⟨o, d⟩ := x
  have ho : o ≠ R.GLB_ERR := by
    have := le_of_mem_blockOffsets hx
    simp only [R.GLB_ERR] at *; omega
  cases im <;> simp [apply_ite State.fixed, apply_ite Fixed.ground, ground_setReg ho]

theorem ground_restoreDomain (s : State) (d : Nat) (bad : List Nat) : (s.restoreDomain d bad).fixed.ground = s.fixed.ground := by
  unfold State.restoreDomain
  have hblocks (t : State) (im) : (t.each (domBlocks d) fun s b => s.restoreBlock b im).fixed.ground = t.fixed.ground :=
    ground_each (fun u b hb => ground_restoreBlock (le_of_mem_domBlocks hb) u im) t
  simp +decide [↓fixed_mk, apply_ite State.fixed, apply_ite Fixed.ground, hblocks]

theorem ground_regWake (s : State) (off : Nat) : (s.regWake off).fixed.ground = s.fixed.ground := by
  cases h : regDomain off <;> simp [State.regWake, h, apply_ite State.fixed, apply_ite Fixed.ground, ground_restoreDomain]

end Sys2Proof.Machine
end

section
/-! SUPPORT. A TENANT word written to the journal (R192, R334), and the share of an account in the records of its functions. -/
namespace Sys2Proof.Machine

/-! ### One journaled write of a TENANT word -/

theorem access_tenant (s : State) (f : Nat) : s.access 5 f = s := by rfl

theorem fixed_applyWord_tenant (s : State) (f w : Nat) (v : Word64) (n : Nat) :
    (s.applyWord 5 f w v n).fixed = { s.fixed with ground := { s.fixed.ground with tenant := sputD 0 (f * 8 + w) v s.fixed.ground.tenant } } := by
  have h := fixed_inject s 10 (5 * 2 ^ 36 + f)
  rw [← h]
  rfl

/-- Such a write is queued while the record is rebuilt (R334), and is in force at once otherwise. -/
theorem tjrn_tenant_cases (s : State) (f w v : Nat) : ∃ (u : State) (n : Nat), u.fixed = s.fixed ∧
    s.tjrn 5 f w v = if u.underRebuild 5 f then u.queueRebuild 5 f w (BitVec.ofNat 64 v) n else u.applyWord 5 f w (BitVec.ofNat 64 v) n := by
  refine ⟨_, _, ?_, by simp only [State.tjrn, access_tenant, State.jwrite]; rfl⟩
  simp

theorem fixed_tjrn_tenant {s : State} (hr : s.ecc.rebuilds = []) (f w v : Nat) :
    (s.tjrn 5 f w v).fixed =
      { s.fixed with ground := { s.fixed.ground with tenant := sputD 0 (f * 8 + w) (BitVec.ofNat 64 v) s.fixed.ground.tenant } } := by
  obtain ⟨u, n, hfix, e⟩ := tjrn_tenant_cases s f w v
  have hidle : u.underRebuild 5 f = false := by
    have : u.ecc.rebuilds = [] := (congrArg (·.ground.rebuilds) hfix).trans hr
    simp [State.underRebuild, this]
  simp [e, hidle, fixed_applyWord_tenant, hfix]

theorem shares_tjrn_tenant (s : State) (f w v : Nat) : (s.tjrn 5 f w v).fixed.shares = s.fixed.shares := by
  obtain ⟨u, n, hfix, e⟩ := tjrn_tenant_cases s f w v
  rw [e, ← hfix]
  split
  · rfl
  · rw [fixed_applyWord_tenant]

/-! ### Shares -/

theorem share_eq_of_fixed {s t : State} (h : t.fixed.shares = s.fixed.shares) {a : Nat} (ha : a < 4097) : share t a = share s a := by
  have : t.reg (R.BPM_SHARE + 4 * a) = s.reg (R.BPM_SHARE + 4 * a) := congrFun h ⟨a, ha⟩
  exact congrArg (fun w : Word => (w.toNat >>> 0) % 2 ^ 22) this

theorem tenWord_eq_of_ground {s t : State} (h : t.fixed.ground = s.fixed.ground) (f w : Nat) : t.tenWord f w = s.tenWord f w :=
  congrArg (fun g : Ground => (sgetD 0 (f * 8 + w) g.tenant).toNat) h

theorem tenants_eq_of_ground {s t : State} (h : t.fixed.ground = s.fixed.ground) : t.tenants = s.tenants := by
  have ht : t.zyn.tab.tenant = s.zyn.tab.tenant := congrArg (·.tenant) h
  simp [State.tenants, ht]

theorem tenWord_tjrn_same {s : State} (hr : s.ecc.rebuilds = []) (f w : Nat) {v : Nat} (hv : v < 2 ^ 64) : (s.tjrn 5 f w v).tenWord f w = v := by
  have h : (s.tjrn 5 f w v).zyn.tab.tenant = sputD 0 (f * 8 + w) (BitVec.ofNat 64 v) s.zyn.tab.tenant :=
    congrArg (·.ground.tenant) (fixed_tjrn_tenant hr f w v)
  simpa [State.tenWord, h] using hv

theorem tenWord_tjrn_ne {s : State} (hr : s.ecc.rebuilds = []) {f g w : Nat} (hfg : g ≠ f) (v : Nat) : (s.tjrn 5 f w v).tenWord g w = s.tenWord g w := by
  have h : (s.tjrn 5 f w v).zyn.tab.tenant = sputD 0 (f * 8 + w) (BitVec.ofNat 64 v) s.zyn.tab.tenant :=
    congrArg (·.ground.tenant) (fixed_tjrn_tenant hr f w v)
  have hk : g * 8 + w ≠ f * 8 + w := by omega
  simp [State.tenWord, h, sgetD_sputD_ne hk]

/-- The share of an account is journaled in the records of a list of functions (R192). -/
def State.shareJournal (s : State) (a : Nat) (l : List Nat) : State := s.each l fun s f => s.tjrn 5 f 1 (share s a)

theorem share_lt (s : State) (a : Nat) : share s a < 2 ^ 22 := Nat.mod_lt _ (Nat.two_pow_pos _)

theorem shares_shareJournal (a : Nat) (l : List Nat) (s : State) : (s.shareJournal a l).fixed.shares = s.fixed.shares := by
  induction l generalizing s with
  | nil => rfl
  | cons g l ih => exact (ih _).trans (shares_tjrn_tenant s g 1 _)

/-- With no rebuild under way the records of the list hold the share, and the others keep theirs. -/
theorem tenWord_shareJournal {a : Nat} (ha : a < 4097) (l : List Nat) {s : State} (hr : s.ecc.rebuilds = []) (f : Nat) :
    (s.shareJournal a l).tenWord f 1 = if f ∈ l then share s a else s.tenWord f 1 := by
  induction l generalizing s with
  | nil => rfl
  | cons g l ih =>
    have hreb : (s.tjrn 5 g 1 (share s a)).ecc.rebuilds = [] := (congrArg (·.ground.rebuilds) (fixed_tjrn_tenant hr g 1 _)).trans hr
    refine (ih hreb).trans ?_
    rw [share_eq_of_fixed (shares_tjrn_tenant s g 1 _) ha]
    by_cases hl : f ∈ l
    · simp [hl]
    · by_cases hfg : f = g
      · subst hfg
        simp [hl, tenWord_tjrn_same hr f 1 (Nat.lt_trans (share_lt s a) (by decide))]
      · simp [hl, hfg, tenWord_tjrn_ne hr hfg]

end Sys2Proof.Machine
end

section
/-! SUPPORT. What a register write stores (R4, R6, R7), and what a share write stores (R192). -/
namespace Sys2Proof.Machine

/-! ### What a write stores (R4, R6, R7) -/

/-- The bits of a register that a write sets: rw, and rwl while unlocked (R4, R6). -/
def RegDef.writable (d : RegDef) (locked : Bool) : Nat := d.rw ||| (if locked then 0 else d.rwl)

/-- The word that a write leaves in a register of a row (R4). -/
def RegDef.stored (d : RegDef) (locked : Bool) (old v : Word) : Word :=
  ((old &&& ~~~(BitVec.ofNat 32 (d.writable locked))) ||| (v &&& BitVec.ofNat 32 (d.writable locked))) &&& ~~~(v &&& BitVec.ofNat 32 d.w1c)

theorem RegDef.writable_testBit (d : RegDef) (locked : Bool) (j : Nat) :
    (d.writable locked).testBit j = (d.rw.testBit j || (!locked && d.rwl.testBit j)) := by
  cases locked <;> simp [RegDef.writable]

/-- A bit of the word: cleared, taken from the value, or kept. -/
theorem RegDef.stored_getLsbD (d : RegDef) (locked : Bool) (old v : Word) {j : Nat} (hj : j < 32) :
    (d.stored locked old v).getLsbD j =
      (if d.w1c.testBit j && v.getLsbD j then false else if d.rw.testBit j || (!locked && d.rwl.testBit j) then v.getLsbD j else old.getLsbD j) := by
  simp only [RegDef.stored, BitVec.getLsbD_and, BitVec.getLsbD_or, BitVec.getLsbD_not, BitVec.getLsbD_ofNat, hj, decide_true, Bool.true_and,
    ← RegDef.writable_testBit]
  generalize v.getLsbD j = x, old.getLsbD j = y, (d.writable locked).testBit j = m, d.w1c.testBit j = c
  revert x y m c
  decide

theorem when_eq_or (s : State) (c : Bool) (f : State → State) : s.when c f = s ∨ s.when c f = f s := by cases c <;> simp [State.when]

/-- A write stores the word and, where it sets a LOCK bit, extends measurement 6 (R4, R494). -/
theorem storeReg_cases {off i : Nat} {d : RegDef} (h : findReg off = some (d, i)) (s : State) (v : Word) :
    s.storeReg off v = s.setReg off (d.stored (s.locked off) (s.reg off) v) ∨
      ∃ b, s.storeReg off v = (s.setReg off (d.stored (s.locked off) (s.reg off) v)).extendM6 b := by
  unfold State.storeReg
  rw [h]
  dsimp only
  cases lockBase off with
  | none => exact .inl rfl
  | some b => exact (when_eq_or _ _ _).imp id fun e => ⟨b, e⟩

theorem storeReg_reg {off i : Nat} {d : RegDef} (h : findReg off = some (d, i)) (s : State) (v : Word) (r : Nat) :
    (s.storeReg off v).reg r = if r = off then d.stored (s.locked off) (s.reg off) v else s.reg r := by
  have hreg : (s.storeReg off v).reg r = (s.setReg off (d.stored (s.locked off) (s.reg off) v)).reg r := by
    obtain e | ⟨b, e⟩ := storeReg_cases h s v <;> rw [e]
    rfl
  rw [hreg]
  split
  case isTrue hr => subst hr; exact reg_setReg_self ..
  case isFalse hr => exact reg_setReg_ne hr _

/-- A write changes registers and measurement 6 alone. -/
theorem storeReg_frame {off i : Nat} {d : RegDef} (h : findReg off = some (d, i)) (s : State) (v : Word) :
    s.storeReg off v = { s with regs := (s.storeReg off v).regs, sec := { s.sec with m6 := (s.storeReg off v).sec.m6 } } := by
  obtain e | ⟨b, e⟩ := storeReg_cases h s v <;> rw [e] <;> rfl

/-! ### BPM_SHARE (R192) -/

/-- The row of BPM_SHARE. -/
def shareDef : RegDef := { off := 0x10000, stride := 4, count := 4097, rw := 0x3FFFFF, exc := [(0, 0x200000), (2048, 0x200000), (4096, 0x200000)] }

theorem findReg_share {a : Nat} (ha : a < 4097) : findReg (R.BPM_SHARE + 4 * a) = some (shareDef, a) := by
  have hblk : blockRegs (R.BPM_SHARE + 4 * a) = (regsBPM, 0x10000 + 4 * a) := by
    have h1 : (R.BPM_SHARE + 4 * a) / 0x100000 = 5 := by simp only [R.BPM_SHARE]; omega
    have h2 : (R.BPM_SHARE + 4 * a) % 0x100000 = 0x10000 + 4 * a := by simp only [R.BPM_SHARE]; omega
    simp only [blockRegs, h1, h2]
  have hlow (k : Nat) (hk : k ≤ 20) : ¬ 0x10000 + 4 * a - k < 4 := by omega
  have hlow0 : ¬ 0x10000 + 4 * a < 4 := hlow 0 (by decide)
  simp [findReg, hblk, regsBPM, shareDef, hlow0, hlow, ha]

theorem share_storeReg {a : Nat} (ha : a < 4097) (s : State) (v : Word) : share (s.storeReg (R.BPM_SHARE + 4 * a) v) a = v.toNat % 2 ^ 22 := by
  apply Nat.eq_of_testBit_eq
  intro j
  have hoff : (F.BPM_SHARE.SHARE.ix a).off = R.BPM_SHARE + 4 * a := rfl
  have hlo : (F.BPM_SHARE.SHARE.ix a).lo = 0 := rfl
  have hw : (F.BPM_SHARE.SHARE.ix a).width = 22 := rfl
  rw [share, fld_testBit, hoff, storeReg_reg (findReg_share ha), if_pos rfl, hlo, hw, Nat.zero_add, Nat.testBit_mod_two_pow]
  by_cases hj : j < 22
  · have hmask : (0x3FFFFF : Nat).testBit j = true := by
      have : (0x3FFFFF : Nat) = 2 ^ 22 - 1 := rfl
      rw [this, Nat.testBit_two_pow_sub_one]; simpa using hj
    rw [RegDef.stored_getLsbD _ _ _ _ (by omega)]
    simp [shareDef, hmask, hj, BitVec.testBit_toNat]
  · simp [hj]

theorem ground_storeReg {off i : Nat} {d : RegDef} (h : findReg off = some (d, i)) (ho : off ≠ R.GLB_ERR) (s : State) (v : Word) :
    (s.storeReg off v).fixed.ground = s.fixed.ground := by
  have hr := storeReg_reg h s v R.GLB_ERR
  rw [if_neg (Ne.symm ho)] at hr
  obtain e | ⟨b, e⟩ := storeReg_cases h s v <;> rw [e] at hr ⊢ <;> simp only [State.fixed, hr] <;> rfl

/-- A share write stores the share, journals it in the records of the account's functions, and brings the warnings up to date (R192, R193). -/
theorem shareWrite_eq (s : State) (a : Nat) (v : Word) :
    let t := s.storeReg (R.BPM_SHARE + 4 * a) v
    s.shareWrite a v = (t.shareJournal a (t.tenants.filter fun f => t.tenAccount f == a)).bpmEval a := by rfl

theorem share_shareWrite {a : Nat} (ha : a < 4097) (s : State) (v : Word) : share (s.shareWrite a v) a = v.toNat % 2 ^ 22 := by
  rw [shareWrite_eq, ← share_storeReg ha s v]
  exact share_eq_of_fixed (by rw [fixed_bpmEval, shares_shareJournal]) ha

theorem tenWord_shareWrite {a : Nat} (ha : a < 4097) {s : State} (hr : s.ecc.rebuilds = []) (v : Word) {f : Nat} (hf : f ∈ s.tenants)
    (hfa : s.tenAccount f = a) : (s.shareWrite a v).tenWord f 1 = v.toNat % 2 ^ 22 := by
  have hg : (s.storeReg (R.BPM_SHARE + 4 * a) v).fixed.ground = s.fixed.ground :=
    ground_storeReg (findReg_share ha) (by simp only [R.BPM_SHARE, R.GLB_ERR]; omega) s v
  have hr' : (s.storeReg (R.BPM_SHARE + 4 * a) v).ecc.rebuilds = [] := (congrArg (·.rebuilds) hg).trans hr
  have hacc : (s.storeReg (R.BPM_SHARE + 4 * a) v).tenAccount f = a := by rw [State.tenAccount, tenWord_eq_of_ground hg]; exact hfa
  rw [shareWrite_eq, tenWord_eq_of_ground (congrArg (·.ground) (fixed_bpmEval _ a)), tenWord_shareJournal ha _ hr', share_storeReg ha, tenants_eq_of_ground hg,
    if_pos (by simp [hf, hacc])]

end Sys2Proof.Machine
end

section
/-! SUPPORT. Accesses of one DW and of too many, and the error bits they record (R488). -/
namespace Sys2Proof.Machine

theorem exec_registerWrite (pf : Bool) (off : BitVec 26) (words : List Word) (be : Bool) (s : State) :
    exec (.registerWrite pf off words be) s = .next (s.writeRegs pf (dwOff off) words be) := by rfl
theorem exec_readClear (pf : Bool) (off : BitVec 26) (n : BitVec 10) (s : State) :
    exec (.readClear pf off n) s = .next (s.readRegs pf (dwOff off) n.toNat) := by rfl
theorem exec_loLatchRead (pf : Bool) (off : BitVec 26) (n : BitVec 10) (s : State) :
    exec (.loLatchRead pf off n) s = .next (s.readRegs pf (dwOff off) n.toNat) := by rfl
theorem exec_bpmShareWrite (a : BitVec 13) (v : Word) (s : State) : exec (.bpmShareWrite a v) s = execBpmShareWrite a v s := by rfl

/-! ### Accesses -/

theorem dwOff_lt (off : BitVec 26) : dwOff off < 2 ^ 26 := by
  have := off.isLt; unfold dwOff; omega

theorem l1Exit_frame (s : State) (f : Nat) : s.l1Exit f =
    { s with host := { s.host with l1Port0 := (s.l1Exit f).host.l1Port0, l1Port1 := (s.l1Exit f).host.l1Port1 } } := by
  unfold State.l1Exit; split <;> rfl

@[simp] theorem l1Exit_reg (s : State) (f r : Nat) : (s.l1Exit f).reg r = s.reg r := by rw [l1Exit_frame]; rfl
@[simp] theorem l1Exit_dom (s : State) (f d : Nat) : (s.l1Exit f).dom d = s.dom d := by rw [l1Exit_frame]; rfl
@[simp] theorem l1Exit_out (s : State) (f : Nat) : (s.l1Exit f).out = s.out := by rw [l1Exit_frame]
@[simp] theorem l1Exit_locked (s : State) (f r : Nat) : (s.l1Exit f).locked r = s.locked r := by rw [l1Exit_frame]; rfl
@[simp] theorem accessOf_l1Exit (s : State) (f off : Nat) : accessOf (s.l1Exit f) off = accessOf s off := by rw [l1Exit_frame]; rfl

theorem regWake_of_awake {s : State} {off : Nat} (h : ∀ k, regDomain off = some k → s.dom k < 2) : s.regWake off = s := by
  unfold State.regWake
  cases hd : regDomain off with
  | none => rfl
  | some d => exact if_neg (by have := h d hd; omega)

/-- PF of a port that is there (R142). -/
theorem port_present {s : State} {pf : Bool} (h : pf = false ∨ s.x4x4 = true) : (pf && !s.x4x4) = false := by
  cases h <;> simp [*]

/-- A write of one DW. -/
theorem writeRegs_one {s : State} {pf : Bool} (h : pf = false ∨ s.x4x4 = true) (off : Nat) (v : Word) :
    s.writeRegs pf off [v] true = ((s.l1Exit (if pf then 2048 else 0)).writeDw pf off v false).1 := by
  simp [State.writeRegs, port_present h]

/-- A write of more than two DWs, or with a byte enable clear, is an error and nothing else (R488). -/
theorem writeRegs_badWidth {s : State} {pf be : Bool} {words : List Word} (h : pf = false ∨ s.x4x4 = true)
    (hw : 2 < words.length ∨ (words ≠ [] ∧ be = false)) (off : Nat) :
    s.writeRegs pf off words be = (s.l1Exit (if pf then 2048 else 0)).accessError pf F.GLB_ERR.BAD_WIDTH off true := by
  have hne : words ≠ [] := by rintro rfl; simp at hw
  have hbad : (decide (2 < words.length) || !be) = true := by rcases hw with h | ⟨-, h⟩ <;> simp [h]
  simp [State.writeRegs, port_present h, hne, hbad]

/-- A read of one DW. -/
theorem readRegs_one {s : State} {pf : Bool} (h : pf = false ∨ s.x4x4 = true) (off : Nat) :
    s.readRegs pf off 1 = ((s.l1Exit (if pf then 2048 else 0)).readDw pf off false).1 := by
  simp [State.readRegs, port_present h, State.when, State.each]

theorem writeRegs_absentPort {s : State} {pf : Bool} (h : pf = true) (hx : s.x4x4 = false) (off : Nat) (words : List Word) (be : Bool) :
    s.writeRegs pf off words be = s := by
  simp [State.writeRegs, h, hx]

/-! ### Access errors (R488) -/

theorem accessError_reg_ne {f : Field} (hf : f.off = R.GLB_ERR) {r : Nat} (h1 : r ≠ R.GLB_ERR) (h2 : r ≠ R.GLB_ERR_ADDR) (s : State) (pf : Bool)
    (off : Nat) (first : Bool) : (s.accessError pf f off first).reg r = s.reg r := by
  have hraise : (s.raise f).reg r = s.reg r := reg_setReg_ne (by rw [hf]; exact h1) _
  cases first
  · exact hraise
  · exact (reg_setReg_ne h2 _).trans ((reg_setReg_ne h2 _).trans hraise)

theorem accessError_fld_self {f : Field} (hf : f.off = R.GLB_ERR) (hlo : f.lo < 32) (hw : f.width = 1) (s : State) (pf : Bool) (off : Nat) (first : Bool) :
    (s.accessError pf f off first).fld f = 1 := by
  have hraise : (s.raise f).fld f = 1 := fld_setFld_self s (by omega) (by simp [hw])
  have hne (g : Field) (hg : g.off = R.GLB_ERR_ADDR) : f.off ≠ g.off := by rw [hf, hg]; decide
  cases first
  · exact hraise
  · exact (fld_setFld_off (hne _ rfl) _ _).trans ((fld_setFld_off (hne _ rfl) _ _).trans hraise)

theorem accessError_offset {off : Nat} (ho : off < 2 ^ 26) (s : State) (pf : Bool) (f : Field) :
    (s.accessError pf f off true).fld F.GLB_ERR_ADDR.OFFSET = off := by
  have hfirst : s.accessError pf f off true = ((s.raise f).setFld F.GLB_ERR_ADDR.OFFSET off).setFld F.GLB_ERR_ADDR.PF (if pf then 1 else 0) := rfl
  have hd : F.GLB_ERR_ADDR.OFFSET.lo + F.GLB_ERR_ADDR.OFFSET.width ≤ F.GLB_ERR_ADDR.PF.lo := by decide
  rw [hfirst, fld_setFld_disjoint (f := F.GLB_ERR_ADDR.PF) (g := F.GLB_ERR_ADDR.OFFSET) rfl (.inl hd) (by decide), fld_setFld_self _ (by decide)]
  simpa [F.GLB_ERR_ADDR.OFFSET] using ho

@[simp] theorem accessError_out (s : State) (pf : Bool) (f : Field) (off : Nat) (first : Bool) : (s.accessError pf f off first).out = s.out := by
  cases first <;> rfl

/-- BAD_WIDTH is recorded. -/
def State.badWidth (s : State) : Prop := s.fld F.GLB_ERR.BAD_WIDTH = 1

theorem badWidth_of_ground {s t : State} (h : t.fixed.ground = s.fixed.ground) (hs : s.badWidth) : t.badWidth := by
  have hreg : t.reg R.GLB_ERR = s.reg R.GLB_ERR := congrArg (·.glbErr) h
  exact (congrArg (fun w : Word => (w.toNat >>> 0) % 2 ^ 1) hreg).trans hs

theorem badWidth_accessError_self (s : State) (pf : Bool) (off : Nat) (first : Bool) :
    (s.accessError pf F.GLB_ERR.BAD_WIDTH off first).badWidth := accessError_fld_self rfl (by decide) rfl ..

/-- Another error bit leaves BAD_WIDTH as it is. -/
theorem badWidth_accessError {s : State} (h : s.badWidth) {f : Field} (hf : f.off = R.GLB_ERR) (hlo : 1 ≤ f.lo) (pf : Bool) (off : Nat) (first : Bool) :
    (s.accessError pf f off first).badWidth := by
  have hraise : (s.raise f).badWidth := (fld_setFld_disjoint (g := F.GLB_ERR.BAD_WIDTH) (f := f) hf.symm (.inl hlo) (by decide) s 1).trans h
  cases first
  · exact hraise
  · exact (fld_setFld_off (by decide) _ _).trans ((fld_setFld_off (by decide) _ _).trans hraise)

/-- A reading that clears changes no error bit: GLB_ERR has no rc field. -/
theorem badWidth_readClear {s : State} (h : s.badWidth) (off : Nat) : (s.readClear off).badWidth := by
  by_cases ho : off = R.GLB_ERR
  · subst ho; exact h
  · unfold State.readClear
    split
    · exact badWidth_of_ground (ground_setReg (by decide) s _) h
    · split
      · split
        · exact h
        · exact badWidth_of_ground (ground_setReg ho s _) h
      · exact h

theorem badWidth_readDw {s : State} (h : s.badWidth) (pf : Bool) (off : Nat) (seen : Bool) : (s.readDw pf off seen).1.badWidth := by
  have hmapped (t : State) (ht : t.badWidth) (c : Bool) (g : State → HostIf) (o : Out) :
      (((t.when c fun u => { u with host := g u }).readClear off).emit o).badWidth := by
    refine badWidth_readClear ?_ off
    cases c <;> exact ht
  unfold State.readDw
  split
  · exact badWidth_accessError h rfl (by decide) ..
  · exact badWidth_accessError h rfl (by decide) ..
  · exact h
  · exact hmapped _ (badWidth_of_ground (ground_regWake s off) h) ..

theorem badWidth_emit {s : State} (h : s.badWidth) (o : Out) : (s.emit o).badWidth := badWidth_of_ground (by rw [fixed_emit]) h

/-- The first 16 DWs of a wide read, and the zeros past them (R488). -/
def State.readWide (s : State) (pf : Bool) (off n : Nat) : State :=
  (((List.range (min n 16)).foldl (fun (acc : State × Bool) i => acc.1.readDw pf (off + 4 * i) acc.2) (s, true)).1).each (List.range (n - 16))
    fun s i => s.emit (.reg pf (off + 4 * (16 + i)) 0)

theorem readRegs_wide {s : State} {pf : Bool} (h : pf = false ∨ s.x4x4 = true) {n : Nat} (hn : 16 < n) (off : Nat) :
    s.readRegs pf off n = ((s.l1Exit (if pf then 2048 else 0)).accessError pf F.GLB_ERR.BAD_WIDTH off true).readWide pf off n := by
  simp only [State.readRegs, port_present h, hn, decide_true, State.when, State.readWide, Bool.false_eq_true, if_false, if_true]

theorem badWidth_readWide {s : State} (h : s.badWidth) (pf : Bool) (off n : Nat) : (s.readWide pf off n).badWidth := by
  have hdws : ((List.range (min n 16)).foldl (fun (acc : State × Bool) i => acc.1.readDw pf (off + 4 * i) acc.2) (s, true)).1.badWidth :=
    List.foldlRecOn (motive := fun a : State × Bool => a.1.badWidth) _ _ h fun _ ha _ _ => badWidth_readDw ha ..
  exact List.foldlRecOn (motive := State.badWidth) _ _ hdws fun _ ht _ _ => badWidth_emit ht _

/-- A read of more than 16 DWs leaves BAD_WIDTH recorded (R488). -/
theorem badWidth_readRegs {s : State} {pf : Bool} (h : pf = false ∨ s.x4x4 = true) {n : Nat} (hn : 16 < n) (off : Nat) : (s.readRegs pf off n).badWidth := by
  rw [readRegs_wide h hn]
  exact badWidth_readWide (badWidth_accessError_self ..) ..

end Sys2Proof.Machine
end

section
/-! SUPPORT. Register accesses and share writes: what they leave (R4, R192, R433, R488). -/
namespace Sys2Proof.Machine

/-! ### Control and event registers -/

/-- Control and event registers whose write has no action of its own (R4). -/
def plainRegs : List Nat := [R.CMD_FETCH_CTRL, R.TEN_CTRL, R.BPM_CTRL, R.PAU_CTRL, R.MAP_CTRL, R.ZYN_CTRL, R.MED_CTRL, R.JNL_CTRL, R.ECC_CTRL, R.DMC_CTRL,
  R.SEC_CTRL, R.PMU_CTRL, R.TST_CTRL, R.TT_EVT, R.HIU_EVT, R.BPM_EVT, R.MAP_EVT, R.MED_EVT, R.JNL_EVT, R.ECC_EVT, R.DMC_EVT, R.SEC_EVT, R.PMU_EVT, R.TMU_EVT,
  R.GLB_ERR]

theorem regWrite_of_plain {off : Nat} (h : off ∈ plainRegs) (s : State) (v : Word) (pf : Bool) : s.regWrite off v pf = s.storeReg off v := by
  simp only [plainRegs, List.mem_cons, List.not_mem_nil, or_false] at h
  rcases h with rfl | rfl | rfl | rfl | rfl | rfl | rfl | rfl | rfl | rfl | rfl | rfl |
    rfl | rfl | rfl | rfl | rfl | rfl | rfl | rfl | rfl | rfl | rfl | rfl | rfl <;> rfl

/-- A write of a plain register of an awake block stores its word. -/
theorem writeRegs_plain {s : State} {pf : Bool} {off : Nat} (h : pf = false ∨ s.x4x4 = true) (hp : off ∈ plainRegs) (hm : accessOf s off = .mapped)
    (ha : ∀ k, regDomain off = some k → s.dom k < 2) (v : Word) :
    s.writeRegs pf off [v] true = (s.l1Exit (if pf then 2048 else 0)).storeReg off v := by
  have hwake : (s.l1Exit (if pf then 2048 else 0)).regWake off = s.l1Exit (if pf then 2048 else 0) :=
    regWake_of_awake fun k hk => by rw [l1Exit_dom]; exact ha k hk
  simp [writeRegs_one h, State.writeDw, hm, hwake, regWrite_of_plain hp]

theorem storeReg_l1Exit_frame {off i : Nat} {d : RegDef} (h : findReg off = some (d, i)) (s : State) (f : Nat) (v : Word) :
    let t := (s.l1Exit f).storeReg off v
    t = { s with regs := t.regs, host := { s.host with l1Port0 := t.host.l1Port0, l1Port1 := t.host.l1Port1 }, sec := { s.sec with m6 := t.sec.m6 } } := by
  intro t
  have hs : t = _ := storeReg_frame h (s.l1Exit f) v
  have hhost : t.host = (s.l1Exit f).host := congrArg (·.host) hs
  have hsec : (s.l1Exit f).sec = s.sec := congrArg (·.sec) (l1Exit_frame s f)
  rw [hhost]
  refine hs.trans ?_
  rw [hsec]
  generalize t.regs = regs, t.sec.m6 = m6
  rw [l1Exit_frame s f]

/-! ### Refused accesses (R433, R488) -/

theorem writeRegs_unmapped {s : State} {pf : Bool} {off : Nat} (h : pf = false ∨ s.x4x4 = true) (hu : accessOf s off = .unmapped) (v : Word) :
    s.writeRegs pf off [v] true = (s.l1Exit (if pf then 2048 else 0)).accessError pf F.GLB_ERR.UNMAPPED off true := by
  simp [writeRegs_one h, State.writeDw, hu]

theorem writeRegs_notLoaded {s : State} {pf : Bool} {off : Nat} (h : pf = false ∨ s.x4x4 = true) (hu : accessOf s off = .notLoaded) (v : Word) :
    s.writeRegs pf off [v] true = (s.l1Exit (if pf then 2048 else 0)).accessError pf F.GLB_ERR.NOT_LOADED off true := by
  simp [writeRegs_one h, State.writeDw, hu]

theorem readRegs_unmapped {s : State} {pf : Bool} {off : Nat} (h : pf = false ∨ s.x4x4 = true) (hu : accessOf s off = .unmapped) :
    s.readRegs pf off 1 = ((s.l1Exit (if pf then 2048 else 0)).accessError pf F.GLB_ERR.UNMAPPED off true).emit (.reg pf off 0) := by
  simp [readRegs_one h, State.readDw, hu]

theorem readRegs_notLoaded {s : State} {pf : Bool} {off : Nat} (h : pf = false ∨ s.x4x4 = true) (hu : accessOf s off = .notLoaded) :
    s.readRegs pf off 1 = ((s.l1Exit (if pf then 2048 else 0)).accessError pf F.GLB_ERR.NOT_LOADED off true).emit (.reg pf off 0) := by
  simp [readRegs_one h, State.readDw, hu]

/-- The error bit, the offset, and every register but the two of the errors, after an access error. -/
theorem accessError_writeRecord {f : Field} (hf : f.off = R.GLB_ERR) (hlo : f.lo < 32) (hw : f.width = 1) {off : Nat} (ho : off < 2 ^ 26)
    (s : State) (pf : Bool) (p : Nat) :
    ((s.l1Exit p).accessError pf f off true).fld f = 1 ∧ ((s.l1Exit p).accessError pf f off true).fld F.GLB_ERR_ADDR.OFFSET = off ∧
      ∀ r, r ≠ R.GLB_ERR → r ≠ R.GLB_ERR_ADDR → ((s.l1Exit p).accessError pf f off true).reg r = s.reg r :=
  ⟨accessError_fld_self hf hlo hw .., accessError_offset ho .., fun r h1 h2 => (accessError_reg_ne hf h1 h2 ..).trans (l1Exit_reg s p r)⟩

/-- The error bit and the zero that is read, after an access error of a read. -/
theorem accessError_readRecord {f : Field} (hf : f.off = R.GLB_ERR) (hlo : f.lo < 32) (hw : f.width = 1) (s : State) (pf : Bool) (off p : Nat) :
    (((s.l1Exit p).accessError pf f off true).emit (.reg pf off 0)).fld f = 1 ∧
      (((s.l1Exit p).accessError pf f off true).emit (.reg pf off 0)).out = .reg pf off 0 :: s.out :=
  ⟨accessError_fld_self hf hlo hw .., by simp [State.emit]⟩

/-! ### BPM_SHARE_WRITE (R192) -/

theorem execBpmShareWrite_eq (a : BitVec 13) (v : Word) (s : State) : execBpmShareWrite a v s =
    if a.toNat ≤ 4096 then .next ((s.regWake (R.BPM_SHARE + 4 * a.toNat)).shareWrite a.toNat v) else .fault .noSuchUnit := by rfl

/-- The share, and with no rebuild under way the records of the account's functions, after a share write. -/
theorem share_regWake_shareWrite {a : Nat} (ha : a ≤ 4096) (s : State) (v : Word) :
    let t := (s.regWake (R.BPM_SHARE + 4 * a)).shareWrite a v
    t.fld (F.BPM_SHARE.SHARE.ix a) = v.toNat % 2 ^ 22 ∧
      (s.ecc.rebuilds = [] → ∀ f ∈ s.tenants, s.tenAccount f = a → t.tenWord f 1 = v.toNat % 2 ^ 22) := by
  have hlt : a < 4097 := by omega
  have hg := ground_regWake s (R.BPM_SHARE + 4 * a)
  refine ⟨share_shareWrite hlt .., fun hr f hf hfa => tenWord_shareWrite hlt ((congrArg (·.rebuilds) hg).trans hr) v ?_ ?_⟩
  · rwa [tenants_eq_of_ground hg]
  · rwa [State.tenAccount, tenWord_eq_of_ground hg]

end Sys2Proof.Machine

open Sys2Proof Sys2Proof.Machine in
/-- Settles O12: a one-DW write of a plain register is `storeReg`, whose bits `RegDef.stored_getLsbD` gives; a bad access is one `accessError`; a share write
is carried through the records by `tenWord_shareWrite`. -/
theorem registerWritesAndAccessErrors : Obligations.RegisterWritesAndAccessErrors := by
  intro s pf be off v words n a d i o plain awake
  refine ⟨fun hport => ⟨fun hplain hd hm ha => ?_, fun hbad => ?_, fun hn => ?_, fun hu => ⟨?_, ?_⟩, fun hu => ⟨?_, ?_⟩⟩, fun hpf hx => ?_,
    fun hle => ?_, fun hgt => ?_⟩
  · refine ⟨_, (exec_registerWrite ..).trans (congrArg Host.Outcome.next (writeRegs_plain hport hplain hm ha v)),
      fun j hj => ?_, fun r hr => ?_, ?_⟩
    · rw [storeReg_reg hd, if_pos rfl, RegDef.stored_getLsbD _ _ _ _ hj, l1Exit_reg, l1Exit_locked]
    · rw [storeReg_reg hd, if_neg hr, l1Exit_reg]
    · exact storeReg_l1Exit_frame hd s _ v
  · exact ⟨_, (exec_registerWrite ..).trans (congrArg Host.Outcome.next (writeRegs_badWidth hport hbad _)),
      accessError_writeRecord rfl (by decide) rfl (dwOff_lt off) s pf _⟩
  · exact ⟨_, exec_readClear .., badWidth_readRegs hport hn _⟩
  · exact ⟨_, (exec_registerWrite ..).trans (congrArg Host.Outcome.next (writeRegs_unmapped hport hu v)),
      accessError_writeRecord rfl (by decide) rfl (dwOff_lt off) s pf _⟩
  · exact ⟨_, (exec_readClear ..).trans (congrArg Host.Outcome.next (readRegs_unmapped hport hu)), accessError_readRecord rfl (by decide) rfl s pf o _⟩
  · obtain ⟨hbit, -, hregs⟩ := accessError_writeRecord (f := F.GLB_ERR.NOT_LOADED) rfl (by decide) rfl (dwOff_lt off) s pf (if pf then 2048 else 0)
    exact ⟨_, (exec_registerWrite ..).trans (congrArg Host.Outcome.next (writeRegs_notLoaded hport hu v)), hbit, hregs⟩
  · exact ⟨_, (exec_loLatchRead ..).trans (congrArg Host.Outcome.next (readRegs_notLoaded hport hu)), accessError_readRecord rfl (by decide) rfl s pf o _⟩
  · rw [exec_registerWrite, writeRegs_absentPort hpf hx]
  · exact ⟨_, (exec_bpmShareWrite ..).trans ((execBpmShareWrite_eq ..).trans (if_pos hle)), share_regWake_shareWrite hle s v⟩
  · rw [exec_bpmShareWrite, execBpmShareWrite_eq, if_neg (by omega)]
end

section
/-! SUPPORT. What a command answers: it completes, or it is the fault for a unit that the device does not have (R11, R70, R256). -/
namespace Sys2Proof.Machine

/-! ### The answer of a command, and how it goes through checks and cases -/

/-- The command completes. -/
def Completes (r : Res) : Prop := ∃ t, r = .next t

/-- The answer of a command whose units are there or not: it completes, or it is the model's fault for an absent unit (assumption 2). -/
def AnswersFor (there : Bool) (r : Res) : Prop := (there = true → Completes r) ∧ (there = false → r = .fault .noSuchUnit)

theorem completes_done (s : State) : Completes (done s) := ⟨s, rfl⟩

theorem Completes.answers {r : Res} (h : Completes r) : AnswersFor true r := ⟨fun _ => h, nofun⟩

theorem answers_noUnit : AnswersFor false noUnit := ⟨nofun, fun _ => rfl⟩

/-- A check of the units before anything else. -/
theorem answers_ite {there : Bool} {r : Res} (h : Completes r) : AnswersFor there (if !there then noUnit else r) := by
  cases there
  · exact answers_noUnit
  · exact h.answers

/-- The same check of a number below a bound. -/
theorem answers_of_lt {k n : Nat} {r : Res} (h : Completes r) : AnswersFor (decide (k < n)) (if n ≤ k then noUnit else r) := by
  by_cases hk : k < n
  · simpa [hk, Nat.not_le.2 hk] using h.answers
  · simp [hk, Nat.not_lt.1 hk, AnswersFor, noUnit]

/-- Every instruction that issues: its context is there or not (R70). -/
theorem issue_answers (s : State) (i : CtxId) (cost words : Nat) (prof : EngClass → Bool) (k : Ctx → State → State) :
    AnswersFor i.valid (s.issue i cost words prof k) := by
  refine answers_ite ?_
  dsimp only
  repeat' split
  all_goals exact completes_done _

/-- The units that a command names are there: those of `Instr.wellFormed`, and the die of the commands of one die (R256). -/
def State.unitsThere (s : State) (i : Instr) : Bool :=
  match i with
  | .nandOperationComplete d _ | .readyTimeout d | .readPreemptSuspend d | .suspendResume d => s.populated d.toNat
  | _ => i.wellFormed

/-! ### Instructions of a context: each shape is one use of `State.issue` -/

theorem alu_answers (s : State) (i cost d f) : AnswersFor i.valid (s.alu i cost d f) := by apply issue_answers
theorem predOp_answers (s : State) (i d f) : AnswersFor i.valid (s.predOp i d f) := by apply issue_answers
theorem load_answers (s : State) (i n d a imm) : AnswersFor i.valid (s.load i n d a imm) := by apply issue_answers
theorem store_answers (s : State) (i n d a imm) : AnswersFor i.valid (s.store i n d a imm) := by apply issue_answers
theorem tableInstr_answers (s : State) (i cost prof right write a tbl val op) :
    AnswersFor i.valid (s.tableInstr i cost prof right write a tbl val op) := by
  apply issue_answers
theorem popOrPeek_answers (s : State) (i d h p pop) : AnswersFor i.valid (s.popOrPeek i d h p pop) := by apply issue_answers
theorem rcall_answers (s : State) (i kind d a b ring p) : AnswersFor i.valid (s.rcall i kind d a b ring p) := by apply issue_answers
theorem tagged_answers (s : State) (i prof d crec k) : AnswersFor i.valid (s.tagged i prof d crec k) := by apply issue_answers
theorem untagged_answers (s : State) (i prof crec k) : AnswersFor i.valid (s.untagged i prof crec k) := by apply issue_answers
theorem condBranch_answers (s : State) (i off p want) : AnswersFor i.valid (s.condBranch i off p want) := by apply issue_answers

/-! ### Commands whose checks or cases are not at the front -/

/-- The lockable blocks are the 19 of GLB_LOCK_STATUS (R494). -/
theorem lockList_find_isSome (b : BitVec 5) : (lockList.find? fun (_, _, k) => k == b.toNat).isSome = decide (b.toNat < 19) := by
  revert b; decide

theorem lockWrite_answers (b : BitVec 5) (v : Word) (s : State) : AnswersFor (decide (b.toNat < 19)) (execLockWrite b v s) := by
  rw [← lockList_find_isSome b]
  unfold execLockWrite
  cases lockList.find? fun (_, _, k) => k == b.toNat
  · exact answers_noUnit
  · exact (completes_done _).answers

theorem dramCapture_answers (addr : BitVec 37) (loc : StoreLoc) (poison : Bool) (ctx : Option CtxId) (cmd : Option (BitVec 17)) (second : Bool)
    (s : State) : AnswersFor (ctx.all CtxId.valid) (execDramCapture addr loc poison ctx cmd second s) := by
  unfold execDramCapture
  cases ctx with
  | none =>
    refine answers_ite (there := true) ?_
    repeat' (first | with_reducible exact completes_done _ | extract_lets | split)
  | some i =>
    refine answers_ite (there := i.valid) ?_
    repeat' (first | with_reducible exact completes_done _ | extract_lets | split)

theorem patrolOverdueCheck_completes (s : State) : Completes (execPatrolOverdueCheck s) := by
  unfold execPatrolOverdueCheck
  extract_lets old
  clear_value old
  cases old <;> exact completes_done _

theorem scrub_completes (loc : StoreLoc) (res : EccRes) (pct : BitVec 7) (last : Bool) (s : State) : Completes (execScrub loc res pct last s) := by
  unfold execScrub
  split <;> exact completes_done _

theorem tableRebuildComplete_completes (ok : Bool) (s : State) : Completes (execTableRebuildComplete ok s) := by
  unfold execTableRebuildComplete
  extract_lets head
  clear_value head
  split
  · exact completes_done _
  · split
    extract_lets page newest
    split
    exact completes_done _

/-- Every command completes where its units are there, and is the fault where they are not: a context by `State.issue` or by the command's own
check, a die and the other units by the command's check, and no check in any other command. -/
theorem exec_answers (i : Instr) (s : State) : AnswersFor (s.unitsThere i) (exec i s) := by
  cases i
  case add | sub | and | or | xor | andn | shl | shr | sar | shli | shri | sari | mullo | mulhu | minu | maxu | clz | popc | mov | sel | addi
    | andi | ori | xori | movi | movsh => rw [exec]; exact alu_answers ..
  case cmp | cmpi | pand | por | pxor | pnot | pset | pclr => rw [exec]; exact predOp_answers ..
  case svr | svw | qpush | wev | sev | tnow | ptype | wper | pwait | rcallCommitVote | trap | conf | sqsh | br | brV | call | ret
    | loopn | undefinedInstruction => rw [exec]; exact issue_answers ..
  case ld8 | ld16 | ld32 | ld64 => rw [exec]; exact load_answers ..
  case st8 | st16 | st32 | st64 => rw [exec]; exact store_answers ..
  case tget | tput | tcas | tjrn => rw [exec]; exact tableInstr_answers ..
  case qpop | qpeek => rw [exec]; exact popOrPeek_answers ..
  case rcallBarrier | rcallBroadcast | rcallSnapshot => rw [exec]; exact rcall_answers ..
  case nrd | npg | ner | nsus | nres | xfer | lookup | zoneLock | cqpost | spec => rw [exec]; exact tagged_answers ..
  case rangeLock | rangeUnlock | zoneUnlock => rw [exec]; exact untagged_answers ..
  case brp | brpFalse => rw [exec]; exact condBranch_answers ..
  case coldResetRelease | perstAssert | perstRelease | ccEnSet | bellEdge | ttSrcWrite | ttCtrlEnWrite | ttSetSecWrite | commitRequestService |
    commitDeadline | commitApply | rollCallRelease | rollCallTimeout | activationDispatch | decodeComplete | zoneLockGrant | rangeLockGrant |
    commitPoint | envelopeAdmission | stagingSlotReclaim | pfail | flushProgramAbandon | thermtrip | refresh | mr4Read | rowProtectionMitigation |
    writeBatch | powerDownEntry | selfRefreshEntry | selfRefreshExit | alertN | zqCalibration | dqsOscillatorMeasurement | periodicCast | slotZeroize
    | s3Entry | domainEntry | sinkUpdate | gainUpdate | diodeReading | tmuThreshWrite | summaryWriteComplete | sqTailDoorbell =>
    refine Completes.answers ?_
    rw [exec]
    simp -zeta only [execColdResetRelease, execPerstAssert, execPerstRelease, execCcEnSet, execBellEdge, execTtSrcWrite, execTtCtrlEnWrite,
      execTtSetSecWrite, execCommitRequestService, execCommitDeadline, execCommitApply, execRollCallRelease, execRollCallTimeout,
      execActivationDispatch, execDecodeComplete, execZoneLockGrant, execRangeLockGrant, execCommitPoint, execEnvelopeAdmission,
      execStagingSlotReclaim, execPfail, execFlushProgramAbandon, execThermtrip, execRefresh, execMr4Read, execRowProtectionMitigation,
      execWriteBatch, execPowerDownEntry, execSelfRefreshEntry, execSelfRefreshExit, execAlertN, execZqCalibration, execDqsOscillatorMeasurement,
      execPeriodicCast, execSlotZeroize, execS3Entry, execDomainEntry, execSinkUpdate, execGainUpdate, execDiodeReading, execTmuThreshWrite,
      execSummaryWriteComplete, execSqTailDoorbell]
    repeat' (first | with_reducible exact completes_done _ | extract_lets | split)
  case cqHeadDoorbell | classification | commandTimeout | dmaError | deleteIoSq | deleteIoCq | createIoSq | createIoCq | getLogPage | identify | abort
    | asynchronousEventRequest | flush | mctpEcho | heartbeatSend | peerLoss | hello | lockGrant | writeData | readRequest | bellBeatSend | resyncData
    | idleFrame | replayTimeout | linkRetrainComplete | fenceTimeout | formationTimeout | thCtrlEnWrite | thNsCmdTakeover | marginDone | extestExit |
    ieee1687Access | sramBist | mramBist | pfailRelease | pcieLinkUp | vfEnableSet | aspmL1Entry | interruptAggregationTimeout |
    minimumResidencyElapsed | s4Entry =>
    refine Completes.answers ?_
    rw [exec]
    simp -zeta only [execCqHeadDoorbell, execClassification, execCommandTimeout, execDmaError, execDeleteIoSq, execDeleteIoCq, execCreateIoSq,
      execCreateIoCq, execGetLogPage, execIdentify, execAbort, execAsynchronousEventRequest, execFlush, execMctpEcho, execHeartbeatSend, execPeerLoss,
      execHello, execLockGrant, execWriteData, execReadRequest, execBellBeatSend, execResyncData, execIdleFrame, execReplayTimeout,
      execLinkRetrainComplete, execFenceTimeout, execFormationTimeout, execThCtrlEnWrite, execThNsCmdTakeover, execMarginDone, execExtestExit,
      execIeee1687Access, execSramBist, execMramBist, execPfailRelease, execPcieLinkUp, execVfEnableSet, execAspmL1Entry,
      execInterruptAggregationTimeout, execMinimumResidencyElapsed, execS4Entry]
    repeat' (first | with_reducible exact completes_done _ | extract_lets | split)
  case patrolOverdueCheck => exact (patrolOverdueCheck_completes s).answers
  case scrub loc res pct last => exact (scrub_completes loc res pct last s).answers
  case tableRebuildComplete ok => exact (tableRebuildComplete_completes ok s).answers
  case waitLimit | budgetTrap | tableDataReturn | xferComplete =>
    rw [exec]
    simp -zeta only [execWaitLimit, execBudgetTrap, execTableDataReturn, execXferComplete]
    refine answers_ite ?_
    repeat' (first | with_reducible exact completes_done _ | extract_lets | split)
  case nandOperationComplete | readyTimeout | readPreemptSuspend | suspendResume =>
    rw [exec]
    simp -zeta only [execNandOperationComplete, execReadyTimeout, execReadPreemptSuspend, execSuspendResume]
    refine answers_ite ?_
    repeat' (first | with_reducible exact completes_done _ | extract_lets | split)
  case pmuVoteHostWrite | prbsLock | prbsLockLoss =>
    rw [exec]
    simp -zeta only [execPmuVoteHostWrite, execPrbsLock, execPrbsLockLoss]
    refine answers_of_lt ?_
    repeat' (first | with_reducible exact completes_done _ | extract_lets | split)
  case domainRestore d bad =>
    refine answers_of_lt (k := d.toNat) (n := 14) ?_
    repeat' (first | with_reducible exact completes_done _ | extract_lets | split)
  case bpmShareWrite a v =>
    rw [exec, execBpmShareWrite_eq]
    exact ⟨fun h => ⟨_, if_pos (of_decide_eq_true h)⟩, fun h => if_neg (of_decide_eq_false h)⟩
  case lockWrite b v => exact lockWrite_answers b v s
  case dramCapture addr loc poison ctx cmd second => exact dramCapture_answers addr loc poison ctx cmd second s
  all_goals exact Completes.answers ⟨_, rfl⟩

/-- The commands of one die are never ill-formed, and every other one's units are those of `Instr.wellFormed`. -/
theorem unitsThere_of_not_wellFormed (i : Instr) (s : State) (h : i.wellFormed = false) : s.unitsThere i = false := by
  unfold State.unitsThere
  split
  all_goals first | exact h | exact Bool.noConfusion h

end Sys2Proof.Machine

open Sys2Proof Sys2Proof.Machine in
/-- Settles O9: every command completes where the units that its operands name are there, and is the fault `noSuchUnit` where they are not. -/
theorem commandsStopOnlyOnUnitsThatAreAbsent : Obligations.CommandsStopOnlyOnUnitsThatAreAbsent := by
  intro i s
  obtain ⟨completes, stops⟩ := exec_answers i s
  refine ⟨fun r hr => ?_, fun h => stops (unitsThere_of_not_wellFormed i s h), fun h => ?_⟩
  · cases hu : s.unitsThere i with
    | true => obtain ⟨t, ht⟩ := completes hu; rw [hr] at ht; cases ht
    | false => have hf := stops hu; rw [hr] at hf; cases hf
  · cases i
    case nandOperationComplete | readyTimeout | readPreemptSuspend | suspendResume => exact ⟨stops, completes⟩
    all_goals exact completes h
end

section
/-! SUPPORT. What a run shows of the state it leaves: the tool of the counterexamples. -/
namespace Sys2Proof.Machine

/-- What a command leaves, seen through `f`; none where it does not complete. -/
def observe {α : Type} (f : State → α) : Res → Option α
  | .next t => some (f t)
  | _ => none

/-- A state that a statement promises shows what the model evaluates to. -/
theorem Gives.observed {s : State} {x : Instr} {P : State → Prop} (h : Gives s x P) {α : Type} {f : State → α} {v : α} (hv : observe f (exec x s) = some v) :
    ∃ t, P t ∧ f t = v := by
  obtain ⟨t, ht, hp⟩ := h
  rw [ht] at hv
  exact ⟨t, hp, Option.some.inj hv⟩

end Sys2Proof.Machine
end

section
/-! SUPPORT. An XFER whose tag goes to the register of its source descriptor (R129, R133). -/
namespace Sys2Proof.Machine

/-- The first context of the first Sequencer. -/
def seqCtx : CtxId := ⟨.seq, 0, 0⟩

/-- Zyn runs, and this context is READY with the descriptor of staging slot 0 of channel 0 in W1. -/
def xferState : State :=
  { regs := [(R.ZYN_STATUS, 2)]
    zyn := { bundle := { code2 := [0, 0] }
             ctxs := [(seqCtx.key, { st := .ready, budget := 1, w := (Vector.replicate 32 0).set 1 (2 * 2 ^ 60) })] } }

theorem issues_xferState : Issues xferState seqCtx 2 := by
  refine ⟨by decide, ?_, ?_, ?_, ?_⟩ <;> decide +kernel

/-- XFER W1, W1, W1: the transfer that runs has the tag as its source and its destination. -/
theorem xfers_xferState : observe (fun t => (t.ctx seqCtx).xfers) (exec (.xfer seqCtx 1 1 1 0 false 0xFFFF) xferState) =
    some [{ tag := 0, src := 0, dst := 0, blocks := 1, pau := false, crec := 0xFFFF }] := by decide +kernel

end Sys2Proof.Machine

open Sys2Proof Sys2Proof.Machine in
/-- Refutes O60: where the tag's register is also that of a descriptor (XFER W1, W1, W1), the model reads the descriptor that it records after it has written
the tag there, so the transfer that starts has the tag, 0, as its source, and not the descriptor that the statement names. -/
theorem not_zynTransfers : ¬ Obligations.ZynTransfers := by
  intro h
  obtain ⟨-, descs⟩ := h xferState seqCtx 1 1 1 0 false 0xFFFF 0 issues_xferState (.inr rfl) rfl (by decide)
  obtain ⟨-, fit⟩ := descs (.staging 0 0) (.staging 0 0) (by decide +kernel) (by decide +kernel)
  obtain ⟨stages, -⟩ := fit (by simp +contextual) (by simp +contextual)
  obtain ⟨-, starts⟩ := stages 0 0 0 0 rfl rfl rfl rfl
  obtain ⟨t, ⟨-, -, -, newest, -⟩, shown⟩ := (starts (by rintro ⟨k, -, y, hy, -⟩; cases hy)).observed xfers_xferState
  exact absurd (shown.symm.trans newest) (by decide +kernel)
end

section
/-! SUPPORT. The last transfer to an engine, whose staging slot frees a LUN that waits for the accumulator (R25, R133, R224, R294, R516). -/
namespace Sys2Proof.Machine

/-- The first context of the first Intake engine. -/
def intakeCtx : CtxId := ⟨.cmd, 0, 0⟩

/-- The transfer of staging slot 0 of channel 0 through the command's engine. -/
def pauXfer : Xfer := { tag := 0, src := BitVec.ofNat 64 (2 * 2 ^ 60), dst := 0, blocks := 1, pau := true }

/-- Die 0 holds a unit whose next NPG, of pool buffer 0, joins the stripe of channel 0, and no stripe is open. -/
def joiningLun : Lun :=
  { unit := some { kind := 0, addr := 0, slc := false }
    queue := [{ op := .npg false false (BitVec.ofNat 64 (2 ^ 60 + 2 ^ 59)), kind := 0, addr := 0, cls := 3 }] }

/-- `pauXfer` runs for a command that is posted and keeps one buffer, whose map change is sealed. 63 records are open, and the parity block that the stripe takes on
die 1 gives the 64th. -/
def pauState : State :=
  { regs := [(R.MED_SPOOL, 0)]
    jnl := { openRecs := List.replicate 63 0 }
    media := { dies := [0, 1], luns := [(0, joiningLun)] }
    host := { cmds := [(0, { st := .posted, func := 0, sqid := 1, sqe := {}, fsn := 0, bufs := [0] })]
              bufs := [(0, { cmd := 0, account := 0, nsid := 0, lba := 0, doneSeq := some 0 })] }
    zyn := { tab := { heap := [(1, [(0, 0)])] }
             ctxs := [(intakeCtx.key, { cmd := some 0, xfers := [pauXfer] })] } }

/-- The seal of the 64th record releases the buffer, and the command is gone before its engine is fed. -/
theorem cmd_pauState : observe (fun t => (t.cmd 0).map (·.pau)) (exec (.xferComplete intakeCtx 0 false []) pauState) = some none := by
  decide +kernel

end Sys2Proof.Machine

open Sys2Proof Sys2Proof.Machine in
/-- Refutes O28: a transfer through the engine of a bound command must leave the command with its next block, but in `pauState` the slot that the transfer frees
lets a waiting NPG open a stripe, whose parity block fills the batch of the journal; the seal releases the command's last buffer, and the command, already posted,
is gone within the same command of the model. -/
theorem not_transfersAndGrants : ¬ Obligations.TransfersAndGrants := by
  intro h
  obtain ⟨-, present, -⟩ := h pauState intakeCtx 0 0 0 false []
  obtain ⟨-, transfers⟩ := present (by decide)
  obtain ⟨-, toHost, -⟩ := transfers pauXfer (by decide +kernel)
  obtain ⟨-, fed, -⟩ := toHost 0 0 0 0 _ (by decide +kernel) (by decide +kernel) rfl rfl
  obtain ⟨t, ⟨-, next⟩, shown⟩ := (fed (by decide +kernel) rfl rfl).observed cmd_pauState
  rw [shown] at next
  cases next
end


section
/-! SUPPORT. A read whose block is on media without a codeword (R20, R153, R277, R513). -/
namespace Sys2Proof.Machine

/-- An I/O command that nothing holds back does what its opcode means (R153). -/
theorem ioRun_of_runs {s : State} {c op : Nat} {x : Cmd} (hx : s.cmd c = some x) (hrun : RunsOp s x op) (habort : x.abort = false) {data : Bool}
    (hgate : gateStatus s data x = none) (k : Cmd → State → State) : s.ioRun c op data k = k x s := by
  obtain ⟨hcom, hadm, hcls, hbank, hwait, hop, hfl⟩ := hrun
  simp [State.ioRun, hx, hcom, hadm, hcls, hbank, hwait, hop, hfl, habort, hgate]

theorem touchLine_of_empty {s : State} (h : s.map.cache = []) (line : Nat) :
    s.touchLine line = (false, (s.countMod F.MAP_CACHE_MISS.COUNT).setWays (cacheSet line) [{ line := line, fill := s.lastSeq }]) := by
  simp [State.touchLine, State.resident, State.ways, h, sgetD]

theorem touchLine_of_only {s : State} {line : Nat} {c : CacheLine} (h : s.map.cache = [(cacheSet line, [c])]) (hc : c.line = line)
    (hv : c.invalid = false) : s.touchLine line = (true, (s.setWays (cacheSet line) [c]).countMod F.MAP_CACHE_HIT.COUNT) := by
  simp [State.touchLine, State.resident, State.ways, h, sgetD, sget, hc, hv]

theorem got_of_missing {s : State} {ns lba d sl : Nat} (hl : s.nsLbaf ns = 0) (hp : Place.of (s.mapEntry (s.mapIndex ns lba)) = .media d sl)
    (hcw : s.codeword d sl = none) (bad : Bool) : got s ns lba bad = .lost true := by
  simp [got, State.nsZoned, gotConv, gotUnit, gotMedia, hl, hp, hcw]

theorem badEntry_of_media {s : State} {w : Word64} {d sl : Nat} (h : Place.of w = .media d sl) : s.badEntry w = s := by
  simp [State.badEntry, h, State.when]

/-- The one block is lost: its line is filled, and the loss is recorded. -/
theorem readBlocks_of_missing {s : State} {x : Cmd} {first d sl : Nat} (hl : s.nsLbaf x.sqe.nsid.toNat = 0) (hc : s.map.cache = [])
    (hp : Place.of (s.mapEntry (s.mapIndex x.sqe.nsid.toNat first)) = .media d sl) (hcw : s.codeword d sl = none) (bad : List Nat) :
    (s.readBlocks x first 1 bad).2 = (false, (s.touchLine (mapLine (s.mapIndex x.sqe.nsid.toNat first))).2.loseBlock x.sqe.nsid.toNat first) := by
  have hz : s.nsZoned x.sqe.nsid.toNat = false := by simp [State.nsZoned, hl]
  rw [touchLine_of_empty hc]
  generalize hT : (s.countMod F.MAP_CACHE_MISS.COUNT).setWays (cacheSet (mapLine (s.mapIndex x.sqe.nsid.toNat first)))
    [{ line := mapLine (s.mapIndex x.sqe.nsid.toNat first), fill := s.lastSeq }] = T
  have hTz : T.nsZoned x.sqe.nsid.toNat = false := by rw [← hT]; exact hz
  have hTp : Place.of (T.mapEntry (s.mapIndex x.sqe.nsid.toNat first)) = .media d sl := by rw [← hT]; exact hp
  have hTc : T.codeword d sl = none := by rw [← hT]; exact hcw
  have hg (b : Bool) : got T x.sqe.nsid.toNat first b = .lost true := by
    refine got_of_missing (d := d) (sl := sl) ?_ ?_ hTc b <;> rw [← hT]
    · exact hl
    · exact hp
  simp [State.readBlocks, hz, touchLine_of_empty hc, hT, State.each, State.when, hTz, hTp, hTc, hg, badEntry_of_media hTp, State.oobMismatch]

theorem loseBlock_of_conv {s : State} {ns : Nat} (hz : s.nsZoned ns = false) (lba : Nat) : s.loseBlock ns lba = s.markLost (s.mapIndex ns lba) := by
  simp [State.loseBlock, hz]

/-- The record of a loss whose line is the one resident line (R277). -/
def State.lossMet (s : State) (i : Nat) (c : CacheLine) : State :=
  let u := (((s.setWays (cacheSet (mapLine i)) [c]).countMod F.MAP_CACHE_HIT.COUNT).jwrite 1 i 0 (BitVec.ofNat 64 Place.unrecovered.word.toNat)).2.raise
    F.ECC_EVT.UNRECOVERED
  { u with ecc := { u.ecc with integrity := u.ecc.integrity + 1 } }

theorem markLost_of_only {s : State} {i : Nat} {c : CacheLine} (h : s.map.cache = [(cacheSet (mapLine i), [c])]) (hc : c.line = mapLine i)
    (hv : c.invalid = false) : s.markLost i = s.lossMet i c := by
  simp only [State.markLost, State.tjrn, State.access, lineOf, touchLine_of_only h hc hv]
  rfl

/-- The line that the first access of an empty cache fills (R513). -/
def State.filledLine (s : State) (i : Nat) : CacheLine := { line := mapLine i, fill := s.lastSeq }

/-- A loss met with an empty cache: its line is filled, hit, and the loss is recorded. -/
def State.lossFound (s : State) (i : Nat) : State :=
  ((s.countMod F.MAP_CACHE_MISS.COUNT).setWays (cacheSet (mapLine i)) [s.filledLine i]).lossMet i (s.filledLine i)

theorem loseBlock_touchLine {s : State} {ns : Nat} (hz : s.nsZoned ns = false) (hc : s.map.cache = []) (lba : Nat) :
    (s.touchLine (mapLine (s.mapIndex ns lba))).2.loseBlock ns lba = s.lossFound (s.mapIndex ns lba) := by
  rw [touchLine_of_empty hc, loseBlock_of_conv (by exact hz)]
  exact markLost_of_only (i := s.mapIndex ns lba) (c := s.filledLine _) (by simp [State.setWays, State.countMod, hc, sputD, sput, State.filledLine]) rfl rfl

/-- A read of a conventional namespace that meets a lost block fails with Unrecovered Read Error. -/
theorem reading_of_lost {s t : State} {c : Nat} {x : Cmd} {first n : Nat} {bad : List Nat} (hrange : outOfRange s x.sqe first n = false)
    (hz : s.nsZoned x.sqe.nsid.toNat = false) (hlock : s.lock c = none) (hlost : ((s.mapWork 0 c).readBlocks x first n bad).2 = (false, t))
    (k : List Block → State → State) : s.reading c x first n bad k = t.failed c 2 0x81 := by
  simp [State.reading, hrange, anyOffline, hz, State.takeLock, hlock, waitsReserved, hlost]

/-- The same of one block that is on media without a codeword. -/
theorem reading_of_missing {s : State} {c : Nat} {x : Cmd} {first d sl : Nat} (hrange : outOfRange s x.sqe first 1 = false)
    (hz : s.nsZoned x.sqe.nsid.toNat = false) (hlock : s.lock c = none) (hl : (s.mapWork 0 c).nsLbaf x.sqe.nsid.toNat = 0)
    (hc : (s.mapWork 0 c).map.cache = []) (hcw : (s.mapWork 0 c).codeword d sl = none)
    (hp : Place.of ((s.mapWork 0 c).mapEntry ((s.mapWork 0 c).mapIndex x.sqe.nsid.toNat first)) = .media d sl) (bad : List Nat)
    (k : List Block → State → State) :
    s.reading c x first 1 bad k = ((s.mapWork 0 c).lossFound ((s.mapWork 0 c).mapIndex x.sqe.nsid.toNat first)).failed c 2 0x81 := by
  refine reading_of_lost hrange hz hlock ?_ k
  rw [readBlocks_of_missing hl hc hp hcw, loseBlock_touchLine (by simp [State.nsZoned, hl]) hc]

theorem exec_read_of_lost {s t : State} {c : BitVec 17} {x : Cmd} {bad : List Nat} (hx : s.cmd c.toNat = some x) (hrun : RunsOp s x 0x02)
    (habort : x.abort = false) (hgate : gateStatus s true x = none) (hmdts : overMdts s x.sqe = false) (hspan : spanOf s x.sqe.nsid.toNat = none)
    (hread : ∀ k, s.reading c.toNat x x.sqe.slba x.sqe.nlb bad k = t) : exec (.read c bad) s = .next t := by
  refine congrArg Host.Outcome.next ((ioRun_of_runs hx hrun habort hgate _).trans ?_)
  rw [if_neg (by rw [hmdts]; decide), hspan]
  exact hread _

theorem exec_fused_of_lost {s t : State} {c : BitVec 17} {x : Cmd} {old data : List Block} {bad : List Nat} {w : Nat} (hx : s.cmd c.toNat = some x)
    (hrun : RunsOp s x 0x05) (habort : x.abort = false) (hgate : gateStatus s true x = none) (hw : x.fused = some w)
    (hread : ∀ k, s.reading c.toNat x x.sqe.slba x.sqe.nlb bad k = t) : exec (.fusedCompareAndWrite c old data bad) s = .next t := by
  refine congrArg Host.Outcome.next ((ioRun_of_runs hx hrun habort hgate _).trans ?_)
  rw [hw]
  exact hread _

end Sys2Proof.Machine
end

section
/-! SUPPORT. Such a read while the journal's batch is one record short, and a buffer whose release writes JNL_STATUS (R23, R25, R294, R311). -/
namespace Sys2Proof.Machine

/-- A READ of block 0 of namespace 1. -/
def lossRead : Cmd := { classified := true, func := 0, sqid := 1, fsn := 0, sqe := { opc := 0x02, nsid := 1 } }

/-- The Compare of a pair over the same block, whose Write is in context 1. -/
def lossCompare : Cmd := { lossRead with sqe := { opc := 0x05, nsid := 1, fuse := 1 }, fused := some 1 }

/-- The Write of that pair. -/
def lossWrite : Cmd := { lossRead with sqe := { opc := 0x01, nsid := 1 }, fsn := 1 }

/-- Block 0 of namespace 1 is on media without a codeword, 63 records are open, and the pool holds `strayBuf`, whose release takes 1 from JNL_STATUS:
FLUSH_STATE, 3 as after a flush, becomes 2. -/
def lossState (cmds : Sparse Cmd) : State :=
  { regs := [(R.JNL_STATUS, 3 * 2 ^ 11)]
    jnl := { openRecs := List.replicate 63 0 }
    host := { funcs := [(0, { attached := [1] })], cmds := cmds, bufs := [strayBuf] }
    sec := { fuses := { lifecycle := 1 } }
    zyn := { tab := { nsrec := [(0, 1), (1, 1)], map := [(0, (Place.media 0 0).word)] } } }

/-- No codeword is on media, so none is another block's. -/
theorem own_lossState {cmds : Sparse Cmd} {ns first n : Nat} (hz : (lossState cmds).nsZoned ns = false) : Own (lossState cmds) ns first n :=
  ⟨fun _ _ _ _ _ _ _ h => (nomatch h), fun h => absurd h (by simp [hz])⟩

theorem runs_lossRead : RunsOp (lossState [(0, lossRead)]) lossRead 0x02 := by
  refine ⟨rfl, rfl, rfl, rfl, rfl, rfl, ?_⟩
  decide +kernel

theorem ungated_lossRead : Ungated (lossState [(0, lossRead)]) 0 lossRead true := by
  refine ⟨rfl, rfl, rfl, rfl, rfl, rfl, rfl, rfl, by decide, ?_, ?_, ?_, rfl, rfl, ?_, nofun, nofun⟩
  all_goals decide +kernel

/-- The seal of the 64th record leaves FLUSH_STATE at 2, so the read posts nothing. -/
theorem out_lossRead : observe (fun t => t.out) (exec (.read 0 []) (lossState [(0, lossRead)])) = some [] := by
  rw [exec_read_of_lost (x := lossRead) rfl runs_lossRead rfl ?_ ?_ ?_ (reading_of_missing (d := 0) (sl := 0) ?_ ?_ rfl ?_ ?_ ?_ ?_ [])]
  all_goals decide +kernel

end Sys2Proof.Machine

open Sys2Proof Sys2Proof.Machine in
/-- Refutes O19: the read of a block that is newly lost must post Unrecovered Read Error, but the record of the loss may be the 64th of its batch; in `lossState`
the seal of the batch releases `strayBuf`, whose account no device has, and that turns FLUSH_STATE from 3 to 2: the flush path runs, and the completion waits. -/
theorem not_readCommands : ¬ Obligations.ReadCommands := by
  intro h
  obtain ⟨ungated, -⟩ := h (lossState [(0, lossRead)]) 0 lossRead [] [] []
  obtain ⟨-, -, ranges, -⟩ := ungated ungated_lossRead
  obtain ⟨-, -, -, lost⟩ := ranges (.inl (by decide +kernel)) _ List.mem_cons_self rfl nofun
  have hlost := lost (by decide +kernel) (by decide +kernel) (by decide +kernel) (own_lossState (by decide +kernel)) ⟨0, by decide, true, by decide +kernel⟩
  obtain ⟨t, ⟨⟨q, e, he, -⟩, -⟩, shown⟩ := hlost.observed out_lossRead
  rw [shown] at he
  cases he
end


section
/-! SUPPORT. A fused pair whose Compare meets the same loss (R159). -/
namespace Sys2Proof.Machine

/-- The pair of `lossCompare` and `lossWrite`. -/
def pairState : State := lossState [(0, lossCompare), (1, lossWrite)]

theorem runs_lossCompare : RunsOp pairState lossCompare 0x05 := by
  refine ⟨rfl, rfl, rfl, rfl, rfl, rfl, ?_⟩
  decide +kernel

theorem runs_lossWrite : RunsOp pairState lossWrite 0x01 := by
  refine ⟨rfl, rfl, rfl, rfl, rfl, rfl, ?_⟩
  decide +kernel

/-- The Compare by itself is held back by nothing. -/
theorem ungated_lossCompare : Ungated (pairState.setCmd 0 { lossCompare with fused := none }) 0 { lossCompare with fused := none } true := by
  refine ⟨rfl, rfl, rfl, rfl, rfl, rfl, rfl, rfl, by decide, ?_, ?_, ?_, rfl, rfl, ?_, nofun, nofun⟩
  all_goals decide +kernel

/-- Neither half of the pair posts anything. -/
theorem out_pairState : observe (fun t => t.out) (exec (.fusedCompareAndWrite 0 [] [] []) pairState) = some [] := by
  rw [exec_fused_of_lost (x := lossCompare) rfl runs_lossCompare rfl ?_ rfl (reading_of_missing (d := 0) (sl := 0) ?_ ?_ rfl ?_ ?_ ?_ ?_ [])]
  all_goals decide +kernel

end Sys2Proof.Machine

open Sys2Proof Sys2Proof.Machine in
/-- Refutes O20: a fused pair whose Compare meets a lost block must post both failures, but in `pairState` the record of the loss is the 64th of its batch, the seal
releases `strayBuf`, and FLUSH_STATE goes from 3 to 2 as for O19: the completions wait. -/
theorem not_writeCommands : ¬ Obligations.WriteCommands := by
  intro h
  obtain ⟨-, -, fused⟩ := h pairState 0 1 { lossCompare with fused := none } lossWrite [] [] []
  obtain ⟨lost, -⟩ := fused rfl ungated_lossCompare rfl (by decide) rfl rfl (by decide +kernel) (by decide +kernel)
    (own_lossState (by decide +kernel)) runs_lossWrite rfl (by decide) rfl rfl nofun
  obtain ⟨t, ⟨⟨q, e, he, -⟩, -⟩, shown⟩ := (lost ⟨0, by decide, true, by decide +kernel⟩).observed out_pairState
  rw [shown] at he
  cases he
end

section
/-! SUPPORT. One step of the machine (R37, R43). -/
open Sys2Proof Sys2Proof.Machine in
/-- Settles O7: the two cases of `step` are the command at the front and the tick. -/
theorem stepRunsFront : Obligations.StepRunsFront := by
  refine ⟨fun c s => rfl, fun c rest s h => ?_, fun s h => ?_⟩ <;> simp only [step, h]
end

section
/-! SUPPORT. Fields that share no bit (R4), and what completions and events leave alone (R55, R166, R176). -/
namespace Sys2Proof.Machine

/-- Two fields share no bit. -/
def Field.apart (f g : Field) : Bool :=
  g.off != f.off || ((decide (g.lo + g.width ≤ f.lo) || decide (f.lo + f.width ≤ g.lo)) && decide (g.lo + g.width ≤ 32))

theorem fld_setFld_apart {f g : Field} (h : f.apart g = true) (s : State) (n : Nat) : (s.setFld f n).fld g = s.fld g := by
  by_cases ho : g.off = f.off
  · simp only [Field.apart, ho, bne_self_eq_false, Bool.false_or, Bool.and_eq_true, Bool.or_eq_true, decide_eq_true_eq] at h
    exact fld_setFld_disjoint ho h.1 h.2 s n
  · exact fld_setFld_off ho s n

theorem fld_raise_apart {f g : Field} (h : f.apart g = true) (s : State) : (s.raise f).fld g = s.fld g := fld_setFld_apart h s 1
theorem fld_clear_apart {f g : Field} (h : f.apart g = true) (s : State) : (s.clear f).fld g = s.fld g := fld_setFld_apart h s 0
theorem fld_setBit_apart {f g : Field} (h : f.apart g = true) (s : State) (b : Bool) : (s.setBit f b).fld g = s.fld g := fld_setFld_apart h s _

/-- A one-bit field of its register. -/
def Field.bit (f : Field) : Bool := decide (f.lo < 32) && decide (f.width = 1)

theorem fld_setBit_self {f : Field} (h : f.bit = true) (s : State) (b : Bool) : (s.setBit f b).fld f = if b then 1 else 0 := by
  simp only [Field.bit, Bool.and_eq_true, decide_eq_true_eq] at h
  exact fld_setFld_self s (by omega) (by cases b <;> simp [h.2])

theorem fld_raise_self {f : Field} (h : f.bit = true) (s : State) : (s.raise f).fld f = 1 := fld_setBit_self h s true
theorem fld_clear_self {f : Field} (h : f.bit = true) (s : State) : (s.clear f).fld f = 0 := fld_setBit_self h s false

theorem fld_lt (s : State) (f : Field) : s.fld f < 2 ^ f.width := Nat.mod_lt _ (Nat.two_pow_pos _)

/-! ### Completions and events -/

theorem postCqe_frame (s : State) (f q : Nat) (e : Cqe) :
    s.postCqe f q e = { s with host := { s.host with cqs := (s.postCqe f q e).host.cqs }, out := (s.postCqe f q e).out } := by
  unfold State.postCqe
  split
  · rfl
  · dsimp only
    split
    · rfl
    · split <;> rfl

theorem adminPost_frame (s : State) (f : Nat) (cid : BitVec 16) (sct sc : Nat) (a b : Word) :
    let t := s.adminPost f cid sct sc a b
    t = { s with host := { s.host with cmds := t.host.cmds, cqs := t.host.cqs }, out := t.out } := by
  intro t
  have ht : t = _ := postCqe_frame ..
  rw [ht]

theorem adminDone_frame (s : State) (f : Nat) (cid : BitVec 16) (sct sc : Nat) (a b : Word) :
    let t := s.adminDone f cid sct sc a b
    t = { s with host := { s.host with cmds := t.host.cmds, cqs := t.host.cqs }, out := t.out } := by
  intro t
  simp only [t]
  unfold State.adminDone
  dsimp only
  split
  · rfl
  · split
    · split
      · rfl
      · exact adminPost_frame ..
    · exact adminPost_frame ..

theorem aen_frame (s : State) (f ty info : Nat) :
    s.aen f ty info = { s with host := (s.aen f ty info).host, out := (s.aen f ty info).out } := by
  unfold State.aen
  dsimp only
  split
  · rfl
  · split
    · rfl
    · rw [adminDone_frame]; rfl

theorem vendorEvent_frame (s : State) (i : Nat) : s.vendorEvent i = { s with host := (s.vendorEvent i).host, out := (s.vendorEvent i).out } := aen_frame ..

section
variable (s : State) (f : Nat) (cid : BitVec 16) (sct sc : Nat) (a b : Word) (i ty info : Nat)

@[simp] theorem adminDone_regs : (s.adminDone f cid sct sc a b).regs = s.regs := by rw [adminDone_frame]
@[simp] theorem adminDone_ttu : (s.adminDone f cid sct sc a b).ttu = s.ttu := by rw [adminDone_frame]
@[simp] theorem adminDone_func (g : Nat) : (s.adminDone f cid sct sc a b).func g = s.func g := by rw [adminDone_frame]; rfl
@[simp] theorem adminDone_isPf (g : Nat) : (s.adminDone f cid sct sc a b).isPf g = s.isPf g := by rw [adminDone_frame]; rfl
@[simp] theorem adminDone_zyn : (s.adminDone f cid sct sc a b).zyn = s.zyn := by rw [adminDone_frame]
@[simp] theorem adminDone_fld (g : Field) : (s.adminDone f cid sct sc a b).fld g = s.fld g := by rw [adminDone_frame]; rfl
@[simp] theorem adminDone_reg (o : Nat) : (s.adminDone f cid sct sc a b).reg o = s.reg o := by rw [adminDone_frame]; rfl
@[simp] theorem ok_regs : (s.ok f cid a).regs = s.regs := adminDone_regs ..
@[simp] theorem ok_ttu : (s.ok f cid a).ttu = s.ttu := adminDone_ttu ..
@[simp] theorem ok_zyn : (s.ok f cid a).zyn = s.zyn := adminDone_zyn ..
@[simp] theorem ok_fld (g : Field) : (s.ok f cid a).fld g = s.fld g := adminDone_fld ..
@[simp] theorem ok_reg (o : Nat) : (s.ok f cid a).reg o = s.reg o := adminDone_reg ..
@[simp] theorem aen_regs : (s.aen f ty info).regs = s.regs := by rw [aen_frame]
@[simp] theorem aen_ttu : (s.aen f ty info).ttu = s.ttu := by rw [aen_frame]
@[simp] theorem aen_zyn : (s.aen f ty info).zyn = s.zyn := by rw [aen_frame]
@[simp] theorem aen_fld (g : Field) : (s.aen f ty info).fld g = s.fld g := by rw [aen_frame]; rfl
@[simp] theorem aen_reg (o : Nat) : (s.aen f ty info).reg o = s.reg o := by rw [aen_frame]; rfl
@[simp] theorem vendorEvent_regs : (s.vendorEvent i).regs = s.regs := aen_regs ..
@[simp] theorem vendorEvent_ttu : (s.vendorEvent i).ttu = s.ttu := aen_ttu ..
@[simp] theorem vendorEvent_zyn : (s.vendorEvent i).zyn = s.zyn := aen_zyn ..
@[simp] theorem vendorEvent_fld (g : Field) : (s.vendorEvent i).fld g = s.fld g := aen_fld ..
@[simp] theorem vendorEvent_reg (o : Nat) : (s.vendorEvent i).reg o = s.reg o := aen_reg ..
end

/-! ### Gradebook entries below Critical -/

theorem entry_notice_frame (s : State) (k : Nat) : s.entry k sevNotice = { s with gb := (s.entry k sevNotice).gb } := by
  simp [State.entry, sevNotice]

@[simp] theorem entry_notice_regs (s : State) (k : Nat) : (s.entry k sevNotice).regs = s.regs := by rw [entry_notice_frame]
@[simp] theorem entry_notice_ttu (s : State) (k : Nat) : (s.entry k sevNotice).ttu = s.ttu := by rw [entry_notice_frame]
@[simp] theorem entry_notice_zyn (s : State) (k : Nat) : (s.entry k sevNotice).zyn = s.zyn := by rw [entry_notice_frame]
@[simp] theorem entry_notice_fld (s : State) (k : Nat) (g : Field) : (s.entry k sevNotice).fld g = s.fld g := by rw [entry_notice_frame]; rfl
@[simp] theorem entry_notice_reg (s : State) (k o : Nat) : (s.entry k sevNotice).reg o = s.reg o := by rw [entry_notice_frame]; rfl

end Sys2Proof.Machine
end

section
/-! SUPPORT. The reference state (R38 to R45): what a lost source, a sample and holdover leave. -/
namespace Sys2Proof.Machine

theorem exec_bellEdge (s : State) : exec .bellEdge s = execBellEdge s := by rfl
theorem exec_bellEdgeTimeout (s : State) : exec .bellEdgeTimeout s = execBellEdgeTimeout s := by rfl
theorem exec_ptmDialog (root : Word64) (s : State) : exec (.ptmDialog root) s = execPtmDialog root s := by rfl
theorem exec_ptmIntervalMiss (s : State) : exec .ptmIntervalMiss s = execPtmIntervalMiss s := by rfl
theorem exec_holdoverTimeout (s : State) : exec .holdoverTimeout s = execHoldoverTimeout s := by rfl
theorem exec_ttSrcWrite (v : Word) (s : State) : exec (.ttSrcWrite v) s = execTtSrcWrite v s := by rfl

theorem sources_congr {s t : State} (h : t.reg R.TT_SRC = s.reg R.TT_SRC) : sources t = sources s := by
  have (f : Field) (hf : f.off = R.TT_SRC) : t.fld f = s.fld f := by simp [State.fld, hf, h]
  simp [sources, this F.TT_SRC.SRC_PRI rfl, this F.TT_SRC.SRC_SEC rfl, this F.TT_SRC.SRC_TER rfl]

/-! ### What a change of the reference state leaves alone -/

/-- The sources, device time, the Zyn engines, and the registers but TT_STATUS and TT_EVT. -/
structure BellBase where
  zyn : Zyn
  time : Word64
  setSec : Option Word
  src : Nat → BellSrc
  regs : Nat → Word

def State.bellBase (s : State) : BellBase :=
  { zyn := s.zyn, time := s.ttu.time, setSec := s.ttu.setSec, src := s.src, regs := fun o => if o = R.TT_STATUS ∨ o = R.TT_EVT then 0 else s.reg o }

@[simp] theorem bellBase_setReg {o : Nat} (h : (o == R.TT_STATUS || o == R.TT_EVT) = true) (s : State) (w : Word) : (s.setReg o w).bellBase = s.bellBase := by
  have hreg (r : Nat) (hr : ¬ (r = R.TT_STATUS ∨ r = R.TT_EVT)) : (s.setReg o w).reg r = s.reg r :=
    reg_setReg_ne (by rintro rfl; exact hr (by simpa using h)) _
  simp only [State.bellBase, BellBase.mk.injEq, setReg_zyn, setReg_ttu, true_and]
  refine ⟨rfl, funext fun r => ?_⟩
  split
  · rfl
  · exact hreg r ‹_›

@[simp] theorem bellBase_setFld {f : Field} (h : (f.off == R.TT_STATUS || f.off == R.TT_EVT) = true) (s : State) (n : Nat) :
    (s.setFld f n).bellBase = s.bellBase := bellBase_setReg h s _
@[simp] theorem bellBase_raise {f : Field} (h : (f.off == R.TT_STATUS || f.off == R.TT_EVT) = true) (s : State) : (s.raise f).bellBase = s.bellBase :=
  bellBase_setReg h s _
@[simp] theorem bellBase_vendorEvent (s : State) (i : Nat) : (s.vendorEvent i).bellBase = s.bellBase := by
  simp [State.bellBase, funext_iff, State.src]
@[simp] theorem bellBase_entry_notice (s : State) (k : Nat) : (s.entry k sevNotice).bellBase = s.bellBase := by
  simp [State.bellBase, funext_iff, State.src]
@[simp] theorem bellBase_ttState (s : State) (st : Nat) : (s.ttState st).bellBase = s.bellBase := by
  simp +decide [State.ttState, State.setBit]
@[simp] theorem bellBase_removeError (s : State) (e : Int) : (s.removeError e).bellBase = s.bellBase := by
  unfold State.removeError; split <;> rfl
@[simp] theorem bellBase_when {s : State} {c : Bool} {f : State → State} (h : (f s).bellBase = s.bellBase) : (s.when c f).bellBase = s.bellBase := by
  cases c <;> simp [State.when, h]

/-- Device time, a pending count of seconds and the sources stand in the base, and the rest of the Timetable Unit does not. -/
theorem bellBase_ttu {s : State} {u : Ttu} (ht : u.time = s.ttu.time) (hs : u.setSec = s.ttu.setSec) (h1 : u.src1 = s.ttu.src1)
    (h2 : u.src2 = s.ttu.src2) (h3 : u.src3 = s.ttu.src3) : State.bellBase { s with ttu := u } = s.bellBase := by
  have hsrc : State.src { s with ttu := u } = s.src := funext fun c => by simp only [State.src, h1, h2, h3]
  simp only [State.bellBase, ht, hs, hsrc]
  rfl

@[simp] theorem bellBase_freerun (s : State) : s.freerun.bellBase = s.bellBase := by
  simp +decide [State.freerun, ↓bellBase_ttu]
@[simp] theorem bellBase_enterHoldover (s : State) : s.enterHoldover.bellBase = s.bellBase := by
  simp +decide [State.enterHoldover, ↓bellBase_ttu]
@[simp] theorem bellBase_switchTo (s : State) (b : Nat) : (s.switchTo b).bellBase = s.bellBase := by
  simp +decide [State.switchTo, ↓bellBase_ttu]
@[simp] theorem bellBase_activeLost (s : State) : s.activeLost.bellBase = s.bellBase := by
  simp +decide [State.activeLost, apply_ite State.bellBase]
@[simp] theorem bellBase_srcValid (s : State) (e : Int) : (s.srcValid e).bellBase = s.bellBase := by
  unfold State.srcValid
  dsimp only
  split
  · exact (bellBase_removeError ..).trans ((bellBase_ttu rfl rfl rfl rfl rfl).trans (by simp +decide))
  · simp +decide [apply_ite State.bellBase]
@[simp] theorem bellBase_lockSample (s : State) (e : Int) : (s.lockSample e).bellBase = s.bellBase := by
  simp +decide [State.lockSample, apply_ite State.bellBase, ↓bellBase_ttu]
@[simp] theorem bellBase_wholeSeconds (s : State) (c : Nat) (e : Int) : (s.wholeSeconds c e).bellBase = s.bellBase := by
  simp +decide [State.wholeSeconds, apply_ite State.bellBase]

section
variable {s t : State} (h : t.bellBase = s.bellBase)
include h

theorem reg_of_bellBase {o : Nat} (ho : (o == R.TT_STATUS || o == R.TT_EVT) = false) : t.reg o = s.reg o := by
  have := congrFun (congrArg BellBase.regs h) o
  have hne : ¬ (o = R.TT_STATUS ∨ o = R.TT_EVT) := by simpa using ho
  simpa [State.bellBase, hne] using this
theorem fld_of_bellBase {f : Field} (ho : (f.off == R.TT_STATUS || f.off == R.TT_EVT) = false) : t.fld f = s.fld f := by
  simp [State.fld, reg_of_bellBase h ho]
theorem src_of_bellBase : t.src = s.src := congrArg BellBase.src h
theorem time_of_bellBase : t.ttu.time = s.ttu.time := congrArg BellBase.time h
theorem setSec_of_bellBase : t.ttu.setSec = s.ttu.setSec := congrArg BellBase.setSec h
theorem zyn_of_bellBase : t.zyn = s.zyn := congrArg BellBase.zyn h
end

/-! ### The fields of the reference state -/

@[simp] theorem removeError_regs (s : State) (e : Int) : (s.removeError e).regs = s.regs := by unfold State.removeError; split <;> rfl
@[simp] theorem removeError_fld (s : State) (e : Int) (f : Field) : (s.removeError e).fld f = s.fld f := by unfold State.removeError; split <;> rfl
@[simp] theorem removeError_lockRun (s : State) (e : Int) : (s.removeError e).ttu.lockRun = s.ttu.lockRun := by
  unfold State.removeError; split <;> rfl
theorem removeError_small {e : Int} (h : e.natAbs ≤ 1000000) (s : State) : (s.removeError e).ttu.slew = e * 1000 := by
  simp [State.removeError, h]
theorem removeError_large {e : Int} (h : 1000000 < e.natAbs) (s : State) : (s.removeError e).ttu.step = some e := by
  simp [State.removeError, Nat.not_le.2 h]

@[simp] theorem ttState_ttu (s : State) (st : Nat) : (s.ttState st).ttu = s.ttu := rfl
theorem ttState_state {st : Nat} (h : st < 8) (s : State) : (s.ttState st).fld F.TT_STATUS.STATE = st := by
  rw [State.ttState, fld_setBit_apart (by decide), fld_setFld_self s (by decide) h]
theorem ttState_unaligned (s : State) (st : Nat) : (s.ttState st).fld F.TT_STATUS.UNALIGNED =
    if (st == ttUnlocked || st == ttFreerun) && !(sources s).isEmpty then 1 else 0 := fld_setBit_self (by decide) ..
theorem ttState_fld {f : Field} (h : F.TT_STATUS.STATE.apart f = true) (h' : F.TT_STATUS.UNALIGNED.apart f = true) (s : State) (st : Nat) :
    (s.ttState st).fld f = s.fld f := by
  rw [State.ttState, fld_setBit_apart h', fld_setFld_apart h]

/-- What the block shows once the last source is lost (R42): HOLDOVER with its timer, or FREERUN at a limit of 0. -/
def Held (s t : State) : Prop :=
  t.fld F.TT_STATUS.STATE = (if s.fld F.TT_HOLDOVER_LIMIT.LIMIT_S = 0 then 4 else 3) ∧ t.fld F.TT_STATUS.ACTIVE_SRC = 0 ∧ t.fld F.TT_EVT.HOLDOVER = 1 ∧
    (s.fld F.TT_HOLDOVER_LIMIT.LIMIT_S = 0 → t.fld F.TT_EVT.FREERUN = 1) ∧ (¬ s.fld F.TT_HOLDOVER_LIMIT.LIMIT_S = 0 → t.ttu.holdover = true)

theorem freerun_fields (s : State) : s.freerun.fld F.TT_STATUS.STATE = 4 ∧ s.freerun.fld F.TT_EVT.FREERUN = 1 ∧ s.freerun.ttu.holdover = false ∧
    s.freerun.fld F.TT_STATUS.ACTIVE_SRC = s.fld F.TT_STATUS.ACTIVE_SRC ∧ s.freerun.fld F.TT_EVT.HOLDOVER = s.fld F.TT_EVT.HOLDOVER := by
  refine ⟨?_, ?_, ?_, ?_, ?_⟩ <;> simp only [State.freerun, vendorEvent_fld, entry_notice_fld, vendorEvent_ttu, entry_notice_ttu]
  · rw [fld_raise_apart (by decide), ttState_state (by decide)]; rfl
  · exact fld_raise_self (by decide) _
  · rfl
  · rw [fld_raise_apart (by decide), ttState_fld (by decide) (by decide)]; rfl
  · rw [fld_raise_apart (by decide), ttState_fld (by decide) (by decide)]; rfl

theorem fld_withTtu (s : State) (u : Ttu) (f : Field) : State.fld { s with ttu := u } f = s.fld f := rfl

/-- HOLDOVER with its timer started, not yet reported (R42). -/
def State.holdoverBegun (s : State) : State :=
  ({ s.ttState ttHoldover with ttu := { (s.ttState ttHoldover).ttu with holdover := true, lockRun := 0 } }).setFld F.TT_STATUS.ACTIVE_SRC 0

theorem enterHoldover_eq (s : State) : s.enterHoldover =
    ((s.holdoverBegun.raise F.TT_EVT.HOLDOVER).vendorEvent 0xC0).when (s.holdoverBegun.fld F.TT_HOLDOVER_LIMIT.LIMIT_S == 0) (·.freerun) := rfl

theorem enterHoldover_held (s : State) : Held s s.enterHoldover := by
  let u := (s.holdoverBegun.raise F.TT_EVT.HOLDOVER).vendorEvent 0xC0
  have hstate : u.fld F.TT_STATUS.STATE = 3 := by
    rw [vendorEvent_fld, fld_raise_apart (by decide), State.holdoverBegun, fld_setFld_apart (by decide), fld_withTtu]
    exact ttState_state (by decide) s
  have hact : u.fld F.TT_STATUS.ACTIVE_SRC = 0 := by
    rw [vendorEvent_fld, fld_raise_apart (by decide), State.holdoverBegun, fld_setFld_self _ (by decide) (by decide)]
  have hevt : u.fld F.TT_EVT.HOLDOVER = 1 := by rw [vendorEvent_fld, fld_raise_self (by decide)]
  have htimer : u.ttu.holdover = true := by simp [u, State.holdoverBegun]
  have hlim : s.holdoverBegun.fld F.TT_HOLDOVER_LIMIT.LIMIT_S = s.fld F.TT_HOLDOVER_LIMIT.LIMIT_S := by
    rw [State.holdoverBegun, fld_setFld_apart (by decide), fld_withTtu, ttState_fld (by decide) (by decide)]
  obtain ⟨f1, f2, -, f4, f5⟩ := freerun_fields u
  rw [enterHoldover_eq, hlim]
  unfold Held
  by_cases h0 : s.fld F.TT_HOLDOVER_LIMIT.LIMIT_S = 0
  · rw [State.when, if_pos (by simpa using h0), if_pos h0]
    exact ⟨f1, f4.trans hact, f5.trans hevt, fun _ => f2, fun h => absurd h0 h⟩
  · rw [State.when, if_neg (by simpa using h0), if_neg h0]
    exact ⟨hstate, hact, hevt, fun h => absurd h h0, fun _ => htimer⟩

theorem enterHoldover_srcLost (s : State) : s.enterHoldover.fld F.TT_EVT.SRC_LOST = s.fld F.TT_EVT.SRC_LOST := by
  have hbegun : s.holdoverBegun.fld F.TT_EVT.SRC_LOST = s.fld F.TT_EVT.SRC_LOST := by
    rw [State.holdoverBegun, fld_setFld_apart (by decide), fld_withTtu, ttState_fld (by decide) (by decide)]
  have hfree (t : State) : t.freerun.fld F.TT_EVT.SRC_LOST = t.fld F.TT_EVT.SRC_LOST := by
    rw [State.freerun, vendorEvent_fld, entry_notice_fld, fld_raise_apart (by decide), ttState_fld (by decide) (by decide)]; rfl
  rw [enterHoldover_eq]
  obtain h | h := when_eq_or ((s.holdoverBegun.raise F.TT_EVT.HOLDOVER).vendorEvent 0xC0) (s.holdoverBegun.fld F.TT_HOLDOVER_LIMIT.LIMIT_S == 0) (·.freerun)
  · rw [h, vendorEvent_fld, fld_raise_apart (by decide), hbegun]
  · rw [h, hfree, vendorEvent_fld, fld_raise_apart (by decide), hbegun]

theorem bestSource_lt (s : State) : bestSource s < 4 := by
  have hmem : ∀ c ∈ sources s, c < 4 := by
    intro c hc
    have := fld_lt s F.TT_SRC.SRC_PRI
    have := fld_lt s F.TT_SRC.SRC_SEC
    have := fld_lt s F.TT_SRC.SRC_TER
    simp only [sources, List.mem_filter, List.mem_cons, List.not_mem_nil, or_false] at hc
    obtain ⟨rfl | rfl | rfl, -⟩ := hc <;> assumption
  unfold bestSource
  cases h : (sources s).find? fun c => (s.src c).valid with
  | none => decide
  | some c => exact hmem c (List.mem_of_find?_eq_some h)

theorem switchTo_state (s : State) (b : Nat) : (s.switchTo b).fld F.TT_STATUS.STATE = s.fld F.TT_STATUS.STATE := by
  rw [State.switchTo, vendorEvent_fld, removeError_fld, fld_setFld_apart (by decide)]; rfl
theorem switchTo_srcLost (s : State) (b : Nat) : (s.switchTo b).fld F.TT_EVT.SRC_LOST = s.fld F.TT_EVT.SRC_LOST := by
  rw [State.switchTo, vendorEvent_fld, removeError_fld, fld_setFld_apart (by decide)]; rfl
theorem switchTo_active {b : Nat} (h : b < 4) (s : State) : (s.switchTo b).fld F.TT_STATUS.ACTIVE_SRC = b := by
  rw [State.switchTo, vendorEvent_fld, removeError_fld, fld_setFld_self _ (by decide) h]

/-- Only a LOCKED or ACQUIRING block answers the loss of its active source (R42). -/
theorem activeLost_of_idle {s : State} (h : s.fld F.TT_STATUS.STATE ≠ 1 ∧ s.fld F.TT_STATUS.STATE ≠ 2) : s.activeLost = s := by
  simp [State.activeLost, ttLocked, ttAcquiring, h]

/-- It takes the best other source, or enters HOLDOVER or UNLOCKED without one (R42). -/
theorem activeLost_fields {s : State} (h : s.fld F.TT_STATUS.STATE = 1 ∨ s.fld F.TT_STATUS.STATE = 2) :
    s.activeLost.fld F.TT_EVT.SRC_LOST = 1 ∧
      (bestSource s ≠ 0 → s.activeLost.fld F.TT_STATUS.ACTIVE_SRC = bestSource s ∧ s.activeLost.fld F.TT_STATUS.STATE = s.fld F.TT_STATUS.STATE) ∧
      (bestSource s = 0 → s.fld F.TT_STATUS.STATE = 2 ∨ s.ttu.referenced = true → Held s s.activeLost) ∧
      (bestSource s = 0 → s.fld F.TT_STATUS.STATE = 1 → s.ttu.referenced = false →
        s.activeLost.fld F.TT_STATUS.STATE = 0 ∧ s.activeLost.fld F.TT_STATUS.ACTIVE_SRC = 0) := by
  have hst : ¬ (s.fld F.TT_STATUS.STATE ≠ ttLocked ∧ s.fld F.TT_STATUS.STATE ≠ ttAcquiring) := by simp only [ttLocked, ttAcquiring]; omega
  have hraise : (s.raise F.TT_EVT.SRC_LOST).fld F.TT_EVT.SRC_LOST = 1 := fld_raise_self (by decide) s
  have hlim : (s.raise F.TT_EVT.SRC_LOST).fld F.TT_HOLDOVER_LIMIT.LIMIT_S = s.fld F.TT_HOLDOVER_LIMIT.LIMIT_S := fld_raise_apart (by decide) s
  unfold State.activeLost
  dsimp only
  rw [if_neg hst]
  by_cases hb : bestSource s ≠ 0
  · rw [if_pos hb]
    exact ⟨by rw [switchTo_srcLost, hraise], fun _ => ⟨switchTo_active (bestSource_lt s) _, by rw [switchTo_state, fld_raise_apart (by decide)]⟩,
      fun h0 => absurd h0 hb, fun h0 => absurd h0 hb⟩
  · rw [if_neg hb]
    by_cases hr : s.fld F.TT_STATUS.STATE = ttLocked ∨ s.ttu.referenced = true
    · rw [if_pos hr]
      have hheld := enterHoldover_held (s.raise F.TT_EVT.SRC_LOST)
      rw [Held, hlim] at hheld
      refine ⟨by rw [enterHoldover_srcLost, hraise], fun h0 => absurd h0 hb, fun _ _ => hheld, fun _ h1 h2 => ?_⟩
      simp [ttLocked, h1, h2] at hr
    · rw [if_neg hr]
      refine ⟨?_, fun h0 => absurd h0 hb, fun _ h2 => absurd h2 hr, fun _ _ _ => ⟨?_, fld_setFld_self _ (by decide) (by decide)⟩⟩
      · rw [fld_setFld_apart (by decide), ttState_fld (by decide) (by decide), hraise]
      · rw [fld_setFld_apart (by decide)]; exact ttState_state (by decide) _

end Sys2Proof.Machine
end

section
/-! SUPPORT. Sources that are lost or sampled (R38 to R42). -/
namespace Sys2Proof.Machine

/-! ### The source records -/

theorem src_setSrc_same {c : Nat} (h : c = 1 ∨ c = 2 ∨ c = 3) (s : State) (b : BellSrc) : (s.setSrc c b).src c = b := by
  rcases h with rfl | rfl | rfl <;> rfl
theorem src_setSrc_ne {c d : Nat} (h : d ≠ c) (s : State) (b : BellSrc) : (s.setSrc c b).src d = s.src d := by
  by_cases h1 : c = 1
  · subst h1; simp [State.setSrc, State.src, h]
  · by_cases h2 : c = 2
    · subst h2; simp [State.setSrc, State.src, h]
    · by_cases h3 : c = 3
      · subst h3; simp [State.setSrc, State.src, h]
      · simp [State.setSrc, State.src, h1, h2, h3]

section
variable (s : State) (c : Nat) (b : BellSrc)
@[simp] theorem setSrc_zyn : (s.setSrc c b).zyn = s.zyn := rfl
@[simp] theorem setSrc_reg (o : Nat) : (s.setSrc c b).reg o = s.reg o := rfl
@[simp] theorem setSrc_fld (f : Field) : (s.setSrc c b).fld f = s.fld f := rfl
@[simp] theorem sources_setSrc : sources (s.setSrc c b) = sources s := rfl
@[simp] theorem setSrc_time : (s.setSrc c b).ttu.time = s.ttu.time := by
  simp only [State.setSrc]; split <;> [rfl; (split <;> [rfl; (split <;> rfl)])]
end

/-- The best source once source `c` is invalid: the first other one. -/
theorem bestSource_setSrc_invalid {s : State} {c : Nat} (hc : c = 1 ∨ c = 2 ∨ c = 3) {b : BellSrc} (hb : b.valid = false) :
    bestSource (s.setSrc c b) = ((sources s).find? fun d => d != c && (s.src d).valid).getD 0 := by
  unfold bestSource
  rw [sources_setSrc]
  congr 2
  funext d
  by_cases h : d = c
  · subst h; simp [src_setSrc_same hc, hb]
  · simp [src_setSrc_ne h, h]

/-! ### A source that becomes invalid (R40, R42) -/

/-- The first valid source but `c`, 0 if none. -/
def otherSource (s : State) (c : Nat) : Nat := ((sources s).find? fun d => d != c && (s.src d).valid).getD 0

/-- What the loss of source `c` leaves: the reference state moves only where the source was active and the block LOCKED or ACQUIRING (R42). -/
def LosesSource (s t : State) (c : Nat) : Prop :=
  (s.fld F.TT_STATUS.ACTIVE_SRC ≠ c ∨ (s.fld F.TT_STATUS.STATE ≠ 1 ∧ s.fld F.TT_STATUS.STATE ≠ 2) →
    t.fld F.TT_STATUS.STATE = s.fld F.TT_STATUS.STATE ∧ t.fld F.TT_STATUS.ACTIVE_SRC = s.fld F.TT_STATUS.ACTIVE_SRC) ∧
  (s.fld F.TT_STATUS.ACTIVE_SRC = c → s.fld F.TT_STATUS.STATE = 1 ∨ s.fld F.TT_STATUS.STATE = 2 → t.fld F.TT_EVT.SRC_LOST = 1 ∧
    (otherSource s c ≠ 0 → t.fld F.TT_STATUS.ACTIVE_SRC = otherSource s c ∧ t.fld F.TT_STATUS.STATE = s.fld F.TT_STATUS.STATE) ∧
    (otherSource s c = 0 → s.fld F.TT_STATUS.STATE = 2 ∨ s.ttu.referenced = true → Held s t) ∧
    (otherSource s c = 0 → s.fld F.TT_STATUS.STATE = 1 → s.ttu.referenced = false →
      t.fld F.TT_STATUS.STATE = 0 ∧ t.fld F.TT_STATUS.ACTIVE_SRC = 0))

/-- The record of a source that has become invalid (R40). -/
def BellSrc.dropped (b : BellSrc) : BellSrc := { valid := false, lost := b.lost || b.valid, misses := 0, last := none }

theorem srcInvalid_eq (s : State) (c : Nat) : s.srcInvalid c =
    if s.fld F.TT_STATUS.ACTIVE_SRC = c then (s.setSrc c (s.src c).dropped).activeLost else s.setSrc c (s.src c).dropped := rfl

@[simp] theorem setSrc_referenced (s : State) (c : Nat) (b : BellSrc) : (s.setSrc c b).ttu.referenced = s.ttu.referenced := by
  simp only [State.setSrc]; split <;> [rfl; (split <;> [rfl; (split <;> rfl)])]

theorem bellBase_srcInvalid (s : State) (c : Nat) : (s.srcInvalid c).bellBase = (s.setSrc c (s.src c).dropped).bellBase := by
  rw [srcInvalid_eq]; split <;> simp

theorem srcInvalid_src {c : Nat} (hc : c = 1 ∨ c = 2 ∨ c = 3) (s : State) : (s.srcInvalid c).src c = (s.src c).dropped := by
  rw [src_of_bellBase (bellBase_srcInvalid s c), src_setSrc_same hc]

theorem srcInvalid_loses {c : Nat} (hc : c = 1 ∨ c = 2 ∨ c = 3) (s : State) : LosesSource s (s.srcInvalid c) c := by
  rw [srcInvalid_eq, LosesSource]
  have hother : bestSource (s.setSrc c (s.src c).dropped) = otherSource s c := bestSource_setSrc_invalid hc rfl
  by_cases ha : s.fld F.TT_STATUS.ACTIVE_SRC = c
  · rw [if_pos ha]
    by_cases hst : s.fld F.TT_STATUS.STATE = 1 ∨ s.fld F.TT_STATUS.STATE = 2
    · have hlost := activeLost_fields (s := s.setSrc c (s.src c).dropped) hst
      rw [hother, setSrc_referenced] at hlost
      exact ⟨fun h => by omega, fun _ _ => hlost⟩
    · rw [activeLost_of_idle (s := s.setSrc c (s.src c).dropped) (not_or.1 hst)]
      exact ⟨fun _ => ⟨rfl, rfl⟩, fun _ h => absurd h hst⟩
  · rw [if_neg ha]
    exact ⟨fun _ => ⟨rfl, rfl⟩, fun h => absurd h ha⟩

theorem srcMiss_of_few {s : State} {c : Nat} (h : (s.src c).misses < 2) :
    s.srcMiss c = s.setSrc c { s.src c with misses := (s.src c).misses + 1 } := by
  simp only [State.srcMiss]; exact if_neg (by omega)

theorem srcMiss_of_third {s : State} {c : Nat} (h : 2 ≤ (s.src c).misses) : s.srcMiss c = s.srcInvalid c := by
  simp only [State.srcMiss]; exact if_pos (by omega)

/-! ### A sample (R38 to R42) -/

/-- A source that is not valid becomes so: it was never lost, or the sample lies within 10 µs of its last one (R40). -/
def BellSrc.Accepts (b : BellSrc) (e : Int) : Prop := b.lost = false ∨ ∃ l, b.last = some l ∧ (l - e).natAbs ≤ 10000

/-- The record of a source that a sample makes valid. -/
def BellSrc.found (e : Int) : BellSrc := { valid := true, lost := false, misses := 0, last := some e }

theorem sample_of_absent {s : State} {c : Nat} (h : c ∉ sources s) (e : Int) : s.sample c e = s := by
  simp [State.sample, h]

/-- A sample of a valid source. -/
theorem sample_of_valid {s : State} {c : Nat} (h : c ∈ sources s) (hv : (s.src c).valid = true) (e : Int) :
    let t := s.setSrc c { s.src c with misses := 0, last := some e }
    s.sample c e = if s.fld F.TT_STATUS.ACTIVE_SRC = c then t.lockSample e else (t.srcValid e).wholeSeconds c e := by
  simp [State.sample, h, hv]

/-- A sample that makes its source valid. -/
theorem sample_of_accepted {s : State} {c : Nat} (h : c ∈ sources s) (hv : (s.src c).valid = false) {e : Int} (ha : (s.src c).Accepts e) :
    s.sample c e = ((s.setSrc c (.found e)).srcValid e).wholeSeconds c e := by
  have hok : (!(s.src c).lost || (match (s.src c).last with | some l => decide ((l - e).natAbs ≤ 10000) | none => false)) = true := by
    obtain hl | ⟨l, hl, hd⟩ := ha
    · simp [hl]
    · simp [hl, hd]
  simp only [State.sample, hv]
  simp only [List.contains_eq_mem, h, decide_true, Bool.not_true, Bool.false_eq_true, if_false]
  exact (if_pos hok).trans rfl

/-- A sample that leaves its source invalid. -/
theorem sample_of_refused {s : State} {c : Nat} (h : c ∈ sources s) (hv : (s.src c).valid = false) {e : Int} (ha : ¬ (s.src c).Accepts e) :
    s.sample c e = s.setSrc c { s.src c with last := some e } := by
  have hok : ¬ (!(s.src c).lost || (match (s.src c).last with | some l => decide ((l - e).natAbs ≤ 10000) | none => false)) = true := by
    intro hok
    refine ha ?_
    cases hl : (s.src c).lost with
    | false => exact .inl hl
    | true =>
      cases hs : (s.src c).last with
      | none => simp [hl, hs] at hok
      | some l => exact .inr ⟨l, hs, by simpa [hl, hs] using hok⟩
  simp only [State.sample, hv]
  simp only [List.contains_eq_mem, h, decide_true, Bool.not_true, Bool.false_eq_true, if_false]
  exact (if_neg hok).trans rfl

@[simp] theorem wholeSeconds_fld (s : State) (c : Nat) (e : Int) (f : Field) : (s.wholeSeconds c e).fld f = s.fld f := by
  simp [State.wholeSeconds, apply_ite (fun t : State => t.fld f)]

/-- From UNLOCKED, HOLDOVER or FREERUN a source that becomes valid brings ACQUIRING (R42). -/
theorem srcValid_acquires {s : State} (h : s.fld F.TT_STATUS.STATE = 0 ∨ s.fld F.TT_STATUS.STATE = 3 ∨ s.fld F.TT_STATUS.STATE = 4) (e : Int) :
    (s.srcValid e).fld F.TT_STATUS.STATE = 1 := by
  have hc : (decide (s.fld F.TT_STATUS.STATE = ttUnlocked) || decide (s.fld F.TT_STATUS.STATE = ttHoldover) ||
      decide (s.fld F.TT_STATUS.STATE = ttFreerun)) = true := by rcases h with h | h | h <;> simp [h, ttUnlocked, ttHoldover, ttFreerun]
  unfold State.srcValid
  dsimp only
  rw [if_pos hc, removeError_fld, fld_withTtu, fld_setFld_apart (by decide)]
  exact ttState_state (by decide) s

theorem sample_bellBase_of_valid {s : State} {c : Nat} (h : c ∈ sources s) (hv : (s.src c).valid = true) (e : Int) :
    (s.sample c e).bellBase = (s.setSrc c { s.src c with misses := 0, last := some e }).bellBase := by
  rw [sample_of_valid h hv]
  split <;> simp

theorem sample_bellBase_of_accepted {s : State} {c : Nat} (h : c ∈ sources s) (hv : (s.src c).valid = false) {e : Int} (ha : (s.src c).Accepts e) :
    (s.sample c e).bellBase = (s.setSrc c (.found e)).bellBase := by
  rw [sample_of_accepted h hv ha]; simp

/-- What a sample of source `c` with error `e` leaves of the source and of the reference state (R40, R42). -/
structure Sampled (s t : State) (c : Nat) (e : Int) : Prop where
  time : t.ttu.time = s.ttu.time
  kept : (s.src c).valid = true → t.src c = { s.src c with misses := 0, last := some e }
  found : (s.src c).valid = false → (s.src c).Accepts e → t.src c = .found e
  acquires : (s.src c).valid = false → (s.src c).Accepts e →
    s.fld F.TT_STATUS.STATE = 0 ∨ s.fld F.TT_STATUS.STATE = 3 ∨ s.fld F.TT_STATUS.STATE = 4 → t.fld F.TT_STATUS.STATE = 1
  refused : (s.src c).valid = false → ¬ (s.src c).Accepts e → t.src c = { s.src c with last := some e }

theorem sample_sampled {s : State} {c : Nat} (hc : c = 1 ∨ c = 2 ∨ c = 3) (h : c ∈ sources s) (e : Int) : Sampled s (s.sample c e) c e := by
  by_cases hv : (s.src c).valid = true
  · have hbase := sample_bellBase_of_valid h hv e
    exact ⟨(time_of_bellBase hbase).trans (setSrc_time ..), fun _ => by rw [src_of_bellBase hbase, src_setSrc_same hc],
      fun hn => by simp [hv] at hn, fun hn => by simp [hv] at hn, fun hn => by simp [hv] at hn⟩
  · have hn : (s.src c).valid = false := by simpa using hv
    by_cases ha : (s.src c).Accepts e
    · have hbase := sample_bellBase_of_accepted h hn ha
      refine ⟨(time_of_bellBase hbase).trans (setSrc_time ..), fun h => absurd h hv, fun _ _ => by rw [src_of_bellBase hbase, src_setSrc_same hc],
        fun _ _ hst => ?_, fun _ hr => absurd ha hr⟩
      rw [sample_of_accepted h hn ha, wholeSeconds_fld]
      exact srcValid_acquires (s := s.setSrc c (.found e)) hst e
    · rw [sample_of_refused h hn ha]
      exact ⟨setSrc_time .., fun h => absurd h hv, fun _ h => absurd h ha, fun _ h => absurd h ha, fun _ _ => src_setSrc_same hc ..⟩

/-! ### Lock (R42) -/

@[simp] theorem setSrc_lockRun (s : State) (c : Nat) (b : BellSrc) : (s.setSrc c b).ttu.lockRun = s.ttu.lockRun := by
  simp only [State.setSrc]; split <;> [rfl; (split <;> [rfl; (split <;> rfl)])]

/-- The sample meets the lock threshold (R42). -/
def meetsLock (s : State) (e : Int) : Prop := e.natAbs ≤ s.fld F.TT_LOCK_THRESH.THRESH_NS

/-- A sample with the lock count it leaves (R42). -/
def State.lockCounted (s : State) (e : Int) (n : Nat) : State := { s.removeError e with ttu := { (s.removeError e).ttu with lockRun := n } }

/-- The fourth good sample in a row (R42). -/
def State.lockReached (s : State) (e : Int) (n : Nat) : State :=
  ((({ s.lockCounted e n with ttu := { (s.lockCounted e n).ttu with lockRun := 0, referenced := true } }).ttState ttLocked).raise F.TT_EVT.RELOCKED).vendorEvent 0xC2

theorem lockSample_of_bad {s : State} {e : Int} (hst : s.fld F.TT_STATUS.STATE = 1) (h : ¬ meetsLock s e) : s.lockSample e = s.lockCounted e 0 := by
  unfold meetsLock at h
  simp [State.lockSample, ttAcquiring, hst, h, State.lockCounted]

theorem lockSample_of_good {s : State} {e : Int} (hst : s.fld F.TT_STATUS.STATE = 1) (h : meetsLock s e) : s.lockSample e =
    if 3 ≤ s.ttu.lockRun then s.lockReached e (s.ttu.lockRun + 1) else s.lockCounted e (s.ttu.lockRun + 1) := by
  unfold meetsLock at h
  simp [State.lockSample, ttAcquiring, hst, h, State.lockCounted, State.lockReached]

theorem lockCounted_fields (s : State) (e : Int) (n : Nat) :
    (s.lockCounted e n).fld F.TT_STATUS.STATE = s.fld F.TT_STATUS.STATE ∧ (s.lockCounted e n).ttu.lockRun = n :=
  ⟨removeError_fld .., rfl⟩

theorem lockReached_fields (s : State) (e : Int) (n : Nat) : let t := s.lockReached e n
    t.fld F.TT_STATUS.STATE = 2 ∧ t.ttu.referenced = true ∧ (e.natAbs ≤ 1000000 → t.ttu.slew = e * 1000) ∧ t.fld F.TT_EVT.RELOCKED = 1 ∧ t.zyn = s.zyn := by
  refine ⟨?_, by simp [State.lockReached], fun he => ?_, ?_, ?_⟩
  · rw [State.lockReached, vendorEvent_fld, fld_raise_apart (by decide), ttState_state (by decide)]; rfl
  · simpa [State.lockReached, State.lockCounted] using removeError_small he s
  · rw [State.lockReached, vendorEvent_fld, fld_raise_self (by decide)]
  · have : (s.removeError e).zyn = s.zyn := zyn_of_bellBase (bellBase_removeError s e)
    rw [State.lockReached, vendorEvent_zyn]; exact this

end Sys2Proof.Machine
end

section
/-! SUPPORT. Edges of the BELL input (R39, R40). -/
namespace Sys2Proof.Machine

/-- The selected edge of a configured BELL input. -/
def BellActive (s : State) : Prop := 1 ∈ sources s ∧ s.flag F.TT_SRC.BELL_EDGE = s.boot.bell

/-- An edge that is a sample, before a pending count of seconds is looked at. -/
def State.bellSampled (s : State) : State := s.bellTurns.sample 1 (bellError s)

/-- An edge that is a sample, with the pending count of seconds taken (R39). -/
def State.bellTaken (s : State) : State :=
  match s.ttu.setSec with
  | none => s.bellSampled
  | some n =>
    let t := { s.bellSampled with ttu := { s.bellSampled.ttu with setSec := none } }
    if (t.src 2).valid || (t.src 3).valid then t else t.removeError ((n.toNat * 1000000000 : Nat) - (s.now : Int))

theorem bellEdge_of_inactive {s : State} (h : ¬ BellActive s) : exec .bellEdge s = .next s.bellTurns := by
  have hc : (!(sources s.bellTurns).contains 1 || !(s.flag F.TT_SRC.BELL_EDGE == s.boot.bell)) = true := by
    rw [sources_congr (t := s.bellTurns) (s := s) rfl]
    by_cases h1 : 1 ∈ sources s
    · have h2 : ¬ s.flag F.TT_SRC.BELL_EDGE = s.boot.bell := fun h2 => h ⟨h1, h2⟩
      simp [h2]
    · simp [h1]
  rw [exec_bellEdge, execBellEdge]
  exact if_pos hc

theorem bellEdge_of_active {s : State} (h : BellActive s) : exec .bellEdge s =
    .next (if s.fld F.TT_STATUS.STATE = 2 ∧ 10000 < (bellError s).natAbs then s.bellTurns.srcMiss 1 else s.bellTaken) := by
  obtain ⟨h1, h2⟩ := h
  have hc : ¬ (!(sources s.bellTurns).contains 1 || !(s.flag F.TT_SRC.BELL_EDGE == s.boot.bell)) = true := by
    rw [sources_congr (t := s.bellTurns) (s := s) rfl]; simp [h1, h2]
  rw [exec_bellEdge, execBellEdge]
  refine (if_neg hc).trans ?_
  have hst : (s.bellTurns.fld F.TT_STATUS.STATE) = s.fld F.TT_STATUS.STATE := rfl
  by_cases hr : s.fld F.TT_STATUS.STATE = 2 ∧ 10000 < (bellError s).natAbs
  · rw [if_pos hr]
    exact if_pos (by simpa [ttLocked, hst] using hr)
  · rw [if_neg hr]
    refine (if_neg (by simpa [ttLocked, hst] using hr)).trans ?_
    have hs : s.bellTurns.ttu.setSec = s.ttu.setSec := rfl
    unfold State.bellTaken
    cases hn : s.ttu.setSec with
    | none => simp only [hs, hn]; rfl
    | some n =>
      simp only [hs, hn]
      exact (apply_ite Host.Outcome.next _ _ _).symm

/-! ### What an edge leaves -/

/-- A sample changes the record of its own source alone, besides the reference state. -/
theorem sample_bellBase {s : State} {c : Nat} (h : c ∈ sources s) (e : Int) : ∃ b, (s.sample c e).bellBase = (s.setSrc c b).bellBase := by
  by_cases hv : (s.src c).valid = true
  · exact ⟨_, sample_bellBase_of_valid h hv e⟩
  · have hn : (s.src c).valid = false := by simpa using hv
    by_cases ha : (s.src c).Accepts e
    · exact ⟨_, sample_bellBase_of_accepted h hn ha⟩
    · exact ⟨_, by rw [sample_of_refused h hn ha]⟩

theorem sample_src_ne {s : State} {c d : Nat} (h : c ∈ sources s) (hd : d ≠ c) (e : Int) : (s.sample c e).src d = s.src d := by
  obtain ⟨b, hb⟩ := sample_bellBase h e
  rw [src_of_bellBase hb, src_setSrc_ne hd]

theorem sample_fld {s : State} {c : Nat} (h : c ∈ sources s) (e : Int) {f : Field} (ho : (f.off == R.TT_STATUS || f.off == R.TT_EVT) = false) :
    (s.sample c e).fld f = s.fld f := by
  obtain ⟨b, hb⟩ := sample_bellBase h e
  exact fld_of_bellBase hb ho

theorem bellTaken_keeps (s : State) : (∀ c, s.bellTaken.src c = s.bellSampled.src c) ∧ s.bellTaken.ttu.time = s.bellSampled.ttu.time ∧
    ∀ f, s.bellTaken.fld f = s.bellSampled.fld f := by
  have hbase (t : State) (e : Int) := bellBase_removeError t e
  unfold State.bellTaken
  cases s.ttu.setSec with
  | none => exact ⟨fun _ => rfl, rfl, fun _ => rfl⟩
  | some n =>
    dsimp only
    split
    · exact ⟨fun _ => rfl, rfl, fun _ => rfl⟩
    · exact ⟨fun c => (congrFun (src_of_bellBase (hbase _ _)) c).trans rfl, (time_of_bellBase (hbase _ _)).trans rfl, fun f => removeError_fld ..⟩

theorem bellTaken_sampled {s : State} (h : 1 ∈ sources s) : Sampled s s.bellTaken 1 (bellError s) := by
  obtain ⟨hsrc, htime, hfld⟩ := bellTaken_keeps s
  obtain ⟨h1, h2, h3, h4, h5⟩ := sample_sampled (s := s.bellTurns) (.inl rfl) h (bellError s)
  exact ⟨htime.trans h1, fun a => (hsrc 1).trans (h2 a), fun a b => (hsrc 1).trans (h3 a b), fun a b c => (hfld _).trans (h4 a b c),
    fun a b => (hsrc 1).trans (h5 a b)⟩

/-- The edge in ACQUIRING on BELL: the count of good samples, and lock at the fourth (R42). -/
theorem bellTaken_lock {s : State} (h : 1 ∈ sources s) (hst : s.fld F.TT_STATUS.STATE = 1) (hact : s.fld F.TT_STATUS.ACTIVE_SRC = 1)
    (hv : (s.src 1).valid = true) (hsec : s.ttu.setSec = none) : ∃ u : State, s.bellTaken = u.lockSample (bellError s) ∧ u.zyn = s.zyn ∧
      u.fld F.TT_STATUS.STATE = 1 ∧ u.ttu.lockRun = s.ttu.lockRun ∧ (meetsLock u (bellError s) ↔ meetsLock s (bellError s)) := by
  refine ⟨s.bellTurns.setSrc 1 { s.src 1 with misses := 0, last := some (bellError s) }, ?_, rfl, hst, setSrc_lockRun .., .rfl⟩
  rw [State.bellTaken, hsec]
  exact (sample_of_valid (s := s.bellTurns) h hv _).trans (if_pos hact)

/-- A pending count of seconds is taken, and applied unless PTM or the relay is valid (R39). -/
theorem bellTaken_seconds {s : State} (h : 1 ∈ sources s) {n : Word} (hsec : s.ttu.setSec = some n) :
    let e : Int := (n.toNat * 1000000000 : Nat) - (s.now : Int)
    s.bellTaken.ttu.setSec = none ∧ ((s.src 2).valid = false → (s.src 3).valid = false →
      (e.natAbs ≤ 1000000 → s.bellTaken.ttu.slew = e * 1000) ∧ (1000000 < e.natAbs → s.bellTaken.ttu.step = some e)) := by
  intro e
  let t : State := { s.bellSampled with ttu := { s.bellSampled.ttu with setSec := none } }
  have htaken : s.bellTaken = if (s.bellSampled.src 2).valid || (s.bellSampled.src 3).valid then t else t.removeError e := by
    rw [State.bellTaken, hsec]; rfl
  have hsrc (d : Nat) (hd : d ≠ 1) : s.bellSampled.src d = s.src d := sample_src_ne (s := s.bellTurns) h hd _
  rw [hsrc 2 (by decide), hsrc 3 (by decide)] at htaken
  rw [htaken]
  constructor
  · split
    · rfl
    · exact setSec_of_bellBase (bellBase_removeError t e)
  · intro h2 h3
    rw [h2, h3]
    exact ⟨fun he => removeError_small he t, fun he => removeError_large he t⟩

end Sys2Proof.Machine
end

section
/-! SUPPORT. A write of TT_SRC (R42, R45). -/
namespace Sys2Proof.Machine

theorem findReg_ttSrc : findReg R.TT_SRC = some ({ off := 0x4, reset := 0x3E80000, rwl := 0xFFFF007F }, 0) := by decide

/-- The sources that the register no longer names lose their samples. -/
def State.sourcesKept (s : State) : State := s.each [1, 2, 3] fun s c => s.when (!(sources s).contains c) (·.setSrc c {})

theorem sourcesKept_eq (s : State) : ∃ b1 b2 b3, s.sourcesKept = { s with ttu := { s.ttu with src1 := b1, src2 := b2, src3 := b3 } } ∧
    b1 = (if 1 ∈ sources s then s.src 1 else {}) ∧ b2 = (if 2 ∈ sources s then s.src 2 else {}) ∧ b3 = if 3 ∈ sources s then s.src 3 else {} := by
  have hstep (u : State) (c : Nat) : u.when (!(sources u).contains c) (·.setSrc c {}) = if c ∈ sources u then u else u.setSrc c {} := by
    by_cases h : c ∈ sources u <;> simp [State.when, h]
  refine ⟨_, _, _, ?_, rfl, rfl, rfl⟩
  simp only [State.sourcesKept, State.each, List.foldl_cons, List.foldl_nil, hstep]
  by_cases h1 : 1 ∈ sources s <;> by_cases h2 : 2 ∈ sources s <;> by_cases h3 : 3 ∈ sources s <;> simp [h1, h2, h3] <;> rfl

theorem src_sourcesKept {s : State} {c : Nat} (hc : c = 1 ∨ c = 2 ∨ c = 3) : s.sourcesKept.src c = if c ∈ sources s then s.src c else {} := by
  obtain ⟨b1, b2, b3, h, rfl, rfl, rfl⟩ := sourcesKept_eq s
  rw [h]
  rcases hc with rfl | rfl | rfl <;> rfl

/-- TT_SRC is written, and the sources it no longer names have lost their samples. -/
def State.srcWritten (s : State) (v : Word) : State := (s.storeReg R.TT_SRC v).sourcesKept

section
variable (s : State) (v : Word)

theorem srcWritten_reg {o : Nat} (h : o ≠ R.TT_SRC) : (s.srcWritten v).reg o = s.reg o := by
  obtain ⟨b1, b2, b3, e, -⟩ := sourcesKept_eq (s.storeReg R.TT_SRC v)
  rw [State.srcWritten, e]
  exact (storeReg_reg findReg_ttSrc s v o).trans (if_neg h)
theorem srcWritten_fld {f : Field} (h : f.off ≠ R.TT_SRC) : (s.srcWritten v).fld f = s.fld f := by simp [State.fld, srcWritten_reg s v h]
theorem srcWritten_ttSrc : (s.srcWritten v).reg R.TT_SRC = (s.storeReg R.TT_SRC v).reg R.TT_SRC := by
  obtain ⟨b1, b2, b3, e, -⟩ := sourcesKept_eq (s.storeReg R.TT_SRC v)
  rw [State.srcWritten, e]; rfl
theorem srcWritten_sources : sources (s.srcWritten v) = sources (s.storeReg R.TT_SRC v) := sources_congr (srcWritten_ttSrc s v)
theorem srcWritten_zyn : (s.srcWritten v).zyn = s.zyn := by
  obtain ⟨b1, b2, b3, e, -⟩ := sourcesKept_eq (s.storeReg R.TT_SRC v)
  rw [State.srcWritten, e, storeReg_frame findReg_ttSrc]
theorem srcWritten_referenced : (s.srcWritten v).ttu.referenced = s.ttu.referenced := by
  obtain ⟨b1, b2, b3, e, -⟩ := sourcesKept_eq (s.storeReg R.TT_SRC v)
  rw [State.srcWritten, e, storeReg_frame findReg_ttSrc]
theorem srcWritten_src {c : Nat} (hc : c = 1 ∨ c = 2 ∨ c = 3) :
    (s.srcWritten v).src c = if c ∈ sources (s.storeReg R.TT_SRC v) then s.src c else {} := by
  have : (s.storeReg R.TT_SRC v).src = s.src := by rw [storeReg_frame findReg_ttSrc]; rfl
  rw [State.srcWritten, src_sourcesKept hc, this]
end

/-- The reference state after the write (R42, R45). -/
def State.srcSettled (s : State) (old : Nat) : State :=
  if (sources s).isEmpty then
    ({ s with ttu := { s.ttu with holdover := false, lockRun := 0 } }.setFld F.TT_STATUS.ACTIVE_SRC 0).ttState ttFreerun
  else if old = ttFreerun then s.ttState (if s.ttu.referenced then ttFreerun else ttUnlocked)
  else if s.fld F.TT_STATUS.ACTIVE_SRC ≠ 0 && !(s.src (s.fld F.TT_STATUS.ACTIVE_SRC)).valid then s.activeLost
  else s.ttState old

theorem ttSrcWrite_eq {s : State} (h : s.locked R.TT_SRC = false) (v : Word) :
    exec (.ttSrcWrite v) s = .next ((s.srcWritten v).srcSettled (s.fld F.TT_STATUS.STATE)) := by
  rw [exec_ttSrcWrite, execTtSrcWrite, h, if_neg (by decide)]
  extract_lets old u w
  have hw : s.srcWritten v = w := rfl
  rw [hw]
  clear_value w
  simp only [State.srcSettled, apply_ite Host.Outcome.next]
  rfl

theorem bellBase_srcSettled (s : State) (old : Nat) : (s.srcSettled old).bellBase = s.bellBase := by
  unfold State.srcSettled
  split
  · exact (bellBase_ttState ..).trans ((bellBase_setFld (by decide) _ _).trans (bellBase_ttu rfl rfl rfl rfl rfl))
  · split
    · exact bellBase_ttState ..
    · split
      · exact bellBase_activeLost s
      · exact bellBase_ttState ..

theorem srcSettled_of_none {s : State} (h : sources s = []) (old : Nat) : let t := s.srcSettled old
    t.fld F.TT_STATUS.STATE = 4 ∧ t.fld F.TT_STATUS.UNALIGNED = 0 ∧ t.fld F.TT_STATUS.ACTIVE_SRC = 0 ∧ t.ttu.holdover = false := by
  have hs : s.srcSettled old = ({ s with ttu := { s.ttu with holdover := false, lockRun := 0 } }.setFld F.TT_STATUS.ACTIVE_SRC 0).ttState ttFreerun := by
    simp [State.srcSettled, h]
  intro t
  refine ⟨?_, ?_, ?_, ?_⟩ <;> simp only [t, hs]
  · exact ttState_state (by decide) _
  · rw [ttState_unaligned, sources_congr (s := s), h]
    · rfl
    · exact reg_setReg_ne (by decide) _
  · rw [ttState_fld (by decide) (by decide), fld_setFld_self _ (by decide) (by decide)]
  · rfl

/-- Without a loss the state stands, but for FREERUN, which only a referenced device time keeps. -/
theorem srcSettled_of_freerun {s : State} (h : sources s ≠ []) : let t := s.srcSettled 4
    t.fld F.TT_STATUS.STATE = (if s.ttu.referenced then 4 else 0) ∧ t.fld F.TT_STATUS.UNALIGNED = 1 := by
  have hs : s.srcSettled 4 = s.ttState (if s.ttu.referenced then ttFreerun else ttUnlocked) := by simp [State.srcSettled, h, ttFreerun]
  intro t
  have hne : (sources s).isEmpty = false := by simp [h]
  simp only [t, hs, ttState_unaligned, hne]
  cases s.ttu.referenced
  · exact ⟨ttState_state (by decide) _, rfl⟩
  · exact ⟨ttState_state (by decide) _, rfl⟩

theorem srcSettled_of_kept {s : State} (h : sources s ≠ []) {old : Nat} (ho : old ≠ 4) (h8 : old < 8)
    (ha : s.fld F.TT_STATUS.ACTIVE_SRC = 0 ∨ (s.src (s.fld F.TT_STATUS.ACTIVE_SRC)).valid = true) : let t := s.srcSettled old
    t.fld F.TT_STATUS.STATE = old ∧ t.fld F.TT_STATUS.ACTIVE_SRC = s.fld F.TT_STATUS.ACTIVE_SRC := by
  have hs : s.srcSettled old = s.ttState old := by
    simp only [State.srcSettled, ttFreerun, List.isEmpty_iff, h, ho, if_false]
    exact if_neg (by rcases ha with ha | ha <;> simp [ha])
  intro t
  simp only [t, hs]
  exact ⟨ttState_state h8 _, ttState_fld (by decide) (by decide) ..⟩

theorem srcSettled_of_lost {s : State} (h : sources s ≠ []) {old : Nat} (ho : old ≠ 4) (ha : s.fld F.TT_STATUS.ACTIVE_SRC ≠ 0)
    (hv : (s.src (s.fld F.TT_STATUS.ACTIVE_SRC)).valid = false) : s.srcSettled old = s.activeLost := by
  simp [State.srcSettled, ttFreerun, h, ho, ha, hv]

end Sys2Proof.Machine
end

section
/-! SUPPORT. What each command on the reference state gives (R38 to R45). -/
namespace Sys2Proof.Machine

/-- What the loss of BELL leaves (R40, R42). -/
theorem srcInvalid_bell (s : State) : (s.srcInvalid 1).ttu.src1.valid = false ∧ (s.srcInvalid 1).ttu.src1.misses = 0 ∧ (s.srcInvalid 1).zyn = s.zyn ∧
    LosesSource s (s.srcInvalid 1) 1 := by
  have h := srcInvalid_src (c := 1) (.inl rfl) s
  exact ⟨congrArg BellSrc.valid h, congrArg BellSrc.misses h, (zyn_of_bellBase (bellBase_srcInvalid s 1)).trans rfl, srcInvalid_loses (.inl rfl) s⟩

/-- A missed PTM interval: PTM_VALID falls with the source (R40). -/
theorem ptmIntervalMiss_eq {s : State} (h : 2 ∈ sources s) : exec .ptmIntervalMiss s =
    .next ((s.srcMiss 2).when (!((s.srcMiss 2).src 2).valid) (·.clear F.HIU_PORT_STATUS.PTM_VALID)) := by
  rw [exec_ptmIntervalMiss, execPtmIntervalMiss]
  simp [State.when, h, done]

/-- No valid source but `c` is left when every other one is invalid. -/
theorem otherSource_of_invalid {s : State} {c : Nat} (h : ∀ d ∈ sources s, d ≠ c → (s.src d).valid = false) : otherSource s c = 0 := by
  have : ((sources s).find? fun d => d != c && (s.src d).valid) = none := by
    rw [List.find?_eq_none]
    intro d hd
    by_cases hc : d = c
    · simp [hc]
    · simp [h d hd hc]
  simp [otherSource, this]

theorem bestSource_of_invalid {s : State} (h : ∀ d ∈ sources s, (s.src d).valid = false) : bestSource s = 0 := by
  have : ((sources s).find? fun d => (s.src d).valid) = none := by
    rw [List.find?_eq_none]
    intro d hd; simp [h d hd]
  simp [bestSource, this]

/-- A source that is valid is BELL, PTM or the relay (R38). -/
theorem code_of_valid {s : State} {c : Nat} (h : (s.src c).valid = true) : c = 1 ∨ c = 2 ∨ c = 3 := by
  by_contra hc
  obtain ⟨h1, h2, h3⟩ : c ≠ 1 ∧ c ≠ 2 ∧ c ≠ 3 := by omega
  simp [State.src, h1, h2, h3] at h

/-- What a sample that `x` brings leaves, in the terms of the source's own record. -/
theorem Sampled.gives {s t : State} {c : Nat} {e : Int} (h : Sampled s t c e) {x : Instr} (hx : exec x s = .next t) :
    ((s.src c).valid = true → Gives s x fun t => t.src c = { s.src c with misses := 0, last := some e } ∧ t.ttu.time = s.ttu.time) ∧
      ((s.src c).valid = false →
        ((s.src c).Accepts e → Gives s x fun t => t.src c = .found e ∧ t.ttu.time = s.ttu.time ∧
          (s.fld F.TT_STATUS.STATE = 0 ∨ s.fld F.TT_STATUS.STATE = 3 ∨ s.fld F.TT_STATUS.STATE = 4 → t.fld F.TT_STATUS.STATE = 1)) ∧
        (¬ (s.src c).Accepts e → Gives s x fun t => t.src c = { s.src c with last := some e } ∧ t.ttu.time = s.ttu.time)) :=
  ⟨fun hv => ⟨t, hx, h.kept hv, h.time⟩,
    fun hv => ⟨fun ha => ⟨t, hx, h.found hv ha, h.time, h.acquires hv ha⟩, fun hr => ⟨t, hx, h.refused hv hr, h.time⟩⟩⟩

/-- PTM_VALID is raised, and the dialog is a sample (R38, R39). -/
theorem ptmDialog_sampled {s : State} (h : 2 ∈ sources s) (root : Word64) :
    Sampled s ((s.raise F.HIU_PORT_STATUS.PTM_VALID).sample 2 ((root.toNat : Int) - s.now)) 2 ((root.toNat : Int) - s.now) := by
  have hst : (s.raise F.HIU_PORT_STATUS.PTM_VALID).fld F.TT_STATUS.STATE = s.fld F.TT_STATUS.STATE := fld_raise_apart (by decide) s
  have hsrc : sources (s.raise F.HIU_PORT_STATUS.PTM_VALID) = sources s := sources_congr (reg_setReg_ne (by decide) _)
  obtain ⟨h1, h2, h3, h4, h5⟩ := sample_sampled (s := s.raise F.HIU_PORT_STATUS.PTM_VALID) (.inr (.inl rfl)) (by rwa [hsrc]) ((root.toNat : Int) - s.now)
  rw [hst] at h4
  exact ⟨h1, h2, h3, h4, h5⟩

theorem ptmDialog_fields (s : State) (root : Word64) : Gives s (.ptmDialog root) fun t =>
    t.fld F.HIU_PORT_STATUS.PTM_VALID = 1 ∧ (2 ∉ sources s → t.ttu = s.ttu) := by
  have hraise : (s.raise F.HIU_PORT_STATUS.PTM_VALID).fld F.HIU_PORT_STATUS.PTM_VALID = 1 := fld_raise_self (by decide) s
  have hsrc : sources (s.raise F.HIU_PORT_STATUS.PTM_VALID) = sources s := sources_congr (reg_setReg_ne (by decide) _)
  refine ⟨_, exec_ptmDialog .., ?_, fun h => ?_⟩
  · by_cases h : 2 ∈ sources s
    · rw [sample_fld (by rwa [hsrc]) _ (by decide), hraise]
    · rw [sample_of_absent (by rwa [hsrc]), hraise]
  · rw [sample_of_absent (by rwa [hsrc])]; rfl

theorem holdoverTimeout_of_idle {s : State} (h : s.fld F.TT_STATUS.STATE ≠ 3 ∨ bestSource s ≠ 0) : exec .holdoverTimeout s = .next s := by
  rw [exec_holdoverTimeout, execHoldoverTimeout]
  rcases h with h | h <;> simp [State.when, ttHoldover, h, done]

theorem holdoverTimeout_of_due {s : State} (h : s.fld F.TT_STATUS.STATE = 3) (hb : bestSource s = 0) : exec .holdoverTimeout s = .next s.freerun := by
  rw [exec_holdoverTimeout, execHoldoverTimeout]
  simp [State.when, ttHoldover, h, hb, done]

end Sys2Proof.Machine
end

section
/-! SUPPORT. BELL, PTM and TT_SRC by cases (R39, R40, R42, R45). -/
namespace Sys2Proof.Machine

/-- Lock on BELL by the samples met so far (R42). -/
theorem bellEdge_lock {s : State} (hm : BellActive s) (hst : s.fld F.TT_STATUS.STATE = 1) (hact : s.fld F.TT_STATUS.ACTIVE_SRC = 1) (hv : (s.src 1).valid = true) (hsec : s.ttu.setSec = none) :
    (¬ meetsLock s (bellError s) → Gives s .bellEdge fun t => t.fld F.TT_STATUS.STATE = 1 ∧ t.ttu.lockRun = 0) ∧
      (meetsLock s (bellError s) → s.ttu.lockRun < 3 → Gives s .bellEdge fun t => t.fld F.TT_STATUS.STATE = 1 ∧ t.ttu.lockRun = s.ttu.lockRun + 1) ∧
      (meetsLock s (bellError s) → 3 ≤ s.ttu.lockRun → Gives s .bellEdge fun t => t.fld F.TT_STATUS.STATE = 2 ∧ t.ttu.referenced = true ∧
        ((bellError s).natAbs ≤ 1000000 → t.ttu.slew = bellError s * 1000) ∧ t.fld F.TT_EVT.RELOCKED = 1 ∧ t.zyn = s.zyn) := by
  obtain ⟨u, htaken, hzyn, hstu, hrun, hmeets⟩ := bellTaken_lock hm.1 hst hact hv hsec
  have hx : exec .bellEdge s = .next (u.lockSample (bellError s)) := by rw [bellEdge_of_active hm, if_neg (by omega), htaken]
  refine ⟨fun hbad => ?_, fun hgood hfew => ?_, fun hgood hmany => ?_⟩
  · rw [lockSample_of_bad hstu (fun h => hbad (hmeets.1 h))] at hx
    obtain ⟨h1, h2⟩ := lockCounted_fields u (bellError s) 0
    exact ⟨_, hx, h1.trans hstu, h2⟩
  · rw [lockSample_of_good hstu (hmeets.2 hgood), hrun, if_neg (by omega)] at hx
    obtain ⟨h1, h2⟩ := lockCounted_fields u (bellError s) (s.ttu.lockRun + 1)
    exact ⟨_, hx, h1.trans hstu, h2⟩
  · rw [lockSample_of_good hstu (hmeets.2 hgood), hrun, if_pos hmany] at hx
    obtain ⟨h1, h2, h3, h4, h5⟩ := lockReached_fields u (bellError s) (s.ttu.lockRun + 1)
    exact ⟨_, hx, h1, h2, h3, h4, h5.trans hzyn⟩

/-- The third missed PTM interval (R40, R42). -/
theorem ptmIntervalMiss_third {s : State} (h : 2 ∈ sources s) (hm : 2 ≤ s.ttu.src2.misses) : Gives s .ptmIntervalMiss fun t =>
    t.ttu.src2.valid = false ∧ t.fld F.HIU_PORT_STATUS.PTM_VALID = 0 ∧ (s.fld F.TT_STATUS.ACTIVE_SRC = 2 → s.fld F.TT_STATUS.STATE = 2 →
      (∀ c ∈ sources s, c ≠ 2 → (s.src c).valid = false) → Held s t) := by
  have hmiss : s.srcMiss 2 = s.srcInvalid 2 := srcMiss_of_third hm
  have hv : (s.srcInvalid 2).ttu.src2.valid = false := congrArg BellSrc.valid (srcInvalid_src (c := 2) (.inr (.inl rfl)) s)
  have hx : exec .ptmIntervalMiss s = .next ((s.srcInvalid 2).clear F.HIU_PORT_STATUS.PTM_VALID) := by
    have hn : (!((s.srcInvalid 2).src 2).valid) = true := by rw [srcInvalid_src (.inr (.inl rfl))]; rfl
    rw [ptmIntervalMiss_eq h, hmiss, State.when, if_pos hn]
  refine ⟨_, hx, hv, fld_clear_self (by decide) _, fun ha hst hinv => ?_⟩
  obtain ⟨-, lost⟩ := srcInvalid_loses (c := 2) (.inr (.inl rfl)) s
  obtain ⟨-, -, hheld, -⟩ := lost ha (.inr hst)
  obtain ⟨h1, h2, h3, h4, h5⟩ := hheld (otherSource_of_invalid hinv) (.inl hst)
  refine ⟨?_, ?_, ?_, ?_, h5⟩ <;> rw [fld_clear_apart (by decide)] <;> assumption

/-- A write of TT_SRC, by what is configured and valid after it (R42, R45). -/
theorem ttSrcWrite_gives {s : State} (h : s.locked R.TT_SRC = false) (v : Word) : Gives s (.ttSrcWrite v) fun t =>
    let u := s.storeReg R.TT_SRC v
    let st := s.fld F.TT_STATUS.STATE
    let act := s.fld F.TT_STATUS.ACTIVE_SRC
    t.reg R.TT_SRC = u.reg R.TT_SRC ∧ t.zyn = s.zyn ∧ (∀ c ∈ [1, 2, 3], t.src c = if c ∈ sources u then s.src c else {}) ∧
    (sources u = [] → t.fld F.TT_STATUS.STATE = 4 ∧ t.fld F.TT_STATUS.UNALIGNED = 0 ∧ t.fld F.TT_STATUS.ACTIVE_SRC = 0 ∧ t.ttu.holdover = false) ∧
    (sources u ≠ [] → st = 4 → t.fld F.TT_STATUS.STATE = (if s.ttu.referenced then 4 else 0) ∧ t.fld F.TT_STATUS.UNALIGNED = 1) ∧
    (sources u ≠ [] → st ≠ 4 → act = 0 ∨ (act ∈ sources u ∧ (s.src act).valid = true) → t.fld F.TT_STATUS.STATE = st ∧ t.fld F.TT_STATUS.ACTIVE_SRC = act) ∧
    (sources u ≠ [] → st = 2 → act ≠ 0 → (∀ c ∈ sources u, (s.src c).valid = false) → Held s t) := by
  have hbase := bellBase_srcSettled (s.srcWritten v) (s.fld F.TT_STATUS.STATE)
  have hsrcs := srcWritten_sources s v
  have hfst : (s.srcWritten v).fld F.TT_STATUS.STATE = s.fld F.TT_STATUS.STATE := srcWritten_fld s v (by decide)
  have hact : (s.srcWritten v).fld F.TT_STATUS.ACTIVE_SRC = s.fld F.TT_STATUS.ACTIVE_SRC := srcWritten_fld s v (by decide)
  have hlim : (s.srcWritten v).fld F.TT_HOLDOVER_LIMIT.LIMIT_S = s.fld F.TT_HOLDOVER_LIMIT.LIMIT_S := srcWritten_fld s v (by decide)
  have hkept {c : Nat} (hc : c = 1 ∨ c = 2 ∨ c = 3) := srcWritten_src s v hc
  refine ⟨_, ttSrcWrite_eq h v, ?_, ?_, fun c hc => ?_, fun h0 => ?_, fun hne hst => ?_, fun hne hst hok => ?_, fun hne hst ha hinv => ?_⟩
  · rw [reg_of_bellBase hbase (by decide), srcWritten_ttSrc]
  · rw [zyn_of_bellBase hbase, srcWritten_zyn]
  · rw [src_of_bellBase hbase]
    exact hkept (by simpa using hc)
  · exact srcSettled_of_none (by rw [hsrcs]; exact h0) _
  · rw [hst, ← srcWritten_referenced s v]
    exact srcSettled_of_freerun (by rw [hsrcs]; exact hne)
  · rw [← hact] at hok ⊢
    refine srcSettled_of_kept (by rw [hsrcs]; exact hne) hst (fld_lt s _) (hok.imp id fun ⟨hm, hv⟩ => ?_)
    rw [hkept (code_of_valid hv), if_pos hm]
    exact hv
  · have hdropped (c : Nat) : ((s.srcWritten v).src c).valid = false := by
      by_cases hc : c = 1 ∨ c = 2 ∨ c = 3
      · rw [hkept hc]
        split
        · exact hinv c ‹_›
        · rfl
      · simpa using fun hv => hc (code_of_valid hv)
    rw [srcSettled_of_lost (by rw [hsrcs]; exact hne) (by rw [hst]; decide) (by rw [hact]; exact ha) (hdropped _)]
    obtain ⟨-, -, hheld, -⟩ := activeLost_fields (s := s.srcWritten v) (.inr (hfst.trans hst))
    have := hheld (bestSource_of_invalid fun d _ => hdropped d) (.inl (hfst.trans hst))
    rwa [Held, hlim] at this

end Sys2Proof.Machine

open Sys2Proof Sys2Proof.Machine in
/-- Settles O37: an edge or dialog is one sample (`sample_sampled`, and `bellEdge_lock` in ACQUIRING), a source that is lost moves the reference state by
`srcInvalid_loses`, and a write of TT_SRC drops sources and settles the state (`ttSrcWrite_gives`). -/
theorem bellSourcesAndReference : Obligations.BellSourcesAndReference := by
  intro s root v st act err at0 mine sampled held loses
  have hloses {x : Instr} (hx : exec x s = .next (s.srcInvalid 1)) : loses x := ⟨_, hx, srcInvalid_bell s⟩
  refine ⟨bellEdge_of_inactive, fun hm hst herr => ⟨fun hfew => ?_, fun hmany => ?_⟩, fun hm hr => ⟨?_, fun h1 ha hv hsec => ?_, fun n hsec => ?_⟩,
    fun h => ?_, fun h => hloses ?_, ptmDialog_fields s root, fun h => ?_, fun h => ?_, fun h => ⟨fun hfew => ?_, ptmIntervalMiss_third h⟩,
    holdoverTimeout_of_idle, fun h hb => ?_, fun h => ?_, fun h => ttSrcWrite_gives h v⟩
  · rw [bellEdge_of_active hm, if_pos ⟨hst, herr⟩, srcMiss_of_few (show (s.bellTurns.src 1).misses < 2 from hfew)]
    rfl
  · have hx : exec .bellEdge s = .next (s.bellTurns.srcInvalid 1) := by
      rw [bellEdge_of_active hm, if_pos ⟨hst, herr⟩, srcMiss_of_third (show 2 ≤ (s.bellTurns.src 1).misses from hmany)]
    exact ⟨_, hx, srcInvalid_bell s.bellTurns⟩
  · exact (bellTaken_sampled hm.1).gives (by rw [bellEdge_of_active hm, if_neg (by omega)])
  · exact bellEdge_lock hm h1 ha hv hsec
  · exact ⟨_, by rw [bellEdge_of_active hm, if_neg (by omega)], bellTaken_seconds hm.1 hsec⟩
  · rw [exec_bellEdgeTimeout, execBellEdgeTimeout]; simp [State.when, h, done]
  · rw [exec_bellEdgeTimeout, execBellEdgeTimeout]; simp [State.when, h, done]
  · exact (ptmDialog_sampled h root).gives (exec_ptmDialog ..)
  · rw [exec_ptmIntervalMiss, execPtmIntervalMiss]; simp [State.when, h, done]
  · obtain hw | hw := when_eq_or (s.srcMiss 2) (!((s.srcMiss 2).src 2).valid) (·.clear F.HIU_PORT_STATUS.PTM_VALID) <;>
      exact ⟨_, ptmIntervalMiss_eq h, by rw [hw, srcMiss_of_few (show (s.src 2).misses < 2 from hfew)]; rfl⟩
  · obtain ⟨h1, h2, h3, -⟩ := freerun_fields s
    exact ⟨_, holdoverTimeout_of_due h hb, h1, h3, h2, time_of_bellBase (bellBase_freerun s)⟩
  · rw [exec_ttSrcWrite, execTtSrcWrite, h]; rfl
end

section
/-! SUPPORT. Admin completions that are posted at once, and events before them (R55, R134, R166, R167). -/
namespace Sys2Proof.Machine

/-- The admin CQ of a function takes its completion now: no reset of the function runs, and the queue has an entry that none waits for. -/
def CanPost (s : State) (f : Nat) : Prop :=
  (s.func f).resetting = false ∧ (s.func f).flr = false ∧ ∀ q, s.cq f 0 = some q → q.full = false ∧ q.wait = []

theorem Cq.full_of_room {q : Cq} (h : 0 < q.room) : q.full = false := by
  simp only [Cq.full, beq_eq_false_iff_ne]
  intro hf
  refine absurd h (Nat.not_lt.2 (Nat.le_of_eq ?_))
  unfold Cq.room
  have hd := Nat.div_add_mod (q.tail + 1) q.size
  rw [hf] at hd
  generalize (q.tail + 1) / q.size = a at hd
  match a with
  | 0 => rw [show q.head + q.size - 1 - q.tail = q.size by omega, Nat.mod_self]
  | 1 => rw [show q.head + q.size - 1 - q.tail = 0 by omega, Nat.zero_mod]
  | n + 2 =>
    have : q.size * (n + 2) = q.size * n + q.size + q.size := by ring
    rw [show q.head + q.size - 1 - q.tail = 0 by omega, Nat.zero_mod]

/-- With two entries free the queue is not full after one completion. -/
theorem Cq.full_advance {q : Cq} (h : 2 ≤ q.room) (n : Nat) : Cq.full { q with tail := (q.tail + 1) % q.size, held := n } = false := by
  simp only [Cq.full, beq_eq_false_iff_ne]
  intro hf
  refine absurd h (Nat.not_le.2 (Nat.lt_succ_of_le ?_))
  unfold Cq.room
  by_cases h0 : q.size = 0
  · simp only [h0, Nat.mod_zero] at hf ⊢; omega
  have hr : (q.tail + 1) % q.size < q.size := Nat.mod_lt _ (Nat.pos_of_ne_zero h0)
  have hd := Nat.div_add_mod (q.tail + 1) q.size
  generalize (q.tail + 1) % q.size = r at hd hf hr
  have hhead : (r + 1 < q.size ∧ q.head = r + 1) ∨ (r + 1 = q.size ∧ q.head = 0) := by
    by_cases hlt : r + 1 < q.size
    · exact .inl ⟨hlt, by rw [← hf, Nat.mod_eq_of_lt hlt]⟩
    · have hsize : r + 1 = q.size := by omega
      exact .inr ⟨hsize, by rw [← hf, hsize, Nat.mod_self]⟩
  generalize (q.tail + 1) / q.size = a at hd
  have hle (n : Nat) (hn : n ≤ 1) : n % q.size ≤ 1 := (Nat.mod_le _ _).trans hn
  match a with
  | 0 =>
    rcases hhead with ⟨-, hh⟩ | ⟨hh', hh⟩
    · rw [show q.head + q.size - 1 - q.tail = 1 + q.size by omega, Nat.add_mod_right]; exact hle 1 le_rfl
    · exact hle _ (by omega)
  | 1 => exact hle _ (by omega)
  | n + 2 =>
    have : q.size * (n + 2) = q.size * n + q.size + q.size := by ring
    exact hle _ (by omega)

theorem Live.canPost {s : State} {f : Nat} (h : Live s f) : CanPost s f := by
  obtain ⟨h1, h2, h3⟩ := h
  exact ⟨h1, h2, fun q hq => ⟨Cq.full_of_room (Nat.lt_of_le_of_lt (Nat.zero_le _) (h3 q hq).2), (h3 q hq).1⟩⟩

theorem mem_postCqe (s : State) (f q : Nat) (e : Cqe) : Out.cqe f q e ∈ (s.postCqe f q e).out := by
  unfold State.postCqe
  split
  · exact List.mem_cons_self
  · dsimp only
    split
    · exact List.mem_cons_self
    · split
      · exact List.mem_cons_of_mem _ List.mem_cons_self
      · exact List.mem_cons_self

theorem adminDone_of_canPost {s : State} {f : Nat} (h : CanPost s f) (cid : BitVec 16) (sct sc : Nat) (a b : Word) :
    s.adminDone f cid sct sc a b = s.adminPost f cid sct sc a b := by
  obtain ⟨h1, h2, h3⟩ := h
  unfold State.adminDone
  dsimp only
  rw [h1, h2, if_neg (by decide)]
  cases hq : s.cq f 0 with
  | none => rfl
  | some q => simp [h3 q hq]

/-- The completion leaves the block with its status and Dword 0. -/
theorem adminDone_posts {s : State} {f : Nat} (h : CanPost s f) (cid : BitVec 16) (sct sc : Nat) (a b : Word) :
    ∃ q e, Out.cqe f q e ∈ (s.adminDone f cid sct sc a b).out ∧ e.cid = cid ∧ e.sct = sct ∧ e.sc = sc ∧ e.dw0 = a := by
  rw [adminDone_of_canPost h]
  exact ⟨0, _, mem_postCqe .., rfl, rfl, rfl, rfl⟩

theorem adminDone_posted {s : State} {f : Nat} (h : CanPost s f) (cid : BitVec 16) (sct sc : Nat) (a b : Word) :
    Posted (s.adminDone f cid sct sc a b) f cid sct sc := by
  obtain ⟨q, e, h1, h2, h3, h4, -⟩ := adminDone_posts h cid sct sc a b
  exact ⟨q, e, h1, h2, h3, h4⟩

theorem ok_posted {s : State} {f : Nat} (h : CanPost s f) (cid : BitVec 16) (a : Word) : Posted (s.ok f cid a) f cid 0 0 := adminDone_posted h ..

/-- Whether a function can post is seen in its controller and its admin CQ alone. -/
theorem CanPost.congr {s t : State} {f : Nat} (h : CanPost s f) (hf : t.func f = s.func f) (hq : t.cq f 0 = s.cq f 0) : CanPost t f := by
  unfold CanPost; rw [hf, hq]; exact h

/-! ### An event before the completion -/

theorem qkey_ne {f g : Nat} (h : f ≠ g) : qkey f 0 ≠ qkey g 0 := by unfold qkey; omega

theorem postCqe_cq_ne {s : State} {f g : Nat} (h : g ≠ f) (e : Cqe) : (s.postCqe f 0 e).cq g 0 = s.cq g 0 := by
  have hput (t : State) (ht : t.host.cqs = s.host.cqs) (c : Cq) : (t.setCq f 0 c).cq g 0 = s.cq g 0 := by
    simp only [State.cq, State.setCq, sget_sput_ne (qkey_ne h), ht]
  unfold State.postCqe
  split
  · rfl
  · dsimp only
    split
    · exact hput _ rfl _
    · split
      · exact hput _ rfl _
      · exact hput _ rfl _

theorem postCqe_cq_same {s : State} {f : Nat} {c : Cq} (h : s.cq f 0 = some c) (e : Cqe) :
    ∃ n, (s.postCqe f 0 e).cq f 0 = some { c with tail := (c.tail + 1) % c.size, held := n } := by
  unfold State.postCqe
  rw [h]
  dsimp only
  split
  · exact ⟨c.held, by simp [State.cq, State.setCq]⟩
  · split
    · exact ⟨0, by simp [State.cq, State.setCq, State.emit]⟩
    · exact ⟨c.held + 1, by simp [State.cq, State.setCq]⟩

theorem adminDone_cq_ne {s : State} {f g : Nat} (h : g ≠ f) (cid : BitVec 16) (sct sc : Nat) (a b : Word) :
    (s.adminDone f cid sct sc a b).cq g 0 = s.cq g 0 := by
  unfold State.adminDone
  dsimp only
  split
  · rfl
  · split
    · split
      · simp only [State.cq, State.setCq, sget_sput_ne (qkey_ne h)]
      · exact postCqe_cq_ne h _
    · exact postCqe_cq_ne h _

theorem func_setFunc_ne {s : State} {f g : Nat} (h : g ≠ f) (x : Func) : (s.setFunc f x).func g = s.func g := by
  simp only [State.func, State.setFunc, sgetD_sput_ne h]; rfl

/-- A write of a controller shows in it, but for the marks that every PF has. -/
theorem func_setFunc_same (s : State) (f : Nat) (x : Func) :
    (s.setFunc f x).func f = if s.isPf f then { x with present := true, online := true } else x := by
  simp only [State.func, State.setFunc, sgetD_sput_same]; rfl

theorem adminPost_cq_none {s : State} {f : Nat} (h : s.cq f 0 = none) (cid : BitVec 16) (sct sc : Nat) (a b : Word) :
    (s.adminPost f cid sct sc a b).cq f 0 = none := by
  have hpost (t : State) (ht : t.cq f 0 = none) (e : Cqe) : (t.postCqe f 0 e).cq f 0 = none := by
    unfold State.postCqe; rw [ht]; exact ht
  unfold State.adminPost
  refine hpost _ ?_ _
  exact h

theorem adminPost_cq_some {s : State} {f : Nat} {c : Cq} (h : s.cq f 0 = some c) (cid : BitVec 16) (sct sc : Nat) (a b : Word) :
    ∃ n, (s.adminPost f cid sct sc a b).cq f 0 = some { c with tail := (c.tail + 1) % c.size, held := n } := by
  have hpost (t : State) (ht : t.cq f 0 = some c) (e : Cqe) := postCqe_cq_same ht e
  unfold State.adminPost
  refine hpost _ ?_ _
  exact h

/-- With two entries free a completion leaves one. -/
theorem canPost_adminDone {s : State} {f : Nat} (h : CanPost s f) (hr : ∀ q, s.cq f 0 = some q → 2 ≤ q.room) (cid : BitVec 16) (sct sc : Nat) (a b : Word) :
    CanPost (s.adminDone f cid sct sc a b) f := by
  refine ⟨(congrArg Func.resetting (adminDone_func ..)).trans h.1, (congrArg Func.flr (adminDone_func ..)).trans h.2.1, fun q hq => ?_⟩
  rw [adminDone_of_canPost h] at hq
  cases hc : s.cq f 0 with
  | none => rw [adminPost_cq_none hc] at hq; cases hq
  | some c =>
    obtain ⟨n, hn⟩ := adminPost_cq_some hc cid sct sc a b
    obtain rfl := Option.some.inj (hn.symm.trans hq)
    exact ⟨Cq.full_advance (hr c hc) n, (h.2.2 c hc).2⟩

theorem canPost_adminDone_ne {s : State} {k f : Nat} (h : CanPost s k) (hk : k ≠ f) (cid : BitVec 16) (sct sc : Nat) (a b : Word) :
    CanPost (s.adminDone f cid sct sc a b) k := h.congr (adminDone_func ..) (adminDone_cq_ne hk ..)

/-- A change of a controller that keeps its resets. -/
theorem canPost_setFunc {s : State} {k f : Nat} (h : CanPost s k) {x : Func} (hr : x.resetting = (s.func f).resetting) (hf : x.flr = (s.func f).flr) :
    CanPost (s.setFunc f x) k := by
  by_cases hk : k = f
  · subst hk
    obtain ⟨h1, h2, h3⟩ := h
    have hfunc := func_setFunc_same s k x
    refine ⟨?_, ?_, h3⟩ <;> rw [hfunc] <;> split <;> simp [hr, hf, h1, h2]
  · exact h.congr (func_setFunc_ne hk x) rfl

/-- An event takes at most one entry of its function's admin CQ, which is there for an outstanding request (R55, R167). -/
theorem canPost_aen {s : State} {k : Nat} (h : Live s k) (f ty info : Nat) : CanPost (s.aen f ty info) k := by
  unfold State.aen
  dsimp only
  split
  · exact h.canPost
  · split
    · exact canPost_setFunc h.canPost rfl rfl
    · next cid rest haers =>
      generalize hx : ({ s.func f with aers := rest, reported := (ty, info) :: (s.func f).reported } : Func) = x
      have hs : CanPost (s.setFunc f x) k := canPost_setFunc h.canPost (by rw [← hx]) (by rw [← hx])
      by_cases hk : k = f
      · subst hk
        refine canPost_adminDone hs (fun q hq => ?_) ..
        have := (h.2.2 q hq).2
        simp only [haers, List.length_cons] at this
        omega
      · exact canPost_adminDone_ne hs hk ..

theorem canPost_vendorEvent {s : State} {k : Nat} (h : Live s k) (i : Nat) : CanPost (s.vendorEvent i) k := canPost_aen h ..

end Sys2Proof.Machine
end

section
/-! SUPPORT. The staged Timetable, commit requests and named Assemblies (R47, R49, R56, R64, R66, R68). -/
namespace Sys2Proof.Machine

theorem exec_ttCtrlEnWrite (w : Word) (s : State) : exec (.ttCtrlEnWrite w) s = execTtCtrlEnWrite w s := by rfl
theorem exec_ttSetSecWrite (sec : Word) (s : State) : exec (.ttSetSecWrite sec) s = execTtSetSecWrite sec s := by rfl
theorem exec_ttGcCtrlReq (s : State) : exec .ttGcCtrlReq s = .next (s.gcRequest .timetable) := by rfl
theorem exec_ttNamedCtrlArm (s : State) : exec .ttNamedCtrlArm s = .next (s.armNamed (BitVec.ofNat 64 (s.pair R.TT_NAMED_PNUM_LO))) := by rfl
theorem exec_timetableCommand (f : BitVec 12) (cid : BitVec 16) (b : Bool) (v : Word64) (s : State) :
    exec (.timetableCommand f cid b v) s = execTimetableCommand f cid b v s := by rfl

/-! ### What an operation over a list keeps -/

theorem each_proj {α β : Type} {p : State → β} {f : State → α → State} (h : ∀ t x, p (f t x) = p t) (s : State) (l : List α) : p (s.each l f) = p s := by
  induction l generalizing s with
  | nil => rfl
  | cons x l ih => exact (ih (f s x)).trans (h s x)

/-! ### The staged set (R47, R66) -/

/-- An offset of the staged Timetable. -/
def StagedReg (o : Nat) : Prop := o = R.TT_GEOM_STAGE ∨ o = R.TT_OFFSET_STAGE ∨ ∃ k < 256, o = R.TT_TABLE_STAGE + 4 * k

/-- Whether the staged set is valid is seen in its registers alone. -/
theorem stagedValid_congr {s t : State} (h : ∀ o, StagedReg o → t.reg o = s.reg o) : stagedValid t = stagedValid s := by
  have hf (f : Field) (hf : StagedReg f.off) : t.fld f = s.fld f := by simp only [State.fld, h _ hf]
  have h1 := hf F.TT_GEOM_STAGE.CYCLE_M1 (.inl rfl)
  have h2 := hf F.TT_GEOM_STAGE.LEN_US (.inl rfl)
  have h3 := hf F.TT_OFFSET_STAGE.OFFSET (.inr (.inl rfl))
  have hc : s.fld F.TT_GEOM_STAGE.CYCLE_M1 + 1 ≤ 4096 := fld_lt s F.TT_GEOM_STAGE.CYCLE_M1
  have ht (i : Nat) : tableEntry t R.TT_TABLE_STAGE (i % (s.fld F.TT_GEOM_STAGE.CYCLE_M1 + 1)) =
      tableEntry s R.TT_TABLE_STAGE (i % (s.fld F.TT_GEOM_STAGE.CYCLE_M1 + 1)) := by
    have hi : i % (s.fld F.TT_GEOM_STAGE.CYCLE_M1 + 1) < s.fld F.TT_GEOM_STAGE.CYCLE_M1 + 1 := Nat.mod_lt _ (Nat.succ_pos _)
    generalize i % (s.fld F.TT_GEOM_STAGE.CYCLE_M1 + 1) = r at hi
    have hr : r / 16 < 256 := by omega
    simp only [tableEntry, h _ (.inr (.inr ⟨r / 16, hr, rfl⟩))]
  have hr : (List.range 256).all (fun k => stageRegOk (t.reg (R.TT_TABLE_STAGE + 4 * k))) =
      (List.range 256).all fun k => stageRegOk (s.reg (R.TT_TABLE_STAGE + 4 * k)) := by
    rw [Bool.eq_iff_iff, List.all_eq_true, List.all_eq_true]
    exact forall₂_congr fun k hk => by rw [h _ (.inr (.inr ⟨k, List.mem_range.1 hk, rfl⟩))]
  simp only [stagedValid, h1, h2, h3, ht, hr]

/-! ### RDY follows EN (R179, R439) -/

theorem readyEval_keeps (s : State) : s.readyEval.ttu = s.ttu ∧ s.readyEval.zyn = s.zyn ∧ ∀ o, o ≠ R.BOOT_STATUS → s.readyEval.reg o = s.reg o := by
  have hite (t : State) (b : Bool) (f : Nat) (g : Func) : (fun u : State => (u.ttu, u.zyn, u.regs, u.variant)) (if b then t else t.setFunc f g) =
      (t.ttu, t.zyn, t.regs, t.variant) := by cases b <;> rfl
  have h := each_proj (p := fun u : State => (u.ttu, u.zyn, u.regs, u.variant)) (f := fun s' f =>
    let g := s'.func f
    let r := if g.resetting || g.flr || g.heldReset then g.rdy else s.flag F.TT_CTRL.EN && readyWait s' f
    if r == g.rdy then s' else s'.setFunc f { g with rdy := r, enabling := g.enabling && !r }) (fun t f => hite t _ f _) s s.funcList
  simp only [Prod.mk.injEq] at h
  obtain ⟨h1, h2, h3, h4⟩ := h
  refine ⟨h1, h2, fun o ho => (reg_setReg_ne ho _).trans ?_⟩
  simp only [State.reg, h3, h4]

/-! ### TT_CTRL (R4, R49) -/

/-- The row of TT_CTRL. -/
def ttCtrlDef : RegDef := { off := 0x0, rwl := 0x80000001 }

theorem findReg_ttCtrl : findReg R.TT_CTRL = some (ttCtrlDef, 0) := by decide

theorem fld_bit (s : State) {f : Field} (hw : f.width = 1) : s.fld f = if (s.reg f.off).getLsbD f.lo then 1 else 0 := by
  have h := fld_testBit s f 0
  have hlt := fld_lt s f
  rw [hw] at h hlt
  simp only [Nat.zero_lt_one, decide_true, Bool.true_and, Nat.add_zero] at h
  rw [← h]
  have : s.fld f = 0 ∨ s.fld f = 1 := by omega
  rcases this with h' | h' <;> simp [h']

/-- A write of TT_CTRL while LOCK is 0 stores EN and LOCK, and changes no other register. -/
theorem storeReg_ttCtrl {s : State} (h : s.locked R.TT_CTRL = false) (v : Word) : let t := s.storeReg R.TT_CTRL v
    t.fld F.TT_CTRL.EN = (if v.getLsbD 0 then 1 else 0) ∧ t.fld F.TT_CTRL.LOCK = (if v.getLsbD 31 then 1 else 0) ∧ t.ttu = s.ttu ∧ t.host = s.host ∧ t.zyn = s.zyn ∧
      ∀ o, o ≠ R.TT_CTRL → t.reg o = s.reg o := by
  intro t
  have hreg := storeReg_reg findReg_ttCtrl s v
  have hframe : t = _ := storeReg_frame findReg_ttCtrl s v
  have hbit (j : Nat) (hj : j < 32) (hm : (0x80000001 : Nat).testBit j = true) : (t.reg R.TT_CTRL).getLsbD j = v.getLsbD j := by
    rw [show t.reg R.TT_CTRL = _ from hreg R.TT_CTRL, if_pos rfl, RegDef.stored_getLsbD _ _ _ _ hj, h]
    simp [ttCtrlDef, hm]
  refine ⟨?_, ?_, ?_, ?_, ?_, fun o ho => (hreg o).trans (if_neg ho)⟩
  · rw [fld_bit t rfl, show F.TT_CTRL.EN.off = R.TT_CTRL from rfl, hbit _ (by decide) (by decide)]; rfl
  · rw [fld_bit t rfl, show F.TT_CTRL.LOCK.off = R.TT_CTRL from rfl, hbit _ (by decide) (by decide)]; rfl
  · rw [hframe]
  · rw [hframe]
  · rw [hframe]

/-- EN = 1 from 0: LOCK is taken, EN stays 0, and the staged set is looked at (R49). -/
theorem ttCtrlEnWrite_enable {s : State} (hl : s.locked R.TT_CTRL = false) (he : s.flag F.TT_CTRL.EN = false) {w : Word} (hw : w.getLsbD 0 = true) :
    let t := s.storeReg R.TT_CTRL (w &&& 0x80000000)
    exec (.ttCtrlEnWrite w) s = .next (if stagedValid s = true then ({ t with ttu := { t.ttu with enPending := true } }).clear F.TT_GC_STATUS.INVALID
      else t.raise F.TT_GC_STATUS.INVALID) := by
  intro t
  obtain ⟨-, -, -, -, -, hreg⟩ := storeReg_ttCtrl hl (w &&& 0x80000000)
  have hv : stagedValid t = stagedValid s := stagedValid_congr fun o ho => hreg o (by
    rintro rfl; obtain h | h | ⟨k, -, h⟩ := ho <;> simp only [R.TT_CTRL, R.TT_GEOM_STAGE, R.TT_OFFSET_STAGE, R.TT_TABLE_STAGE] at h <;> omega)
  rw [exec_ttCtrlEnWrite, execTtCtrlEnWrite, hl, if_neg (by decide), ← hv]
  refine (if_pos (by simp [he, hw])).trans ?_
  exact (apply_ite Host.Outcome.next _ _ _).symm

theorem ttCtrlEnWrite_other {s : State} (hl : s.locked R.TT_CTRL = false) {w : Word} (hw : s.flag F.TT_CTRL.EN = true ∨ w.getLsbD 0 = false) :
    let t := s.storeReg R.TT_CTRL w
    exec (.ttCtrlEnWrite w) s = .next (State.readyEval { t with ttu := { t.ttu with enPending := t.ttu.enPending && w.getLsbD 0 } }) := by
  rw [exec_ttCtrlEnWrite, execTtCtrlEnWrite, hl, if_neg (by decide)]
  exact if_neg (by rcases hw with h | h <;> rw [h] <;> simp)

/-! ### Commit requests (R64, R68) -/

/-- The request that a command makes now. -/
def State.gcReqNow (s : State) (k : GcKind) (arg : Nat) : GcReq := { kind := k, arg := arg, since := s.ttu.time }

theorem gcRequest_of_new {s : State} {k : GcKind} (h : ∀ x ∈ s.ttu.gcQueue, x.kind ≠ k) (arg : Nat) : s.gcRequest k arg =
    if s.ttu.gcQueue.length < 8 then { s with ttu := { s.ttu with gcQueue := s.ttu.gcQueue ++ [s.gcReqNow k arg] } } else s.raise F.TT_GC_STATUS.QFULL := by
  have : s.ttu.gcQueue.any (fun x => x.kind == k) = false := by simpa [List.any_eq_false] using h
  simp [State.gcRequest, this, State.gcReqNow]

/-- A queued request of the same kind is replaced (R68). -/
theorem gcRequest_of_queued {s : State} {k : GcKind} (h : ∃ x ∈ s.ttu.gcQueue, x.kind = k) (arg : Nat) : s.gcRequest k arg =
    { s with ttu := { s.ttu with gcQueue := s.ttu.gcQueue.map fun x => if x.kind == k then s.gcReqNow k arg else x } } := by
  have : s.ttu.gcQueue.any (fun x => x.kind == k) = true := by simpa [List.any_eq_true] using h
  simp only [State.gcRequest, this, if_true]; rfl

/-! ### Named Assemblies (R56, R57) -/

/-- Period `n` begins no later than one Period from now. -/
def TooLate (s : State) (n : Word64) : Prop := n.toNat * periodNs s ≤ s.now + periodNs s

theorem armNamed_of_early {s : State} {n : Word64} (h : ¬ TooLate s n) :
    s.armNamed n = ({ s with ttu := { s.ttu with named := some n, namedLate := false } }).raise F.TT_NAMED_CTRL.ARMED := by
  rw [State.armNamed, if_pos (by simpa [TooLate] using h)]

theorem armNamed_of_late {s : State} {n : Word64} (h : TooLate s n) : s.armNamed n = (s.raise F.TT_NAMED_CTRL.LATE).vendorEvent 0xC5 := by
  rw [State.armNamed, if_neg (by simpa [TooLate] using h)]

theorem fld_armed (s : State) (u : Ttu) : (State.raise { s with ttu := u } F.TT_NAMED_CTRL.ARMED).fld F.TT_NAMED_CTRL.ARMED = 1 := fld_raise_self (by decide) _

theorem armNamed_late_fields {s : State} {n : Word64} (h : TooLate s n) : (s.armNamed n).ttu = s.ttu ∧ (s.armNamed n).fld F.TT_NAMED_CTRL.LATE = 1 := by
  rw [armNamed_of_late h]
  exact ⟨vendorEvent_ttu .., (vendorEvent_fld ..).trans (fld_raise_self (by decide) s)⟩

/-! ### A register of the Timetable leaves the functions and their queues alone -/

theorem setFld_isPf {f : Field} (h : f.off ≠ R.HIU_PORT_STATUS) (s : State) (n k : Nat) : (s.setFld f n).isPf k = s.isPf k := by
  simp only [State.isPf, State.x4x4, State.flag]
  rw [fld_setFld_off (by rintro e; exact h e.symm)]

theorem setFld_func {f : Field} (h : f.off ≠ R.HIU_PORT_STATUS) (s : State) (n k : Nat) : (s.setFld f n).func k = s.func k := by
  simp only [State.func, setFld_isPf h]; rfl

theorem Live.setFld {s : State} {k : Nat} (hs : Live s k) {f : Field} (h : f.off ≠ R.HIU_PORT_STATUS) (n : Nat) : Live (s.setFld f n) k := by
  unfold Live; rw [setFld_func h]; exact hs

theorem CanPost.setFld {s : State} {k : Nat} (hs : CanPost s k) {f : Field} (h : f.off ≠ R.HIU_PORT_STATUS) (n : Nat) : CanPost (s.setFld f n) k := by
  unfold CanPost; rw [setFld_func h]; exact hs

/-! ### The vendor command (R39, R56) -/

theorem timetableCommand_of_vf {s : State} {f : BitVec 12} (h : s.isPf f.toNat = false) (cid : BitVec 16) (b : Bool) (v : Word64) :
    exec (.timetableCommand f cid b v) s = .next (s.adminDone f.toNat cid 0 0x01) := by
  simp [exec_timetableCommand, execTimetableCommand, State.pfOnly, h, done]

/-- A count of seconds is kept while neither PTM nor the relay is active (R39). -/
def State.secondsKept (s : State) (n : Word) : State :=
  s.when (!(s.fld F.TT_STATUS.ACTIVE_SRC == 2 || s.fld F.TT_STATUS.ACTIVE_SRC == 3)) fun s => { s with ttu := { s.ttu with setSec := some n } }

theorem secondsKept_ttu (s : State) (n : Word) : (s.secondsKept n).ttu =
    if s.fld F.TT_STATUS.ACTIVE_SRC = 2 ∨ s.fld F.TT_STATUS.ACTIVE_SRC = 3 then s.ttu else { s.ttu with setSec := some n } := by
  by_cases h2 : s.fld F.TT_STATUS.ACTIVE_SRC = 2
  · simp [State.secondsKept, State.when, h2]
  · by_cases h3 : s.fld F.TT_STATUS.ACTIVE_SRC = 3 <;> simp [State.secondsKept, State.when, h2, h3]

theorem secondsKept_frame (s : State) (n : Word) : s.secondsKept n = { s with ttu := (s.secondsKept n).ttu } := by
  obtain h | h := when_eq_or s (!(s.fld F.TT_STATUS.ACTIVE_SRC == 2 || s.fld F.TT_STATUS.ACTIVE_SRC == 3)) fun s => { s with ttu := { s.ttu with setSec := some n } }
  · rw [State.secondsKept, h]
  · rw [State.secondsKept, h]

theorem timetableCommand_seconds {s : State} {f : BitVec 12} (h : s.isPf f.toNat = true) (cid : BitVec 16) (v : Word64) :
    exec (.timetableCommand f cid true v) s = .next ((s.secondsKept (v.setWidth 32)).ok f.toNat cid) := by
  simp [exec_timetableCommand, execTimetableCommand, State.pfOnly, h, done, State.secondsKept]

theorem timetableCommand_arm {s : State} {f : BitVec 12} (h : s.isPf f.toNat = true) {v : Word64} (hl : ¬ TooLate s v) (cid : BitVec 16) :
    exec (.timetableCommand f cid false v) s = .next ((s.armNamed v).ok f.toNat cid) := by
  unfold TooLate at hl
  simp [exec_timetableCommand, execTimetableCommand, State.pfOnly, h, done, hl]

/-- The status of an arm refused as late is a free value (assumption 3). -/
theorem timetableCommand_late {s : State} {f : BitVec 12} (h : s.isPf f.toNat = true) {v : Word64} (hl : TooLate s v) (cid : BitVec 16) :
    let d := (s.armNamed v).draw
    exec (.timetableCommand f cid false v) s = .next (d.2.adminDone f.toNat cid (d.1 / 256 % 8) (d.1 % 256)) := by
  unfold TooLate at hl
  simp [exec_timetableCommand, execTimetableCommand, State.pfOnly, h, done, hl]

theorem draw_fields (s : State) : s.draw.2.ttu = s.ttu ∧ s.draw.2.regs = s.regs ∧ (∀ f, s.draw.2.fld f = s.fld f) ∧ ∀ k, CanPost s k → CanPost s.draw.2 k :=
  ⟨rfl, rfl, fun _ => rfl, fun _ h => h⟩

theorem canPost_armNamed {s : State} {k : Nat} (h : Live s k) (n : Word64) : CanPost (s.armNamed n) k := by
  by_cases hl : TooLate s n
  · rw [armNamed_of_late hl]
    exact canPost_vendorEvent (h.setFld (by decide) 1) _
  · rw [armNamed_of_early hl]
    exact CanPost.setFld (s := { s with ttu := { s.ttu with named := some n, namedLate := false } }) h.canPost (by decide) 1

end Sys2Proof.Machine

open Sys2Proof Sys2Proof.Machine in
/-- Settles O38: each write is one of the shared operations (`gcRequest_of_new`, `armNamed_of_early`, `armNamed_of_late`, `storeReg_ttCtrl`), and the completion of the
vendor command goes out beside the event of a late arm (`canPost_vendorEvent`). -/
theorem timetableControls : Obligations.TimetableControls := by
  intro s f cid v w sec k p late act q r bit counted armed refused
  have harmed {n : Word64} (h : ¬ late n) : armed n (s.armNamed n) := by rw [armNamed_of_early h]; exact ⟨rfl, fld_armed ..⟩
  have hrefused {n : Word64} (h : late n) : refused (s.armNamed n) := armNamed_late_fields h
  refine ⟨fun h => ?_, fun hl he hw => ⟨fun hv => ?_, fun hv => ?_⟩, fun hl hw => ?_, ?_, ⟨fun hnew hlt => ?_, fun hnew hge => ?_, fun hold => ?_⟩,
    fun h => ?_, fun h => ⟨_, exec_ttNamedCtrlArm s, hrefused h⟩, fun hlive hpf => ⟨fun h => ?_, fun h => ?_, ?_⟩, fun hlive hvf b => ?_⟩
  · rw [exec_ttCtrlEnWrite, execTtCtrlEnWrite, h]; rfl
  · obtain ⟨hen, hlock, httu, hhost, hzyn, -⟩ := storeReg_ttCtrl hl (w &&& 0x80000000)
    refine ⟨_, (ttCtrlEnWrite_enable hl he hw).trans (congrArg Host.Outcome.next (if_pos hv)), ?_, ?_, ?_, fld_clear_self (by decide) _, hhost, hzyn⟩
    · rw [fld_clear_apart (by decide)]; exact hen.trans (by simp)
    · rw [fld_clear_apart (by decide)]; exact hlock.trans (by simp [bit])
    · exact congrArg (fun u : Ttu => { u with enPending := true }) httu
  · obtain ⟨hen, hlock, httu, hhost, hzyn, -⟩ := storeReg_ttCtrl hl (w &&& 0x80000000)
    refine ⟨_, (ttCtrlEnWrite_enable hl he hw).trans (congrArg Host.Outcome.next (if_neg (by simp [hv]))), ?_, ?_, httu, fld_raise_self (by decide) _, hhost, hzyn⟩
    · rw [fld_raise_apart (by decide)]; exact hen.trans (by simp)
    · rw [fld_raise_apart (by decide)]; exact hlock.trans (by simp [bit])
  · obtain ⟨hen, hlock, httu, -, -, -⟩ := storeReg_ttCtrl hl w
    obtain ⟨kttu, -, kreg⟩ := readyEval_keeps { s.storeReg R.TT_CTRL w with ttu := { (s.storeReg R.TT_CTRL w).ttu with enPending := (s.storeReg R.TT_CTRL w).ttu.enPending && w.getLsbD 0 } }
    have kfld (f : Field) (hf : f.off ≠ R.BOOT_STATUS) := congrArg (fun v : Word => (v.toNat >>> f.lo) % 2 ^ f.width) (kreg f.off hf)
    refine ⟨_, ttCtrlEnWrite_other hl hw, (kfld F.TT_CTRL.EN (by decide)).trans hen, (kfld F.TT_CTRL.LOCK (by decide)).trans hlock, ?_⟩
    rw [kttu, httu]
  · rw [exec_ttSetSecWrite, execTtSetSecWrite]
    by_cases h2 : s.fld F.TT_STATUS.ACTIVE_SRC = 2
    · simp [counted, act, h2, done]
    · by_cases h3 : s.fld F.TT_STATUS.ACTIVE_SRC = 3 <;> simp [counted, act, h2, h3, done]
  · rw [exec_ttGcCtrlReq, gcRequest_of_new hnew, if_pos hlt]; rfl
  · exact ⟨_, (exec_ttGcCtrlReq s).trans (congrArg Host.Outcome.next ((gcRequest_of_new hnew 0).trans (if_neg (Nat.not_lt.2 hge)))), rfl, fld_raise_self (by decide) s⟩
  · refine ⟨_, (exec_ttGcCtrlReq s).trans (congrArg Host.Outcome.next (gcRequest_of_queued hold 0)), List.length_map .., ?_, fun x hx hk => ?_⟩
    · obtain ⟨x, hx, hk⟩ := hold
      exact List.mem_map.2 ⟨x, hx, if_pos (by simpa using hk)⟩
    · exact List.mem_map.2 ⟨x, hx, if_neg (by simpa using hk)⟩
  · exact ⟨_, exec_ttNamedCtrlArm s, harmed h, by rw [armNamed_of_early h]; rfl, by rw [armNamed_of_early h]; rfl⟩
  · refine ⟨_, timetableCommand_arm hpf h cid, ok_posted (canPost_armNamed hlive v) .., ?_⟩
    obtain ⟨h1, h2⟩ := harmed h
    exact ⟨(ok_ttu ..).trans h1, (ok_fld ..).trans h2⟩
  · obtain ⟨dttu, -, dfld, dpost⟩ := draw_fields (s.armNamed v)
    obtain ⟨h1, h2⟩ := hrefused h
    exact ⟨_, timetableCommand_late hpf h cid, ⟨(adminDone_ttu ..).trans (dttu.trans h1), (adminDone_fld ..).trans ((dfld _).trans h2)⟩,
      _, _, adminDone_posted (dpost k (canPost_armNamed hlive v)) ..⟩
  · have hpost : CanPost (s.secondsKept (v.setWidth 32)) k := by rw [secondsKept_frame]; exact hlive.canPost
    refine ⟨_, timetableCommand_seconds hpf cid v, ok_posted hpost .., (ok_ttu ..).trans (secondsKept_ttu ..), (ok_regs ..).trans ?_⟩
    rw [secondsKept_frame]
  · exact ⟨_, timetableCommand_of_vf hvf cid b v, adminDone_posted hlive.canPost .., adminDone_ttu .., adminDone_regs ..⟩
end

section
/-! SUPPORT. A journaled write of a BLOCK record whose record is the 64th of its batch, and a buffer whose release writes MED_GEO1 (R25, R119, R294). -/
namespace Sys2Proof.Machine

/-- A table operation on an entry under no rebuild, with the journal not stalled, is done where the entry is on chip and waits for its data otherwise (R80). -/
theorem tableStart_of_free {s : State} {i : CtxId} {op : TableOp} {tbl index word : Nat} (hr : s.underRebuild tbl index = false)
    (hj : s.jnlStalled i = false) : s.tableStart i op tbl index word =
      if (s.onChip tbl index).1 then (s.onChip tbl index).2.tableDo i op tbl index word
      else (s.onChip tbl index).2.blockOn i (.table op (BitVec.ofNat 8 tbl) index word) := by
  simp [State.tableStart, hr, hj]

/-- A table instruction whose locator and value pass the checks, with no snapshot that holds allocation, starts its operation (R118 to R120). -/
theorem tableInstr_of_located {s u : State} {i : CtxId} {cost t x w : Nat} {prof : EngClass → Bool} {right : EngClass → Nat → Bool} {write : Bool} {a : BitVec 5}
    {tbl : BitVec 8} {val : Ctx → Option Word64} {op : Ctx → TableOp} (h : Issues s i 1) (hp : prof i.cls = true)
    (hu : s.setCtx i ((s.ctx i).past 1 cost) = u) (hl : locate u i.cls ((s.ctx i).reg a) tbl right write = .ok (t, x, w))
    (hv : ∀ v, u.overMax t x v = false) (hs : u.snapStalled i.part = false) :
    s.tableInstr i cost prof right write a tbl val op = .next (u.tableStart i (op (s.ctx i)) t x w) := by
  rw [State.tableInstr, issue_next h cost hp, hu, hl]
  cases val (s.ctx i) <;> simp [hv, hs]

/-- TJRN starts its write (R119). -/
theorem exec_tjrn_of_located {s u : State} {i : CtxId} {t x w : Nat} {d a b : BitVec 5} {tbl : BitVec 8} (h : Issues s i 1) (hp : pJrn i.cls = true)
    (hu : s.setCtx i ((s.ctx i).past 1 5) = u) (hl : locate u i.cls ((s.ctx i).reg a) tbl tabJ true = .ok (t, x, w))
    (hv : ∀ v, u.overMax t x v = false) (hs : u.snapStalled i.part = false) :
    exec (.tjrn i d a b tbl) s = .next (u.tableStart i (.jrn d ((s.ctx i).reg b)) t x w) :=
  tableInstr_of_located (val := fun c => some (c.reg b)) (op := fun c => .jrn d (c.reg b)) h hp hu hl hv hs

/-- Whether a BLOCK record is on chip is the next free value (R80). -/
theorem onChip_block (s : State) (x : Nat) : s.onChip 4 x = (Config.freeNat s.freeCtr % 2 == 0, { s with freeCtr := s.freeCtr + 1 }) := rfl

/-- The Policy context that writes. -/
def blockWriter : CtxId := ⟨.pol, 0, 0⟩

/-- TJRN of the value of R2, 0, to word 0 of the BLOCK record that R1 names, the number going to R3. -/
def blockWrite : Instr := .tjrn blockWriter 3 1 2 4

/-- A buffer whose map change is sealed: the next seal releases it. BPM_USED of its account, which no device has, lies at the offset of MED_GEO1. -/
def geoBuf : Nat × Buf := (0, { cmd := 0, account := 0x1B8002, nsid := 0, lba := 0, doneSeq := some 0 })

/-- Die 0 alone is populated, with two blocks; 63 records are open, and R1 of the writer names block 1 of the die. The release of `geoBuf` takes
1 from MED_GEO1: BLOCKS, 2, becomes 1, and entry 1 is then that of die 1. -/
def geoState : State :=
  { regs := [(R.ZYN_STATUS, 2), (R.MED_GEO1, 2)]
    jnl := { openRecs := List.replicate 63 0 }
    media := { dies := [0] }
    host := { bufs := [geoBuf] }
    zyn := { bundle := { code3 := [0] }
             ctxs := [(blockWriter.key, { st := .ready, budget := 10, w := (Vector.replicate 32 0).set 1 1 })] } }

/-- The state past the instruction, in which the table operation starts. -/
def geoStarted : State := geoState.setCtx blockWriter ((geoState.ctx blockWriter).past 1 5)

/-- The state in which the operation waits for its data. -/
def geoBlocked : State := (geoStarted.onChip 4 1).2.blockOn blockWriter (.table (.jrn 3 0) 4 1 0)

theorem issues_geoState : Issues geoState blockWriter 1 := by
  refine ⟨rfl, rfl, ?_, ?_, ?_⟩
  all_goals decide +kernel

theorem word_blockWrite : (geoState.ctx blockWriter).reg 2 = 0 := by
  decide +kernel

theorem exec_blockWrite : exec blockWrite geoState = .next (geoStarted.tableStart blockWriter (.jrn 3 0) 4 1 0) := by
  rw [← word_blockWrite]
  refine exec_tjrn_of_located issues_geoState rfl rfl ?_ (fun _ => rfl) ?_
  all_goals decide +kernel

/-- Where the entry is on chip, the write ends with the entry of a die that is not populated, a bad block. -/
theorem tabGet_written : ((geoStarted.onChip 4 1).2.tableDo blockWriter (.jrn 3 0) 4 1 0).tabGet 4 1 0 = 0x30000 := by
  decide +kernel

/-- Where it is not, the return of its data ends so. -/
theorem tabGet_returned : observe (fun t => t.tabGet 4 1 0) (exec (.tableDataReturn blockWriter false) geoBlocked) = some 0x30000 := by
  decide +kernel

/-- The word to be kept is none of these: its STATE is free. -/
theorem wordIn_geoState : geoState.wordIn 4 1 0 0 = 0 := by
  decide +kernel

end Sys2Proof.Machine

open Sys2Proof Sys2Proof.Machine in
/-- Refutes O49: a TJRN must leave the word that it stores, but its record may be the 64th of its batch; in `geoState` the seal releases `geoBuf`, whose account
no device has, and that takes 1 from MED_GEO1: the entry then stands for a die that is not populated and reads as a bad block. -/
theorem not_zynTableInstructions : ¬ Obligations.ZynTableInstructions := by
  intro h
  have claim := h geoState blockWriter 3 1 2 4 0 issues_geoState
  have hn : ((geoState.ctx blockWriter).reg 1).toNat = 1 := by decide +kernel
  have ht : (if (4 : BitVec 8) = 0 then 1 / 2 ^ 48 % 256 else (4 : BitVec 8).toNat) = 4 := by decide
  have hx : 1 % 2 ^ 40 = 1 := by decide
  have hw : 1 / 2 ^ 40 % 8 = 0 := by decide
  dsimp only at claim
  rw [hn, word_blockWrite, ht, hx, hw] at claim
  obtain ⟨-, -, -, -, -, kept⟩ := claim
  obtain ⟨-, writes⟩ := kept (by decide +kernel) (by decide +kernel) (by decide +kernel)
  obtain ⟨-, -, jrn, -⟩ := writes (by decide +kernel) (by decide +kernel)
  obtain ⟨t, ht, here, away⟩ := jrn (by decide +kernel) (by decide +kernel)
  rw [← blockWrite, exec_blockWrite, tableStart_of_free (by decide +kernel) (by decide +kernel)] at ht
  split at ht <;> rename_i chip
  · obtain ⟨-, -, -, -, stored, -⟩ := here (by rw [onChip_block] at chip ⊢; exact chip)
    obtain rfl := Host.Outcome.next.inj ht
    exact absurd (stored.symm.trans tabGet_written) (by rw [wordIn_geoState]; decide)
  · obtain ⟨-, returned⟩ := away (by rw [onChip_block] at chip ⊢; exact Bool.not_eq_true _ ▸ chip)
    obtain rfl := Host.Outcome.next.inj ht
    obtain ⟨u, ⟨-, -, -, -, stored, -⟩, shown⟩ := returned.observed tabGet_returned
    exact absurd (stored.symm.trans shown) (by rw [wordIn_geoState]; decide)
end

section
/-! SUPPORT. A read piece whose block is newly lost: the record of the loss is the 64th of its batch, and a buffer whose release writes TH_LINK (R25, R277, R294, R466). -/
namespace Sys2Proof.Machine

/-- A buffer whose map change is sealed: the next seal releases it. BPM_USED of its account, which no device has, lies at the offset of TH_LINK of the West link. -/
def linkBuf : Nat × Buf := (0, { cmd := 0, account := 0x3B8004, nsid := 0, lba := 0, doneSeq := some 0 })

/-- The West link alone is up, block 0 of namespace 1 is on media without a codeword, and 63 records are open. The release of `linkBuf` takes 1 from
TH_LINK: UP of the West link goes to 0. -/
def linkState : State :=
  { regs := [(R.TH_LINK, 1)]
    jnl := { openRecs := List.replicate 63 0 }
    host := { bufs := [linkBuf] }
    zyn := { tab := { nsrec := [(0, 1), (1, 1)], map := [(0, (Place.media 0 0).word)] } } }

/-- The device with ring ID 1 asks for the piece over the West link. -/
def pieceHdr : TetherHdr := { src := 1 }

theorem arrives_pieceHdr : Arrives linkState pieceHdr := by
  refine ⟨?_, ?_, ?_⟩
  all_goals decide +kernel

theorem got_linkState : got linkState 1 0 false = .lost true := by
  decide +kernel

/-- No link carries frames any more when the status is to be sent. -/
theorem out_linkState : observe (fun t => t.out) (exec (.readRequest pieceHdr 1 0 1 []) linkState) = some [] := by
  decide +kernel

end Sys2Proof.Machine

open Sys2Proof Sys2Proof.Machine in
/-- Refutes O18: a read piece with a lost block must be answered with its status, but the record of the loss may be the 64th of its batch; in `linkState` the seal
releases `linkBuf`, whose account no device has, and that turns UP of the one link to 0: nothing is sent. -/
theorem not_tetherPiecesBellAndResync : ¬ Obligations.TetherPiecesBellAndResync := by
  intro h
  obtain ⟨-, read, -⟩ := h linkState pieceHdr 1 0 1 [] 0 0 0 0 0 false 0 0 0 0 false [] []
  obtain ⟨-, lost, -⟩ := read arrives_pieceHdr (by decide +kernel)
  have answered := lost (by decide +kernel) ⟨0, by decide, true, got_linkState⟩
  obtain ⟨t, ⟨link, sent⟩, shown⟩ := answered.observed out_linkState
  rw [shown] at sent
  cases sent
end

section
/-! SUPPORT. An Envelope commit whose new budget lets a waiting NPG open a stripe, and a buffer whose release writes MED_ENV_ACT (R25, R64, R273, R292, R294). -/
namespace Sys2Proof.Machine

/-- A buffer whose map change is sealed: the next seal releases it. BPM_USED of its account, which no device has, lies at the offset of MED_ENV_ACT. -/
def budgetBuf : Nat × Buf := (1, { cmd := 0, account := 0x1B800D, nsid := 0, lba := 0, doneSeq := some 0 })

/-- The commit in flight: an Envelope of budget 5, armed, with B at 0. -/
def budgetFlight : GcFlight := { kind := .envelope, b := 0, members := 0, armed := true, staged := [(R.MED_ENV_STAGE, 5)] }

/-- EN is 1 and the commit is due. 63 records are open, the LUN of die 0 waits for the accumulator with an NPG of pool buffer 0, and the parity block that the stripe
takes on die 1 gives the 64th. The release of `budgetBuf` takes 1 from MED_ENV_ACT: BUDGET, 5, becomes 4. -/
def budgetState : State :=
  { regs := [(R.TT_CTRL, 1), (R.MED_SPOOL, 0)]
    ttu := { gc := some budgetFlight }
    jnl := { openRecs := List.replicate 63 0 }
    media := { dies := [0, 1], luns := [(0, joiningLun)] }
    host := { bufs := [(0, { cmd := 0, account := 0, nsid := 0, lba := 0 }), budgetBuf] }
    zyn := { tab := { heap := [(1, [(0, 0)])] } } }

/-- The budget in force after the commit is not the staged one. -/
theorem budget_budgetState : observe (fun t => t.fld F.MED_ENV_ACT.BUDGET) (exec .commitApply budgetState) = some 4 := by
  decide +kernel

end Sys2Proof.Machine

open Sys2Proof Sys2Proof.Machine in
/-- Refutes O40: an Envelope commit must leave its budget in force, but the LUNs are served in the same command; in `budgetState` a waiting NPG then opens a stripe, whose
parity block fills the batch of the journal, and the seal releases `budgetBuf`, whose account no device has: that takes 1 from MED_ENV_ACT. -/
theorem not_globalCommits : ¬ Obligations.GlobalCommits := by
  intro h
  obtain ⟨-, -, -, flight⟩ := h budgetState
  obtain ⟨-, -, -, -, -, apply⟩ := flight budgetFlight rfl
  obtain ⟨-, -, envelope, -⟩ := apply rfl (by decide +kernel) (by decide +kernel)
  obtain ⟨t, ⟨-, -, budget⟩, shown⟩ := (envelope rfl).observed budget_budgetState
  exact absurd (shown.symm.trans budget) (by decide)
end

section
/-! SUPPORT. Functions whose admin commands get their CQE at once stay so through events (R55, R167, R470). -/
namespace Sys2Proof.Machine

/-- What `Live` reads is in the controllers and the CQs. -/
theorem Live.congr {s t : State} {k : Nat} (h : Live s k) (hf : t.host.funcs = s.host.funcs) (hq : t.host.cqs = s.host.cqs) : Live t k := by
  have hfunc (u : State) : (u.func k).resetting = (sgetD {} k u.host.funcs).resetting ∧ (u.func k).flr = (sgetD {} k u.host.funcs).flr ∧
      (u.func k).aers = (sgetD {} k u.host.funcs).aers := by
    unfold State.func
    dsimp only
    split <;> exact ⟨rfl, rfl, rfl⟩
  obtain ⟨hr, hl, ha⟩ := hfunc t
  obtain ⟨hr', hl', ha'⟩ := hfunc s
  rw [hf] at hr hl ha
  unfold Live State.cq at h ⊢
  rwa [hr, hl, ha, hq, ← hr', ← hl', ← ha']

/-- One completion takes at most one entry. -/
theorem Cq.room_advance {q : Cq} (h : 0 < q.room) (n : Nat) : q.room ≤ Cq.room { q with tail := (q.tail + 1) % q.size, held := n } + 1 := by
  unfold Cq.room at h ⊢
  by_cases h0 : q.size = 0
  · simp only [h0, Nat.mod_zero] at h ⊢; omega
  have hr : (q.tail + 1) % q.size < q.size := Nat.mod_lt _ (Nat.pos_of_ne_zero h0)
  have hd := Nat.div_add_mod (q.tail + 1) q.size
  dsimp only
  generalize (q.tail + 1) % q.size = r at hd hr ⊢
  have hlt : q.tail < q.head + q.size - 1 := by
    by_contra hge
    rw [Nat.sub_eq_zero_of_le (Nat.le_of_not_lt hge), Nat.zero_mod] at h
    exact absurd h (by decide)
  have hshift : q.head + q.size - 1 - r = q.head + q.size - 1 - q.tail - 1 + q.size * ((q.tail + 1) / q.size) := by
    generalize q.size * ((q.tail + 1) / q.size) = m at hd
    omega
  rw [hshift, Nat.add_mul_mod_self_left]
  generalize q.head + q.size - 1 - q.tail = d at h
  have hd' := Nat.div_add_mod d q.size
  obtain ⟨j, hj⟩ : ∃ j, d % q.size = j + 1 := ⟨d % q.size - 1, by omega⟩
  have hlow : j + 1 < q.size := hj ▸ Nat.mod_lt _ (Nat.pos_of_ne_zero h0)
  have : d - 1 = j + q.size * (d / q.size) := by omega
  rw [this, Nat.add_mul_mod_self_left, Nat.mod_eq_of_lt (show j < q.size by omega), hj]

/-- A change of a controller that keeps its resets and adds no outstanding request. -/
theorem Live.setFunc {s : State} {k f : Nat} (h : Live s k) {x : Func} (hr : x.resetting = (s.func f).resetting) (hf : x.flr = (s.func f).flr)
    (ha : x.aers.length ≤ (s.func f).aers.length) : Live (s.setFunc f x) k := by
  obtain ⟨h1, h2, h3⟩ := h
  by_cases hk : k = f
  · subst hk
    have hg := func_setFunc_same s k x
    refine ⟨?_, ?_, fun q hq => ⟨(h3 q hq).1, ?_⟩⟩
    · rw [hg]; split <;> simp [hr, h1]
    · rw [hg]; split <;> simp [hf, h2]
    · rw [hg]; refine Nat.lt_of_le_of_lt ?_ (h3 q hq).2
      split <;> exact ha
  · unfold Live
    rw [func_setFunc_ne hk]
    exact ⟨h1, h2, h3⟩

/-- An outstanding request of a function has an entry of its own, so an event leaves room for the others. -/
theorem Live.aen {s : State} {k : Nat} (h : Live s k) (f ty info : Nat) : Live (s.aen f ty info) k := by
  unfold State.aen
  dsimp only
  split
  · exact h
  · split
    · exact h.setFunc rfl rfl le_rfl
    · next cid rest haers =>
      generalize hx : ({ s.func f with aers := rest, reported := (ty, info) :: (s.func f).reported } : Func) = x
      have hs : Live (s.setFunc f x) k := h.setFunc (by rw [← hx]) (by rw [← hx]) (by rw [← hx, haers]; simp)
      by_cases hk : k = f
      · subst hk
        refine ⟨by rw [adminDone_func]; exact hs.1, by rw [adminDone_func]; exact hs.2.1, fun q hq => ?_⟩
        rw [adminDone_of_canPost hs.canPost] at hq
        cases hc : (s.setFunc k x).cq k 0 with
        | none => rw [adminPost_cq_none hc] at hq; cases hq
        | some c =>
          obtain ⟨n, hn⟩ := adminPost_cq_some hc cid 0 0 (BitVec.ofNat 32 (ty + info * 256)) 0
          obtain rfl := Option.some.inj (hn.symm.trans hq)
          have hroom : (s.func k).aers.length < c.room := (h.2.2 c hc).2
          have hleft := Cq.room_advance (Nat.lt_of_le_of_lt (Nat.zero_le _) hroom) n
          have haers' : ((s.setFunc k x).func k).aers = rest := by
            rw [func_setFunc_same, ← hx]; split <;> rfl
          refine ⟨(hs.2.2 c hc).1, ?_⟩
          rw [adminDone_func, haers']
          rw [haers, List.length_cons] at hroom
          omega
      · unfold Live
        rw [adminDone_func, adminDone_cq_ne hk]
        exact hs

theorem Live.vendorEvent {s : State} {k : Nat} (h : Live s k) (i : Nat) : Live (s.vendorEvent i) k := h.aen ..

theorem Live.tetherEvent {s : State} {k : Nat} (h : Live s k) (i : Nat) : Live (s.tetherEvent i) k := by
  unfold State.tetherEvent
  split
  · exact h.congr rfl rfl
  · obtain e | e := when_eq_or (s.aen 0 7 i) s.x4x4 (·.aen 2048 7 i) <;> rw [e]
    · exact h.aen ..
    · exact (h.aen ..).aen ..

/-- What keeps a property of the state from one entry of a list to the next keeps it over the list. -/
theorem each_keeps {α : Type} {P : State → Prop} {f : State → α → State} (h : ∀ t x, P t → P (f t x)) (l : List α) {s : State} (hs : P s) : P (s.each l f) := by
  induction l generalizing s with
  | nil => exact hs
  | cons x l ih => exact ih (h s x hs)

theorem when_keeps {P : State → Prop} {f : State → State} (h : ∀ t, P t → P (f t)) (c : Bool) {s : State} (hs : P s) : P (s.when c f) := by
  cases c
  · exact hs
  · exact h s hs

/-! ### What has left the block stays out -/

theorem mem_out_postCqe {s : State} {o : Out} (h : o ∈ s.out) (f q : Nat) (e : Cqe) : o ∈ (s.postCqe f q e).out := by
  unfold State.postCqe
  split
  · exact List.mem_cons_of_mem _ h
  · dsimp only
    split
    · exact List.mem_cons_of_mem _ h
    · split
      · exact List.mem_cons_of_mem _ (List.mem_cons_of_mem _ h)
      · exact List.mem_cons_of_mem _ h

theorem mem_out_adminPost {s : State} {o : Out} (h : o ∈ s.out) (f : Nat) (cid : BitVec 16) (sct sc : Nat) (a b : Word) : o ∈ (s.adminPost f cid sct sc a b).out := by
  unfold State.adminPost
  refine mem_out_postCqe ?_ _ _ _
  exact h

theorem mem_out_adminDone {s : State} {o : Out} (h : o ∈ s.out) (f : Nat) (cid : BitVec 16) (sct sc : Nat) (a b : Word) : o ∈ (s.adminDone f cid sct sc a b).out := by
  unfold State.adminDone
  dsimp only
  split
  · exact h
  · split
    · split
      · exact h
      · exact mem_out_adminPost h ..
    · exact mem_out_adminPost h ..

theorem mem_out_aen {s : State} {o : Out} (h : o ∈ s.out) (f ty info : Nat) : o ∈ (s.aen f ty info).out := by
  unfold State.aen
  dsimp only
  split
  · exact h
  · split
    · exact h
    · refine mem_out_adminDone ?_ _ _ _ _ _ _
      exact h

theorem mem_out_tetherEvent {s : State} {o : Out} (h : o ∈ s.out) (i : Nat) : o ∈ (s.tetherEvent i).out := by
  unfold State.tetherEvent
  split
  · exact h
  · obtain e | e := when_eq_or (s.aen 0 7 i) s.x4x4 (·.aen 2048 7 i) <;> rw [e]
    · exact mem_out_aen h ..
    · exact mem_out_aen (mem_out_aen h ..) ..

/-! ### Reading a log page acknowledges its events (R55, R470) -/

/-- The controller after the acknowledgement. -/
def State.ackReported (s : State) (k ty : Nat) : State :=
  s.setFunc k { s.func k with reported := (s.func k).reported.filter fun (x : Nat × Nat) => x.1 != ty }

/-- Tether events that waited are posted again. -/
def State.tetherAgain (s : State) : State := ({ s with th := { s.th with events := [] } }).each s.th.events fun s i => s.tetherEvent i.toNat

theorem ackEvents_eq (s : State) (k ty : Nat) : s.ackEvents k ty = (s.ackReported k ty).when (ty == 7) (·.tetherAgain) := rfl

theorem Live.ackReported {s : State} {k : Nat} (h : Live s k) (ty : Nat) : Live (s.ackReported k ty) k := h.setFunc rfl rfl le_rfl

theorem Live.tetherAgain {s : State} {k : Nat} (h : Live s k) : Live s.tetherAgain k := by
  have h0 : Live { s with th := { s.th with events := [] } } k := h.congr rfl rfl
  have hstep (t : State) (i : BitVec 8) (ht : Live t k) : Live (t.tetherEvent i.toNat) k := ht.tetherEvent i.toNat
  unfold State.tetherAgain
  exact each_keeps (P := (Live · k)) hstep s.th.events h0

theorem Live.ackEvents {s : State} {k : Nat} (h : Live s k) (ty : Nat) : Live (s.ackEvents k ty) k :=
  ackEvents_eq s k ty ▸ when_keeps (P := (Live · k)) (fun _ ht => ht.tetherAgain) _ (h.ackReported ty)

theorem mem_out_ackEvents {s : State} {o : Out} (h : o ∈ s.out) (k ty : Nat) : o ∈ (s.ackEvents k ty).out := by
  rw [ackEvents_eq]
  refine when_keeps (P := (o ∈ ·.out)) (fun t ht => ?_) _ ?_
  · exact each_keeps (P := (o ∈ ·.out)) (fun u i hu => mem_out_tetherEvent hu i.toNat) _ ht
  · exact h

/-- With no Tether event waiting the page's type leaves the reported events. -/
theorem reported_ackEvents {s : State} {k ty : Nat} (h : ty ≠ 7 ∨ s.th.events = []) :
    ((s.ackEvents k ty).func k).reported = (s.func k).reported.filter fun x => x.1 != ty := by
  have hquiet : (s.ackEvents k ty).func k = (s.ackReported k ty).func k := by
    rw [ackEvents_eq]
    obtain hty | hev := h
    · rw [beq_eq_false_iff_ne.2 hty]; rfl
    · have : (s.ackReported k ty).tetherAgain = { s.ackReported k ty with th := { s.th with events := [] } } := by
        unfold State.tetherAgain
        rw [show (s.ackReported k ty).th.events = [] from hev]
        rfl
      obtain e | e := when_eq_or (s.ackReported k ty) (ty == 7) (·.tetherAgain) <;> rw [e]
      rw [this]
      rfl
  rw [hquiet, State.ackReported, func_setFunc_same]
  split <;> rfl

end Sys2Proof.Machine
end

section
/-! SUPPORT. A wake for an admin command keeps the functions whose commands get their CQE at once (R412, R419). -/
namespace Sys2Proof.Machine

theorem ite_keeps {P : State → Prop} {c : Prop} [Decidable c] {s t : State} (hs : P s) (ht : P t) : P (if c then s else t) := by
  split
  · exact hs
  · exact ht

section
variable {s : State} {k : Nat} (h : Live s k)
include h

theorem Live.setReg (o : Nat) (w : Word) : Live (s.setReg o w) k := h.congr rfl rfl
theorem Live.setFld' (f : Field) (n : Nat) : Live (s.setFld f n) k := h.setReg ..
theorem Live.setBit (f : Field) (b : Bool) : Live (s.setBit f b) k := h.setReg ..
theorem Live.raise (f : Field) : Live (s.raise f) k := h.setReg ..
theorem Live.emit (o : Out) : Live (s.emit o) k := h.congr rfl rfl
theorem Live.setDom (d st : Nat) : Live (s.setDom d st) k := h.congr rfl rfl

theorem Live.gbClose (c : Nat) : Live (s.gbClose c) k := by
  unfold State.gbClose
  split
  · unfold State.gbTake
    dsimp only
    split
    · exact h.congr rfl rfl
    · refine Live.vendorEvent (Live.raise ?_ _) _
      exact h.congr rfl rfl
  · exact h.congr rfl rfl

theorem Live.entry (kind sev : Nat) : Live (s.entry kind sev) k := by
  unfold State.entry
  extract_lets c c' g i u near
  have hu : Live u k := h.congr rfl rfl
  clear_value u
  split
  · exact (hu.gbClose 3).congr rfl rfl
  · exact hu

theorem Live.restoreBlock (base : Nat) (image : Option (Sparse Word)) : Live (s.restoreBlock base image) k := by
  unfold State.restoreBlock
  refine each_keeps (P := (Live · k)) (fun t x (ht : Live t k) => ?_) _ h
  obtain ⟨o, d⟩ := x
  dsimp only
  split
  · exact ht
  · split <;> exact ht.setReg ..

theorem Live.deselect (d : Nat) : Live (s.deselect d) k := by
  unfold State.deselect
  exact each_keeps (P := (Live · k)) (fun t _ (ht : Live t k) => (ht.emit _).emit _) _ h

theorem Live.dmcWake : Live s.dmcWake k := by
  unfold State.dmcWake
  split
  · exact h.congr rfl rfl
  · exact h

theorem Live.psVotes (g d : Bool) : Live (s.psVotes g d) k := by
  unfold State.psVotes
  exact (each_keeps (P := (Live · k)) (fun t _ (ht : Live t k) => ht.setBit _ _) _ h).setBit _ _

/-- A bank whose image fails is reported. -/
theorem Live.bankFails (fails : List Nat) : Live (s.each fails fun s b =>
      ((s.setFld F.PMU_WAKE_STATUS.BANK_FAIL (Nat.lor (s.fld F.PMU_WAKE_STATUS.BANK_FAIL) (2 ^ b))).raise F.PMU_EVT.RET_FAIL).entry 0x25 sevCritical) k :=
  each_keeps (P := (Live · k)) (fun t _ (ht : Live t k) => ((ht.setFld' _ _).raise _).entry _ _) _ h

theorem Live.restoreDomain (d : Nat) (bad : List Nat) : Live (s.restoreDomain d bad) k := by
  unfold State.restoreDomain
  extract_lets st banks fails s0 image s1 s2 s3 s4 m s5 s6 p s7 w dm s8 s9
  split
  · split
    · exact h.setDom ..
    · exact h
  by_cases hg : groupAbsent s d = true
  · rw [if_pos hg]; exact h
  rw [if_neg hg]
  have h1 : Live s1 k := each_keeps (P := (Live · k)) (fun t b (ht : Live t k) => ht.restoreBlock b image) _ (h.setDom d 0)
  clear_value s1
  have h3 : Live s3 k := by
    refine ite_keeps (P := (Live · k)) (when_keeps (P := (Live · k)) (fun t (ht : Live t k) => ?_) _ ((h1.setFld' _ _).raise _)) h1
    exact (ht.setFld' _ _).setBit _ _
  clear_value s3
  have h4 : Live s4 k := h3.deselect d
  clear_value s4
  have h5 : Live s5 k := ite_keeps (P := (Live · k)) (h4.congr rfl rfl) h3
  clear_value s5
  have h6 : Live s6 k := h5.bankFails fails
  clear_value s6
  have h7 : Live s7 k := ite_keeps (P := (Live · k)) h6 (Live.setFld' (h6.congr rfl rfl) _ _)
  clear_value s7
  have hw : Live w k := h7.dmcWake
  clear_value w
  have h8 : Live s8 k := ite_keeps (P := (Live · k)) (Live.raise (hw.congr rfl rfl) _) h7
  clear_value s8
  exact h8.congr rfl rfl

theorem Live.wakeAdmin : Live s.wakeAdmin k := by
  unfold State.wakeAdmin
  refine ite_keeps (P := (Live · k)) ?_ h
  exact Live.congr ((((h.restoreDomain 0 []).setDom _ _).setDom _ _).psVotes false true).dmcWake rfl rfl

end

end Sys2Proof.Machine
end

section
/-! SUPPORT. Admin commands that read (R55, R150, R151, R180, R412): their completion and what it leaves alone. -/
namespace Sys2Proof.Machine

section
variable {s : State} {f : BitVec 12} (h : Live s f.toNat) (cid : BitVec 16)
include h

/-- A completion with a status and Dword 0, and nothing else. -/
theorem gives_adminDone {x : Instr} {sct sc : Nat} {a b : Word} (hx : exec x s = .next (s.adminDone f.toNat cid sct sc a b)) :
    Gives s x fun t => (∃ q e, Out.cqe f.toNat q e ∈ t.out ∧ e.cid = cid ∧ e.sct = sct ∧ e.sc = sc ∧ e.dw0 = a) ∧ t.func f.toNat = s.func f.toNat ∧ t.regs = s.regs :=
  ⟨_, hx, adminDone_posts h.canPost .., adminDone_func .., adminDone_regs ..⟩

/-- A refusal with Invalid Field. -/
theorem gives_invalidField {x : Instr} (hx : exec x s = .next (s.adminDone f.toNat cid 0 0x02)) :
    Gives s x fun t => Posted t f.toNat cid 0 0x02 ∧ t.func f.toNat = s.func f.toNat ∧ t.regs = s.regs := by
  obtain ⟨t, ht, ⟨q, e, he, hc, h1, h2, -⟩, hf⟩ := gives_adminDone h cid hx
  exact ⟨t, ht, ⟨q, e, he, hc, h1, h2⟩, hf⟩

/-- A value answered in Dword 0. -/
theorem gives_value {x : Instr} {d : Word} (hx : exec x s = .next (s.adminDone f.toNat cid 0 0 d)) :
    Gives s x fun t => ∃ q e, Out.cqe f.toNat q e ∈ t.out ∧ e.cid = cid ∧ e.sct = 0 ∧ e.sc = 0 ∧ e.dw0 = d ∧ t.regs = s.regs := by
  obtain ⟨t, ht, ⟨q, e, he, hc, h1, h2, hd⟩, -, hr⟩ := gives_adminDone h cid hx
  exact ⟨t, ht, q, e, he, hc, h1, h2, hd, hr⟩

/-! ### Logs and Identify -/

theorem getLogPage_gives {lid : BitVec 8} (rae : Bool) (off len : BitVec 32) {l : List Nat} (hl : logPage s f.toNat lid.toNat = some l) :
    Gives s (.getLogPage f cid lid rae off len) fun t => Posted t f.toNat cid 0 0 ∧
      Out.bytes f.toNat cid (toBytes ((l.drop off.toNat).take len.toNat)) ∈ t.out ∧
      (rae = true → t.func f.toNat = s.func f.toNat) ∧
      (rae = false → logEvent lid.toNat ≠ 7 ∨ s.th.events = [] →
        (t.func f.toNat).reported = (s.func f.toNat).reported.filter fun x => x.1 != logEvent lid.toNat) := by
  have hx : exec (.getLogPage f cid lid rae off len) s = .next (((s.emit (.bytes f.toNat cid (toBytes ((l.drop off.toNat).take len.toNat)))).when (!rae)
      (·.ackEvents f.toNat (logEvent lid.toNat))).ok f.toNat cid) := by
    show execGetLogPage f cid lid rae off len s = _
    unfold execGetLogPage
    dsimp only
    rw [hl]
    rfl
  generalize hu : s.emit (.bytes f.toNat cid (toBytes ((l.drop off.toNat).take len.toNat))) = u at hx
  have hlive : Live u f.toNat := hu ▸ h.emit _
  have hmem : Out.bytes f.toNat cid (toBytes ((l.drop off.toNat).take len.toNat)) ∈ u.out := by rw [← hu]; exact List.mem_cons_self
  have hfunc : u.func f.toNat = s.func f.toNat := by rw [← hu]; rfl
  have hev : u.th.events = s.th.events := by rw [← hu]; rfl
  refine ⟨_, hx, ?_, ?_, ?_, ?_⟩
  · exact ok_posted (when_keeps (P := (Live · f.toNat)) (fun _ ht => ht.ackEvents _) _ hlive).canPost ..
  · exact mem_out_adminDone (when_keeps (P := (_ ∈ ·.out)) (fun _ ht => mem_out_ackEvents ht ..) _ hmem) ..
  · rintro rfl
    exact (adminDone_func ..).trans hfunc
  · rintro rfl hq
    rw [← hev] at hq
    rw [← hfunc, ← reported_ackEvents hq]
    exact congrArg Func.reported (adminDone_func ..)

theorem getLogPage_refused {lid : BitVec 8} (rae : Bool) (off len : BitVec 32) (hl : logPage s f.toNat lid.toNat = none) :
    Gives s (.getLogPage f cid lid rae off len) fun t => Posted t f.toNat cid 1 0x09 ∧ t.func f.toNat = s.func f.toNat := by
  have hx : exec (.getLogPage f cid lid rae off len) s = .next (s.adminDone f.toNat cid 1 0x09) := by
    show execGetLogPage f cid lid rae off len s = _
    unfold execGetLogPage
    dsimp only
    rw [hl]
    rfl
  exact ⟨_, hx, adminDone_posted h.canPost .., adminDone_func ..⟩

theorem identify_gives {cns csi : BitVec 8} {nsid : Word} {l : List Nat} (hl : identifyData s f.toNat cns.toNat nsid.toNat csi.toNat = some l) :
    Gives s (.identify f cid cns nsid csi) fun t => Posted t f.toNat cid 0 0 ∧ Out.bytes f.toNat cid (toBytes l) ∈ t.out ∧ t.regs = s.regs ∧ t.zyn = s.zyn := by
  have hx : exec (.identify f cid cns nsid csi) s = .next ((s.emit (.bytes f.toNat cid (toBytes l))).ok f.toNat cid) := by
    show execIdentify f cid cns nsid csi s = _
    unfold execIdentify
    dsimp only
    rw [hl]
    rfl
  exact ⟨_, hx, ok_posted (h.emit _).canPost .., mem_out_adminDone List.mem_cons_self .., ok_regs .., ok_zyn ..⟩

theorem identify_refused {cns csi : BitVec 8} {nsid : Word} (hl : identifyData s f.toNat cns.toNat nsid.toNat csi.toNat = none) :
    Gives s (.identify f cid cns nsid csi) fun t => Posted t f.toNat cid 0 0x02 ∧ t.func f.toNat = s.func f.toNat ∧ t.regs = s.regs := by
  refine gives_invalidField h cid ?_
  show execIdentify f cid cns nsid csi s = _
  unfold execIdentify
  dsimp only
  rw [hl]
  rfl

/-! ### Features -/

/-- The features that a function has, of its own or, a PF, of the device (R151). -/
def keptFeature (s : State) (k i : Nat) : Bool := ownFeatures.contains i || (wideFeatures.contains i && s.isPf k)

omit h in
/-- The features with commands of their own are not among them. -/
theorem keptFeature_ne {s : State} {k i : Nat} (hi : keptFeature s k i = true) : i ≠ 0x02 ∧ i ≠ 0x04 ∧ i ≠ 0x07 ∧ i ≠ 0x10 ∧ i ≠ 0xC2 := by
  refine ⟨?_, ?_, ?_, ?_, ?_⟩ <;> rintro rfl <;> simp [keptFeature, ownFeatures, wideFeatures] at hi

omit h in
/-- A feature of a function, set. -/
def State.putFeature (s : State) (k i : Nat) (v : Word) : State := s.setFunc k { s.func k with feats := sput i v (s.func k).feats }

omit h in
theorem exec_setFeatures {fid : BitVec 8} (v : Word) (s : State) (h2 : fid.toNat ≠ 0x02) (h4 : fid.toNat ≠ 0x04) (h7 : fid.toNat ≠ 0x07) (h10 : fid.toNat ≠ 0x10)
    (hc2 : fid.toNat ≠ 0xC2) : exec (.setFeatures f cid fid v) s = .next (if keptFeature s f.toNat fid.toNat = true then
      (s.putFeature f.toNat fid.toNat v).ok f.toNat cid else s.adminDone f.toNat cid 0 0x02) := by
  obtain ⟨r, hr⟩ : ∃ r, r = (if keptFeature s f.toNat fid.toNat = true then
      (s.putFeature f.toNat fid.toNat v).ok f.toNat cid else s.adminDone f.toNat cid 0 0x02) := ⟨_, rfl⟩
  rw [← hr]
  show execSetFeatures f cid fid v s = _
  unfold execSetFeatures
  dsimp only
  refine congrArg Host.Outcome.next ?_
  split
  case h_6 => exact hr.symm
  all_goals contradiction

theorem Live.putFeature (i : Nat) (v : Word) : Live (s.putFeature f.toNat i v) f.toNat := h.setFunc rfl rfl le_rfl

omit h in
theorem feats_putFeature (s : State) (k i : Nat) (v : Word) : ((s.putFeature k i v).func k).feats = sput i v (s.func k).feats := by
  rw [State.putFeature, func_setFunc_same]
  split <;> rfl

theorem setFeatures_gives {fid : BitVec 8} (v : Word) (hk : keptFeature s f.toNat fid.toNat = true) :
    Gives s (.setFeatures f cid fid v) fun t => Posted t f.toNat cid 0 0 ∧ sget fid.toNat (t.func f.toNat).feats = some v ∧
      (∀ i, i ≠ fid.toNat → sget i (t.func f.toNat).feats = sget i (s.func f.toNat).feats) ∧ ∀ g, g ≠ f.toNat → t.func g = s.func g := by
  obtain ⟨h2, h4, h7, h10, hc2⟩ := keptFeature_ne hk
  have hx := exec_setFeatures (f := f) cid v s h2 h4 h7 h10 hc2
  rw [if_pos hk] at hx
  have hfeats := feats_putFeature s f.toNat fid.toNat v
  refine ⟨_, hx, ok_posted (h.putFeature _ _).canPost .., ?_, fun i hi => ?_, fun g hg => ?_⟩
  · rw [State.ok, adminDone_func, hfeats, sget_sput_same]
  · rw [State.ok, adminDone_func, hfeats, sget_sput_ne hi]
  · rw [State.ok, adminDone_func, State.putFeature, func_setFunc_ne hg]

omit h in
/-- The value that a function has for a feature. -/
def heldFeature (s : State) (k i : Nat) : Word := sgetD (featureDefault s k i) i (s.func k).feats

omit h in
theorem exec_getFeatures {fid : BitVec 8} (w : Word) (s : State) (h4 : fid.toNat ≠ 0x04) (h10 : fid.toNat ≠ 0x10) (hc2 : fid.toNat ≠ 0xC2) :
    exec (.getFeatures f cid fid w) s = .next (if fid.toNat = 0x02 ∨ fid.toNat = 0x07 ∨ keptFeature s f.toNat fid.toNat = true then
      s.adminDone f.toNat cid 0 0 (heldFeature s f.toNat fid.toNat) else s.adminDone f.toNat cid 0 0x02) := by
  obtain ⟨r, hr⟩ : ∃ r, r = (if fid.toNat = 0x02 ∨ fid.toNat = 0x07 ∨ keptFeature s f.toNat fid.toNat = true then
      s.adminDone f.toNat cid 0 0 (heldFeature s f.toNat fid.toNat) else s.adminDone f.toNat cid 0 0x02) := ⟨_, rfl⟩
  rw [← hr]
  show execGetFeatures f cid fid w s = _
  unfold execGetFeatures
  dsimp only
  refine congrArg Host.Outcome.next ?_
  split
  case h_4 => rw [hr]; simp only [keptFeature, heldFeature, Bool.or_eq_true, decide_eq_true_eq, or_assoc]
  all_goals contradiction

end

end Sys2Proof.Machine
end

section
/-! SUPPORT. The values that Get Features answers, and NVMe-MI in band (R151, R412). -/
namespace Sys2Proof.Machine

section
variable {s : State} {f : BitVec 12} (h : Live s f.toNat) (cid : BitVec 16)
include h

/-- An unknown feature is Invalid Field both ways. -/
theorem features_refused {fid : BitVec 8} (v w : Word) (hk : keptFeature s f.toNat fid.toNat = false) (hf : fid.toNat ∉ [0x02, 0x04, 0x07, 0x10, 0xC2]) :
    (Gives s (.setFeatures f cid fid v) fun t => Posted t f.toNat cid 0 0x02 ∧ t.func f.toNat = s.func f.toNat ∧ t.regs = s.regs) ∧
    Gives s (.getFeatures f cid fid w) fun t => Posted t f.toNat cid 0 0x02 ∧ t.func f.toNat = s.func f.toNat ∧ t.regs = s.regs := by
  simp only [List.mem_cons, List.not_mem_nil, or_false, not_or] at hf
  obtain ⟨h2, h4, h7, h10, hc2⟩ := hf
  refine ⟨gives_invalidField h cid ?_, gives_invalidField h cid ?_⟩
  · rw [exec_setFeatures cid v s h2 h4 h7 h10 hc2, if_neg (by simp [hk])]
  · rw [exec_getFeatures cid w s h4 h10 hc2, if_neg (by simp [hk, h2, h7])]

theorem getFeatures_gives {i : Nat} (w : Word) (hi : i < 256) (hk : i = 0x02 ∨ i = 0x07 ∨ keptFeature s f.toNat i = true) :
    Gives s (.getFeatures f cid (BitVec.ofNat 8 i) w) fun t => ∃ q e, Out.cqe f.toNat q e ∈ t.out ∧ e.cid = cid ∧ e.sct = 0 ∧ e.sc = 0 ∧
      e.dw0 = heldFeature s f.toNat i ∧ t.regs = s.regs := by
  have hn : (BitVec.ofNat 8 i).toNat = i := by simp [Nat.mod_eq_of_lt hi]
  have hne : i ≠ 0x04 ∧ i ≠ 0x10 ∧ i ≠ 0xC2 := by
    obtain rfl | rfl | hk := hk
    · decide
    · decide
    · obtain ⟨-, h4, -, h10, hc2⟩ := keptFeature_ne hk
      exact ⟨h4, h10, hc2⟩
  have hx := exec_getFeatures (f := f) (fid := BitVec.ofNat 8 i) cid w s (by rw [hn]; exact hne.1) (by rw [hn]; exact hne.2.1) (by rw [hn]; exact hne.2.2)
  rw [hn, if_pos hk] at hx
  exact gives_value h cid hx

/-- Feature 0x10 and the thresholds of 0x04 are a PF's. -/
theorem getFeatures_thermal (w : Word) (hp : s.isPf f.toNat = true) :
    (Gives s (.getFeatures f cid 0x10 w) fun t => ∃ q e, Out.cqe f.toNat q e ∈ t.out ∧ e.cid = cid ∧ e.sct = 0 ∧ e.sc = 0 ∧
      e.dw0 = heldFeature s f.toNat 0x10 ∧ t.regs = s.regs) ∧
    Gives s (.getFeatures f cid 0x04 w) fun t => ∃ q e, Out.cqe f.toNat q e ∈ t.out ∧ e.cid = cid ∧ e.sct = 0 ∧ e.sc = 0 ∧
      e.dw0 = heldFeature s f.toNat (4 + 256 * (w.toNat / 2 ^ 20 % 2)) ∧ t.regs = s.regs := by
  have hx10 : exec (.getFeatures f cid 0x10 w) s = .next (if s.isPf f.toNat then s.adminDone f.toNat cid 0 0 (heldFeature s f.toNat 0x10)
    else s.adminDone f.toNat cid 0 0x02) := rfl
  have hx4 : exec (.getFeatures f cid 0x04 w) s = .next (if s.isPf f.toNat then s.adminDone f.toNat cid 0 0
    (heldFeature s f.toNat (4 + 256 * (w.toNat / 2 ^ 20 % 2))) else s.adminDone f.toNat cid 0 0x02) := rfl
  rw [if_pos hp] at hx10 hx4
  exact ⟨gives_value h cid hx10, gives_value h cid hx4⟩

theorem getFeatures_thermal_refused (w : Word) (hp : s.isPf f.toNat = false) :
    (Gives s (.getFeatures f cid 0x10 w) fun t => Posted t f.toNat cid 0 0x02 ∧ t.func f.toNat = s.func f.toNat ∧ t.regs = s.regs) ∧
    Gives s (.getFeatures f cid 0x04 w) fun t => Posted t f.toNat cid 0 0x02 ∧ t.func f.toNat = s.func f.toNat ∧ t.regs = s.regs := by
  have hx10 : exec (.getFeatures f cid 0x10 w) s = .next (if s.isPf f.toNat then s.adminDone f.toNat cid 0 0 (heldFeature s f.toNat 0x10)
    else s.adminDone f.toNat cid 0 0x02) := rfl
  have hx4 : exec (.getFeatures f cid 0x04 w) s = .next (if s.isPf f.toNat then s.adminDone f.toNat cid 0 0
    (heldFeature s f.toNat (4 + 256 * (w.toNat / 2 ^ 20 % 2))) else s.adminDone f.toNat cid 0 0x02) := rfl
  rw [if_neg (by simp [hp])] at hx10 hx4
  exact ⟨gives_invalidField h cid hx10, gives_invalidField h cid hx4⟩

omit h in
/-- Feature 0xC2 is asked of a queue. -/
theorem exec_getOrdered (w : Word) (s : State) : exec (.getFeatures f cid 0xC2 w) s = .next (match s.sq f.toNat (w.toNat % 65536) with
    | some q => s.adminDone f.toNat cid 0 0 (BitVec.ofNat 32 (w.toNat % 65536 + if q.ordered then 65536 else 0))
    | none => s.adminDone f.toNat cid 0 0x02) := rfl

theorem getOrdered_gives {w : Word} {q : Sq} (hq : s.sq f.toNat (w.toNat % 65536) = some q) :
    Gives s (.getFeatures f cid 0xC2 w) fun t => ∃ c e, Out.cqe f.toNat c e ∈ t.out ∧ e.cid = cid ∧ e.sct = 0 ∧ e.sc = 0 ∧
      e.dw0 = BitVec.ofNat 32 (w.toNat % 65536 + if q.ordered then 65536 else 0) ∧ t.regs = s.regs :=
  gives_value h cid (by rw [exec_getOrdered, hq])

theorem getOrdered_refused {w : Word} (hq : s.sq f.toNat (w.toNat % 65536) = none) :
    Gives s (.getFeatures f cid 0xC2 w) fun t => Posted t f.toNat cid 0 0x02 ∧ t.func f.toNat = s.func f.toNat ∧ t.regs = s.regs :=
  gives_invalidField h cid (by rw [exec_getOrdered, hq])

/-! ### NVMe-MI in band -/

theorem nvmeMiReceive_gives (msg : List Byte) (hp : s.isPf f.toNat = true) :
    Gives s (.nvmeMiReceive f cid msg) fun t => Posted t f.toNat cid 0 0 ∧ ∃ b, Out.bytes f.toNat cid b ∈ t.out := by
  have hx : exec (.nvmeMiReceive f cid msg) s = .next (s.pfOnly f.toNat cid fun s => (s.draw.2.emit
    (.bytes f.toNat cid (Config.bytes 0x1E (s.draw.1 :: msg.map (·.toNat))))).adminDone f.toNat cid 0 0) := rfl
  rw [State.pfOnly, if_pos hp] at hx
  have hlive : Live s.draw.2 f.toNat := h.congr rfl rfl
  exact ⟨_, hx, adminDone_posted (hlive.emit _).canPost .., _, mem_out_adminDone List.mem_cons_self ..⟩

theorem nvmeMiSend_gives (msg : List Byte) (hp : s.isPf f.toNat = true) :
    Gives s (.nvmeMiSend f cid msg) fun t => Out.mctp (Config.bytes 0x1D (msg.map (·.toNat))) ∈ t.out ∧ Posted t f.toNat cid 0 0 := by
  have hx : exec (.nvmeMiSend f cid msg) s = .next (s.pfOnly f.toNat cid fun s => (s.wakeAdmin.draw.2.emit
    (.mctp (Config.bytes 0x1D (msg.map (·.toNat))))).adminDone f.toNat cid 0 0 (BitVec.ofNat 32 s.wakeAdmin.draw.1)) := rfl
  rw [State.pfOnly, if_pos hp] at hx
  have hlive : Live s.wakeAdmin f.toNat := h.wakeAdmin
  generalize s.wakeAdmin = u at hx hlive
  have hdraw : Live u.draw.2 f.toNat := hlive.congr rfl rfl
  exact ⟨_, hx, mem_out_adminDone List.mem_cons_self .., adminDone_posted (hdraw.emit _).canPost ..⟩

theorem nvmeMi_refused (msg : List Byte) (hp : s.isPf f.toNat = false) :
    ∀ c ∈ [Instr.nvmeMiSend f cid msg, .nvmeMiReceive f cid msg], Gives s c fun t => Posted t f.toNat cid 0 0x01 ∧ t.regs = s.regs := by
  have refused (k : State → State) : s.pfOnly f.toNat cid k = s.adminDone f.toNat cid 0 0x01 := by simp [State.pfOnly, hp]
  have posted : Posted (s.adminDone f.toNat cid 0 0x01) f.toNat cid 0 0x01 ∧ (s.adminDone f.toNat cid 0 0x01).regs = s.regs :=
    ⟨adminDone_posted h.canPost .., adminDone_regs ..⟩
  intro c hc
  simp only [List.mem_cons, List.not_mem_nil, or_false] at hc
  obtain rfl | rfl := hc
  · exact ⟨_, congrArg Host.Outcome.next (refused _), posted⟩
  · exact ⟨_, congrArg Host.Outcome.next (refused _), posted⟩

end

/-- A VF is offered its error and effects pages (R151). -/
theorem logPage_vf {s : State} {k : Nat} (hp : s.isPf k = false) (lid : BitVec 8) : (logPage s k lid.toNat).isSome = true ↔ lid = 0x01 ∨ lid = 0x05 := by
  have hlid (n : Nat) (hn : n < 256) : lid.toNat = n ↔ lid = BitVec.ofNat 8 n := by
    rw [BitVec.toNat_eq, BitVec.toNat_ofNat, Nat.mod_eq_of_lt hn]
  have h1 := hlid 1 (by decide)
  have h5 := hlid 5 (by decide)
  unfold logPage
  split
  case h_1 heq => simp [h1.1 heq]
  case h_2 heq => simp [h5.1 heq]
  case h_3 hne1 hne5 =>
    simp only [hp, Bool.not_false, if_true, Option.isSome_none, Bool.false_eq_true, false_iff, not_or]
    exact ⟨fun e => hne1 (h1.2 e), fun e => hne5 (h5.2 e)⟩

theorem logPage_pf {s : State} {k : Nat} (hp : s.isPf k = true) : ∀ n ∈ [0x01, 0x02, 0x05, 0x06, 0xC0], (logPage s k n).isSome = true := by
  intro n hn
  simp only [List.mem_cons, List.not_mem_nil, or_false] at hn
  obtain rfl | rfl | rfl | rfl | rfl := hn <;> simp [logPage, hp]

end Sys2Proof.Machine

open Sys2Proof Sys2Proof.Machine in
/-- Settles O1: each command completes with the data or the status of its case, and the events it acknowledges leave room for its CQE. -/
theorem logsIdentifyAndFeatures : Obligations.LogsIdentifyAndFeatures := by
  unfold Obligations.LogsIdentifyAndFeatures
  intro s f cid lid cns csi fid rae off len nsid v w msg
  refine ⟨fun h => ?_, rfl, rfl, rfl, rfl⟩
  exact ⟨fun l hl => getLogPage_gives h cid rae off len hl, getLogPage_refused h cid rae off len, fun hp => logPage_vf hp lid, logPage_pf,
    fun l hl => identify_gives h cid hl, identify_refused h cid, setFeatures_gives h cid v, features_refused h cid v w,
    gives_value h cid rfl, fun i hi hk => getFeatures_gives h cid w hi hk, getFeatures_thermal h cid w, getFeatures_thermal_refused h cid w,
    fun q hq => getOrdered_gives h cid hq, getOrdered_refused h cid,
    fun hp => ⟨nvmeMiReceive_gives h cid msg hp, nvmeMiSend_gives h cid msg hp⟩, nvmeMi_refused h cid msg⟩
end

section
/-! SUPPORT. Roll Calls: what an arrival, the result of a waiter and the next call change (R60 to R63, R127). -/
namespace Sys2Proof.Machine

theorem exec_rollCallRelease (s : State) : exec .rollCallRelease s = execRollCallRelease s := by rfl
theorem exec_rollCallTimeout (s : State) : exec .rollCallTimeout s = execRollCallTimeout s := by rfl

/-- What a message on the ring keeps: all but the links and what leaves the block. -/
def OffRing (s t : State) : Prop := t = { s with th := t.th, out := t.out }

theorem OffRing.refl (s : State) : OffRing s s := rfl
theorem OffRing.trans {s t u : State} (h : OffRing s t) (g : OffRing t u) : OffRing s u := by
  unfold OffRing at h g ⊢
  rw [g, h]

theorem sendOn_offRing (s : State) (e : Bool) (f : TFrame) : OffRing s (s.sendOn e f) := by
  unfold State.sendOn
  cases e <;> dsimp only <;> split <;> rfl

theorem ringSend_offRing (s : State) (ty : Nat) (body : List Word64) : OffRing s (s.ringSend ty body) :=
  (sendOn_offRing ..).trans (sendOn_offRing ..)

theorem rcTell_offRing (s : State) (r : RollCall) (b : Bool) (v : Word64) : OffRing s (s.rcTell r b v) := by
  unfold State.rcTell
  obtain e | e := when_eq_or s (r.ring && !(ringOthers s).isEmpty) (·.ringSend 0x0B [r.ident.setWidth 64, r.mask, BitVec.ofNat 64 (r.kind.code + (if b then 4 else 0)), v])
  · rw [e]; exact .refl s
  · rw [e]; exact ringSend_offRing ..

/-- A call once the last member of this device has arrived: its cut is fixed (R63). -/
def RollCall.fixCut (r : RollCall) (s : State) : RollCall := if rcHere s r && r.cut.isNone then { r with cut := some s.lastSeq } else r

theorem rcArrive_offRing {s : State} {r : RollCall} (h : s.ttu.rc = some r) : OffRing { s with ttu := { s.ttu with rc := some (r.fixCut s) } } s.rcArrive := by
  have hsame : s = { s with ttu := { s.ttu with rc := some r } } := by rw [← h]
  unfold State.rcArrive RollCall.fixCut
  rw [h]
  dsimp only
  cases rcHere s r <;> cases hc : r.cut
  · simp only [Bool.not_false, Bool.true_or, if_true, Bool.false_and, Bool.false_eq_true, if_false]; exact hsame ▸ .refl _
  · simp only [Bool.not_false, Bool.true_or, if_true, Bool.false_and, Bool.false_eq_true, if_false]; exact hsame ▸ .refl _
  · simp only [Bool.not_true, Bool.false_or, Option.isSome_none, Bool.false_eq_true, if_false, Option.isNone_none, Bool.and_self, if_true]
    exact rcTell_offRing ..
  · simp only [Option.isSome_some, Bool.or_true, if_true, Option.isNone_some, Bool.and_false, Bool.false_eq_true, if_false]; exact hsame ▸ .refl _

theorem rcArrive_of_none {s : State} (h : s.ttu.rc = none) : s.rcArrive = s := by
  simp only [State.rcArrive, h]

@[simp] theorem rcArrive_zyn (s : State) : s.rcArrive.zyn = s.zyn := by
  cases h : s.ttu.rc with
  | none => rw [rcArrive_of_none h]
  | some r => rw [rcArrive_offRing h]

@[simp] theorem rcTell_zyn (s : State) (r : RollCall) (b : Bool) (v : Word64) : (s.rcTell r b v).zyn = s.zyn := by rw [rcTell_offRing]

/-! ### The result of a waiter -/

/-- A waiter with its result (R127). -/
def Ctx.released (c : Ctx) (d : BitVec 5) (p : BitVec 3) (v : Word64) (ok : Bool) (m : Word64) : Ctx :=
  { ((c.setReg d v).setPred p ok) with st := .ready, rcMask := m, events := c.events ||| (1#64 <<< 25) }

theorem released_fields (c : Ctx) (d : BitVec 5) (p : BitVec 3) (v : Word64) (ok : Bool) (m : Word64) :
    let x := c.released d p v ok m
    x.st = .ready ∧ x.reg d = v ∧ x.pred p = ok ∧ x.events.getLsbD 25 = true := by
  refine ⟨rfl, ?_, ?_, ?_⟩
  · exact Vector.getElem_set_self ..
  · have hp : p.toNat < 8 := p.isLt
    cases ok <;> simp [Ctx.released, Ctx.setPred, Ctx.pred, hp]
  · simp [Ctx.released]

section
variable (s : State) (k : Nat) (v : Word64) (ok : Bool) (m : Word64) (b : Bool)

/-- A waiter's result is in its context alone. -/
theorem rcResult_frame : s.rcResult k v ok m b = { s with zyn := (s.rcResult k v ok m b).zyn } := by
  unfold State.rcResult
  dsimp only
  split <;> rfl

@[simp] theorem rcResult_ttu : (s.rcResult k v ok m b).ttu = s.ttu := by rw [rcResult_frame]
@[simp] theorem rcResult_jnl : (s.rcResult k v ok m b).jnl = s.jnl := by rw [rcResult_frame]
@[simp] theorem rcResult_regs : (s.rcResult k v ok m b).regs = s.regs := by rw [rcResult_frame]
@[simp] theorem rcResult_fld (f : Field) : (s.rcResult k v ok m b).fld f = s.fld f := by rw [rcResult_frame]; rfl
end

/-- A result reaches a context that waits for the call, and no other. -/
theorem ctx_rcResult (s : State) (k : Nat) (v : Word64) (ok : Bool) (m : Word64) (i : CtxId) :
    (s.rcResult k v ok m).ctx i = s.ctx i ∨ ∃ d p, (s.ctx i).st = .blocked (.rollCall d p) ∧ (s.rcResult k v ok m).ctx i = (s.ctx i).released d p v ok m := by
  unfold State.rcResult
  extract_lets j c
  by_cases hk : i.key = j.key
  · have hc : s.ctx i = c := by simp only [c, State.ctx, hk]
    have hset (x : Ctx) : (s.setCtx j x).ctx i = x :=
      (show _ = (s.setCtx j x).ctx j by simp only [State.ctx, hk]).trans (ctx_setCtx_same s j x)
    rw [hc]
    split
    · next d p hst => exact .inr ⟨d, p, hst, hset _⟩
    · exact .inl hc
  · left
    split
    · exact ctx_setCtx_ne hk _
    · rfl

theorem ctx_rcResult_self {s : State} {i : CtxId} (hi : i.valid = true) {d : BitVec 5} {p : BitVec 3} (h : (s.ctx i).st = .blocked (.rollCall d p))
    (v : Word64) (ok : Bool) (m : Word64) : (s.rcResult i.key v ok m).ctx i = (s.ctx i).released d p v ok m := by
  unfold State.rcResult
  rw [CtxId.ofKey_key hi]
  dsimp only
  rw [h]
  exact ctx_setCtx_same ..

theorem ctx_rcResult_ready {s : State} {i : CtxId} (h : (s.ctx i).st = .ready) (k : Nat) (v : Word64) (ok : Bool) (m : Word64) (b : Bool) :
    (s.rcResult k v ok m b).ctx i = s.ctx i := by
  unfold State.rcResult
  extract_lets j c
  by_cases hk : i.key = j.key
  · have hc : c.st = .ready := by rw [← h]; simp only [c, State.ctx, hk]
    rw [hc]
  · split
    · exact ctx_setCtx_ne hk _
    · rfl

/-- The results of a call, one waiter after the other. -/
def State.rcResults (s : State) (l : List Nat) (v : Word64) (ok : Bool) (m : Word64) : State := s.each l fun s k => s.rcResult k v ok m

theorem ctx_rcResults_ready {s : State} {i : CtxId} (h : (s.ctx i).st = .ready) (l : List Nat) (v : Word64) (ok : Bool) (m : Word64) :
    (s.rcResults l v ok m).ctx i = s.ctx i :=
  each_keeps (P := fun t => t.ctx i = s.ctx i) (fun _ k (ht : _ = _) => (ctx_rcResult_ready (ht ▸ h) k v ok m true).trans ht) l rfl

/-- Each waiter has its result. -/
theorem ctx_rcResults {i : CtxId} (hi : i.valid = true) {d : BitVec 5} {p : BitVec 3} {l : List Nat} (hl : i.key ∈ l) {s : State}
    (h : (s.ctx i).st = .blocked (.rollCall d p)) (v : Word64) (ok : Bool) (m : Word64) :
    (s.rcResults l v ok m).ctx i = (s.ctx i).released d p v ok m := by
  induction l generalizing s with
  | nil => cases hl
  | cons k l ih =>
    show ((s.rcResult k v ok m).rcResults l v ok m).ctx i = _
    obtain e | ⟨d', p', hst, e⟩ := ctx_rcResult s k v ok m i
    · obtain rfl | hl := List.mem_cons.1 hl
      · rw [ctx_rcResult_self hi h] at e
        exact absurd (congrArg Ctx.st e) (by rw [h]; exact fun c => by cases c)
      · rw [ih hl (e ▸ h), e]
    · obtain ⟨rfl, rfl⟩ : d' = d ∧ p' = p := by rw [h] at hst; cases hst; exact ⟨rfl, rfl⟩
      rw [ctx_rcResults_ready (by rw [e]; rfl), e]

section
variable (s : State) (l : List Nat) (v : Word64) (ok : Bool) (m : Word64)
@[simp] theorem rcResults_ttu : (s.rcResults l v ok m).ttu = s.ttu := each_proj (p := State.ttu) (fun _ _ => rcResult_ttu ..) s l
@[simp] theorem rcResults_jnl : (s.rcResults l v ok m).jnl = s.jnl := each_proj (p := State.jnl) (fun _ _ => rcResult_jnl ..) s l
end

/-! ### The next call -/

/-- A call opened on the tree keeps all but the call, the Tether and what leaves the block. -/
theorem rcOpen_frame (s : State) (r : RollCall) : ∃ o, o.ident = r.ident ∧
    s.rcOpen r = { s with ttu := { s.ttu with rc := some o }, th := (s.rcOpen r).th, out := (s.rcOpen r).out } := by
  unfold State.rcOpen
  extract_lets heard got r' s1 s2
  have h1 : OffRing s s1 := by
    simp only [s1]
    cases r'.ring <;> rfl
  have h2 : OffRing s s2 := by
    refine h1.trans ?_
    simp only [s2]
    obtain e | e := when_eq_or s1 (r'.origin == s1.fld F.TH_CTRL.RING_ID) (·.rcTell r' false 0)
    · rw [e]; exact .refl _
    · rw [e]; exact rcTell_offRing ..
  have hid : ((r'.fixCut { s2 with ttu := { s2.ttu with rc := some r' } })).ident = r.ident := by
    unfold RollCall.fixCut
    split <;> rfl
  refine ⟨_, hid, ?_⟩
  generalize hg : r'.fixCut _ = o
  have h3 := rcArrive_offRing (s := { s2 with ttu := { s2.ttu with rc := some r' } }) (r := r') rfl
  rw [hg] at h3
  clear_value s2
  unfold OffRing at h2 h3
  rw [h3, h2]

@[simp] theorem rcOpen_zyn (s : State) (r : RollCall) : (s.rcOpen r).zyn = s.zyn := by
  obtain ⟨o, -, h⟩ := rcOpen_frame s r
  rw [h]

/-- What the next call keeps: the cuts that wait and the vector of a ring's cuts, the open call's name, and each context that is READY. -/
structure CallKept (s t : State) : Prop where
  wait : t.ttu.cutWait = s.ttu.cutWait
  vec : t.ttu.cutVec = s.ttu.cutVec
  ident : ∀ o, s.ttu.rc = some o → ∃ o', t.ttu.rc = some o' ∧ o'.ident = o.ident
  ctx : ∀ i : CtxId, (s.ctx i).st = .ready → t.ctx i = s.ctx i

theorem CallKept.refl (s : State) : CallKept s s := ⟨rfl, rfl, fun o h => ⟨o, h, rfl⟩, fun _ _ => rfl⟩

theorem CallKept.trans {s t u : State} (h : CallKept s t) (g : CallKept t u) : CallKept s u := by
  refine ⟨g.wait.trans h.wait, g.vec.trans h.vec, fun o ho => ?_, fun i hi => ?_⟩
  · obtain ⟨o', ho', e⟩ := h.ident o ho
    obtain ⟨o'', ho'', e'⟩ := g.ident o' ho'
    exact ⟨o'', ho'', e'.trans e⟩
  · rw [g.ctx i (h.ctx i hi ▸ hi), h.ctx i hi]

theorem callKept_of_zyn {s t : State} (hz : t.zyn = s.zyn) (hw : t.ttu.cutWait = s.ttu.cutWait) (hv : t.ttu.cutVec = s.ttu.cutVec)
    (hi : ∀ o, s.ttu.rc = some o → ∃ o', t.ttu.rc = some o' ∧ o'.ident = o.ident) : CallKept s t :=
  ⟨hw, hv, hi, fun i _ => by simp only [State.ctx, hz]⟩

theorem rcResult_callKept (s : State) (k : Nat) (v : Word64) (ok : Bool) (m : Word64) (b : Bool) : CallKept s (s.rcResult k v ok m b) :=
  ⟨by rw [rcResult_ttu], by rw [rcResult_ttu], fun o h => ⟨o, by rwa [rcResult_ttu], rfl⟩, fun _ h => ctx_rcResult_ready h ..⟩

theorem rcArrive_callKept (s : State) : CallKept s s.rcArrive := by
  cases h : s.ttu.rc with
  | none => rw [rcArrive_of_none h]; exact .refl s
  | some r =>
    have hid : (r.fixCut s).ident = r.ident := by unfold RollCall.fixCut; split <;> rfl
    refine callKept_of_zyn (rcArrive_zyn s) (by rw [rcArrive_offRing h]) (by rw [rcArrive_offRing h]) fun o ho => ⟨r.fixCut s, by rw [rcArrive_offRing h], ?_⟩
    obtain rfl := Option.some.inj (h.symm.trans ho)
    exact hid

/-- Joining a call leaves the one that is open under its name. -/
theorem rcJoin_callKept {s t : State} {r : RollCall} (h : s.rcJoin r = some t) : CallKept s t := by
  have hfail : CallKept s (s.each r.waiters fun s k => s.rcResult k 0 false ((s.ctx (CtxId.ofKey k)).rcMask) false) :=
    each_keeps (P := CallKept s) (fun u k hu => hu.trans (rcResult_callKept ..)) _ (.refl s)
  unfold State.rcJoin at h
  dsimp only at h
  split at h
  · next hrc =>
    obtain rfl := Option.some.inj h
    obtain ⟨o, -, e⟩ := rcOpen_frame s r
    rw [e]
    exact callKept_of_zyn rfl rfl rfl fun o ho => by rw [hrc] at ho; cases ho
  · next o hrc =>
    split at h
    · split at h
      · obtain rfl := Option.some.inj h
        have hjoin : CallKept s { s with ttu := { s.ttu with rc := some (o.join r) } } :=
          callKept_of_zyn rfl rfl rfl fun o' ho => ⟨o.join r, rfl, show o.ident = o'.ident by rw [Option.some.inj (hrc.symm.trans ho)]⟩
        exact hjoin.trans (rcArrive_callKept _)
      · exact Option.some.inj h ▸ hfail
    · split at h
      · split at h
        · obtain rfl := Option.some.inj h
          exact callKept_of_zyn rfl rfl rfl fun o' ho => ⟨o', ho, rfl⟩
        · exact Option.some.inj h ▸ hfail
      · split at h
        · obtain rfl := Option.some.inj h
          exact callKept_of_zyn rfl rfl rfl fun o' ho => ⟨o', ho, rfl⟩
        · cases h

/-- The open call has ended, and the first of the queue is open. -/
def State.callClosed (s : State) : State :=
  let t := { s with ttu := { s.ttu with rc := none, rcQueue := s.ttu.rcQueue.tail } }
  let u := match s.ttu.rcQueue with | [] => t | r :: _ => t.rcOpen r
  { u with ttu := { u.ttu with rcBlocked := [] } }

/-- A context that waits for a slot joins its call or waits on (R62). -/
def State.slotTaken (s : State) (x : Nat × RollCall) : State :=
  match (s.ctx (CtxId.ofKey x.1)).st with
  | .blocked (.rcSlot d p) =>
    match (s.modCtx (CtxId.ofKey x.1) fun c => { c with st := .blocked (.rollCall d p), since := s.ttu.elapsed }).rcJoin x.2 with
    | some t => t
    | none => { s with ttu := { s.ttu with rcBlocked := s.ttu.rcBlocked ++ [x] } }
  | _ => s

theorem rcNext_eq (s : State) : s.rcNext = s.callClosed.each s.ttu.rcBlocked State.slotTaken := by
  unfold State.rcNext State.callClosed
  dsimp only
  cases hq : s.ttu.rcQueue with
  | nil => rfl
  | cons r l =>
    dsimp only
    generalize hu : State.rcOpen _ r = u
    have : u.ttu.rcBlocked = s.ttu.rcBlocked := by
      rw [← hu]
      obtain ⟨o, -, e⟩ := rcOpen_frame _ r
      rw [e]
    rw [this]
    rfl

theorem setCtx_callKept {s : State} {j : CtxId} (h : (s.ctx j).st ≠ .ready) (c : Ctx) : CallKept s (s.setCtx j c) := by
  refine ⟨rfl, rfl, fun o h => ⟨o, h, rfl⟩, fun i hi => ctx_setCtx_ne (fun hk => ?_) _⟩
  have hc : s.ctx i = s.ctx j := by simp only [State.ctx, hk]
  exact h (hc ▸ hi)

theorem slotTaken_callKept (s : State) (x : Nat × RollCall) : CallKept s (s.slotTaken x) := by
  unfold State.slotTaken
  split
  · next d p hst =>
    split
    · next t ht =>
      exact (setCtx_callKept (by rw [hst]; exact fun h => by cases h) _).trans (rcJoin_callKept ht)
    · exact callKept_of_zyn rfl rfl rfl fun o h => ⟨o, h, rfl⟩
  · exact .refl s

/-- After the last release the next queued call is open; where none waits, no call is. -/
def CallEnded (s t : State) : Prop :=
  (s.ttu.rcQueue = [] → s.ttu.rcBlocked = [] → t.ttu.rc = none) ∧ ∀ q l, s.ttu.rcQueue = q :: l → ∃ o, t.ttu.rc = some o ∧ o.ident = q.ident

theorem rcNext_fields (s : State) : CallEnded s s.rcNext ∧ s.rcNext.ttu.cutWait = s.ttu.cutWait ∧ s.rcNext.ttu.cutVec = s.ttu.cutVec ∧
    ∀ i : CtxId, (s.ctx i).st = .ready → s.rcNext.ctx i = s.ctx i := by
  have hclosed : CallEnded s s.callClosed ∧ s.callClosed.ttu.cutWait = s.ttu.cutWait ∧ s.callClosed.ttu.cutVec = s.ttu.cutVec ∧ s.callClosed.zyn = s.zyn := by
    unfold State.callClosed CallEnded
    dsimp only
    cases hq : s.ttu.rcQueue with
    | nil => exact ⟨⟨fun _ _ => rfl, fun q l h => by cases h⟩, rfl, rfl, rfl⟩
    | cons r l =>
      obtain ⟨o, ho, e⟩ := rcOpen_frame { s with ttu := { s.ttu with rc := none, rcQueue := l } } r
      dsimp only [List.tail_cons]
      rw [e]
      exact ⟨⟨fun h => (List.cons_ne_nil _ _ h).elim, fun q l h => ⟨o, rfl, (List.cons.inj h).1 ▸ ho⟩⟩, rfl, rfl, rfl⟩
  obtain ⟨⟨hnone, hnext⟩, hw, hv, hz⟩ := hclosed
  have hk : CallKept s.callClosed s.rcNext := by
    rw [rcNext_eq]
    exact each_keeps (P := CallKept s.callClosed) (fun t x ht => ht.trans (slotTaken_callKept t x)) _ (.refl _)
  have hctx (i : CtxId) : s.callClosed.ctx i = s.ctx i := by simp only [State.ctx, hz]
  refine ⟨⟨fun hq hb => ?_, fun q l hq => ?_⟩, hk.wait.trans hw, hk.vec.trans hv, fun i hi => (hk.ctx i (hctx i ▸ hi)).trans (hctx i)⟩
  · rw [rcNext_eq, hb]
    exact hnone hq hb
  · obtain ⟨o, ho, e⟩ := hnext q l hq
    obtain ⟨o', ho', e'⟩ := hk.ident o ho
    exact ⟨o', ho', e'.trans e⟩

end Sys2Proof.Machine
end

section
/-! SUPPORT. The release and the timeout of a Roll Call (R60 to R63, R127). -/
namespace Sys2Proof.Machine

/-- What a context that waited for a Roll Call has been told. -/
def Ctx.Told (x : Ctx) (d : BitVec 5) (p : BitVec 3) (v : Word64) (ok : Bool) : Prop :=
  x.st = .ready ∧ x.reg d = v ∧ x.pred p = ok ∧ x.events.getLsbD 25 = true

theorem Ctx.Told.events {x : Ctx} {d : BitVec 5} {p : BitVec 3} {v : Word64} {ok : Bool} (h : x.Told d p v ok) (e : Nat) :
    Ctx.Told { x with events := x.events ||| (1#64 <<< e) } d p v ok := by
  obtain ⟨h1, h2, h3, h4⟩ := h
  exact ⟨h1, h2, h3, by simp [h4]⟩

theorem event_ready {c : Ctx} (h : c.st = .ready) (e : Nat) : c.event e = { c with events := c.events ||| (1#64 <<< e) } := by
  unfold Ctx.event
  dsimp only
  rw [h]

theorem ctx_zynEvent_ready {s : State} {i : CtxId} (h : (s.ctx i).st = .ready) (j : CtxId) (e : Nat) :
    (s.zynEvent j e).ctx i = s.ctx i ∨ (s.zynEvent j e).ctx i = { s.ctx i with events := (s.ctx i).events ||| (1#64 <<< e) } := by
  by_cases hk : i.key = j.key
  · right
    have hc (t : State) : t.ctx i = t.ctx j := by simp only [State.ctx, hk]
    rw [hc] at h
    rw [hc, hc]
    exact (ctx_modCtx_same ..).trans (event_ready h e)
  · exact .inl (ctx_setCtx_ne hk _)

theorem ctx_zynEvent_self {s : State} {i : CtxId} (h : (s.ctx i).st = .ready) (e : Nat) :
    (s.zynEvent i e).ctx i = { s.ctx i with events := (s.ctx i).events ||| (1#64 <<< e) } := by
  exact (ctx_modCtx_same ..).trans (event_ready h e)

/-- Event 26 of each waiter of a snapshot whose cut is durable (R63). -/
def State.cutEvents (s : State) (l : List Nat) : State := s.each l fun s k => s.zynEvent (CtxId.ofKey k) 26

@[simp] theorem cutEvents_ttu (s : State) (l : List Nat) : (s.cutEvents l).ttu = s.ttu := each_proj (p := State.ttu) (f := fun s k => s.zynEvent (CtxId.ofKey k) 26) (fun _ _ => rfl) s l

section
variable {i : CtxId} {d : BitVec 5} {p : BitVec 3} {v : Word64} {ok : Bool}

theorem told_zynEvent {s : State} (h : (s.ctx i).Told d p v ok) (j : CtxId) (e : Nat) : ((s.zynEvent j e).ctx i).Told d p v ok := by
  obtain hc | hc := ctx_zynEvent_ready h.1 j e <;> rw [hc]
  · exact h
  · exact h.events e

theorem told_cutEvents {s : State} (h : (s.ctx i).Told d p v ok) (l : List Nat) : ((s.cutEvents l).ctx i).Told d p v ok :=
  each_keeps (P := fun t => (t.ctx i).Told d p v ok) (fun _ _ ht => told_zynEvent ht ..) l h

/-- A flag of a READY context stays through events. -/
theorem flag_zynEvent {s : State} (h : (s.ctx i).Told d p v ok) {n : Nat} (hn : (s.ctx i).events.getLsbD n = true) (j : CtxId) (e : Nat) :
    ((s.zynEvent j e).ctx i).events.getLsbD n = true := by
  obtain hc | hc := ctx_zynEvent_ready h.1 j e <;> rw [hc]
  · exact hn
  · simp [hn]

theorem flag_cutEvents (hi : i.valid = true) {l : List Nat} (hl : i.key ∈ l) {s : State} (h : (s.ctx i).Told d p v ok) :
    ((s.cutEvents l).ctx i).events.getLsbD 26 = true := by
  induction l generalizing s with
  | nil => cases hl
  | cons k l ih =>
    show (((s.zynEvent (CtxId.ofKey k) 26).cutEvents l).ctx i).events.getLsbD 26 = true
    obtain rfl | hl := List.mem_cons.1 hl
    · have hset : ((s.zynEvent (CtxId.ofKey i.key) 26).ctx i).events.getLsbD 26 = true := by
        rw [CtxId.ofKey_key hi, ctx_zynEvent_self h.1]
        simp
      exact (each_keeps (P := fun t => (t.ctx i).Told d p v ok ∧ (t.ctx i).events.getLsbD 26 = true)
        (fun t k ht => ⟨told_zynEvent ht.1 .., flag_zynEvent ht.1 ht.2 ..⟩) l ⟨told_zynEvent h _ _, hset⟩).2
    · exact ih hl (told_zynEvent h _ _)
end

/-! ### The release -/

/-- A complete call with its cut (R63). -/
theorem fixCut_of_complete {s : State} {r : RollCall} (h : rcComplete s r = true) : r.fixCut s = { r with cut := some (r.cut.getD s.lastSeq) } := by
  have hh : rcHere s r = true := (Bool.and_eq_true_iff.1 h).1
  unfold RollCall.fixCut
  obtain ⟨ident, kind, mask, arrived, offers, waiters, ring, ringWait, origin, since, cut, got⟩ := r
  cases cut <;> simp [hh]

theorem rcComplete_fixCut (s : State) (r : RollCall) : rcComplete s (r.fixCut s) = rcComplete s r := by
  unfold RollCall.fixCut
  split <;> rfl

/-- What a release leaves of a snapshot: the vector of a ring's cuts, and the report of the cut, at once or later (R63). -/
def State.cutTold (s : State) (r : RollCall) (own cut : Nat) : State :=
  let s := s.when (r.ring && r.kind == .snapshot) fun s => { s with ttu := { s.ttu with cutVec := sput own (BitVec.ofNat 64 cut) r.ringGot } }
  if r.kind = .snapshot then
    if cut ≤ s.jnl.sealed then s.cutEvents r.waiters
    else { s with ttu := { s.ttu with cutWait := s.ttu.cutWait ++ [(cut, r.waiters)] } }
  else s

/-- What the members of a complete call are told (R60, R127). -/
def callValue (s : State) (r : RollCall) : Word64 := match r.kind with
  | .barrier => rcMask s r
  | .broadcast => if r.ring && r.origin != s.fld F.TH_CTRL.RING_ID then sgetD 0 r.origin r.ringGot else rcValue s r
  | .snapshot => BitVec.ofNat 64 (r.cut.getD s.lastSeq)

section
variable {s : State} {r : RollCall} (h : s.ttu.rc = some r)
include h

theorem rcArrive_rc : s.rcArrive.ttu = { s.ttu with rc := some (r.fixCut s) } := by rw [rcArrive_offRing h]

/-- The arrival of this device changes nothing that the call's end is judged by. -/
theorem rcMask_rcArrive (q : RollCall) : rcMask s.rcArrive q = rcMask s q := by rw [rcArrive_offRing h]; rfl
theorem rcComplete_rcArrive (q : RollCall) : rcComplete s.rcArrive q = rcComplete s q := by rw [rcArrive_offRing h]; rfl
theorem fld_rcArrive (f : Field) : s.rcArrive.fld f = s.fld f := by rw [rcArrive_offRing h]; rfl
theorem rcValue_rcArrive (q : RollCall) : rcValue s.rcArrive q = rcValue s q := by rw [rcArrive_offRing h]; rfl
theorem jnl_rcArrive : s.rcArrive.jnl = s.jnl := by rw [rcArrive_offRing h]

theorem rollCallRelease_of_incomplete (hc : rcComplete s r = false) : exec .rollCallRelease s = .next s.rcArrive := by
  rw [exec_rollCallRelease]
  unfold execRollCallRelease
  dsimp only
  rw [rcArrive_rc h]
  dsimp only
  rw [rcComplete_rcArrive h, rcComplete_fixCut, hc]
  rfl

theorem rollCallRelease_of_complete (hc : rcComplete s r = true) : exec .rollCallRelease s =
    .next ((s.rcArrive.rcResults r.waiters (callValue s r) true (rcMask s r)).cutTold r (s.fld F.TH_CTRL.RING_ID) (r.cut.getD s.lastSeq)).rcNext := by
  rw [exec_rollCallRelease]
  unfold execRollCallRelease
  dsimp only
  rw [rcArrive_rc h]
  dsimp only
  rw [rcComplete_rcArrive h, rcComplete_fixCut, hc, fixCut_of_complete hc, rcMask_rcArrive h, rcValue_rcArrive h, fld_rcArrive h]
  rfl

/-- The timeout of an open call that is due. -/
theorem rollCallTimeout_of_due (hc : rcComplete s r = false) {u : State} (hu : s.reach (r.since + rcTimeout s r) = some u) :
    exec .rollCallTimeout s = .next ((u.rcResults r.waiters 0 false (rcMask u r)).rcNext.raise F.TT_EVT.RC_TIMEOUT) := by
  rw [exec_rollCallTimeout]
  unfold execRollCallTimeout
  rw [h]
  dsimp only
  rw [hc, hu]
  rfl

theorem rollCallTimeout_of_early (hc : rcComplete s r = false) (hu : s.reach (r.since + rcTimeout s r) = none) : exec .rollCallTimeout s = .next s := by
  rw [exec_rollCallTimeout]
  unfold execRollCallTimeout
  rw [h]
  dsimp only
  rw [hc, hu]
  rfl

theorem rollCallTimeout_of_complete (hc : rcComplete s r = true) : exec .rollCallTimeout s = .next s := by
  rw [exec_rollCallTimeout]
  unfold execRollCallTimeout
  rw [h]
  dsimp only
  rw [hc]
  rfl

end

theorem rollCall_of_none {s : State} (h : s.ttu.rc = none) : exec .rollCallRelease s = .next s ∧ exec .rollCallTimeout s = .next s := by
  constructor
  · rw [exec_rollCallRelease]
    unfold execRollCallRelease
    dsimp only
    rw [rcArrive_of_none h, h]
    rfl
  · rw [exec_rollCallTimeout]
    unfold execRollCallTimeout
    rw [h]
    rfl

/-- What the report of a cut leaves, by the kind of the call and the seal. -/
theorem cutTold_fields (s : State) (r : RollCall) (own cut : Nat) : let t := s.cutTold r own cut
    t.ttu.rcQueue = s.ttu.rcQueue ∧ t.ttu.rcBlocked = s.ttu.rcBlocked ∧
    (∀ (i : CtxId) d p v ok, (s.ctx i).Told d p v ok → (t.ctx i).Told d p v ok) ∧
    (r.kind = .snapshot → s.jnl.sealed < cut → (cut, r.waiters) ∈ t.ttu.cutWait) ∧
    (r.kind = .snapshot → cut ≤ s.jnl.sealed → ∀ (i : CtxId) d p v ok, i.valid = true → i.key ∈ r.waiters → (s.ctx i).Told d p v ok →
      (t.ctx i).events.getLsbD 26 = true) ∧
    (r.kind = .snapshot → r.ring = true → t.ttu.cutVec = sput own (BitVec.ofNat 64 cut) r.ringGot) := by
  intro t
  simp only [t]
  unfold State.cutTold
  extract_lets u
  have hu : u.ttu.rcQueue = s.ttu.rcQueue ∧ u.ttu.rcBlocked = s.ttu.rcBlocked ∧ u.zyn = s.zyn ∧ u.jnl = s.jnl ∧
      (r.kind = .snapshot → r.ring = true → u.ttu.cutVec = sput own (BitVec.ofNat 64 cut) r.ringGot) := by
    simp only [u]
    cases hr : r.ring
    · exact ⟨rfl, rfl, rfl, rfl, fun _ h => by cases h⟩
    · cases hk : r.kind == .snapshot
      · refine ⟨rfl, rfl, rfl, rfl, fun h _ => ?_⟩
        rw [h] at hk
        cases hk
      · exact ⟨rfl, rfl, rfl, rfl, fun _ _ => rfl⟩
  obtain ⟨hq, hb, hz, hj, hv⟩ := hu
  clear_value u
  have hctx (i : CtxId) : u.ctx i = s.ctx i := by simp only [State.ctx, hz]
  by_cases hk : r.kind = .snapshot
  · rw [if_pos hk, hj]
    by_cases hc : cut ≤ s.jnl.sealed
    · rw [if_pos hc]
      refine ⟨by rwa [cutEvents_ttu], by rwa [cutEvents_ttu], fun i d p v ok ht => told_cutEvents (hctx i ▸ ht) _, fun _ hlt => absurd hc (Nat.not_le.2 hlt),
        fun _ _ i d p v ok hi hl ht => flag_cutEvents hi hl (hctx i ▸ ht), fun h h' => by rw [cutEvents_ttu, hv h h']⟩
    · rw [if_neg hc]
      exact ⟨hq, hb, fun i d p v ok ht => hctx i ▸ ht, fun _ _ => List.mem_append_right _ (List.mem_singleton.2 rfl), fun _ h => absurd h hc, hv⟩
  · rw [if_neg hk]
    exact ⟨hq, hb, fun i d p v ok ht => hctx i ▸ ht, fun h => absurd h hk, fun h => absurd h hk, hv⟩

section
variable {s : State} {r : RollCall} (h : s.ttu.rc = some r)
include h

/-- A complete call is released (R60, R63, R127). -/
theorem rollCallRelease_gives (hc : rcComplete s r = true) : Gives s .rollCallRelease fun t => CallEnded s t ∧
    (∀ (i : CtxId) d p, i.valid = true → (s.ctx i).st = .blocked (.rollCall d p) → i.key ∈ r.waiters → (t.ctx i).Told d p (callValue s r) true ∧
      (r.kind = .snapshot → r.cut.getD s.lastSeq ≤ s.jnl.sealed → (t.ctx i).events.getLsbD 26 = true)) ∧
    (r.kind = .snapshot → s.jnl.sealed < r.cut.getD s.lastSeq → (r.cut.getD s.lastSeq, r.waiters) ∈ t.ttu.cutWait) ∧
    (r.kind = .snapshot → r.ring = true → t.ttu.cutVec = sput (s.fld F.TH_CTRL.RING_ID) (BitVec.ofNat 64 (r.cut.getD s.lastSeq)) r.ringGot) := by
  refine ⟨_, rollCallRelease_of_complete h hc, ?_⟩
  generalize ha : s.rcArrive.rcResults r.waiters (callValue s r) true (rcMask s r) = a
  have haq : a.ttu = { s.ttu with rc := some (r.fixCut s) } := by rw [← ha, rcResults_ttu, rcArrive_rc h]
  have haj : a.jnl = s.jnl := by rw [← ha, rcResults_jnl, jnl_rcArrive h]
  have hat (i : CtxId) (d p) (hi : i.valid = true) (hst : (s.ctx i).st = .blocked (.rollCall d p)) (hl : i.key ∈ r.waiters) :
      (a.ctx i).Told d p (callValue s r) true := by
    have hz : s.rcArrive.ctx i = s.ctx i := by simp only [State.ctx, rcArrive_zyn]
    rw [← ha, ctx_rcResults hi hl (hz ▸ hst)]
    exact released_fields ..
  obtain ⟨hq, hb, ht, hw, he, hv⟩ := cutTold_fields a r (s.fld F.TH_CTRL.RING_ID) (r.cut.getD s.lastSeq)
  generalize a.cutTold r (s.fld F.TH_CTRL.RING_ID) (r.cut.getD s.lastSeq) = b at hq hb ht hw he hv
  obtain ⟨hend, hnw, hnv, hnc⟩ := rcNext_fields b
  rw [haj] at hw he
  rw [haq] at hq hb
  refine ⟨⟨fun h1 h2 => hend.1 (hq.trans h1) (hb.trans h2), fun q l hl => hend.2 q l (hq.trans hl)⟩, fun i d p hi hst hl => ?_, ?_, ?_⟩
  · have hti := ht i d p _ _ (hat i d p hi hst hl)
    rw [hnc i hti.1]
    exact ⟨hti, fun hk hs => he hk hs i d p _ _ hi hl (hat i d p hi hst hl)⟩
  · rwa [hnw]
  · rwa [hnv]

/-- A call whose time is out fails (R62). -/
theorem rollCallTimeout_gives (hc : rcComplete s r = false) {u : State} (hu : s.reach (r.since + rcTimeout s r) = some u) :
    Gives s .rollCallTimeout fun t => CallEnded s t ∧ t.fld F.TT_EVT.RC_TIMEOUT = 1 ∧
    (∀ (i : CtxId) d p, i.valid = true → (s.ctx i).st = .blocked (.rollCall d p) → i.key ∈ r.waiters → (t.ctx i).Told d p 0 false) := by
  have hkeep : u.ttu.rcQueue = s.ttu.rcQueue ∧ u.ttu.rcBlocked = s.ttu.rcBlocked ∧ u.zyn = s.zyn := by
    unfold State.reach at hu
    split at hu
    · obtain rfl := Option.some.inj hu; exact ⟨rfl, rfl, rfl⟩
    · split at hu
      · obtain rfl := Option.some.inj hu; exact ⟨rfl, rfl, rfl⟩
      · cases hu
  obtain ⟨hq, hb, hz⟩ := hkeep
  refine ⟨_, rollCallTimeout_of_due h hc hu, ?_, fld_raise_self (by decide) _, fun i d p hi hst hl => ?_⟩
  · obtain ⟨hend, -⟩ := rcNext_fields (u.rcResults r.waiters 0 false (rcMask u r))
    unfold CallEnded at hend
    rw [rcResults_ttu, hq, hb] at hend
    exact hend
  · obtain ⟨-, -, -, hnc⟩ := rcNext_fields (u.rcResults r.waiters 0 false (rcMask u r))
    have hc : u.ctx i = s.ctx i := by simp only [State.ctx, hz]
    have ht : ((u.rcResults r.waiters 0 false (rcMask u r)).ctx i).Told d p 0 false := by
      rw [ctx_rcResults hi hl (hc ▸ hst)]
      exact released_fields ..
    have hn := hnc i ht.1
    exact hn ▸ ht

end

end Sys2Proof.Machine
end

section
/-! SUPPORT. What the rest of a Period boundary keeps: device time, the active Timetable, the LUNs, and contexts that are READY but for their events. -/
namespace Sys2Proof.Machine

/-- The registers of the frame: EN and the active Timetable. -/
def calmReg (off : Nat) : Bool :=
  off == R.TT_CTRL || off == R.TT_GEOM_ACT || off == R.TT_OFFSET_ACT || (decide (R.TT_TABLE_ACT ≤ off) && decide (off < R.TT_TABLE_ACT + 1024))

/-- A field outside the frame. -/
def Field.calm (f : Field) : Bool := !calmReg f.off && f.apart F.TT_EVT.STEPPED && f.apart F.TT_GC_STATUS.INVALID

/-- Device time, the active Timetable with the two reports of a boundary, and the LUNs. -/
structure Ticks where
  elapsed : Nat
  time : Word64
  pnum : Word64
  step : Option Int
  enPending : Bool
  stepped : Nat
  invalid : Nat
  active : Nat → Word
  luns : Sparse Lun

/-- The frame, and every context. -/
structure Calm where
  ticks : Ticks
  ctxs : Sparse Ctx

def State.ticks (s : State) : Ticks :=
  { elapsed := s.ttu.elapsed, time := s.ttu.time, pnum := s.ttu.pnum, step := s.ttu.step, enPending := s.ttu.enPending
    stepped := s.fld F.TT_EVT.STEPPED, invalid := s.fld F.TT_GC_STATUS.INVALID
    active := fun off => if calmReg off then s.reg off else 0, luns := s.media.luns }

def State.calm (s : State) : Calm := { ticks := s.ticks, ctxs := s.zyn.ctxs }

/-- A state with the registers, device time, LUNs and contexts of another keeps the frame. -/
theorem calm_mk (s : State) {ttu : Ttu} {zyn : Zyn} {media : Media} (h1 : ttu.elapsed = s.ttu.elapsed) (h2 : ttu.time = s.ttu.time)
    (h3 : ttu.pnum = s.ttu.pnum) (h4 : ttu.step = s.ttu.step) (h5 : ttu.enPending = s.ttu.enPending) (hl : media.luns = s.media.luns)
    (hz : zyn.ctxs = s.zyn.ctxs) (host : HostIf) (sc : SeatingChart) (map : MapUnit) (jnl : Journal) (mram : Mram) (ecc : Protect) (dmc : Dmc)
    (sec : Crypto) (pwr : Power) (boot : BootSt) (gb : Gradebook) (th : Tether) (tst : Test) (out : List Out) (freeCtr : Nat) (pending : List Instr) :
    State.calm { variant := s.variant, regs := s.regs, ttu, zyn, host, sc, map, media, jnl, mram, ecc, dmc, sec, pwr, boot, gb, th, tst, out, freeCtr, pending } = s.calm := by
  simp [State.calm, State.ticks, State.fld, State.reg, h1, h2, h3, h4, h5, hl, hz]

@[simp] theorem calm_when {s : State} {c : Bool} {f : State → State} (h : (f s).calm = s.calm) : (s.when c f).calm = s.calm := by
  cases c
  · rfl
  · exact h

@[simp] theorem calm_each {α : Type} {f : State → α → State} (h : ∀ t x, (f t x).calm = t.calm) (s : State) (l : List α) :
    (s.each l f).calm = s.calm := each_proj h s l

@[simp] theorem calm_setReg {off : Nat} (h : calmReg off = false) (h1 : off ≠ R.TT_EVT) (h2 : off ≠ R.TT_GC_STATUS) (s : State) (w : Word) :
    (s.setReg off w).calm = s.calm := by
  have ha : (fun o => if calmReg o then (s.setReg off w).reg o else 0) = fun o => if calmReg o then s.reg o else 0 := by
    funext o
    by_cases ho : calmReg o = true
    · rw [if_pos ho, if_pos ho, reg_setReg_ne (by rintro rfl; rw [h] at ho; cases ho)]
    · rw [if_neg ho, if_neg ho]
  have hf {f : Field} (hf : f.off ≠ off) : (s.setReg off w).fld f = s.fld f := by simp only [State.fld, reg_setReg_ne hf]
  unfold State.calm State.ticks
  rw [ha, hf (f := F.TT_EVT.STEPPED) h1.symm, hf (f := F.TT_GC_STATUS.INVALID) h2.symm]
  rfl

@[simp] theorem calm_setFld {f : Field} (h : f.calm = true) (s : State) (n : Nat) : (s.setFld f n).calm = s.calm := by
  simp only [Field.calm, Bool.and_eq_true, Bool.not_eq_true'] at h
  obtain ⟨⟨hr, he⟩, hg⟩ := h
  have ha : (fun o => if calmReg o then (s.setFld f n).reg o else 0) = fun o => if calmReg o then s.reg o else 0 := by
    funext o
    by_cases ho : calmReg o = true
    · rw [if_pos ho, if_pos ho]
      exact reg_setReg_ne (by rintro rfl; rw [hr] at ho; cases ho) _
    · rw [if_neg ho, if_neg ho]
  unfold State.calm State.ticks
  rw [ha, fld_setFld_apart he, fld_setFld_apart hg]
  rfl

@[simp] theorem calm_setBit {f : Field} (h : f.calm = true) (s : State) (b : Bool) : (s.setBit f b).calm = s.calm := calm_setFld h s _
@[simp] theorem calm_raise {f : Field} (h : f.calm = true) (s : State) : (s.raise f).calm = s.calm := calm_setFld h s _
@[simp] theorem calm_clear {f : Field} (h : f.calm = true) (s : State) : (s.clear f).calm = s.calm := calm_setFld h s _
@[simp] theorem calm_count {f : Field} (h : f.calm = true) (s : State) (n : Nat) : (s.count f n).calm = s.calm := calm_setFld h s _
@[simp] theorem calm_countMod {f : Field} (h : f.calm = true) (s : State) (n : Nat) : (s.countMod f n).calm = s.calm := calm_setFld h s _

theorem field_calm_of_ge {f : Field} (h : 0x500000 ≤ f.off) : f.calm = true := by
  have h1 : f.off ≠ R.TT_CTRL := by rintro e; rw [e] at h; exact absurd h (by decide)
  have h2 : f.off ≠ R.TT_GEOM_ACT := by rintro e; rw [e] at h; exact absurd h (by decide)
  have h3 : f.off ≠ R.TT_OFFSET_ACT := by rintro e; rw [e] at h; exact absurd h (by decide)
  have h4 : ¬ f.off < R.TT_TABLE_ACT + 1024 := Nat.not_lt.2 ((show R.TT_TABLE_ACT + 1024 ≤ 0x500000 by decide).trans h)
  have h5 : F.TT_EVT.STEPPED.off ≠ f.off := by rintro e; rw [← e] at h; exact absurd h (by decide)
  have h6 : F.TT_GC_STATUS.INVALID.off ≠ f.off := by rintro e; rw [← e] at h; exact absurd h (by decide)
  simp [Field.calm, calmReg, Field.apart, h1, h2, h3, h4, h5, h6]

@[simp] theorem calm_bpmUsed (a : Nat) : (F.BPM_USED.USED.ix a).calm = true := field_calm_of_ge (by simp only [Field.ix, F.BPM_USED.USED]; omega)
@[simp] theorem calm_bpmSoft (a : Nat) : (F.BPM_USED.SOFT.ix a).calm = true := field_calm_of_ge (by simp only [Field.ix, F.BPM_USED.SOFT]; omega)
@[simp] theorem calm_bpmHard (a : Nat) : (F.BPM_USED.HARD.ix a).calm = true := field_calm_of_ge (by simp only [Field.ix, F.BPM_USED.HARD]; omega)

/-! ### State operations -/

@[simp] theorem calm_setFunc (s : State) (f : Nat) (g : Func) : (s.setFunc f g).calm = s.calm := (rfl)
@[simp] theorem calm_setCq (s : State) (f q : Nat) (c : Cq) : (s.setCq f q c).calm = s.calm := (rfl)
@[simp] theorem calm_emit (s : State) (o : Out) : (s.emit o).calm = s.calm := (rfl)
@[simp] theorem calm_setBuf (s : State) (h : Nat) (b : Buf) : (s.setBuf h b).calm = s.calm := (rfl)
@[simp] theorem calm_setQueue (s : State) (p : Nat) (l : List Request) : (s.setQueue p l).calm = s.calm := (rfl)
@[simp] theorem calm_setStalled (s : State) (p : Nat) (l : List Request) : (s.setStalled p l).calm = s.calm := (rfl)
@[simp] theorem calm_setShutdown (s : State) (v : Nat) : (s.setShutdown v).calm = s.calm := (rfl)
@[simp] theorem calm_gauge (s : State) (i v : Nat) : (s.gauge i v).calm = s.calm := (rfl)
@[simp] theorem calm_adjustValid (s : State) (d k : Nat) (up : Bool) : (s.adjustValid d k up).calm = s.calm := (rfl)
@[simp] theorem calm_replayRows (s : State) : s.replayRows.calm = s.calm := (rfl)
@[simp] theorem calm_resetDone (s : State) (f : Nat) : (s.resetDone f).calm = s.calm := (rfl)
@[simp] theorem calm_setTab (s : State) (t : Tables) : (s.setTab t).calm = s.calm := (rfl)
@[simp] theorem calm_setHeap (s : State) (d : Nat) (l : List (Nat × Nat)) : (s.setHeap d l).calm = s.calm := (rfl)
@[simp] theorem calm_putBlock (s : State) (k v : Nat) : (s.putBlock k v).calm = s.calm := (rfl)
@[simp] theorem calm_setWays (s : State) (n : Nat) (l : List CacheLine) : (s.setWays n l).calm = s.calm := (rfl)
@[simp] theorem calm_stampLine (s : State) (l i n : Nat) : (s.stampLine l i n).calm = s.calm := (rfl)
@[simp] theorem calm_queueRebuild (s : State) (t x w : Nat) (v : Word64) (n : Nat) : (s.queueRebuild t x w v n).calm = s.calm := (rfl)
@[simp] theorem calm_closeBlockEntry (s : State) (d b : Nat) : (s.closeBlockEntry d b).calm = s.calm := (rfl)
@[simp] theorem calm_copyBlock (s : State) (d b e c : Nat) : (s.copyBlock d b e c).calm = s.calm := (rfl)
@[simp] theorem calm_setLedger (s : State) (l : Ledger) : (s.setLedger l).calm = s.calm := (rfl)

@[simp] theorem calm_request (s : State) (c : EngClass) (e : Nat) (r : Request) : (s.request c e r).calm = s.calm := by
  simp [State.request, apply_ite State.calm]
@[simp] theorem calm_policy (s : State) (k a : Nat) (c : Option Nat) : (s.policy k a c).calm = s.calm := calm_request ..
@[simp] theorem calm_requestImage (s : State) (p : Nat) : (s.requestImage p).calm = s.calm := calm_request ..

@[simp] theorem calm_adminDone (s : State) (f : Nat) (cid : BitVec 16) (sct sc : Nat) (a b : Word) : (s.adminDone f cid sct sc a b).calm = s.calm := by
  rw [adminDone_frame]; rfl
@[simp] theorem calm_ok (s : State) (f : Nat) (cid : BitVec 16) (a : Word) : (s.ok f cid a).calm = s.calm := calm_adminDone ..
@[simp] theorem calm_aen (s : State) (f ty info : Nat) : (s.aen f ty info).calm = s.calm := by rw [aen_frame]; rfl
@[simp] theorem calm_vendorEvent (s : State) (i : Nat) : (s.vendorEvent i).calm = s.calm := calm_aen ..
@[simp] theorem calm_gbTake (s : State) (c : Nat) : (s.gbTake c).calm = s.calm := by
  unfold State.gbTake
  dsimp only
  split
  · rfl
  · simp +decide [↓calm_mk]
@[simp] theorem calm_gbClose (s : State) (c : Nat) : (s.gbClose c).calm = s.calm := by
  unfold State.gbClose
  split
  · exact calm_gbTake ..
  · rfl
@[simp] theorem calm_entry (s : State) (k v : Nat) : (s.entry k v).calm = s.calm := by
  simp [State.entry, ↓calm_mk, apply_ite State.calm]
@[simp] theorem calm_fillUpdate (s : State) : s.fillUpdate.calm = s.calm := by
  simp +decide [State.fillUpdate]
@[simp] theorem calm_poison (s : State) (st a : Nat) : (s.poison st a).calm = s.calm := by
  simp +decide [State.poison, ↓calm_mk, apply_ite State.calm]
@[simp] theorem calm_inject (s : State) (st a : Nat) : (s.inject st a).calm = s.calm := by
  simp +decide [State.inject, apply_ite State.calm]
@[simp] theorem calm_tailAdvance (s : State) : s.tailAdvance.calm = s.calm := by
  cases h : s.jnl.repair <;> simp +decide [State.tailAdvance, h, ↓calm_mk, apply_ite State.calm]
@[simp] theorem calm_cover (s : State) : s.cover.calm = s.calm := by
  unfold State.cover
  dsimp only
  split
  · rfl
  · rw [calm_tailAdvance, calm_each]
    · rfl
    · intro t im
      cases im.loc with
      | none => rfl
      | some loc => cases sget im.page t.mram.cpNewest <;> rfl
@[simp] theorem calm_deletesDone (s : State) (f : Nat) : (s.deletesDone f).calm = s.calm := by
  refine calm_each (fun t x => ?_) s _
  dsimp only
  split
  · exact calm_ok ..
  · rfl
@[simp] theorem calm_ctxGone (s : State) (c f : Nat) : (s.ctxGone c f).calm = s.calm := by
  unfold State.ctxGone
  exact (calm_when (calm_resetDone ..)).trans (calm_deletesDone ..)
@[simp] theorem calm_bufGone (s : State) (c h : Nat) : (s.bufGone c h).calm = s.calm := by
  unfold State.bufGone
  split
  · rfl
  · dsimp only
    split
    · rfl
    · split
      · exact calm_ctxGone ..
      · rfl
@[simp] theorem calm_bpmEval (s : State) (a : Nat) : (s.bpmEval a).calm = s.calm := by
  unfold State.bpmEval
  simp +decide [↓calm_mk]
@[simp] theorem calm_unreserve (s : State) (a n : Nat) : (s.unreserve a n).calm = s.calm := by
  unfold State.unreserve
  simp +decide
@[simp] theorem calm_freeBuf (s : State) (h : Nat) : (s.freeBuf h).calm = s.calm := by
  cases hb : s.buf h <;> simp +decide [State.freeBuf, hb, ↓calm_mk, apply_ite State.calm]
@[simp] theorem calm_releaseSealed (s : State) : s.releaseSealed.calm = s.calm := by
  unfold State.releaseSealed
  simp
@[simp] theorem calm_markDirty (s : State) (p n : Nat) : (s.markDirty p n).calm = s.calm := by
  unfold State.markDirty
  split <;> rfl
@[simp] theorem calm_touchLine (s : State) (l : Nat) : (s.touchLine l).2.calm = s.calm := by
  unfold State.touchLine
  dsimp only
  split
  · exact (calm_countMod (by decide) _ _).trans (calm_setWays ..)
  · split
    · exact (calm_setWays ..).trans (calm_countMod (by decide) _ _)
    · split
      · exact (calm_setWays ..).trans (calm_countMod (by decide) _ _)
      · exact (calm_raise (by decide) _).trans (calm_countMod (by decide) _ _)
@[simp] theorem calm_access (s : State) (t i : Nat) : (s.access t i).calm = s.calm := by
  unfold State.access
  split
  · exact calm_touchLine ..
  · rfl
@[simp] theorem calm_zoneCounts (s : State) : s.zoneCounts.calm = s.calm := by
  unfold State.zoneCounts
  simp +decide
@[simp] theorem calm_bufDone (s : State) (h n : Nat) : (s.bufDone h n).calm = s.calm := by
  unfold State.bufDone
  split <;> rfl
@[simp] theorem calm_bufPlaced (s : State) (h n : Nat) (w : Word64) : (s.bufPlaced h n w).calm = s.calm := by
  unfold State.bufPlaced
  split <;> rfl
@[simp] theorem calm_mwpMoved (s : State) (z n : Nat) : (s.mwpMoved z n).calm = s.calm := by
  unfold State.mwpMoved
  dsimp only
  generalize hv : State.each _ _ _ = v
  replace hv : v.calm = s.calm := hv ▸ calm_each (fun _ _ => calm_bufDone ..) _ _
  split
  · exact hv
  · exact hv

/-- A place leaves a map word: VALID falls, or its buffers are done with it. -/
def State.placeLeaves (s : State) (old new : Place) (n : Nat) : State := match old with
  | .media d sl => s.adjustValid d sl false
  | .buffer h => if old = new then s else s.bufDone h n
  | .pending h => if old = new then s else (match sget h s.host.pendings with
    | some p => ({ s with host := { s.host with pendings := sdel h s.host.pendings } }).each p.bufs fun s b => s.bufDone b n
    | none => s)
  | _ => s

/-- A place enters a map word: VALID rises, or its buffers take its number. -/
def State.placeEnters (s : State) (old new : Place) (n : Nat) (prior : Word64) : State := match new with
  | .media d sl => s.adjustValid d sl true
  | .buffer h => if old = new then s else s.bufPlaced h n prior
  | .pending h => if old = new then s else (match sget h s.host.pendings with
    | some p => s.each p.bufs fun s b => s.bufPlaced b n prior
    | none => s)
  | _ => s

@[simp] theorem calm_placeLeaves (s : State) (old new : Place) (n : Nat) : (s.placeLeaves old new n).calm = s.calm := by
  unfold State.placeLeaves
  split
  · rfl
  · split
    · rfl
    · exact calm_bufDone ..
  · split
    · rfl
    · split
      · exact calm_each (fun _ _ => calm_bufDone ..) _ _
      · rfl
  · rfl

@[simp] theorem calm_placeEnters (s : State) (old new : Place) (n : Nat) (w : Word64) : (s.placeEnters old new n w).calm = s.calm := by
  unfold State.placeEnters
  split
  · rfl
  · split
    · rfl
    · exact calm_bufPlaced ..
  · split
    · rfl
    · split
      · exact calm_each (fun _ _ => calm_bufPlaced ..) _ _
      · rfl
  · rfl

/-- The word of a map entry has been written, and its old and new places know (R233). -/
def State.mapWritten (s : State) (x : Nat) (v : Word64) (n : Nat) : State :=
  let u := s.inject 9 (2 ^ 36 + x)
  let v := BitVec.ofNat 64 (v.toNat % 2 ^ 40)
  let old := Place.of (u.mapEntry x)
  ((u.setTab { u.zyn.tab with map := sputD 0 x v u.zyn.tab.map }).placeLeaves old (Place.of v) n).placeEnters old (Place.of v) n (u.mapEntry x)

@[simp] theorem calm_mapWritten (s : State) (x : Nat) (v : Word64) (n : Nat) : (s.mapWritten x v n).calm = s.calm := by
  unfold State.mapWritten
  dsimp only
  rw [calm_placeEnters, calm_placeLeaves, calm_setTab, calm_inject]

theorem calm_applyWord_map (s : State) (x w : Nat) (v : Word64) (n : Nat) : (s.applyWord 1 x w v n).calm = s.calm := by
  refine Eq.trans ?_ (calm_mapWritten s x v n)
  rfl

/-- The word of a zone's record is written (R237). -/
theorem calm_applyWord_zone (s : State) (x w : Nat) (v : Word64) (n : Nat) : (s.applyWord 2 x w v n).calm = s.calm := by
  unfold State.applyWord
  dsimp only
  refine (calm_when (calm_mwpMoved ..)).trans ((calm_when (calm_zoneCounts ..)).trans ((calm_when rfl).trans ?_))
  exact (calm_stampLine ..).trans ((calm_setTab ..).trans (calm_inject ..))

@[simp] theorem calm_applyWord (s : State) (tbl x w : Nat) (v : Word64) (n : Nat) : (s.applyWord tbl x w v n).calm = s.calm := by
  by_cases h1 : tbl = 1
  · subst h1; exact calm_applyWord_map ..
  by_cases h2 : tbl = 2
  · subst h2; exact calm_applyWord_zone ..
  unfold State.applyWord
  dsimp only
  split
  · exact absurd rfl h1
  · exact absurd rfl h2
  all_goals exact calm_inject s _ _

@[simp] theorem calm_ballastCheck (s : State) (d : Nat) : (s.ballastCheck d).calm = s.calm := by
  unfold State.ballastCheck
  simp +decide [↓calm_mk, apply_ite State.calm]
@[simp] theorem calm_gcRequest (s : State) (k : GcKind) (a : Nat) : (s.gcRequest k a).calm = s.calm := by
  unfold State.gcRequest
  dsimp only
  split
  · rfl
  · split
    · rfl
    · exact calm_raise (by decide) _

end Sys2Proof.Machine
end

section
/-! SUPPORT. What journaled writes, relocations and the ends of shutdowns keep: the frame, and READY contexts but for their events. -/
namespace Sys2Proof.Machine

/-- The frame is kept, and so is each READY context but for its events. -/
structure Kept (s t : State) : Prop where
  ticks : t.ticks = s.ticks
  ctx : ∀ i : CtxId, (s.ctx i).st = .ready → ∃ e, t.ctx i = { s.ctx i with events := e }

theorem Kept.of_calm {s t : State} (h : t.calm = s.calm) : Kept s t :=
  ⟨congrArg Calm.ticks h, fun i _ => ⟨(s.ctx i).events, by unfold State.ctx; rw [show t.zyn.ctxs = s.zyn.ctxs from congrArg Calm.ctxs h]⟩⟩

theorem Kept.refl (s : State) : Kept s s := .of_calm rfl

theorem Kept.trans {s t u : State} (h : Kept s t) (g : Kept t u) : Kept s u := by
  refine ⟨g.ticks.trans h.ticks, fun i hi => ?_⟩
  obtain ⟨e, he⟩ := h.ctx i hi
  obtain ⟨e', he'⟩ := g.ctx i (by rw [he]; exact hi)
  exact ⟨e', by rw [he', he]⟩

/-- A step that keeps the frame, after one that does. -/
theorem Kept.calm {s t u : State} (h : Kept s t) (g : u.calm = t.calm) : Kept s u := h.trans (.of_calm g)

theorem Kept.each {α : Type} {s t : State} {f : State → α → State} (h : Kept s t) (hf : ∀ u x, Kept u (f u x)) (l : List α) : Kept s (t.each l f) :=
  each_keeps (P := Kept s) (fun u x hu => hu.trans (hf u x)) l h

theorem Kept.when {s t : State} {f : State → State} (h : Kept s t) (hf : ∀ u, Kept u (f u)) (c : Bool) : Kept s (t.when c f) :=
  when_keeps (P := Kept s) (fun u hu => hu.trans (hf u)) c h

theorem Kept.ite {s t u : State} {c : Prop} [Decidable c] (h : Kept s t) (g : Kept s u) : Kept s (if c then t else u) :=
  ite_keeps (P := Kept s) h g

theorem calm_ite {s t u : State} {c : Prop} [Decidable c] (h : t.calm = s.calm) (g : u.calm = s.calm) : (if c then t else u).calm = s.calm :=
  ite_keeps (P := fun v => v.calm = s.calm) h g

theorem kept_zynEvent (s : State) (i : CtxId) (e : Nat) : Kept s (s.zynEvent i e) := by
  refine ⟨rfl, fun j hj => ?_⟩
  obtain h | h := ctx_zynEvent_ready hj i e
  · exact ⟨(s.ctx j).events, h⟩
  · exact ⟨_, h⟩

theorem kept_cutDurable (s : State) : Kept s s.cutDurable := by
  unfold State.cutDurable
  refine Kept.each ?_ (fun u k => kept_zynEvent u (CtxId.ofKey k) 26) _
  exact .of_calm rfl

/-- The open batch has entered the ring (R294). -/
def State.batchSealed (s : State) (flush : Bool) : State :=
  let n := s.jnl.openRecs.length
  let slot := if s.mram.ring.isEmpty && !s.mram.valid then 0 else ((s.mram.headSlot.vote.getD 0) + 1) % 16000
  let last := s.jnl.openBase + n - 1
  let s := { s with
    mram := { s.mram with
      ring := sput slot { base := s.jnl.openBase, flush := flush, recs := s.jnl.openRecs } s.mram.ring
      headSlot := trip slot, headSeq := trip s.jnl.openBase, headLen := n, valid := true
      tailSlot := if s.mram.ring.isEmpty then trip slot else s.mram.tailSlot
      tailSeq := if s.mram.ring.isEmpty then trip s.jnl.openBase else s.mram.tailSeq }
    jnl := { s.jnl with sealed := last, openRecs := [], openBase := last + 1, openCtxs := [], openSlots := [] } }
  (s.when (s.fld F.JNL_STATUS.RECOV_PHASE == 7 && s.mram.shutdown.vote == some sdClean) (·.setShutdown sdRunning)).inject 11 (slot * 1040)

theorem seal_eq (s : State) (b : Bool) : s.seal b = if s.jnl.openRecs.isEmpty || s.jnl.inhibit then s else
    (((s.batchSealed b).each s.jnl.openCtxs fun s k => s.zynEvent (CtxId.ofKey k) 27).releaseSealed.cutDurable).replayRows.cover.fillUpdate := rfl

@[simp] theorem calm_batchSealed (s : State) (b : Bool) : (s.batchSealed b).calm = s.calm := by
  unfold State.batchSealed
  exact (calm_inject ..).trans (calm_when (calm_setShutdown ..))

theorem kept_seal (s : State) (b : Bool) : Kept s (s.seal b) := by
  rw [seal_eq]
  refine .ite (.refl s) ?_
  have h := ((Kept.of_calm (calm_batchSealed s b)).each (fun u k => kept_zynEvent u (CtxId.ofKey k) 27) s.jnl.openCtxs).calm (calm_releaseSealed _)
  exact (((h.trans (kept_cutDurable _)).calm (calm_replayRows _)).calm (calm_cover _)).calm (calm_fillUpdate _)

theorem kept_journal (s : State) (r : BitVec 128) (c : Option Nat) : Kept s (s.journal r c).2 := by
  unfold State.journal
  refine Kept.when (Kept.calm ?_ (calm_fillUpdate _)) (fun u => kept_seal u false) _
  exact .of_calm rfl

theorem kept_jwrite (s : State) (t x w : Nat) (v : Word64) (c : Option Nat) : Kept s (s.jwrite t x w v c).2 := by
  unfold State.jwrite
  dsimp only
  refine .ite ?_ ?_
  · exact ((kept_journal s _ c).calm (calm_markDirty ..)).calm (calm_queueRebuild ..)
  · exact ((kept_journal s _ c).calm (calm_markDirty ..)).calm (calm_applyWord ..)

theorem kept_tjrn (s : State) (t x w v : Nat) : Kept s (s.tjrn t x w v) := (Kept.of_calm (calm_access s t x)).trans (kept_jwrite ..)

theorem kept_setZs (s : State) (z st : Nat) : Kept s (s.setZs z st) := kept_tjrn ..

/-- A die may give up a free block for a purpose: its floors and the limit of open blocks (R279, R281). -/
def allocOk (s : State) (die purpose free : Nat) : Bool :=
  let resv := s.fld F.MED_SPOOL.FLUSH_RESV
  let hostFloor := s.fld F.MED_BALLAST.HOST_FLOOR
  let spoolMax := if s.media.spoolCut.contains die then resv else s.fld F.MED_SPOOL.MAX_BLK
  (match purpose with
    | 1 => decide (hostFloor ≤ free)
    | 2 => decide (hostFloor ≤ free) && decide (s.spoolBlocks die < spoolMax)
    | 3 => decide (resv ≤ free)
    | 4 => true
    | 5 => decide (resv ≤ free)
    | _ => false) && s.inService die && !decide (16 ≤ s.openBlocks die)

/-- The record of a block taken from the heap is applied, and the block is listed as open, once its number is known (R279, R298). -/
def State.blockListed (s : State) (n die purpose e b idx : Nat) : State :=
  let w0 : Word64 := BitVec.ofNat 64 (65536 + e * 2 ^ 20)
  let s := if s.underRebuild 4 idx then s.queueRebuild 4 idx 0 w0 n else s.applyWord 4 idx 0 w0 n
  let use := match purpose with | 3 => 1 | 5 => 2 | _ => 0
  let s := { s with mram := { s.mram with openBlks := s.mram.openBlks ++ [({ die := die, block := b, use := use, allocSeq := n } : OpenBlk)] } }
  s.ballastCheck die

/-- The first block of a die's heap is taken: its record is journaled, and it is listed. -/
def State.blockTaken (s : State) (die purpose : Nat) (slcBit : Bool) (ctx : Option Nat) (e b : Nat) (t : List (Nat × Nat)) : State :=
  let slc := match purpose with | 1 => false | 2 => true | 4 => true | _ => slcBit
  let w1 := (if slc then 64 else 0) + (if purpose = 5 then 128 else 0)
  let idx := die * geoBlocks s + b
  let x := (s.setHeap die t).jwrite 4 idx 1 (BitVec.ofNat 64 w1) ctx
  x.2.blockListed x.1 die purpose e b idx

theorem ite_guard {α : Type} (x y z : Bool) (a b : α) : (if !x || !y || z then a else b) = if x && y && !z then b else a := by
  cases x <;> cases y <;> cases z <;> rfl

section
variable {s : State} {die : Nat} (purpose : Nat) (slc : Bool) (c : Option Nat)

theorem allocBlock_of_empty (h : s.heap die = []) : s.allocBlock die purpose slc c = (none, s) := by
  unfold State.allocBlock
  rw [h]

theorem allocBlock_of_free {e b : Nat} {t : List (Nat × Nat)} (h : s.heap die = (e, b) :: t) : s.allocBlock die purpose slc c =
    if allocOk s die purpose t.length then (some b, s.blockTaken die purpose slc c e b t) else (none, s) := by
  unfold State.allocBlock
  split
  · next hn => rw [h] at hn; cases hn
  · next e' b' t' hc =>
    rw [h] at hc
    cases hc
    refine Eq.trans (ite_guard ..) ?_
    unfold State.blockTaken
    extract_lets sl w1 idx s1 w0 use sl' w1' x
    have hx : x = s1.jwrite 4 idx 1 (BitVec.ofNat 64 w1) c := rfl
    rw [← hx]
    clear_value x
    obtain ⟨n, u⟩ := x
    rfl
end

theorem kept_blockListed {s u : State} (h : Kept s u) (n die purpose e b idx : Nat) : Kept s (u.blockListed n die purpose e b idx) := by
  unfold State.blockListed
  extract_lets w0 y use _ z
  have hy : Kept s y := .ite (h.calm (calm_queueRebuild ..)) (h.calm (calm_applyWord ..))
  clear_value y
  have hz : Kept s z := hy.calm rfl
  exact hz.calm (calm_ballastCheck ..)

theorem kept_blockTaken (s : State) (die purpose : Nat) (slc : Bool) (c : Option Nat) (e b : Nat) (t : List (Nat × Nat)) :
    Kept s (s.blockTaken die purpose slc c e b t) :=
  kept_blockListed ((Kept.of_calm (calm_setHeap s die t)).trans (kept_jwrite ..)) ..

theorem kept_allocBlock (s : State) (die purpose : Nat) (slc : Bool) (c : Option Nat) : Kept s (s.allocBlock die purpose slc c).2 := by
  match h : s.heap die with
  | [] => rw [allocBlock_of_empty _ _ _ h]; exact .refl s
  | (e, b) :: t =>
    rw [allocBlock_of_free _ _ _ h]
    split
    · dsimp only
      exact kept_blockTaken ..
    · exact .refl s

theorem kept_returnBlock (s : State) (d b : Nat) : Kept s (s.returnBlock d b) := by
  unfold State.returnBlock
  exact (((kept_tjrn s ..).calm (calm_closeBlockEntry ..)).calm (calm_setHeap ..)).calm (calm_ballastCheck ..)

theorem kept_writeList (s : State) (base : Nat) (l : List (Nat × Nat)) : Kept s (s.writeList base l) := by
  unfold State.writeList
  refine Kept.each (.refl s) (fun u j => ?_) _
  exact kept_tjrn ..

theorem kept_dropMove (s : State) (z : Nat) : Kept s (s.dropMove z) := by
  unfold State.dropMove
  refine Kept.each ?_ (fun u m => Kept.each (.refl u) (fun v x => ?_) _) _
  · exact .of_calm rfl
  · obtain ⟨i, e, c⟩ := x
    exact kept_returnBlock ..

theorem kept_dropZoneBlock (s : State) (d b : Nat) : Kept s (s.dropZoneBlock d b) := by
  unfold State.dropZoneBlock
  exact (kept_tjrn s ..).calm (calm_closeBlockEntry ..)

theorem kept_moveFails (s : State) (z : Nat) : Kept s (s.moveFails z) := by
  unfold State.moveFails
  dsimp only
  split
  · exact kept_dropMove s z
  · refine Kept.each ?_ (fun u f => .of_calm (calm_aen ..)) _
    exact ((((kept_dropMove s z).trans (kept_setZs ..)).calm (calm_raise (by decide) _)).calm (calm_entry ..))

theorem kept_moveCommit (s : State) (z : Nat) (m : ZoneMove) : Kept s (s.moveCommit z m) := by
  unfold State.moveCommit
  dsimp only
  refine Kept.calm (t := State.each _ _ _) ?_ rfl
  refine Kept.each ?_ (fun u x => ?_) _
  · refine Kept.trans ?_ (kept_writeList ..)
    refine Kept.each (kept_tjrn ..) (fun u x => ?_) _
    obtain ⟨i, e, c⟩ := x
    exact .of_calm (calm_copyBlock ..)
  · obtain ⟨d, b⟩ := x
    exact kept_dropZoneBlock ..

theorem kept_moveAlloc {dies : List Nat} {l : List (Nat × Nat × Nat)} {s t : State} {m m' : ZoneMove} {ok : Bool}
    (h : s.moveAlloc dies m l = (ok, some (m', t))) : Kept s t := by
  induction l generalizing s m with
  | nil =>
    cases h
    exact .refl _
  | cons x l ih =>
    obtain ⟨i, d, b⟩ := x
    unfold State.moveAlloc at h
    split at h
    · cases h
    · next e _ =>
      have ha := kept_allocBlock s e 3 false none
      split at h
      · next hb => rw [hb] at ha; exact ha.trans (ih h)
      · cases h

theorem kept_moveStep (s : State) (z : Nat) : Kept s (s.moveStep z) := by
  unfold State.moveStep
  split
  · exact .refl s
  · next m _ =>
    dsimp only
    generalize hl : (List.partition _ m.fresh) = parts
    obtain ⟨keep, left⟩ := parts
    dsimp only
    generalize hu : State.each s left _ = u
    have h1 : Kept s u := by
      rw [← hu]
      refine Kept.each (.refl s) (fun u x => ?_) left
      obtain ⟨i, e, c⟩ := x
      exact kept_returnBlock ..
    split
    · refine Kept.trans ?_ (kept_moveFails ..)
      exact h1.calm rfl
    · exact h1.calm rfl
    · next m' t ht =>
      have h2 : Kept s t := by
        refine Kept.trans ?_ (kept_moveAlloc ht)
        exact h1.calm rfl
      refine .ite ?_ (.ite ?_ ?_)
      · refine Kept.trans ?_ (kept_dropMove ..)
        exact h2.calm rfl
      · exact h2.calm rfl
      · refine Kept.trans ?_ (kept_moveCommit ..)
        exact h2.calm rfl

theorem kept_movesRun (s : State) : Kept s s.movesRun := by
  unfold State.movesRun
  exact (Kept.refl s).each (fun u z => kept_moveStep u z) _

theorem calm_readyEval (s : State) : s.readyEval.calm = s.calm := by
  unfold State.readyEval
  refine (calm_setBit (by decide) _ _).trans (calm_each (fun t f => ?_) s _)
  exact calm_ite rfl rfl

theorem calm_checkpointAll (s : State) : s.checkpointAll.calm = s.calm := by
  unfold State.checkpointAll
  exact calm_each (fun t x => calm_requestImage ..) s _

theorem calm_forceCheckpoints (s : State) : s.forceCheckpoints.calm = s.calm := by
  unfold State.forceCheckpoints
  dsimp only
  split
  · exact calm_each (fun t x => calm_requestImage ..) s _
  · rfl

theorem kept_shutdownEval (s : State) : Kept s s.shutdownEval := by
  unfold State.shutdownEval
  refine (Kept.refl s).each (fun u f => ?_) _
  refine .ite (.refl u) ?_
  dsimp only
  refine .ite ((kept_seal u false).calm (calm_checkpointAll _)) (Kept.calm ?_ (calm_setFunc ..))
  refine (kept_seal u false).when (fun v => .of_calm ?_) _
  exact (calm_gbClose ..).trans ((calm_setShutdown ..).trans (calm_fillUpdate _))

theorem calm_ledgerPut (s : State) (r : LedgerRec) : (s.ledgerPut r).calm = s.calm := by
  unfold State.ledgerPut State.ledgerEval
  simp +decide

theorem calm_fwRefuse (s : State) (a b : Nat) : (s.fwRefuse a b).calm = s.calm := by
  unfold State.fwRefuse
  split
  · rfl
  · exact calm_adminDone ..

theorem calm_fwEval (s : State) : s.fwEval.calm = s.calm := by
  unfold State.fwEval
  split
  · rfl
  · dsimp only
    split
    · rfl
    · split
      · exact calm_fwRefuse ..
      · exact (calm_gcRequest ..).trans (calm_when (calm_ledgerPut ..))

end Sys2Proof.Machine
end

section
/-! SUPPORT. A Period boundary: the pending step, the requested Timetable, the new number, and what follows (R43, R46, R49, R86). -/
namespace Sys2Proof.Machine

/-- The next multiple of the Period length (R43). -/
def boundaryAt (s : State) : Nat := (s.now / periodNs s + 1) * periodNs s

/-- Elapsed time has run to the boundary. -/
def State.atBoundary (s : State) : State := s.advance (boundaryAt s - s.now)

theorem now_lt_boundaryAt (s : State) : s.now < boundaryAt s := by
  have hp : 0 < periodNs s := Nat.lt_of_lt_of_le Nat.zero_lt_one (Nat.le_max_left ..)
  have h := Nat.lt_mul_div_succ s.now hp
  rwa [Nat.mul_comm] at h

theorem now_atBoundary {s : State} (h : boundaryAt s < 2 ^ 64) : s.atBoundary.now = boundaryAt s := by
  have hlt := now_lt_boundaryAt s
  have he : s.atBoundary.now = (s.ttu.time + BitVec.ofNat 64 (boundaryAt s - s.now)).toNat := rfl
  rw [he, BitVec.toNat_add, BitVec.toNat_ofNat]
  have hn : s.ttu.time.toNat = s.now := rfl
  omega

/-! ### The pending step (R43) -/

theorem boundaryStep_zyn (s : State) : (boundaryStep s).zyn = s.zyn := by
  unfold boundaryStep
  split
  · rfl
  · rw [entry_notice_zyn]; rfl

theorem boundaryStep_of_none {s : State} (h : s.ttu.step = none) : boundaryStep s = s := by
  unfold boundaryStep
  rw [h]

theorem boundaryStep_fields (s : State) : let t := boundaryStep s
    t.ttu.elapsed = s.ttu.elapsed ∧ t.ttu.step = none ∧ t.ttu.enPending = s.ttu.enPending ∧
    (∀ d, s.ttu.step = some d → t.ttu.time = BitVec.ofInt 64 ((s.now : Int) + d) ∧ t.fld F.TT_EVT.STEPPED = 1) ∧
    ∀ o, o ≠ R.TT_EVT → t.reg o = s.reg o := by
  intro t
  simp only [t]
  unfold boundaryStep
  split
  · next h =>
    refine ⟨rfl, h, rfl, fun d hd => ?_, fun _ _ => rfl⟩
    rw [h] at hd
    cases hd
  · next d h =>
    dsimp only
    refine ⟨by rw [entry_notice_ttu]; rfl, by rw [entry_notice_ttu]; rfl, by rw [entry_notice_ttu]; rfl, fun d' hd => ?_, fun o ho => ?_⟩
    · obtain rfl := Option.some.inj (h.symm.trans hd)
      rw [entry_notice_ttu, entry_notice_fld]
      exact ⟨rfl, fld_raise_self (by decide) _⟩
    · rw [entry_notice_reg]
      exact reg_setReg_ne ho _

/-! ### The requested Timetable (R49) -/

theorem installTimetable_frame (s : State) (l : List (Nat × Word)) :
    (installTimetable s l).ttu = s.ttu ∧ (installTimetable s l).zyn = s.zyn ∧ ∀ o, (∀ x ∈ l, activeOf x.1 ≠ o) → (installTimetable s l).reg o = s.reg o := by
  unfold installTimetable
  induction l generalizing s with
  | nil => exact ⟨rfl, rfl, fun _ _ => rfl⟩
  | cons x l ih =>
    obtain ⟨h1, h2, h3⟩ := ih (s.setReg (activeOf x.1) x.2)
    refine ⟨h1, h2, fun o ho => (h3 o fun y hy => ho y (List.mem_cons_of_mem _ hy)).trans (reg_setReg_ne ?_ _)⟩
    exact Ne.symm (ho x List.mem_cons_self)

/-- An installed register holds its staged value. -/
theorem installTimetable_reg {l : List (Nat × Word)} (hl : l.Pairwise fun a b => activeOf a.1 ≠ activeOf b.1) (s : State) {o : Nat} {w : Word} (h : (o, w) ∈ l) :
    (installTimetable s l).reg (activeOf o) = w := by
  induction l generalizing s with
  | nil => cases h
  | cons x l ih =>
    obtain ⟨hx, hl⟩ := List.pairwise_cons.1 hl
    show (installTimetable (s.setReg (activeOf x.1) x.2) l).reg (activeOf o) = w
    obtain rfl | h := List.mem_cons.1 h
    · obtain ⟨-, -, hr⟩ := installTimetable_frame (s.setReg (activeOf o) w) l
      rw [hr _ fun y hy e => hx y hy e.symm]
      exact reg_setReg_self ..
    · exact ih hl _ h

theorem activeOf_table (k : Nat) : activeOf (R.TT_TABLE_STAGE + 4 * k) = R.TT_TABLE_ACT + 4 * k := by
  unfold activeOf
  rw [if_neg (by omega)]
  simp only [R.TT_TABLE_STAGE, R.TT_TABLE_ACT]
  omega

theorem stagedNow_pairwise (s : State) : (stagedNow s).Pairwise fun a b => activeOf a.1 ≠ activeOf b.1 := by
  unfold stagedNow stagedOffsets
  rw [List.pairwise_map, List.pairwise_cons, List.pairwise_cons, List.pairwise_map]
  have hgeom (k : Nat) : activeOf R.TT_GEOM_STAGE ≠ activeOf (R.TT_TABLE_STAGE + 4 * k) := by
    rw [activeOf_table, show activeOf R.TT_GEOM_STAGE = 0x100028 from rfl]
    simp only [R.TT_TABLE_ACT]
    omega
  have hoff (k : Nat) : activeOf R.TT_OFFSET_STAGE ≠ activeOf (R.TT_TABLE_STAGE + 4 * k) := by
    rw [activeOf_table, show activeOf R.TT_OFFSET_STAGE = 0x10002C from rfl]
    simp only [R.TT_TABLE_ACT]
    omega
  refine ⟨fun o ho => ?_, fun o ho => ?_, List.pairwise_lt_range.imp fun {a b} hab => ?_⟩
  · obtain rfl | ho := List.mem_cons.1 ho
    · show activeOf R.TT_GEOM_STAGE ≠ activeOf R.TT_OFFSET_STAGE
      decide
    · obtain ⟨k, -, rfl⟩ := List.mem_map.1 ho
      exact hgeom k
  · obtain ⟨k, -, rfl⟩ := List.mem_map.1 ho
    exact hoff k
  · rw [activeOf_table, activeOf_table]
    omega

/-- The staged set is active. -/
theorem install_stagedNow (s : State) : let t := installTimetable s (stagedNow s)
    t.reg R.TT_GEOM_ACT = s.reg R.TT_GEOM_STAGE ∧ t.reg R.TT_OFFSET_ACT = s.reg R.TT_OFFSET_STAGE ∧
    ∀ k < 256, t.reg (R.TT_TABLE_ACT + 4 * k) = s.reg (R.TT_TABLE_STAGE + 4 * k) := by
  have hmem {o : Nat} (ho : o ∈ stagedOffsets) : (installTimetable s (stagedNow s)).reg (activeOf o) = s.reg o :=
    installTimetable_reg (stagedNow_pairwise s) s (List.mem_map.2 ⟨o, ho, rfl⟩)
  refine ⟨hmem (o := R.TT_GEOM_STAGE) List.mem_cons_self, hmem (o := R.TT_OFFSET_STAGE) (List.mem_cons_of_mem _ List.mem_cons_self), fun k hk => ?_⟩
  rw [← activeOf_table]
  exact hmem (List.mem_cons_of_mem _ (List.mem_cons_of_mem _ (List.mem_map.2 ⟨k, List.mem_range.2 hk, rfl⟩)))

theorem gcAgain_frame (s : State) : ∃ g, s.gcAgain = { s with ttu := { s.ttu with gc := g } } := by
  unfold State.gcAgain
  split
  · exact ⟨s.ttu.gc, rfl⟩
  · split
    · exact ⟨s.ttu.gc, rfl⟩
    · exact ⟨_, rfl⟩

/-- A set of the Timetable that waits has been taken up. -/
def State.enableTaken (s : State) : State := { s with ttu := { s.ttu with enPending := false } }

theorem boundaryEnable_of_valid {s : State} (h : s.ttu.enPending = true) (hv : stagedValid s = true) :
    boundaryEnable s = ((installTimetable s.enableTaken (stagedNow s)).raise F.TT_CTRL.EN).gcAgain := by
  unfold boundaryEnable
  rw [h]
  show (if stagedValid s.enableTaken = true then _ else _) = _
  rw [if_pos (show stagedValid s.enableTaken = true from hv)]
  rfl

theorem boundaryEnable_of_invalid {s : State} (h : s.ttu.enPending = true) (hv : stagedValid s = false) :
    boundaryEnable s = s.enableTaken.raise F.TT_GC_STATUS.INVALID := by
  unfold boundaryEnable
  rw [h]
  show (if stagedValid s.enableTaken = true then _ else _) = _
  rw [if_neg (show ¬ stagedValid s.enableTaken = true by rw [show stagedValid s.enableTaken = stagedValid s from rfl, hv]; decide)]
  rfl

theorem boundaryEnable_of_idle {s : State} (h : s.ttu.enPending = false) : boundaryEnable s = s := by
  unfold boundaryEnable
  rw [h]
  rfl

/-- No staged offset becomes the offset of the events. -/
theorem activeOf_ne_evt {o : Nat} (h : o ∈ stagedOffsets) : activeOf o ≠ R.TT_EVT := by
  obtain rfl | h := List.mem_cons.1 h
  · decide
  obtain rfl | h := List.mem_cons.1 h
  · decide
  obtain ⟨k, -, rfl⟩ := List.mem_map.1 h
  rw [activeOf_table]
  simp only [R.TT_TABLE_ACT, R.TT_EVT]
  omega

theorem fld_congr {s t : State} {f : Field} (h : t.reg f.off = s.reg f.off) : t.fld f = s.fld f := by simp only [State.fld, h]

/-- The requested Timetable is in force. -/
theorem boundaryEnable_installs {s : State} (h : s.ttu.enPending = true) (hv : stagedValid s = true) : let t := boundaryEnable s
    t.fld F.TT_CTRL.EN = 1 ∧ t.reg R.TT_GEOM_ACT = s.reg R.TT_GEOM_STAGE ∧
    t.reg R.TT_OFFSET_ACT = s.reg R.TT_OFFSET_STAGE ∧ ∀ k < 256, t.reg (R.TT_TABLE_ACT + 4 * k) = s.reg (R.TT_TABLE_STAGE + 4 * k) := by
  intro t
  obtain ⟨g, hg⟩ := gcAgain_frame ((installTimetable s.enableTaken (stagedNow s)).raise F.TT_CTRL.EN)
  simp only [t]
  rw [boundaryEnable_of_valid h hv, hg]
  obtain ⟨h1, h2, h3⟩ : let w := installTimetable s.enableTaken (stagedNow s)
      w.reg R.TT_GEOM_ACT = s.reg R.TT_GEOM_STAGE ∧ w.reg R.TT_OFFSET_ACT = s.reg R.TT_OFFSET_STAGE ∧
      ∀ k < 256, w.reg (R.TT_TABLE_ACT + 4 * k) = s.reg (R.TT_TABLE_STAGE + 4 * k) := install_stagedNow s.enableTaken
  generalize installTimetable s.enableTaken (stagedNow s) = w at h1 h2 h3
  have hne {o : Nat} (ho : o ≠ R.TT_CTRL) : (w.raise F.TT_CTRL.EN).reg o = w.reg o := reg_setReg_ne ho _
  refine ⟨fld_raise_self (by decide) w, (hne (by decide)).trans h1, (hne (by decide)).trans h2, fun k hk => (hne ?_).trans (h3 k hk)⟩
  simp only [R.TT_TABLE_ACT, R.TT_CTRL]
  omega

/-- What a boundary's Timetable leaves of device time. -/
theorem boundaryEnable_clock (s : State) : let t := boundaryEnable s
    t.ttu.elapsed = s.ttu.elapsed ∧ t.ttu.time = s.ttu.time ∧ t.ttu.step = s.ttu.step ∧ t.ttu.enPending = false ∧ t.zyn = s.zyn ∧
    t.fld F.TT_EVT.STEPPED = s.fld F.TT_EVT.STEPPED := by
  intro t
  simp only [t]
  cases he : s.ttu.enPending
  · rw [boundaryEnable_of_idle he]
    exact ⟨rfl, rfl, rfl, he, rfl, rfl⟩
  cases hv : stagedValid s
  · rw [boundaryEnable_of_invalid he hv]
    exact ⟨rfl, rfl, rfl, rfl, rfl, fld_raise_apart (by decide) _⟩
  · obtain ⟨g, hg⟩ := gcAgain_frame ((installTimetable s.enableTaken (stagedNow s)).raise F.TT_CTRL.EN)
    rw [boundaryEnable_of_valid he hv, hg]
    obtain ⟨hu, hz, hr⟩ := installTimetable_frame s.enableTaken (stagedNow s)
    have ho : (installTimetable s.enableTaken (stagedNow s)).reg R.TT_EVT = s.reg R.TT_EVT := hr _ fun x hx e => by
      obtain ⟨o, ho, rfl⟩ := List.mem_map.1 hx
      exact activeOf_ne_evt ho e
    generalize installTimetable s.enableTaken (stagedNow s) = w at hu hz ho
    refine ⟨?_, ?_, ?_, ?_, hz, (fld_raise_apart (by decide) w).trans (fld_congr ho)⟩
    · exact (congrArg Ttu.elapsed hu : w.ttu.elapsed = s.enableTaken.ttu.elapsed)
    · exact (congrArg Ttu.time hu : w.ttu.time = s.enableTaken.ttu.time)
    · exact (congrArg Ttu.step hu : w.ttu.step = s.enableTaken.ttu.step)
    · exact (congrArg Ttu.enPending hu : w.ttu.enPending = s.enableTaken.ttu.enPending)

/-- A set that is no longer valid is reported. -/
theorem boundaryEnable_fails {s : State} (h : s.ttu.enPending = true) (hv : stagedValid s = false) : let t := boundaryEnable s
    t.fld F.TT_GC_STATUS.INVALID = 1 ∧ t.fld F.TT_CTRL.EN = s.fld F.TT_CTRL.EN ∧ t.reg R.TT_GEOM_ACT = s.reg R.TT_GEOM_ACT := by
  intro t
  simp only [t]
  rw [boundaryEnable_of_invalid h hv]
  exact ⟨fld_raise_self (by decide) _, fld_raise_apart (by decide) _, reg_setReg_ne (by decide) _⟩

/-! ### The rest of the boundary -/

theorem calm_boundaryNamed (s : State) (n : Nat) : (boundaryNamed s n).calm = s.calm := by
  unfold boundaryNamed
  extract_lets again t
  have ht : t.calm = s.calm := calm_when rfl
  clear_value t
  have hfire (u : State) (x : Ttu) (h : (State.calm { u with ttu := x }) = u.calm) :
      ((State.clear { u with ttu := x } F.TT_NAMED_CTRL.ARMED).raise F.TT_NAMED_CTRL.FIRED).calm = u.calm :=
    (calm_raise (by decide) _).trans ((calm_clear (by decide) _).trans h)
  split
  · exact ht
  · refine calm_ite ?_ (calm_ite (calm_ite ?_ ?_) ht)
    · refine (hfire _ _ rfl).trans ?_
      exact ht
    · refine (calm_vendorEvent ..).trans ((calm_raise (by decide) _).trans ?_)
      exact (hfire _ _ rfl).trans ht
    · exact ht

theorem calm_boundaryStaged (s : State) : (boundaryStaged s).calm = s.calm := by
  unfold boundaryStaged
  extract_lets _ t _ u
  have hsc (v : State) (x : SeatingChart) : State.calm { v with sc := x } = v.calm := rfl
  have ht : t.calm = s.calm := by
    simp only [t]
    split
    · exact (hsc _ _).trans (calm_setFld (by decide) _ _)
    · rfl
  clear_value t
  have hu : u.calm = t.calm := by
    simp only [u]
    split
    · exact (hsc _ _).trans (calm_setFld (by decide) _ _)
    · rfl
  clear_value u
  split
  · exact hu.trans ht
  · exact hu.trans ht

theorem calm_plAsk (s : State) (n : Nat) : (s.plAsk n).calm = s.calm := by
  unfold State.plAsk
  refine calm_ite (calm_ite rfl ?_) (calm_gcRequest ..)
  rfl

theorem calm_avsBoundary (s : State) : s.avsBoundary.calm = s.calm := by
  unfold State.avsBoundary
  extract_lets t
  have ht : t.calm = s.calm := by
    simp only [t]
    split
    · exact calm_when (calm_emit ..)
    · rfl
  clear_value t
  exact (calm_when (calm_plAsk ..)).trans ht

/-- A state with its Period number. -/
def State.numbered (s : State) : State := { s with ttu := { s.ttu with pnum := BitVec.ofNat 64 (s.now / periodNs s) } }

theorem calm_renumber (s : State) : s.renumber.calm = s.numbered.calm := calm_boundaryNamed ..

/-- A new Period up to its event: its number, what was staged for it, and its activation. -/
def State.periodBegun (s : State) : State :=
  let s := (boundaryStaged s.renumber).avsBoundary
  let s := s.when s.zynRuns fun s => s.policy s.ptype s.ttu.pnum.toNat
  s.when s.zynRuns (·.forceCheckpoints)

theorem calm_periodBegun (s : State) : s.periodBegun.calm = s.numbered.calm := by
  unfold State.periodBegun
  extract_lets t u
  have ht : t.calm = s.numbered.calm := (calm_avsBoundary _).trans ((calm_boundaryStaged _).trans (calm_renumber s))
  clear_value t
  have hu : u.calm = t.calm := calm_when (calm_policy ..)
  clear_value u
  exact (calm_when (calm_forceCheckpoints _)).trans (hu.trans ht)

theorem periodBoundary_eq (s : State) : exec .periodBoundary s =
    .next (((boundaryEnable (boundaryStep s.atBoundary)).periodBegun.zynEventAll 24).movesRun.readyEval.shutdownEval.fwEval) := rfl

theorem sgetD_map {α : Type} {f : α → α} {d : α} (hd : f d = d) (k : Nat) (m : Sparse α) : sgetD d k (m.map fun x => (x.1, f x.2)) = f (sgetD d k m) := by
  unfold sgetD
  induction m with
  | nil => exact hd.symm
  | cons x m ih =>
    obtain ⟨a, v⟩ := x
    simp only [List.map_cons, sget]
    split
    · rfl
    · exact ih

theorem ctx_zynEventAll (s : State) (i : CtxId) (e : Nat) : (s.zynEventAll e).ctx i = (s.ctx i).event e := by
  unfold State.zynEventAll State.ctx
  exact sgetD_map (f := fun c : Ctx => c.event e) (d := {}) rfl i.key s.zyn.ctxs

theorem ticks_zynEventAll (s : State) (e : Nat) : (s.zynEventAll e).ticks = s.ticks := rfl

/-- What has been set up when the new Period begins stays to the end of the boundary. -/
theorem kept_periodRest (s : State) : Kept s s.movesRun.readyEval.shutdownEval.fwEval :=
  (((kept_movesRun s).calm (calm_readyEval _)).trans (kept_shutdownEval _)).calm (calm_fwEval _)

end Sys2Proof.Machine
end

section
/-! SUPPORT. The outcome of PERIOD_BOUNDARY (R43, R46, R49, R86). -/
namespace Sys2Proof.Machine

/-- The state in which a boundary's Period begins: device time stepped, the Timetable in force. -/
def State.boundarySet (s : State) : State := boundaryEnable (boundaryStep s.atBoundary)

theorem stagedValid_boundaryStep (s : State) : stagedValid (boundaryStep s.atBoundary) = stagedValid s := by
  obtain ⟨-, -, -, -, hr⟩ := boundaryStep_fields s.atBoundary
  refine stagedValid_congr fun o ho => (hr o ?_).trans rfl
  obtain rfl | rfl | ⟨k, -, rfl⟩ := ho
  · decide
  · decide
  · simp only [R.TT_TABLE_STAGE, R.TT_EVT]
    omega

/-- Device time and the active Timetable at the end of a boundary are those with which its Period began. -/
theorem periodBoundary_ticks (s : State) : Gives s .periodBoundary fun t => t.ticks = s.boundarySet.numbered.ticks ∧
    ∀ i : CtxId, (s.ctx i).st = .blocked .period → (t.ctx i).st = .ready := by
  have hbegun := calm_periodBegun s.boundarySet
  refine ⟨_, periodBoundary_eq s, ?_⟩
  show (State.ticks (s.boundarySet.periodBegun.zynEventAll 24).movesRun.readyEval.shutdownEval.fwEval = _) ∧ _
  have hrest := kept_periodRest (s.boundarySet.periodBegun.zynEventAll 24)
  refine ⟨hrest.ticks.trans ((ticks_zynEventAll _ _).trans (congrArg Calm.ticks hbegun)), fun i hi => ?_⟩
  obtain ⟨-, -, -, -, hz, -⟩ := boundaryEnable_clock (boundaryStep s.atBoundary)
  have hz' : s.boundarySet.periodBegun.zyn.ctxs = s.zyn.ctxs :=
    (congrArg Calm.ctxs hbegun).trans (congrArg Zyn.ctxs (hz.trans (boundaryStep_zyn _)))
  have hwake : ((s.boundarySet.periodBegun.zynEventAll 24).ctx i).st = .ready := by
    have hc : s.boundarySet.periodBegun.ctx i = s.ctx i := by simp only [State.ctx, hz']
    rw [ctx_zynEventAll, hc]
    unfold Ctx.event
    dsimp only
    rw [hi]
    rfl
  obtain ⟨e, he⟩ := hrest.ctx i hwake
  exact he ▸ hwake

theorem reg_of_ticks {s t : State} (h : t.ticks = s.ticks) {o : Nat} (ho : calmReg o = true) : t.reg o = s.reg o := by
  have ha := congrFun (congrArg Ticks.active h) o
  simpa only [State.ticks, ho, if_true] using ha

theorem calmReg_table {k : Nat} (h : k < 256) : calmReg (R.TT_TABLE_ACT + 4 * k) = true := by
  have h1 : R.TT_TABLE_ACT ≤ R.TT_TABLE_ACT + 4 * k := Nat.le_add_right ..
  have h2 : R.TT_TABLE_ACT + 4 * k < R.TT_TABLE_ACT + 1024 := by omega
  simp only [calmReg, decide_eq_true h1, decide_eq_true h2, Bool.and_self, Bool.or_true]

section
variable {s t : State} (h : t.ticks = s.boundarySet.numbered.ticks)
include h

theorem boundary_now : t.now = s.boundarySet.now := congrArg (fun x : Ticks => x.time.toNat) h

theorem boundary_periodNs : periodNs t = periodNs s.boundarySet := by
  have hg : t.fld F.TT_GEOM_ACT.LEN_US = s.boundarySet.fld F.TT_GEOM_ACT.LEN_US := fld_congr (reg_of_ticks (o := R.TT_GEOM_ACT) h (by decide))
  unfold periodNs
  rw [hg]

theorem boundary_pnum : t.ttu.pnum = BitVec.ofNat 64 (t.now / periodNs t) := by
  rw [boundary_now h, boundary_periodNs h]
  exact congrArg Ticks.pnum h

/-- Elapsed time runs on, and nothing waits for a boundary any more. -/
theorem boundary_clock : t.ttu.elapsed = s.ttu.elapsed + (boundaryAt s - s.now) ∧ t.ttu.step = none ∧ t.ttu.enPending = false := by
  obtain ⟨he, -, hs, hp, -, -⟩ := boundaryEnable_clock (boundaryStep s.atBoundary)
  obtain ⟨he', hs', -, -, -⟩ := boundaryStep_fields s.atBoundary
  exact ⟨(congrArg Ticks.elapsed h).trans (he.trans he'), (congrArg Ticks.step h).trans (hs.trans hs'), (congrArg Ticks.enPending h).trans hp⟩

/-- Without a pending step device time is the boundary, and the Period has its index. -/
theorem boundary_plain (ha : boundaryAt s < 2 ^ 64) (hn : s.ttu.step = none) :
    t.now = boundaryAt s ∧ s.now < t.now ∧ (s.ttu.enPending = false → t.ttu.pnum.toNat = s.now / periodNs s + 1) := by
  obtain ⟨-, ht, -, -, -, -⟩ := boundaryEnable_clock (boundaryStep s.atBoundary)
  have hstep : boundaryStep s.atBoundary = s.atBoundary := boundaryStep_of_none hn
  have hnow : t.now = boundaryAt s := by
    rw [boundary_now h, ← now_atBoundary ha]
    exact congrArg BitVec.toNat (ht.trans (by rw [hstep]))
  refine ⟨hnow, hnow ▸ now_lt_boundaryAt s, fun hp => ?_⟩
  have hset : s.boundarySet = s.atBoundary := by
    unfold State.boundarySet
    rw [hstep]
    exact boundaryEnable_of_idle (s := s.atBoundary) hp
  have hlen : 0 < periodNs s := Nat.lt_of_lt_of_le Nat.zero_lt_one (Nat.le_max_left ..)
  have hns : periodNs t = periodNs s := by rw [boundary_periodNs h, hset]; rfl
  have hdiv : boundaryAt s / periodNs s = s.now / periodNs s + 1 := Nat.mul_div_cancel _ hlen
  rw [boundary_pnum h, hnow, hns, hdiv, BitVec.toNat_ofNat]
  refine Nat.mod_eq_of_lt (Nat.lt_of_le_of_lt ?_ ha)
  exact Nat.le_mul_of_pos_right _ hlen

/-- A pending step is applied and reported. -/
theorem boundary_stepped {d : Int} (ha : boundaryAt s < 2 ^ 64) (hd : s.ttu.step = some d) :
    t.ttu.time = BitVec.ofInt 64 ((boundaryAt s : Int) + d) ∧ t.fld F.TT_EVT.STEPPED = 1 := by
  obtain ⟨-, ht, -, -, -, he⟩ := boundaryEnable_clock (boundaryStep s.atBoundary)
  obtain ⟨-, -, -, hstep, -⟩ := boundaryStep_fields s.atBoundary
  obtain ⟨ht', he'⟩ := hstep d hd
  rw [now_atBoundary ha] at ht'
  exact ⟨(congrArg Ticks.time h).trans (ht.trans ht'), (congrArg Ticks.stepped h).trans (he.trans he')⟩

/-- A valid staged set is in force and EN is 1. -/
theorem boundary_installed (hp : s.ttu.enPending = true) (hv : stagedValid s = true) : t.fld F.TT_CTRL.EN = 1 ∧
    t.reg R.TT_GEOM_ACT = s.reg R.TT_GEOM_STAGE ∧ t.reg R.TT_OFFSET_ACT = s.reg R.TT_OFFSET_STAGE ∧
    ∀ k < 256, t.reg (R.TT_TABLE_ACT + 4 * k) = s.reg (R.TT_TABLE_STAGE + 4 * k) := by
  obtain ⟨-, -, hp', -, hr⟩ := boundaryStep_fields s.atBoundary
  have hreg {o : Nat} (ho : o ≠ R.TT_EVT) : (boundaryStep s.atBoundary).reg o = s.reg o := hr o ho
  obtain ⟨h1, h2, h3, h4⟩ := boundaryEnable_installs (hp'.trans hp) ((stagedValid_boundaryStep s).trans hv)
  refine ⟨(fld_congr (reg_of_ticks (o := R.TT_CTRL) h (by decide))).trans h1, (reg_of_ticks h (by decide)).trans (h2.trans (hreg (by decide))),
    (reg_of_ticks h (by decide)).trans (h3.trans (hreg (by decide))), fun k hk => (reg_of_ticks h (calmReg_table hk)).trans ((h4 k hk).trans (hreg ?_))⟩
  simp only [R.TT_TABLE_STAGE, R.TT_EVT]
  omega

/-- A staged set that is no longer valid is reported, and the active one stays. -/
theorem boundary_failed (hp : s.ttu.enPending = true) (hv : stagedValid s = false) : t.fld F.TT_GC_STATUS.INVALID = 1 ∧
    t.fld F.TT_CTRL.EN = s.fld F.TT_CTRL.EN ∧ t.reg R.TT_GEOM_ACT = s.reg R.TT_GEOM_ACT := by
  obtain ⟨-, -, hp', -, hr⟩ := boundaryStep_fields s.atBoundary
  have hreg {o : Nat} (ho : o ≠ R.TT_EVT) : (boundaryStep s.atBoundary).reg o = s.reg o := hr o ho
  obtain ⟨h1, h2, h3⟩ := boundaryEnable_fails (hp'.trans hp) ((stagedValid_boundaryStep s).trans hv)
  exact ⟨(congrArg Ticks.invalid h).trans h1,
    (fld_congr (reg_of_ticks (o := R.TT_CTRL) h (by decide))).trans (h2.trans (fld_congr (hreg (o := R.TT_CTRL) (by decide)))),
    (reg_of_ticks h (by decide)).trans (h3.trans (hreg (by decide)))⟩

end

end Sys2Proof.Machine

open Sys2Proof Sys2Proof.Machine in
/-- Settles O39: after the boundary's Period has been numbered only the frame `Ticks` is read by the statement, and the frame stays through relocations,
shutdowns and commits; a Roll Call's waiters are told one after the other, and the next call leaves READY contexts alone. -/
theorem periodsAndRollCalls : Obligations.PeriodsAndRollCalls := by
  intro s n at_
  refine ⟨?_, rollCall_of_none, fun r hr => ?_⟩
  · obtain ⟨t, ht, hticks, hctx⟩ := periodBoundary_ticks s
    obtain ⟨he, hs, hp⟩ := boundary_clock hticks
    exact ⟨t, ht, he, boundary_pnum hticks, hs, hp, boundary_plain hticks, fun d => boundary_stepped hticks, fun i _ => hctx i,
      boundary_installed hticks, boundary_failed hticks⟩
  · intro cut own value closed told
    refine ⟨rollCallRelease_of_incomplete hr, rollCallTimeout_of_complete hr, fun hc => ?_, rollCallTimeout_of_early hr, fun u hc hu => ?_⟩
    · obtain ⟨t, ht, hend, htold, hwait, hvec⟩ := rollCallRelease_gives hr hc
      exact ⟨t, ht, fun i d p hi hst hl => (htold i d p hi hst hl).1, hend, hwait,
        fun hk hcut i d p hi hst hl => (htold i d p hi hst hl).2 hk hcut, hvec⟩
    · obtain ⟨t, ht, hend, hev, htold⟩ := rollCallTimeout_gives hr hc hu
      exact ⟨t, ht, htold, hend, hev⟩
end

section
/-! SUPPORT. Tagged operations: the tag that is taken, its end, and the trap of a context that holds nothing (R99, R100, R129, R130). -/
namespace Sys2Proof.Machine

theorem ctx_of_zyn {s t : State} (h : t.zyn = s.zyn) (i : CtxId) : t.ctx i = s.ctx i := by simp only [State.ctx, h]

/-! ### A trap that only queues its record (R100) -/

theorem entry_fault_frame (s : State) (k : Nat) : s.entry k sevFault = { s with gb := (s.entry k sevFault).gb } := by
  simp [State.entry, sevFault]

theorem vendorEvent_bufs (s : State) (n : Nat) : (s.vendorEvent n).host.bufs = s.host.bufs := by
  unfold State.vendorEvent State.aen
  dsimp only
  split
  · rfl
  · split
    · rfl
    · rw [adminDone_frame]
      rfl

/-- A context that holds nothing to give up: no command, speculation, zone lock or suspended LUN. -/
def Ctx.Bare (c : Ctx) : Prop := c.cmd = none ∧ c.specs = [] ∧ c.zlocks = [] ∧ c.susp = []

theorem discardSpecs_of_bare {s : State} {i : CtxId} (h : (s.ctx i).Bare) : s.discardSpecs i = s := by
  obtain ⟨-, h, -, -⟩ := h
  unfold State.discardSpecs
  rw [h]
  rfl

theorem releaseZones_of_bare {s : State} {i : CtxId} (h : (s.ctx i).Bare) : s.releaseZones i = s := by
  obtain ⟨-, -, h, -⟩ := h
  unfold State.releaseZones
  rw [h]
  rfl

theorem idle_of_bare {s : State} {i : CtxId} (h : (s.ctx i).Bare) : s.idle i =
    { s.unbindMail i with zyn := { (s.unbindMail i).zyn with ctxs := sdel i.key s.zyn.ctxs } } := by
  unfold State.idle
  dsimp only
  rw [discardSpecs_of_bare h]
  unfold State.resumeSuspended
  obtain ⟨-, -, -, h⟩ := h
  rw [h]
  rfl

/-- The counters and registers that a trap writes, and its report (R100, R103). -/
def State.trapNoted (s : State) (i : CtxId) (cause kind pc addr : Nat) : State :=
  let s := s.count (trapCnt i.cls)
  let s := ((((s.setFld F.ZYN_FAULT_LAST0.CAUSE cause).setFld F.ZYN_FAULT_LAST0.CLASS i.cls.num).setFld F.ZYN_FAULT_LAST0.ENGINE i.eng).setFld
    F.ZYN_FAULT_LAST0.CONTEXT i.ctx).setFld F.ZYN_FAULT_LAST0.KIND kind
  let s := (s.setFld F.ZYN_FAULT_LAST1.PC pc).setPair R.ZYN_FAULT_ADDR_LO addr
  (s.entry 0x10 sevFault).when (s.flag F.ZYN_CTRL.FAULT_AEN) (·.vendorEvent 0xD0)

/-- The registers a trap has written. -/
def State.trapRegs (s : State) (i : CtxId) (cause kind pc addr : Nat) : State :=
  (((((((s.count (trapCnt i.cls)).setFld F.ZYN_FAULT_LAST0.CAUSE cause).setFld F.ZYN_FAULT_LAST0.CLASS i.cls.num).setFld F.ZYN_FAULT_LAST0.ENGINE i.eng).setFld
    F.ZYN_FAULT_LAST0.CONTEXT i.ctx).setFld F.ZYN_FAULT_LAST0.KIND kind).setFld F.ZYN_FAULT_LAST1.PC pc).setPair R.ZYN_FAULT_ADDR_LO addr

theorem trapRegs_fld (s : State) (i : CtxId) {cause : Nat} (hc : cause < 256) (kind pc addr : Nat) : let t := s.trapRegs i cause kind pc addr
    t.fld F.ZYN_FAULT_LAST0.CAUSE = cause ∧ t.fld (trapCnt i.cls) = min (s.fld (trapCnt i.cls) + 1) (2 ^ (trapCnt i.cls).width - 1) := by
  have hpair {f : Field} (h1 : f.off ≠ R.ZYN_FAULT_ADDR_LO) (h2 : f.off ≠ R.ZYN_FAULT_ADDR_LO + 4) (u : State) : (u.setPair R.ZYN_FAULT_ADDR_LO addr).fld f = u.fld f :=
    fld_congr ((reg_setReg_ne h2 _).trans (reg_setReg_ne h1 _))
  have hset {f g : Field} (h : f.apart g = true) (u : State) (n : Nat) : (u.setFld f n).fld g = u.fld g := fld_setFld_apart h u n
  unfold State.trapRegs
  refine ⟨?_, ?_⟩
  · rw [hpair (by decide) (by decide), hset (by decide), hset (by decide), hset (by decide), hset (by decide), hset (by decide)]
    exact fld_setFld_self _ (by decide) hc
  · have hone {f : Field} (h : f ∈ [F.ZYN_FAULT_LAST0.CAUSE, F.ZYN_FAULT_LAST0.CLASS, F.ZYN_FAULT_LAST0.ENGINE, F.ZYN_FAULT_LAST0.CONTEXT,
        F.ZYN_FAULT_LAST0.KIND, F.ZYN_FAULT_LAST1.PC]) : f.apart (trapCnt i.cls) = true := by
      revert f
      cases i.cls <;> decide
    have hoff : (trapCnt i.cls).off ≠ R.ZYN_FAULT_ADDR_LO ∧ (trapCnt i.cls).off ≠ R.ZYN_FAULT_ADDR_LO + 4 := by cases i.cls <;> decide
    have hlo : (trapCnt i.cls).lo + (trapCnt i.cls).width ≤ 32 := by cases i.cls <;> decide
    rw [hpair hoff.1 hoff.2, hset (hone (by simp)), hset (hone (by simp)), hset (hone (by simp)), hset (hone (by simp)), hset (hone (by simp)), hset (hone (by simp))]
    refine fld_setFld_self _ hlo ?_
    have hw : 0 < 2 ^ (trapCnt i.cls).width := Nat.two_pow_pos _
    omega

theorem trapNoted_frame (s : State) (i : CtxId) (cause kind pc addr : Nat) : let t := s.trapNoted i cause kind pc addr
    t.regs = (s.trapRegs i cause kind pc addr).regs ∧ t.variant = s.variant ∧ t.zyn = s.zyn ∧ t.host.bufs = s.host.bufs := by
  intro t
  have ht : t = ((s.trapRegs i cause kind pc addr).entry 0x10 sevFault).when ((s.trapRegs i cause kind pc addr).flag F.ZYN_CTRL.FAULT_AEN) (·.vendorEvent 0xD0) := rfl
  rw [ht]
  generalize hr : s.trapRegs i cause kind pc addr = r
  have hz : r.zyn = s.zyn ∧ r.variant = s.variant ∧ r.host = s.host := hr ▸ ⟨rfl, rfl, rfl⟩
  obtain ⟨hz, hv, hh⟩ := hz
  have he : (r.entry 0x10 sevFault).regs = r.regs ∧ (r.entry 0x10 sevFault).zyn = s.zyn ∧ (r.entry 0x10 sevFault).variant = s.variant ∧
      (r.entry 0x10 sevFault).host = s.host := by
    rw [entry_fault_frame]
    exact ⟨rfl, hz, hv, hh⟩
  obtain ⟨h1, h2, h3, h4⟩ := he
  obtain e | e := when_eq_or (r.entry 0x10 sevFault) (r.flag F.ZYN_CTRL.FAULT_AEN) (·.vendorEvent 0xD0)
  · rw [e]
    exact ⟨h1, h3, h2, congrArg HostIf.bufs h4⟩
  · rw [e]
    refine ⟨?_, ?_, ?_, ?_⟩
    · rw [vendorEvent_regs, h1]
    · rw [vendorEvent_frame]; exact h3
    · rw [vendorEvent_zyn, h2]
    · rw [vendorEvent_bufs, h4]

/-- The record of a trap. -/
def State.faultRec (s : State) (i : CtxId) (cause pc : Nat) (addr : Word64) : FaultRec :=
  { cause := BitVec.ofNat 8 cause, ctxId := BitVec.ofNat 11 i.key, kind := (s.ctx i).kind, pc := pc, addr := addr,
    cmd := none, timeUs := s.now / 1000, req := (s.ctx i).request, fsn := none }

/-- A trap record is queued. -/
def State.faultQueued (s : State) (r : FaultRec) : State := { s with zyn := { s.zyn with faultQ := s.zyn.faultQ ++ [r] } }

/-- A trap of a bare context of another class than POL notes itself, and the context goes IDLE (R100). -/
theorem trap_eq_of_bare {s : State} {i : CtxId} (hb : (s.ctx i).Bare) (hcls : i.cls ≠ .pol) (hq : s.zyn.faultQ.length < 256) (cause pc : Nat) (addr : Word64) :
    s.trap i cause pc addr =
      (((s.abandonOps i true).trapNoted i cause (s.ctx i).kind.toNat pc addr.toNat).idle i).faultQueued (s.faultRec i cause pc addr) := by
  have hcmd : (s.ctx i).cmd = none := hb.1
  have hdrop : (((s.discardSpecs i).abandonOps i true).releaseZones i) = s.abandonOps i true := by
    rw [discardSpecs_of_bare hb]
    exact releaseZones_of_bare (s := s.abandonOps i true) hb
  obtain ⟨-, -, hz, -⟩ := trapNoted_frame (s.abandonOps i true) i cause (s.ctx i).kind.toNat pc addr.toNat
  have hpol : (i.cls == EngClass.pol) = false := beq_eq_false_iff_ne.2 hcls
  unfold State.trap
  extract_lets c r a1 a2 a3 a4 n m isFault committed again z w
  have hn : n = (s.abandonOps i true).trapNoted i cause (s.ctx i).kind.toNat pc addr.toNat := by
    rw [← hdrop]
    rfl
  have hnz : n.zyn = s.zyn := (congrArg State.zyn hn).trans hz
  have hnb : (n.ctx i).Bare := ctx_of_zyn hnz i ▸ hb
  have hmq : m.zyn.faultQ = s.zyn.faultQ := by
    rw [show m = n.idle i from rfl, idle_of_bare hnb]
    exact (congrArg Zyn.faultQ hnz : n.zyn.faultQ = s.zyn.faultQ)
  have hkey : faultKey m i c = none := by
    unfold faultKey
    rw [show c.cmd = none from hcmd]
    rfl
  have hagain : again = false := by
    simp only [again]
    rw [hkey]
  have hguard : (isFault || decide (256 ≤ m.zyn.faultQ.length) || again && committed) = false := by
    rw [hagain, hmq, decide_eq_false (Nat.not_le.2 hq), show isFault = (i.cls == EngClass.pol && c.kind == 3) from rfl, hpol]
    rfl
  have hrec : r = s.faultRec i cause pc addr := by
    simp only [r]
    rw [show c.cmd = none from hcmd]
    rfl
  have hw : w = m.faultQueued r := by
    simp only [w]
    rw [hkey]
    rfl
  rw [if_neg (by rw [hguard]; decide), show c.cmd = none from hcmd, ← hn, ← hrec]
  exact hw

/-- What a trap of a bare context of another class than POL leaves (R100). -/
theorem trap_of_bare {s : State} {i : CtxId} (hb : (s.ctx i).Bare) (hcls : i.cls ≠ .pol) (hq : s.zyn.faultQ.length < 256) {cause : Nat} (hc : cause < 256)
    (pc : Nat) (addr : Word64) : let t := s.trap i cause pc addr
    (t.ctx i).st = .idle ∧ t.fld F.ZYN_FAULT_LAST0.CAUSE = cause ∧ t.fld (trapCnt i.cls) = min (s.fld (trapCnt i.cls) + 1) (2 ^ (trapCnt i.cls).width - 1) ∧
    t.zyn.faultQ = s.zyn.faultQ ++ [s.faultRec i cause pc addr] ∧ t.zyn.scratch = s.zyn.scratch ∧ t.zyn.tab = s.zyn.tab ∧ t.host.bufs = s.host.bufs := by
  intro t
  simp only [t]
  rw [trap_eq_of_bare hb hcls hq]
  obtain ⟨hr, hv, hz, hbufs⟩ := trapNoted_frame (s.abandonOps i true) i cause (s.ctx i).kind.toNat pc addr.toNat
  obtain ⟨h1, h2⟩ := trapRegs_fld (s.abandonOps i true) i hc (s.ctx i).kind.toNat pc addr.toNat
  have hf (f : Field) : ((s.abandonOps i true).trapNoted i cause (s.ctx i).kind.toNat pc addr.toNat).fld f =
      ((s.abandonOps i true).trapRegs i cause (s.ctx i).kind.toNat pc addr.toNat).fld f := by
    refine fld_congr ?_
    unfold State.reg
    rw [hr, hv]
    rfl
  rw [← hf] at h1 h2
  generalize (s.abandonOps i true).trapNoted i cause (s.ctx i).kind.toNat pc addr.toNat = n at hr hv hz hbufs h1 h2
  have hz : n.zyn = s.zyn := hz
  have hnb : (n.ctx i).Bare := ctx_of_zyn hz i ▸ hb
  rw [idle_of_bare hnb]
  refine ⟨?_, h1, h2, ?_, (congrArg Zyn.scratch hz : n.zyn.scratch = _), (congrArg Zyn.tab hz : n.zyn.tab = _), hbufs⟩
  · show (sgetD ({} : Ctx) i.key (sdel i.key n.zyn.ctxs)).st = .idle
    rw [sgetD_sdel_same]
  · exact (congrArg (fun z : Zyn => z.faultQ ++ [s.faultRec i cause pc addr]) hz : n.zyn.faultQ ++ _ = s.zyn.faultQ ++ _)

/-! ### Tags (R129, R130) -/

/-- The context of an operation that has taken its tag. -/
def Ctx.withTag (c : Ctx) (d : BitVec 5) (tag : Nat) : Ctx :=
  { c with tags := c.tags ||| (1#16 <<< tag), events := c.events &&& ~~~(1#64 <<< tag) }.setReg d (BitVec.ofNat 64 tag)

/-- A tagged operation has issued, with its tag. -/
def State.tagTaken (s : State) (i : CtxId) (d : BitVec 5) (tag : Nat) : State :=
  (s.setCtx i ((s.ctx i).past 2 1)).modCtx i fun c => c.withTag d tag

section
variable {s : State} {i : CtxId} (h : Issues s i 2) {prof : EngClass → Bool} (hp : prof i.cls = true) (d : BitVec 5) (crec : BitVec 16) (k : Ctx → Nat → State → State)
include h hp

theorem tagged_of_badRecord (hc : crecOk crec = false) :
    s.tagged i prof d crec k = .next ((s.setCtx i ((s.ctx i).past 2 1)).trap i cScratch (s.ctx i).pc (BitVec.ofNat 64 crec.toNat)) := by
  unfold State.tagged
  rw [issue_next h 1 hp, hc]
  rfl

theorem tagged_of_noTag (hc : crecOk crec = true) (ht : (s.ctx i).freeTag = none) :
    s.tagged i prof d crec k = .next ((s.setCtx i ((s.ctx i).past 2 1)).trap i cTagLimit (s.ctx i).pc) := by
  unfold State.tagged
  rw [issue_next h 1 hp, hc, ht]
  rfl

theorem tagged_of_tag (hc : crecOk crec = true) {tag : Nat} (ht : (s.ctx i).freeTag = some tag) :
    s.tagged i prof d crec k = .next (k (s.ctx i) tag (s.tagTaken i d tag)) := by
  unfold State.tagged
  rw [issue_next h 1 hp, hc, ht]
  rfl
end

/-- Contexts that differ in their running state alone: same command, same activation, and nothing else to give up. -/
def Ctx.SameTask (c x : Ctx) : Prop :=
  x.cmd = c.cmd ∧ x.specs = c.specs ∧ x.zlocks = c.zlocks ∧ x.susp = c.susp ∧ x.kind = c.kind ∧ x.request = c.request

/-- A context that would trap plainly still does after a change of its running state. -/
theorem trapped_of_plain {s u : State} {i : CtxId} (hp : PlainTrap s i) (hcls : i.cls = .seq) (hu : u = { s with zyn := { s.zyn with ctxs := u.zyn.ctxs } })
    (hc : (s.ctx i).SameTask (u.ctx i)) {cause : Nat} (hlt : cause < 256) (pc : Nat) (addr : Word64) : Trapped s (u.trap i cause pc addr) i cause pc addr := by
  obtain ⟨hcmd, -, hq, hspecs, hlocks, hsusp⟩ := hp
  obtain ⟨c1, c2, c3, c4, c5, c6⟩ := hc
  have huq : u.zyn.faultQ = s.zyn.faultQ := by rw [hu]
  obtain ⟨h1, h2, h3, h4, h5, h6, h7⟩ := trap_of_bare (s := u) (i := i) ⟨c1.trans hcmd, c2.trans hspecs, c3.trans hlocks, c4.trans hsusp⟩
    (by rw [hcls]; decide) (huq ▸ hq) hlt pc addr
  have hfld : u.fld (trapCnt i.cls) = s.fld (trapCnt i.cls) := by rw [hu]; rfl
  have hrec : u.faultRec i cause pc addr = ⟨BitVec.ofNat 8 cause, BitVec.ofNat 11 i.key, (s.ctx i).kind, pc, addr, none, s.now / 1000, (s.ctx i).request, none⟩ := by
    unfold State.faultRec
    rw [c5, c6, show u.now = s.now by rw [hu]; rfl]
  refine ⟨h1, h2, h3.trans (by rw [hfld]), ?_, h5.trans (by rw [hu]), h6.trans (by rw [hu]), h7.trans (by rw [hu])⟩
  rw [h4, hrec, huq]

/-! ### The tag of an operation -/

section
variable (s : State) (i : CtxId) (d : BitVec 5) (tag : Nat)

theorem tagTaken_frame : s.tagTaken i d tag = { s with zyn := { s.zyn with ctxs := (s.tagTaken i d tag).zyn.ctxs } } := rfl

theorem ctx_tagTaken : (s.tagTaken i d tag).ctx i = ((s.ctx i).past 2 1).withTag d tag := by
  unfold State.tagTaken
  rw [ctx_modCtx_same, ctx_setCtx_same]

theorem sameTask_past (c : Ctx) : c.SameTask (c.past 2 1) := ⟨rfl, rfl, rfl, rfl, rfl, rfl⟩
theorem sameTask_tagTaken : (s.ctx i).SameTask ((s.tagTaken i d tag).ctx i) := by
  rw [ctx_tagTaken]
  exact ⟨rfl, rfl, rfl, rfl, rfl, rfl⟩
end

/-- A READY context that holds its operation's tag number and stands past the instruction. -/
def Ctx.Took (x : Ctx) (d : BitVec 5) (tag pc : Nat) : Prop := x.st = .ready ∧ x.reg d = BitVec.ofNat 64 tag ∧ x.pc = pc

theorem Ctx.Took.congr {x y : Ctx} {d : BitVec 5} {tag pc : Nat} (h : x.Took d tag pc) (hst : y.st = x.st) (hw : y.w = x.w) (hpc : y.pc = x.pc) : y.Took d tag pc := by
  obtain ⟨h1, h2, h3⟩ := h
  refine ⟨hst.trans h1, ?_, hpc.trans h3⟩
  rw [← h2]
  simp only [Ctx.reg, hw]

theorem took_tagTaken {s : State} {i : CtxId} (hi : Issues s i 2) (d : BitVec 5) (tag : Nat) : ((s.tagTaken i d tag).ctx i).Took d tag ((s.ctx i).pc + 2) := by
  rw [ctx_tagTaken]
  exact ⟨hi.2.1, ctxReg_setReg_same .., rfl⟩

theorem tags_tagTaken (s : State) (i : CtxId) (d : BitVec 5) {tag : Nat} (h : tag < 16) : ((s.tagTaken i d tag).ctx i).tags.getLsbD tag = true := by
  rw [ctx_tagTaken]
  show (((s.ctx i).past 2 1).tags ||| (1#16 <<< tag)).getLsbD tag = true
  simp [h]

theorem freeTag_lt {c : Ctx} {tag : Nat} (h : c.freeTag = some tag) : tag < 16 := by
  have := List.mem_of_find?_eq_some h
  exact List.mem_range.1 this

/-! ### Completion records (R130) -/

theorem scratch_setScratch_same (s : State) (p a : Nat) (b : Byte) : (s.setScratch p a b).scratch p a = b := sgetD_sputD_same ..
theorem scratch_setScratch_ne {s : State} {p a x : Nat} (h : x ≠ a) (b : Byte) : (s.setScratch p a b).scratch p x = s.scratch p x :=
  sgetD_sputD_ne (by omega) ..

theorem scratch_setScratchN_lt {p a x : Nat} (h : x < a) (s : State) (v n : Nat) : (s.setScratchN p a v n).scratch p x = s.scratch p x := by
  induction n generalizing s a v with
  | zero => rfl
  | succ n ih =>
    show ((s.setScratch p a (BitVec.ofNat 8 v)).setScratchN p (a + 1) (v / 256) n).scratch p x = _
    rw [ih (by omega), scratch_setScratch_ne (by omega)]

/-- The first halfword of a record of at least two bytes. -/
theorem scratchN_setScratchN (s : State) (p a v n : Nat) : (s.setScratchN p a v (n + 2)).scratchN p a 2 = v % 65536 := by
  have h0 : (s.setScratchN p a v (n + 2)).scratch p a = BitVec.ofNat 8 v := by
    show ((s.setScratch p a (BitVec.ofNat 8 v)).setScratchN p (a + 1) (v / 256) (n + 1)).scratch p a = _
    rw [scratch_setScratchN_lt (by omega), scratch_setScratch_same]
  have h1 : (s.setScratchN p a v (n + 2)).scratch p (a + 1) = BitVec.ofNat 8 (v / 256) := by
    show (((s.setScratch p a (BitVec.ofNat 8 v)).setScratch p (a + 1) (BitVec.ofNat 8 (v / 256))).setScratchN p (a + 1 + 1) (v / 256 / 256) n).scratch p (a + 1) = _
    rw [scratch_setScratchN_lt (by omega), scratch_setScratch_same]
  show ((s.setScratchN p a v (n + 2)).scratch p a).toNat + 256 * (((s.setScratchN p a v (n + 2)).scratch p (a + 1)).toNat + 256 * 0) = _
  rw [h0, h1, BitVec.toNat_ofNat, BitVec.toNat_ofNat]
  omega

theorem when_true (s : State) (f : State → State) : s.when true f = f s := rfl

theorem setScratchN_frame (s : State) (p a v n : Nat) :
    s.setScratchN p a v n = { s with zyn := { s.zyn with scratch := (s.setScratchN p a v n).zyn.scratch } } := by
  induction n generalizing s a v with
  | zero => rfl
  | succ n ih =>
    show (s.setScratch p a (BitVec.ofNat 8 v)).setScratchN p (a + 1) (v / 256) n = _
    rw [ih]
    rfl

/-- A record and the event of its tag change the scratch and one context alone. -/
theorem tagSignal_eq (s : State) (i : CtxId) (tag : Nat) (crec : BitVec 16) (op st a b : Nat) : ∃ x,
    s.tagSignal i tag crec op st a b = (State.zynEvent { s with zyn := { s.zyn with scratch := x } } i tag) := by
  unfold State.tagSignal
  cases hc : crec != 0xFFFF
  · exact ⟨s.zyn.scratch, rfl⟩
  · rw [when_true]
    generalize hv : st + tag * 2 ^ 16 + op * 2 ^ 24 + (a % 2 ^ 32) * 2 ^ 32 + (b % 2 ^ 64) * 2 ^ 64 = v
    have hf := setScratchN_frame s i.part crec.toNat v 16
    generalize s.setScratchN i.part crec.toNat v 16 = w at hf ⊢
    refine ⟨w.zyn.scratch, ?_⟩
    rw [← hf]

theorem scratchN_zynEvent (s : State) (i : CtxId) (e p a n : Nat) : (s.zynEvent i e).scratchN p a n = s.scratchN p a n := by
  induction n generalizing a with
  | zero => rfl
  | succ n ih =>
    unfold State.scratchN
    rw [ih]
    rfl

/-- The status in a tag's record. -/
theorem scratchN_tagSignal (s : State) (i : CtxId) (tag : Nat) {crec : BitVec 16} (h : crec ≠ 0xFFFF) (op : Nat) {st : Nat} (hst : st < 65536) (a b : Nat) :
    (s.tagSignal i tag crec op st a b).scratchN i.part crec.toNat 2 = st := by
  unfold State.tagSignal
  rw [bne_iff_ne.2 h, scratchN_zynEvent, when_true, scratchN_setScratchN (n := 14)]
  omega

/-- An operation has ended in a context with a status: its tag is free, its event is set, and its record holds the status (R130). -/
def Ended (t : State) (i : CtxId) (d : BitVec 5) (tag pc : Nat) (crec : BitVec 16) (st : Nat) : Prop :=
  (t.ctx i).Took d tag pc ∧ (t.ctx i).tags.getLsbD tag = false ∧ (t.ctx i).events.getLsbD tag = true ∧ (crec ≠ 0xFFFF → t.scratchN i.part crec.toNat 2 = st)

theorem tagDone_ended {s : State} {i : CtxId} {d : BitVec 5} {tag pc : Nat} (h : (s.ctx i).Took d tag pc) (htag : tag < 16) (crec : BitVec 16) (op : Nat) {st : Nat}
    (hst : st < 65536) (a b : Nat) : Ended (s.tagDone i tag crec op st a b) i d tag pc crec st := by
  unfold State.tagDone
  generalize hu : s.modCtx i (fun c => { c with tags := c.tags &&& ~~~(1#16 <<< tag) }) = u
  have hc : u.ctx i = { s.ctx i with tags := (s.ctx i).tags &&& ~~~(1#16 <<< tag) } := by rw [← hu, ctx_modCtx_same]
  have hready : (u.ctx i).st = .ready := by rw [hc]; exact h.1
  obtain ⟨x, hx⟩ := tagSignal_eq u i tag crec op st a b
  have hctx : (u.tagSignal i tag crec op st a b).ctx i = { u.ctx i with events := (u.ctx i).events ||| (1#64 <<< tag) } := by
    rw [hx]
    exact ctx_zynEvent_self (s := { u with zyn := { u.zyn with scratch := x } }) hready tag
  refine ⟨?_, ?_, ?_, fun hcrec => scratchN_tagSignal u i tag hcrec op hst a b⟩
  · rw [hctx, hc]
    exact h.congr rfl rfl rfl
  · rw [hctx, hc]
    show ((s.ctx i).tags &&& ~~~(1#16 <<< tag)).getLsbD tag = false
    simp [htag]
  · rw [hctx]
    show ((u.ctx i).events ||| (1#64 <<< tag)).getLsbD tag = true
    simp [show tag < 64 by omega]

end Sys2Proof.Machine
end

section
/-! SUPPORT. Service of a LUN (R260, R264, R515): reads that start, wait or end, and what a suspended operation keeps. -/
namespace Sys2Proof.Machine

@[simp] theorem lun_setLun_same (s : State) (d : Nat) (l : Lun) : (s.setLun d l).lun d = l := sgetD_sputD_same ..

/-! ### What the end of a request keeps -/

/-- What ends of device operations change: Zyn's state alone. -/
def OffZyn (s t : State) : Prop := t = { s with zyn := t.zyn }

theorem OffZyn.trans {s t u : State} (h : OffZyn s t) (g : OffZyn t u) : OffZyn s u := by
  unfold OffZyn at h g ⊢
  rw [g, h]

section
variable {s t : State} (h : OffZyn s t)
include h
theorem OffZyn.lun (d : Nat) : t.lun d = s.lun d := by rw [h]; rfl
theorem OffZyn.fld (f : Field) : t.fld f = s.fld f := by rw [h]; rfl
end

theorem tagSignal_offZyn (s : State) (i : CtxId) (tag : Nat) (crec : BitVec 16) (op st a b : Nat) : OffZyn s (s.tagSignal i tag crec op st a b) := by
  obtain ⟨x, hx⟩ := tagSignal_eq s i tag crec op st a b
  rw [hx]
  rfl

theorem tagDone_offZyn (s : State) (i : CtxId) (tag : Nat) (crec : BitVec 16) (op st a b : Nat) : OffZyn s (s.tagDone i tag crec op st a b) := by
  unfold State.tagDone
  exact OffZyn.trans (t := s.modCtx i _) rfl (tagSignal_offZyn ..)

theorem reqDone_offZyn (s : State) (r : NandReq) (st a b : Nat) : OffZyn s (s.reqDone r st a b) := by
  unfold State.reqDone
  dsimp only
  split
  · split <;> rfl
  · next k t =>
    split
    · exact OffZyn.trans (t := s.modCtx _ _) rfl (tagSignal_offZyn ..)
    · exact tagDone_offZyn ..

section
variable {i : CtxId} {d : BitVec 5} {tag pc : Nat}

theorem took_setCtx {s : State} (h : (s.ctx i).Took d tag pc) (j : CtxId) {c : Ctx} (hst : c.st = (s.ctx j).st) (hw : c.w = (s.ctx j).w) (hpc : c.pc = (s.ctx j).pc) :
    ((s.setCtx j c).ctx i).Took d tag pc := by
  by_cases hk : i.key = j.key
  · have hc (t : State) : t.ctx i = t.ctx j := by simp only [State.ctx, hk]
    rw [hc] at h
    rw [hc, ctx_setCtx_same]
    exact h.congr hst hw hpc
  · rwa [ctx_setCtx_ne hk]

theorem took_modCtx {s : State} (h : (s.ctx i).Took d tag pc) (j : CtxId) (f : Ctx → Ctx) (hst : ∀ c, (f c).st = c.st) (hw : ∀ c, (f c).w = c.w)
    (hpc : ∀ c, (f c).pc = c.pc) : ((s.modCtx j f).ctx i).Took d tag pc := took_setCtx h j (hst _) (hw _) (hpc _)

theorem took_zynEvent {s : State} (h : (s.ctx i).Took d tag pc) (j : CtxId) (e : Nat) : ((s.zynEvent j e).ctx i).Took d tag pc := by
  obtain hc | hc := ctx_zynEvent_ready h.1 j e <;> rw [hc]
  · exact h
  · exact h.congr rfl rfl rfl

theorem took_tagSignal {s : State} (h : (s.ctx i).Took d tag pc) (j : CtxId) (t : Nat) (crec : BitVec 16) (op st a b : Nat) :
    ((s.tagSignal j t crec op st a b).ctx i).Took d tag pc := by
  obtain ⟨x, hx⟩ := tagSignal_eq s j t crec op st a b
  rw [hx]
  refine took_zynEvent ?_ j t
  exact h

theorem took_tagDone {s : State} (h : (s.ctx i).Took d tag pc) (j : CtxId) (t : Nat) (crec : BitVec 16) (op st a b : Nat) :
    ((s.tagDone j t crec op st a b).ctx i).Took d tag pc := by
  unfold State.tagDone
  refine took_tagSignal ?_ ..
  exact took_modCtx h _ _ (fun _ => rfl) (fun _ => rfl) (fun _ => rfl)

theorem took_reqDone {s : State} (h : (s.ctx i).Took d tag pc) (r : NandReq) (st a b : Nat) : ((s.reqDone r st a b).ctx i).Took d tag pc := by
  unfold State.reqDone
  extract_lets op
  clear_value op
  split
  · split
    · exact h
    · exact h
  · next k t =>
    split
    · refine took_tagSignal ?_ ..
      exact took_modCtx h _ _ (fun _ => rfl) (fun _ => rfl) (fun _ => rfl)
    · exact took_tagDone h ..

end

/-! ### Reads that start -/

/-- The staging slots of a read are taken (R516). -/
def State.slotsTaken (s : State) (chan k n : Nat) (r : NandReq) : State :=
  s.each (List.range n) fun s j => s.putSlot (stKey chan (k + j)) { spec := r.spec, cmd := r.cmd }

theorem slotsTaken_frame (s : State) (chan k n : Nat) (r : NandReq) :
    s.slotsTaken chan k n r = { s with media := { s.media with slots := (s.slotsTaken chan k n r).media.slots } } := by
  unfold State.slotsTaken
  induction List.range n generalizing s with
  | nil => rfl
  | cons j l ih =>
    show (s.putSlot _ _).each l _ = _
    rw [ih]
    rfl

/-- A speculative read's context knows its slots (R136). -/
def State.specSlots (s : State) (r : NandReq) (k n : Nat) : State := match r.ctx with
  | some (c, t) => s.when r.spec fun s => s.modCtx (CtxId.ofKey c) fun x => { x with specs := x.specs.map fun (q : Spec) =>
      if q.tag == t then { q with slots := some (k, n) } else q }
  | none => s

theorem specSlots_offZyn (s : State) (r : NandReq) (k n : Nat) : OffZyn s (s.specSlots r k n) := by
  unfold State.specSlots
  split
  · cases r.spec <;> rfl
  · rfl

theorem specSlots_of_plain {r : NandReq} (h : r.spec = false) (s : State) (k n : Nat) : s.specSlots r k n = s := by
  unfold State.specSlots
  rw [h]
  split <;> rfl

theorem took_specSlots {s : State} {i : CtxId} {d : BitVec 5} {tag pc : Nat} (h : (s.ctx i).Took d tag pc) (r : NandReq) (k n : Nat) :
    ((s.specSlots r k n).ctx i).Took d tag pc := by
  unfold State.specSlots
  split
  · next c t _ =>
    obtain e | e := when_eq_or s r.spec fun s => s.modCtx (CtxId.ofKey c) fun x => { x with specs := x.specs.map fun (q : Spec) =>
        if q.tag == t then { q with slots := some (k, n) } else q }
    · rw [e]; exact h
    · rw [e]
      exact took_modCtx h _ _ (fun _ => rfl) (fun _ => rfl) (fun _ => rfl)
  · exact h

/-- A read that has its slots goes to the LUN, or to the decoder of a failed one. -/
def State.readSent (s : State) (die : Nat) (r : NandReq) (l : Lun) : State :=
  let l := { l with queue := l.queue.erase { r with slot := none } }
  if l.failed then
    let s := s.setLun die l
    { s with media := { s.media with decoding := s.media.decoding ++ [{ req := r }] } }
  else if decide (l.run = .none) then s.setLun die { l with run := .read r, since := s.ttu.elapsed }
  else s.setLun die { l with readRun := some r, served := l.served + 1 }

theorem startRead_none {s : State} {die : Nat} {r : NandReq} (h : s.findSlots (Pa.of r.addr).channel (Pa.of r.addr).count = none) : s.startRead die r = none := by
  unfold State.startRead
  dsimp only
  rw [h]

theorem startRead_some {s : State} {die k : Nat} {r : NandReq} (h : s.findSlots (Pa.of r.addr).channel (Pa.of r.addr).count = some k) :
    s.startRead die r = some (((s.slotsTaken (Pa.of r.addr).channel k (Pa.of r.addr).count r).specSlots r (stKey (Pa.of r.addr).channel k) (Pa.of r.addr).count).readSent die
      { r with slot := some (stKey (Pa.of r.addr).channel k) } (s.lun die)) := by
  have hl : (s.slotsTaken (Pa.of r.addr).channel k (Pa.of r.addr).count r).lun die = s.lun die := by rw [slotsTaken_frame]; rfl
  rw [← hl]
  unfold State.startRead State.readSent
  dsimp only
  rw [h, apply_ite some, apply_ite some]
  rfl

end Sys2Proof.Machine
end

section
/-! SUPPORT. Service of a LUN that reads, or whose program or erase is suspended; NRD, NSUS and NRES (R131, R132, R260, R264). -/
namespace Sys2Proof.Machine

/-! ### A LUN that starts nothing -/

theorem lunNext_of_quiet {s : State} {die : Nat} (hu : (s.lun die).unit = none) (hf : (s.lun die).failed = false) (hn : nextRead s die (s.lun die) = none)
    (fuel : Nat) : s.lunNext die fuel = s := by
  cases fuel with
  | zero => rfl
  | succ n =>
    unfold State.lunNext
    dsimp only
    rw [hu]
    dsimp only
    rw [hf, hn]
    rfl

theorem lunNext_of_drained {s : State} {die : Nat} (hu : (s.lun die).unit = none) (hf : (s.lun die).failed = true) (hq : (s.lun die).queue = [])
    (fuel : Nat) : s.lunNext die fuel = s := by
  cases fuel with
  | zero => rfl
  | succ n =>
    unfold State.lunNext
    dsimp only
    rw [hu]
    dsimp only
    rw [hf, hq]
    rfl

theorem nextRead_of_reading (s : State) (die : Nat) {l : Lun} {o : NandReq} (hu : l.unit = none) (h : l.run = .read o) : nextRead s die l = none := by
  simp [nextRead, hu, h]

theorem nextRead_of_empty (s : State) (die : Nat) {l : Lun} (h : l.queue = []) : nextRead s die l = none := by
  unfold nextRead
  rw [h]
  dsimp only [List.find?]
  split
  · rfl
  · split
    · rfl
    · simp
    · simp
    · rfl

/-- On a LUN with nothing running the only read of the queue is next (R260). -/
theorem nextRead_of_single (s : State) (die : Nat) {l : Lun} {r : NandReq} (hu : l.unit = none) (hr : l.run = .none) (hq : l.queue = [r]) (hc : r.cls = 1 ∨ r.cls = 4) :
    nextRead s die l = some r := by
  obtain h | h := hc <;> simp [nextRead, hu, hr, hq, h]

theorem lunNext_of_read {s : State} {die : Nat} {r : NandReq} (hu : (s.lun die).unit = none) (hf : (s.lun die).failed = false)
    (hn : nextRead s die (s.lun die) = some r) (fuel : Nat) : s.lunNext die (fuel + 1) =
      if readAllowed s r then (match s.startRead die r with | some t => t.lunNext die fuel | none => s)
      else ((s.setLun die { s.lun die with queue := (s.lun die).queue.erase r }).reqDone r stRefusedPeriod 0 0).lunNext die fuel := by
  rw [State.lunNext]
  dsimp only
  rw [hu]
  dsimp only
  rw [hf, hn]
  rfl

theorem lunNext_of_failed {s : State} {die : Nat} {r : NandReq} {q : List NandReq} (hu : (s.lun die).unit = none) (hf : (s.lun die).failed = true)
    (hq : (s.lun die).queue = r :: q) (fuel : Nat) : s.lunNext die (fuel + 1) = match s.startRead die r with | some t => t.lunNext die fuel | none => s := by
  rw [State.lunNext]
  dsimp only
  rw [hu]
  dsimp only
  rw [hf, hq]
  rfl

/-! ### The read of NRD (R131) -/

/-- A request put on the queue of its LUN. -/
def State.queued (s : State) (r : NandReq) : State :=
  s.setLun (Pa.of r.addr).die { s.lun (Pa.of r.addr).die with queue := (s.lun (Pa.of r.addr).die).queue ++ [r] }

theorem enqueue_eq (s : State) (r : NandReq) : s.enqueue r = (s.queued r).serve (Pa.of r.addr).die := rfl

theorem lun_queued (s : State) (r : NandReq) : (s.queued r).lun (Pa.of r.addr).die =
    { s.lun (Pa.of r.addr).die with queue := (s.lun (Pa.of r.addr).die).queue ++ [r] } := lun_setLun_same ..

theorem serve_of_free {s : State} {die : Nat} (h : padBurst s die = false) : s.serve die = s.lunNext die ((s.lun die).queue.length + 1) := by
  unfold State.serve
  rw [h]
  rfl

/-- Service starts nothing on a LUN whose next read is none. -/
theorem serve_of_quiet {s : State} {die : Nat} (hu : (s.lun die).unit = none) (hf : (s.lun die).failed = false) (hn : nextRead s die (s.lun die) = none) :
    s.serve die = s := by
  unfold State.serve
  split
  · rfl
  · exact lunNext_of_quiet hu hf hn _

theorem slotless_of_none {r : NandReq} (h : r.slot = none) : ({ r with slot := none } : NandReq) = r := by
  obtain ⟨op, kind, addr, ctx, crec, cmd, cls, slot, held, spec, bySpec⟩ := r
  exact congrArg (fun x => NandReq.mk op kind addr ctx crec cmd cls x held spec bySpec) h.symm

section
variable {s : State} {r : NandReq} (hpad : padBurst s (Pa.of r.addr).die = false) (hu : (s.lun (Pa.of r.addr).die).unit = none)
  (hq : (s.lun (Pa.of r.addr).die).queue = []) (hc : r.cls = 1 ∨ r.cls = 4)

include hpad hq in
theorem enqueue_eq_lunNext : s.enqueue r = (s.queued r).lunNext (Pa.of r.addr).die 2 := by
  rw [enqueue_eq, serve_of_free (s := s.queued r) hpad, lun_queued, hq]
  rfl

include hpad hu hq

include hc in
/-- An allowed read of an idle LUN runs with its slots. -/
theorem enqueue_runs (hf : (s.lun (Pa.of r.addr).die).failed = false) (hr : (s.lun (Pa.of r.addr).die).run = .none) (ha : readAllowed (s.queued r) r = true)
    (hs : r.spec = false) (hslot : r.slot = none) {k : Nat} (hk : s.findSlots (Pa.of r.addr).channel (Pa.of r.addr).count = some k) :
    ((s.enqueue r).lun (Pa.of r.addr).die).run = .read { r with slot := some (stKey (Pa.of r.addr).channel k) } ∧ ((s.enqueue r).lun (Pa.of r.addr).die).queue = [] ∧
    (s.enqueue r).zyn = s.zyn := by
  rw [enqueue_eq_lunNext hpad hq]
  have hl := lun_queued s r
  rw [hq] at hl
  have hlu : ((s.queued r).lun (Pa.of r.addr).die).unit = none := by rw [hl]; exact hu
  have hlf : ((s.queued r).lun (Pa.of r.addr).die).failed = false := by rw [hl]; exact hf
  have hlr : ((s.queued r).lun (Pa.of r.addr).die).run = .none := by rw [hl]; exact hr
  have hlq : ((s.queued r).lun (Pa.of r.addr).die).queue = [r] := by rw [hl]; rfl
  rw [lunNext_of_read hlu hlf (nextRead_of_single _ _ hlu hlr hlq hc), if_pos ha, startRead_some (s := s.queued r) (k := k) hk, specSlots_of_plain hs]
  dsimp only
  generalize hv : ((s.queued r).slotsTaken (Pa.of r.addr).channel k (Pa.of r.addr).count r) = v
  have hvz : v.zyn = s.zyn := by rw [← hv, slotsTaken_frame]; rfl
  have hr' := slotless_of_none hslot
  have hsent : v.readSent (Pa.of r.addr).die { r with slot := some (stKey (Pa.of r.addr).channel k) } ((s.queued r).lun (Pa.of r.addr).die) =
      v.setLun (Pa.of r.addr).die { (s.queued r).lun (Pa.of r.addr).die with
        queue := [], run := .read { r with slot := some (stKey (Pa.of r.addr).channel k) }, since := v.ttu.elapsed } := by
    unfold State.readSent
    dsimp only
    rw [hr', hlq, List.erase_cons_head, hlf, hlr]
    rfl
  rw [hsent]
  generalize hw : v.setLun _ _ = w
  have hwl : w.lun (Pa.of r.addr).die = { (s.queued r).lun (Pa.of r.addr).die with
        queue := [], run := .read { r with slot := some (stKey (Pa.of r.addr).channel k) }, since := v.ttu.elapsed } := by rw [← hw, lun_setLun_same]
  have hwu : (w.lun (Pa.of r.addr).die).unit = none := by rw [hwl]; exact hlu
  have hwr : (w.lun (Pa.of r.addr).die).run = .read { r with slot := some (stKey (Pa.of r.addr).channel k) } := by rw [hwl]
  rw [lunNext_of_quiet hwu (by rw [hwl]; exact hlf) (nextRead_of_reading _ _ hwu hwr)]
  exact ⟨hwr, by rw [hwl], by rw [← hw]; exact hvz⟩

/-- A read of a failed LUN goes to the decoder. -/
theorem enqueue_decodes (hf : (s.lun (Pa.of r.addr).die).failed = true) (hs : r.spec = false) (hslot : r.slot = none) {k : Nat}
    (hk : s.findSlots (Pa.of r.addr).channel (Pa.of r.addr).count = some k) :
    (s.enqueue r).media.decoding = s.media.decoding ++ [{ req := { r with slot := some (stKey (Pa.of r.addr).channel k) } }] ∧ (s.enqueue r).zyn = s.zyn := by
  rw [enqueue_eq_lunNext hpad hq]
  have hl := lun_queued s r
  rw [hq] at hl
  have hlu : ((s.queued r).lun (Pa.of r.addr).die).unit = none := by rw [hl]; exact hu
  have hlf : ((s.queued r).lun (Pa.of r.addr).die).failed = true := by rw [hl]; exact hf
  have hlq : ((s.queued r).lun (Pa.of r.addr).die).queue = [r] := by rw [hl]; rfl
  rw [lunNext_of_failed hlu hlf hlq, startRead_some (s := s.queued r) (k := k) hk, specSlots_of_plain hs]
  dsimp only
  generalize hv : ((s.queued r).slotsTaken (Pa.of r.addr).channel k (Pa.of r.addr).count r) = v
  have hvz : v.zyn = s.zyn ∧ v.media.decoding = s.media.decoding := by rw [← hv, slotsTaken_frame]; exact ⟨rfl, rfl⟩
  have hr' := slotless_of_none hslot
  generalize hw : v.readSent _ _ _ = w
  have hsent : w = { v.setLun (Pa.of r.addr).die { (s.queued r).lun (Pa.of r.addr).die with queue := [] } with
      media := { (v.setLun (Pa.of r.addr).die { (s.queued r).lun (Pa.of r.addr).die with queue := [] }).media with
        decoding := v.media.decoding ++ [{ req := { r with slot := some (stKey (Pa.of r.addr).channel k) } }] } } := by
    rw [← hw]
    unfold State.readSent
    dsimp only
    rw [hr', hlq, List.erase_cons_head, hlf]
    rfl
  have hwl : w.lun (Pa.of r.addr).die = { (s.queued r).lun (Pa.of r.addr).die with queue := [] } := by
    rw [hsent]
    exact lun_setLun_same v _ _
  rw [lunNext_of_drained (by rw [hwl]; exact hlu) (by rw [hwl]; exact hlf) (by rw [hwl])]
  refine ⟨?_, ?_⟩
  · rw [hsent, ← hvz.2]
  · rw [hsent]
    exact hvz.1

include hc in
/-- A read whose Period check fails ends with its status. -/
theorem enqueue_refused (hf : (s.lun (Pa.of r.addr).die).failed = false) (hr : (s.lun (Pa.of r.addr).die).run = .none) (ha : readAllowed (s.queued r) r = false) :
    ∃ u : State, u.zyn = s.zyn ∧ s.enqueue r = u.reqDone r stRefusedPeriod 0 0 := by
  rw [enqueue_eq_lunNext hpad hq]
  have hl := lun_queued s r
  rw [hq] at hl
  have hlu : ((s.queued r).lun (Pa.of r.addr).die).unit = none := by rw [hl]; exact hu
  have hlf : ((s.queued r).lun (Pa.of r.addr).die).failed = false := by rw [hl]; exact hf
  have hlr : ((s.queued r).lun (Pa.of r.addr).die).run = .none := by rw [hl]; exact hr
  have hlq : ((s.queued r).lun (Pa.of r.addr).die).queue = [r] := by rw [hl]; rfl
  rw [lunNext_of_read hlu hlf (nextRead_of_single _ _ hlu hlr hlq hc), if_neg (by rw [ha]; decide), hlq, List.erase_cons_head]
  generalize hw : (s.queued r).setLun _ _ = w
  have hwl : w.lun (Pa.of r.addr).die = { (s.queued r).lun (Pa.of r.addr).die with queue := [] } := by rw [← hw, lun_setLun_same]
  have hd := (reqDone_offZyn w r stRefusedPeriod 0 0).lun (Pa.of r.addr).die
  refine ⟨w, by rw [← hw]; rfl, lunNext_of_quiet ?_ ?_ (nextRead_of_empty _ _ ?_) 1⟩
  · rw [hd, hwl]; exact hlu
  · rw [hd, hwl]; exact hlf
  · rw [hd, hwl]

end

/-- A read waits behind the one that runs. -/
theorem enqueue_waits {s : State} {r o : NandReq} (hu : (s.lun (Pa.of r.addr).die).unit = none) (hf : (s.lun (Pa.of r.addr).die).failed = false)
    (hr : (s.lun (Pa.of r.addr).die).run = .read o) : s.enqueue r = s.queued r := by
  have hl := lun_queued s r
  have hlu : ((s.queued r).lun (Pa.of r.addr).die).unit = none := by rw [hl]; exact hu
  rw [enqueue_eq]
  refine serve_of_quiet hlu (by rw [hl]; exact hf) (nextRead_of_reading (o := o) _ _ hlu ?_)
  rw [hl]
  exact hr

/-! ### NSUS: what service keeps of the suspended operation (R132, R264) -/

/-- The operation of a LUN stands as it did. -/
def LunHeld (l m : Lun) : Prop := m.unit = l.unit ∧ m.run = l.run ∧ m.suspended = l.suspended ∧ m.suspends = l.suspends ∧ m.failed = l.failed

theorem readSent_of_busy {s : State} {die : Nat} {r : NandReq} {l : Lun} (h : l.run ≠ .none) : LunHeld l ((s.readSent die r l).lun die) ∧
    (s.readSent die r l).zyn = s.zyn ∧ (s.readSent die r l).regs = s.regs ∧ (s.readSent die r l).variant = s.variant := by
  unfold State.readSent
  dsimp only
  split
  · refine ⟨?_, rfl, rfl, rfl⟩
    have hl := lun_setLun_same s die { l with queue := l.queue.erase { r with slot := none } }
    show LunHeld l ((s.setLun die { l with queue := l.queue.erase { r with slot := none } }).lun die)
    rw [hl]
    exact ⟨rfl, rfl, rfl, rfl, rfl⟩
  · rw [if_neg (by rw [decide_eq_true_iff]; exact h)]
    refine ⟨?_, rfl, rfl, rfl⟩
    rw [lun_setLun_same]
    exact ⟨rfl, rfl, rfl, rfl, rfl⟩

/-- What service keeps while a LUN's program or erase stands suspended: the operation, the registers, and a READY context that took its tag. -/
structure Stands (s t : State) (die : Nat) (i : CtxId) (d : BitVec 5) (tag pc : Nat) : Prop where
  held : LunHeld (s.lun die) (t.lun die)
  regs : t.regs = s.regs
  variant : t.variant = s.variant
  took : (t.ctx i).Took d tag pc

theorem Stands.trans {s t u : State} {die : Nat} {i : CtxId} {d : BitVec 5} {tag pc : Nat} (h : Stands s t die i d tag pc) (g : Stands t u die i d tag pc) :
    Stands s u die i d tag pc := by
  obtain ⟨h1, h2, h3, h4, h5⟩ := h.held
  obtain ⟨g1, g2, g3, g4, g5⟩ := g.held
  exact ⟨⟨g1.trans h1, g2.trans h2, g3.trans h3, g4.trans h4, g5.trans h5⟩, g.regs.trans h.regs, g.variant.trans h.variant, g.took⟩

theorem startRead_stands {s t : State} {die : Nat} {r : NandReq} (h : s.startRead die r = some t) (hr : (s.lun die).run ≠ .none) {i : CtxId} {d : BitVec 5} {tag pc : Nat}
    (ht : (s.ctx i).Took d tag pc) : Stands s t die i d tag pc := by
  cases hk : s.findSlots (Pa.of r.addr).channel (Pa.of r.addr).count with
  | none => rw [startRead_none hk] at h; cases h
  | some k =>
    rw [startRead_some hk] at h
    obtain rfl := Option.some.inj h
    have hf := slotsTaken_frame s (Pa.of r.addr).channel k (Pa.of r.addr).count r
    generalize s.slotsTaken (Pa.of r.addr).channel k (Pa.of r.addr).count r = v at hf
    have hvt : (v.ctx i).Took d tag pc := by
      rw [hf]
      exact ht
    have hs := specSlots_offZyn v r (stKey (Pa.of r.addr).channel k) (Pa.of r.addr).count
    have hst := took_specSlots hvt r (stKey (Pa.of r.addr).channel k) (Pa.of r.addr).count
    generalize v.specSlots r (stKey (Pa.of r.addr).channel k) (Pa.of r.addr).count = w at hs hst
    obtain ⟨h1, h2, h3, h4⟩ := readSent_of_busy (s := w) (die := die) (r := { r with slot := some (stKey (Pa.of r.addr).channel k) }) hr
    refine ⟨h1, h3.trans ?_, h4.trans ?_, ?_⟩
    · rw [hs, hf]
    · rw [hs, hf]
    · rwa [ctx_of_zyn h2]

theorem lunNext_stands {die : Nat} {i : CtxId} {d : BitVec 5} {tag pc : Nat} (fuel : Nat) {s : State} (hu : (s.lun die).unit = none) (hr : (s.lun die).run ≠ .none)
    (ht : (s.ctx i).Took d tag pc) : Stands s (s.lunNext die fuel) die i d tag pc := by
  have hself : Stands s s die i d tag pc := ⟨⟨rfl, rfl, rfl, rfl, rfl⟩, rfl, rfl, ht⟩
  induction fuel generalizing s with
  | zero => exact hself
  | succ n ih =>
    have hgo {t : State} (h : Stands s t die i d tag pc) : Stands s (t.lunNext die n) die i d tag pc := by
      have htu := h.held.1.trans hu
      have htr : (t.lun die).run ≠ .none := h.held.2.1 ▸ hr
      exact h.trans (ih htu htr h.took ⟨⟨rfl, rfl, rfl, rfl, rfl⟩, rfl, rfl, h.took⟩)
    have hstart (r : NandReq) : Stands s (match s.startRead die r with | some t => t.lunNext die n | none => s) die i d tag pc := by
      cases hs : s.startRead die r with
      | none => exact hself
      | some t => exact hgo (startRead_stands hs hr ht)
    cases hf : (s.lun die).failed with
    | true =>
      cases hq : (s.lun die).queue with
      | nil => rw [lunNext_of_drained hu hf hq]; exact hself
      | cons r q => rw [lunNext_of_failed hu hf hq]; exact hstart r
    | false =>
      cases hn : nextRead s die (s.lun die) with
      | none => rw [lunNext_of_quiet hu hf hn]; exact hself
      | some r =>
        rw [lunNext_of_read hu hf hn]
        split
        · exact hstart r
        · refine hgo ?_
          generalize hv : s.setLun die _ = v
          have hvl : LunHeld (s.lun die) (v.lun die) := by
            rw [← hv, lun_setLun_same]
            exact ⟨rfl, rfl, rfl, rfl, rfl⟩
          have hvr : v.regs = s.regs ∧ v.variant = s.variant ∧ (v.ctx i).Took d tag pc := by rw [← hv]; exact ⟨rfl, rfl, ht⟩
          have hd := reqDone_offZyn v r stRefusedPeriod 0 0
          refine ⟨by rw [hd.lun]; exact hvl, ?_, ?_, took_reqDone hvr.2.2 ..⟩
          · rw [hd]; exact hvr.1
          · rw [hd]; exact hvr.2.1

theorem serve_stands {s : State} {die : Nat} (hu : (s.lun die).unit = none) (hr : (s.lun die).run ≠ .none) {i : CtxId} {d : BitVec 5} {tag pc : Nat}
    (ht : (s.ctx i).Took d tag pc) : Stands s (s.serve die) die i d tag pc := by
  unfold State.serve
  split
  · exact ⟨⟨rfl, rfl, rfl, rfl, rfl⟩, rfl, rfl, ht⟩
  · exact lunNext_stands _ hu hr ht

end Sys2Proof.Machine
end

section
/-! SUPPORT. Two states that differ only in their contexts, the requests queued for them and their LUNs stay so, as a block is taken: nothing of what the journal,
the pool and the tables do is computed from these (R279, R293). -/
namespace Sys2Proof.Machine

/-- What an operation of the tables does not read: the contexts, the requests queued for them, and the LUNs. -/
structure Dress where
  ctxs : Sparse Ctx := []
  queues : Sparse (List Request) := []
  stalled : Sparse (List Request) := []
  luns : Sparse Lun := []

def State.dress (s : State) (x : Dress) : State :=
  { s with zyn := { s.zyn with ctxs := x.ctxs, queues := x.queues, stalled := x.stalled }, media := { s.media with luns := x.luns } }

/-- Two states differ in their dress alone. -/
def Alike (s t : State) : Prop := s.dress {} = t.dress {}

theorem alike_dress (s : State) (x : Dress) : Alike s (s.dress x) := rfl

theorem Alike.trans {s t u : State} (h : Alike s t) (g : Alike t u) : Alike s u := Eq.trans h g
theorem Alike.symm {s t : State} (h : Alike s t) : Alike t s := Eq.symm h

theorem Alike.exists_dress {s t : State} (h : Alike s t) : ∃ x, t = s.dress x := by
  have ht (u : State) : u = (u.dress {}).dress ⟨u.zyn.ctxs, u.zyn.queues, u.zyn.stalled, u.media.luns⟩ := rfl
  refine ⟨⟨t.zyn.ctxs, t.zyn.queues, t.zyn.stalled, t.media.luns⟩, ?_⟩
  rw [ht t, ← h]
  rfl

/-- An operation that neither reads nor writes the dress. -/
def Plain (f : State → State) : Prop := ∀ s x, f (s.dress x) = (f s).dress x

theorem Alike.plain {s t : State} (h : Alike s t) {f : State → State} (hf : Plain f) : Alike (f s) (f t) := by
  obtain ⟨x, rfl⟩ := h.exists_dress
  rw [hf]
  exact alike_dress ..

theorem Alike.ite {s t u v : State} (h : Alike s t) (g : Alike u v) (c : Prop) [Decidable c] : Alike (if c then s else u) (if c then t else v) := by
  split
  · exact h
  · exact g

theorem Alike.when {s t : State} (h : Alike s t) {f g : State → State} (hf : ∀ {u v}, Alike u v → Alike (f u) (g v)) (c : Bool) : Alike (s.when c f) (t.when c g) := by
  cases c
  · exact h
  · exact hf h

/-- A condition that does not read the dress. -/
theorem Alike.whenRead {s t : State} (h : Alike s t) {p : State → Bool} (hp : ∀ s x, p (s.dress x) = p s) {f g : State → State}
    (hf : ∀ {u v}, Alike u v → Alike (f u) (g v)) : Alike (s.when (p s) f) (t.when (p t) g) := by
  have hpt : p t = p s := by
    obtain ⟨x, rfl⟩ := h.exists_dress
    exact hp s x
  rw [hpt]
  exact h.when hf _

theorem Alike.each {α : Type} {s t : State} (h : Alike s t) {f g : State → α → State} (hf : ∀ {u v} x, Alike u v → Alike (f u x) (g v x)) (l : List α) :
    Alike (s.each l f) (t.each l g) := by
  induction l generalizing s t with
  | nil => exact h
  | cons x l ih => exact ih (hf x h)

section
variable {s t : State} (h : Alike s t)
include h

/-! ### Registers and reports -/

theorem Alike.setFld (f : Field) (n : Nat) : Alike (s.setFld f n) (t.setFld f n) := h.plain (f := (·.setFld f n)) fun _ _ => rfl
theorem Alike.setBit (f : Field) (b : Bool) : Alike (s.setBit f b) (t.setBit f b) := h.setFld ..
theorem Alike.raise (f : Field) : Alike (s.raise f) (t.raise f) := h.setFld ..
theorem Alike.clear (f : Field) : Alike (s.clear f) (t.clear f) := h.setFld ..
theorem Alike.count (f : Field) : Alike (s.count f) (t.count f) := h.plain (f := (·.count f)) fun _ _ => rfl
theorem Alike.gauge (i n : Nat) : Alike (s.gauge i n) (t.gauge i n) := h.plain (f := (·.gauge i n)) fun _ _ => rfl
theorem Alike.setShutdown (n : Nat) : Alike (s.setShutdown n) (t.setShutdown n) := h.plain (f := (·.setShutdown n)) fun _ _ => rfl

/-- One buffer less is dirty (R307). -/
theorem Alike.dirtyLess : Alike (s.setFld F.JNL_DIRTY.COUNT (s.fld F.JNL_DIRTY.COUNT - 1)) (t.setFld F.JNL_DIRTY.COUNT (t.fld F.JNL_DIRTY.COUNT - 1)) :=
  h.plain (f := fun s => s.setFld F.JNL_DIRTY.COUNT (s.fld F.JNL_DIRTY.COUNT - 1)) fun _ _ => rfl

theorem Alike.request (c d : EngClass) (e e' : Nat) (r r' : Request) : Alike (s.request c e r) (t.request d e' r') := by
  have hr (u : State) (c : EngClass) (e : Nat) (r : Request) : Alike (u.request c e r) u := by
    unfold State.request
    dsimp only
    split
    · rfl
    · split <;> rfl
  exact (hr s c e r).trans (h.trans (hr t d e' r').symm)

theorem Alike.policy (k a : Nat) (c : Option Nat) : Alike (s.policy k a c) (t.policy k a c) := h.request ..

theorem Alike.zynEvent (i : CtxId) (e : Nat) : Alike (s.zynEvent i e) (t.zynEvent i e) := h

theorem Alike.postCqe (f q : Nat) (e : Cqe) : Alike (s.postCqe f q e) (t.postCqe f q e) := by
  obtain ⟨x, rfl⟩ := h.exists_dress
  unfold State.postCqe
  rw [show (s.dress x).cq f q = s.cq f q from rfl]
  cases s.cq f q with
  | none => exact alike_dress _ x
  | some c => exact .ite (alike_dress _ x) (.ite (alike_dress _ x) (alike_dress _ x) _) _

theorem Alike.adminPost (f : Nat) (cid : BitVec 16) (sct sc : Nat) (a b : Word) : Alike (s.adminPost f cid sct sc a b) (t.adminPost f cid sct sc a b) := by
  obtain ⟨x, rfl⟩ := h.exists_dress
  unfold State.adminPost
  exact Alike.postCqe (alike_dress _ x) ..

theorem Alike.adminDone (f : Nat) (cid : BitVec 16) (sct sc : Nat) (a b : Word) : Alike (s.adminDone f cid sct sc a b) (t.adminDone f cid sct sc a b) := by
  obtain ⟨x, rfl⟩ := h.exists_dress
  unfold State.adminDone
  refine .ite (alike_dress _ x) ?_ _
  rw [show (s.dress x).cq f 0 = s.cq f 0 from rfl]
  cases s.cq f 0 with
  | none => exact h.adminPost ..
  | some q => exact .ite (alike_dress _ x) (h.adminPost ..) _

theorem Alike.aen (f ty info : Nat) : Alike (s.aen f ty info) (t.aen f ty info) := by
  obtain ⟨x, rfl⟩ := h.exists_dress
  unfold State.aen
  refine .ite h ?_ _
  rw [show (s.dress x).func f = s.func f from rfl]
  cases (s.func f).aers with
  | nil => exact alike_dress _ x
  | cons cid l => exact Alike.adminDone (alike_dress _ x) ..

theorem Alike.vendorEvent (n : Nat) : Alike (s.vendorEvent n) (t.vendorEvent n) := h.aen ..

theorem Alike.entry_notice (k : Nat) : Alike (s.entry k sevNotice) (t.entry k sevNotice) := h.plain (f := (·.entry k sevNotice)) fun _ _ => rfl

/-! ### The journal -/

theorem Alike.fillUpdate : Alike s.fillUpdate t.fillUpdate := by
  obtain ⟨x, rfl⟩ := h.exists_dress
  unfold State.fillUpdate
  refine .gauge ?_ _ _
  refine .when (.when (.when (.when ((h.setFld ..).setBit ..) (·.raise _) _) (·.raise _) _) (·.policy ..) _) (fun g => (g.raise _).entry_notice _) _

theorem Alike.poison (st a : Nat) : Alike (s.poison st a) (t.poison st a) := by
  obtain ⟨x, rfl⟩ := h.exists_dress
  unfold State.poison
  rw [show (s.dress x).poisoned st a = s.poisoned st a from rfl]
  refine .ite h (Alike.count ?_ _) _
  exact alike_dress _ x

theorem Alike.inject (st a : Nat) : Alike (s.inject st a) (t.inject st a) := by
  obtain ⟨x, rfl⟩ := h.exists_dress
  unfold State.inject
  exact .ite (.when (h.clear _) (·.poison ..) _) h _

theorem Alike.cutDurable : Alike s.cutDurable t.cutDurable := by
  obtain ⟨x, rfl⟩ := h.exists_dress
  unfold State.cutDurable
  dsimp only
  rw [show (s.dress x).ttu = s.ttu from rfl, show (s.dress x).jnl = s.jnl from rfl]
  refine .each ?_ ?_ _
  · exact alike_dress _ x
  · intro u v k g
    exact g.zynEvent ..

theorem Alike.tailAdvance : Alike s.tailAdvance t.tailAdvance := by
  obtain ⟨x, rfl⟩ := h.exists_dress
  unfold State.tailAdvance
  dsimp only
  refine Alike.fillUpdate ?_
  rw [show (s.dress x).jnl = s.jnl from rfl]
  cases s.jnl.repair with
  | none => exact alike_dress _ x
  | some k => exact .ite (alike_dress _ x) (Alike.clear (alike_dress _ x) _) _

theorem Alike.adjustValid (d k : Nat) (up : Bool) : Alike (s.adjustValid d k up) (t.adjustValid d k up) := h.plain (f := (·.adjustValid d k up)) fun _ _ => rfl

theorem Alike.replayRows : Alike s.replayRows t.replayRows := h.plain (f := State.replayRows) fun _ _ => rfl

theorem Alike.cover : Alike s.cover t.cover := by
  obtain ⟨x, rfl⟩ := h.exists_dress
  unfold State.cover
  dsimp only
  refine .ite h (.tailAdvance (.each (alike_dress _ x) (fun {u v} im g => ?_) _)) _
  obtain ⟨y, rfl⟩ := g.exists_dress
  cases im.loc with
  | none => exact g
  | some loc =>
    dsimp only
    rw [show (u.dress y).mram = u.mram from rfl]
    cases sget im.page u.mram.cpNewest with
    | none => exact alike_dress _ y
    | some l => exact alike_dress _ y

theorem Alike.deletesDone (f : Nat) : Alike (s.deletesDone f) (t.deletesDone f) := by
  obtain ⟨x, rfl⟩ := h.exists_dress
  unfold State.deletesDone
  refine .each h (fun {u v} q g => ?_) _
  obtain ⟨y, rfl⟩ := g.exists_dress
  dsimp only
  cases q.2.deleting with
  | none => exact alike_dress _ y
  | some cid => exact Alike.adminDone (alike_dress _ y) ..

theorem Alike.resetDone (f : Nat) : Alike (s.resetDone f) (t.resetDone f) := h.plain (f := (·.resetDone f)) fun _ _ => rfl

theorem Alike.ctxGone (c f : Nat) : Alike (s.ctxGone c f) (t.ctxGone c f) := by
  obtain ⟨x, rfl⟩ := h.exists_dress
  unfold State.ctxGone
  dsimp only
  generalize hu : State.deletesDone _ f = u
  generalize hv : State.deletesDone _ f = v
  have g : Alike u v := by
    rw [← hu, ← hv]
    exact Alike.deletesDone (alike_dress _ x) f
  exact g.when (·.resetDone f) _

theorem Alike.bufGone (c b : Nat) : Alike (s.bufGone c b) (t.bufGone c b) := by
  obtain ⟨x, rfl⟩ := h.exists_dress
  unfold State.bufGone
  rw [show (s.dress x).host = s.host from rfl]
  cases sget c s.host.cmds with
  | none => exact h
  | some y => exact .ite h (.ite (Alike.ctxGone (alike_dress _ x) ..) (alike_dress _ x) _) _

theorem Alike.bpmEval (a : Nat) : Alike (s.bpmEval a) (t.bpmEval a) := by
  obtain ⟨x, rfl⟩ := h.exists_dress
  unfold State.bpmEval
  extract_lets soft hard low empty u1 u2 u3 u4 u5 hu soft' hard' low' empty' v1 v2 v3 v4 v5 hv
  have h1 : Alike u1 v1 := h.when (·.raise _) _
  have h2 : Alike u2 v2 := h1.whenRead (p := fun s => hard && s.host.calmHard.contains a) (fun _ _ => rfl) (·.raise _)
  have h3 : Alike u3 v3 := h2.whenRead (p := fun s => low && !s.host.low) (fun _ _ => rfl) fun g => (g.raise _).entry_notice _
  have h4 : Alike u4 v4 := h3.whenRead (p := fun s => empty && !s.flag F.BPM_STATUS.EMPTY) (fun _ _ => rfl) fun g => (g.raise _).entry_notice _
  have h5 : Alike u5 v5 := (h4.setBit _ _).setBit _ _
  obtain ⟨y, hy⟩ := h5.exists_dress
  clear_value v5
  subst hy
  exact alike_dress _ y

theorem Alike.unreserve (a n : Nat) : Alike (s.unreserve a n) (t.unreserve a n) := by
  obtain ⟨x, rfl⟩ := h.exists_dress
  unfold State.unreserve
  exact .bpmEval (.setFld (.setFld h _ _) _ _) a

theorem Alike.freeBuf (b : Nat) : Alike (s.freeBuf b) (t.freeBuf b) := by
  obtain ⟨x, rfl⟩ := h.exists_dress
  unfold State.freeBuf
  rw [show (s.dress x).buf b = s.buf b from rfl]
  cases s.buf b with
  | none => exact h
  | some y =>
    refine .ite h (.ite ?_ ?_ _) _
    · exact .bufGone (.when (.ite (alike_dress _ x) (alike_dress _ x) _) (fun g => g.dirtyLess) _) ..
    · exact .unreserve (.bufGone (.when (.ite (alike_dress _ x) (alike_dress _ x) _) (fun g => g.dirtyLess) _) ..) ..

theorem Alike.releaseSealed : Alike s.releaseSealed t.releaseSealed := by
  obtain ⟨x, rfl⟩ := h.exists_dress
  unfold State.releaseSealed
  exact .each h (fun k g => g.freeBuf k.1) _

theorem Alike.batchSealed (b : Bool) : Alike (s.batchSealed b) (t.batchSealed b) := by
  obtain ⟨x, rfl⟩ := h.exists_dress
  unfold State.batchSealed
  dsimp only
  exact .inject (.when (alike_dress _ x) (·.setShutdown _) _) ..

theorem Alike.seal (b : Bool) : Alike (s.seal b) (t.seal b) := by
  rw [seal_eq, seal_eq]
  obtain ⟨x, rfl⟩ := h.exists_dress
  refine .ite h ?_ _
  have g := ((h.batchSealed b).each (f := fun s k => s.zynEvent (CtxId.ofKey k) 27) (g := fun s k => s.zynEvent (CtxId.ofKey k) 27)
    (fun k g => g.zynEvent (CtxId.ofKey k) 27) s.jnl.openCtxs)
  exact g.releaseSealed.cutDurable.replayRows.cover.fillUpdate

theorem Alike.journal (r : BitVec 128) (c : Option Nat) : (s.journal r c).1 = (t.journal r c).1 ∧ Alike (s.journal r c).2 (t.journal r c).2 := by
  obtain ⟨x, rfl⟩ := h.exists_dress
  refine ⟨rfl, ?_⟩
  unfold State.journal
  dsimp only
  refine Alike.whenRead (p := fun s => decide (64 ≤ s.jnl.openRecs.length)) (.fillUpdate (alike_dress _ x)) (fun _ _ => rfl) (·.seal _)

theorem Alike.markDirty (p n : Nat) : Alike (s.markDirty p n) (t.markDirty p n) := by
  obtain ⟨x, rfl⟩ := h.exists_dress
  unfold State.markDirty
  exact .ite (alike_dress _ x) (alike_dress _ x) _

/-! ### A record of the BLOCK table, and the block it takes (R79, R279) -/

theorem Alike.blockWord (x w : Nat) (v : Word64) (n : Nat) : Alike (s.applyWord 4 x w v n) (t.applyWord 4 x w v n) := by
  unfold State.applyWord
  exact (h.inject ..).plain (f := fun s => s.setTab { s.zyn.tab with block := sputD 0 (x * 8 + w) v s.zyn.tab.block }) fun _ _ => rfl

/-- A word of a BLOCK record is put in force, or waits for the rebuild of its record. -/
theorem Alike.blockPut (x w : Nat) (v : Word64) (n : Nat) : Alike (if s.underRebuild 4 x then s.queueRebuild 4 x w v n else s.applyWord 4 x w v n)
    (if t.underRebuild 4 x then t.queueRebuild 4 x w v n else t.applyWord 4 x w v n) := by
  obtain ⟨y, rfl⟩ := h.exists_dress
  exact .ite (alike_dress _ y) (h.blockWord ..) _

theorem Alike.ballastCheck (d : Nat) : Alike (s.ballastCheck d) (t.ballastCheck d) := by
  obtain ⟨x, rfl⟩ := h.exists_dress
  unfold State.ballastCheck
  dsimp only
  refine .ite (.policy (.vendorEvent (.entry_notice (.raise (.raise (.count ?_ _) _) _) _) _) ..) (.ite (.policy (.setBit ?_ _ _) ..) h _) _
  · exact alike_dress _ x
  · exact alike_dress _ x

theorem Alike.setHeap (d : Nat) (l : List (Nat × Nat)) : Alike (s.setHeap d l) (t.setHeap d l) := h.plain (f := (·.setHeap d l)) fun _ _ => rfl

theorem Alike.blockJournaled (x w : Nat) (v : Word64) (c : Option Nat) :
    (s.jwrite 4 x w v c).1 = (t.jwrite 4 x w v c).1 ∧ Alike (s.jwrite 4 x w v c).2 (t.jwrite 4 x w v c).2 := by
  obtain ⟨hn, hj⟩ := h.journal (recWord 4 w x v) c
  refine ⟨hn, ?_⟩
  unfold State.jwrite
  dsimp only
  rw [hn]
  exact (hj.markDirty _ _).blockPut x w v _

theorem Alike.blockListed (n d p e b x : Nat) : Alike (s.blockListed n d p e b x) (t.blockListed n d p e b x) := by
  unfold State.blockListed
  exact ((h.blockPut ..).plain (f := fun s => { s with mram := { s.mram with openBlks := s.mram.openBlks ++ [_] } }) fun _ _ => rfl).ballastCheck d

theorem Alike.blockTaken (d p : Nat) (slc : Bool) (c : Option Nat) (e b : Nat) (l : List (Nat × Nat)) :
    Alike (s.blockTaken d p slc c e b l) (t.blockTaken d p slc c e b l) := by
  unfold State.blockTaken
  dsimp only
  rw [show geoBlocks s = geoBlocks t by obtain ⟨x, rfl⟩ := h.exists_dress; rfl]
  obtain ⟨hn, hj⟩ := (h.setHeap d l).blockJournaled _ 1 _ c
  rw [hn]
  exact hj.blockListed ..

end

end Sys2Proof.Machine
end

section
/-! SUPPORT. What an NPG loads (R515): it is computed from the pool, the staging slots, the stripes and the media, whatever the contexts and the LUNs' requests are. -/
namespace Sys2Proof.Machine

/-- Two states that differ in contexts, requests and LUNs, whose dies are in service alike. -/
structure Twin (s t : State) : Prop where
  alike : Alike s t
  failed : ∀ d, (t.lun d).failed = (s.lun d).failed

theorem Twin.inService {s t : State} (h : Twin s t) (d : Nat) : t.inService d = s.inService d := by
  have hd := h.failed d
  obtain ⟨x, rfl⟩ := h.alike.exists_dress
  unfold State.inService
  rw [hd]
  rfl

/-! ### Taking a parity block (R278, R281) -/

/-- Two choices of a state agree. -/
def Agree {α : Type} (x y : α × State) : Prop := x.1 = y.1 ∧ Alike x.2 y.2

theorem Twin.allocOk {s t : State} (h : Twin s t) (d p n : Nat) : allocOk t d p n = allocOk s d p n := by
  have hd := h.inService d
  unfold Machine.allocOk
  rw [hd]
  obtain ⟨x, rfl⟩ := h.alike.exists_dress
  rfl

theorem Twin.allocBlock {s t : State} (h : Twin s t) (d p : Nat) (slc : Bool) (c : Option Nat) :
    (s.allocBlock d p slc c = (none, s) ∧ t.allocBlock d p slc c = (none, t)) ∨
    ∃ b u v, Alike u v ∧ s.allocBlock d p slc c = (some b, u) ∧ t.allocBlock d p slc c = (some b, v) := by
  have hh : t.heap d = s.heap d := by obtain ⟨x, rfl⟩ := h.alike.exists_dress; rfl
  match hs : s.heap d with
  | [] => exact .inl ⟨allocBlock_of_empty _ _ _ hs, allocBlock_of_empty _ _ _ (hh.trans hs)⟩
  | (e, b) :: l =>
    rw [allocBlock_of_free _ _ _ hs, allocBlock_of_free _ _ _ (hh.trans hs), h.allocOk]
    by_cases ho : Machine.allocOk s d p l.length = true
    · rw [if_pos ho, if_pos ho]
      exact .inr ⟨b, _, _, h.alike.blockTaken .., rfl, rfl⟩
    · rw [if_neg ho, if_neg ho]
      exact .inl ⟨rfl, rfl⟩

/-- The next die of a channel gives a parity die-page, unless one has been found (R274, R281). -/
def parityPick (slc : Bool) (o : Option (Nat × Nat × Nat) × State) (d : Nat) : Option (Nat × Nat × Nat) × State :=
  match o with
  | (some x, s) => (some x, s)
  | (none, s) =>
    match s.parityBlock d slc with
    | some (b, row) => (some (d, b, row), s)
    | none => match s.allocBlock d 5 slc with
      | (some b, s) => (some (d, b, 0), s)
      | (none, s) => (none, s)

theorem foldl_parityPick_some (slc : Bool) (x : Nat × Nat × Nat) (s : State) (l : List Nat) : l.foldl (parityPick slc) (some x, s) = (some x, s) := by
  induction l with
  | nil => rfl
  | cons d l ih => exact ih

theorem parityPick_cases (slc : Bool) {s t : State} (h : Twin s t) (d : Nat) :
    (parityPick slc (none, s) d = (none, s) ∧ parityPick slc (none, t) d = (none, t)) ∨
    ∃ x u v, Alike u v ∧ Kept s u ∧ parityPick slc (none, s) d = (some x, u) ∧ parityPick slc (none, t) d = (some x, v) := by
  have hp : t.parityBlock d slc = s.parityBlock d slc := by obtain ⟨x, rfl⟩ := h.alike.exists_dress; rfl
  unfold parityPick
  dsimp only
  rw [hp]
  cases s.parityBlock d slc with
  | some x => exact .inr ⟨_, _, _, h.alike, .refl s, rfl, rfl⟩
  | none =>
    dsimp only
    have hk := kept_allocBlock s d 5 slc none
    obtain ⟨hs, ht⟩ | ⟨b, u, v, huv, hs, ht⟩ := h.allocBlock d 5 slc none
    · rw [hs, ht]
      exact .inl ⟨rfl, rfl⟩
    · rw [hs] at hk
      rw [hs, ht]
      exact .inr ⟨_, u, v, huv, hk, rfl, rfl⟩

theorem agree_foldl_parityPick (slc : Bool) {s t : State} (h : Twin s t) (l : List Nat) :
    Agree (l.foldl (parityPick slc) (none, s)) (l.foldl (parityPick slc) (none, t)) ∧ Kept s (l.foldl (parityPick slc) (none, s)).2 := by
  induction l with
  | nil => exact ⟨⟨rfl, h.alike⟩, .refl s⟩
  | cons d l ih =>
    rw [List.foldl_cons, List.foldl_cons]
    obtain ⟨hs, ht⟩ | ⟨x, u, v, huv, hk, hs, ht⟩ := parityPick_cases slc h d
    · rw [hs, ht]
      exact ih
    · rw [hs, ht, foldl_parityPick_some, foldl_parityPick_some]
      exact ⟨⟨rfl, huv⟩, hk⟩

/-! ### Stripes (R273, R274) -/

/-- The dies of a channel that may hold the parity of a member's stripe. -/
def parityDies (s : State) (chan die : Nat) : List Nat := s.media.dies.filter fun d => d / 32 == chan && d != die && s.inService d

/-- The slots of an accumulator are taken. -/
def State.accSlots (s : State) (chan k : Nat) : State := s.each (List.range (pageSlots s)) fun s j => s.putSlot (stKey chan (k + j)) { acc := true }

/-- A stripe opens with the parity die-page that was found, if one was. -/
def stripeOpened (chan : Nat) (slc bg : Bool) (o : Option (Nat × Nat × Nat) × State) : State := match o with
  | (some (d, b, row), s) =>
    let t : Stripe := { slc := slc, bg := bg, parity := BitVec.ofNat 48 (d * 2 ^ 38 + b * 2 ^ 20 + row * 256) }
    { s with media := { s.media with stripes := sput chan t s.media.stripes } }
  | (none, s) => s

theorem openStripe_eq (s : State) (chan die : Nat) (slc bg : Bool) : s.openStripe chan die slc bg =
    (s.findSlots chan (pageSlots s)).map fun k => stripeOpened chan slc bg ((parityDies s chan die).foldl (parityPick slc) (none, s.accSlots chan k)) := by
  unfold State.openStripe
  dsimp only
  cases s.findSlots chan (pageSlots s) with
  | none => rfl
  | some k =>
    dsimp only [Option.map_some]
    generalize hf : List.foldl _ _ _ = o
    have ho : (parityDies s chan die).foldl (parityPick slc) (none, s.accSlots chan k) = o := hf
    rw [ho]
    obtain ⟨_ | x, u⟩ := o <;> rfl


theorem Twin.accSlots {s t : State} (h : Twin s t) (chan k : Nat) : Twin (s.accSlots chan k) (t.accSlots chan k) := by
  have hp : pageSlots t = pageSlots s := by obtain ⟨x, rfl⟩ := h.alike.exists_dress; rfl
  have hl (u : State) (l : List Nat) (d : Nat) : (u.each l fun s j => s.putSlot (stKey chan (k + j)) { acc := true }).lun d = u.lun d :=
    each_proj (p := (·.lun d)) (f := fun s j => s.putSlot (stKey chan (k + j)) { acc := true }) (fun _ _ => rfl) u l
  unfold State.accSlots
  rw [hp]
  refine ⟨h.alike.each (fun j g => g.plain (f := (·.putSlot (stKey chan (k + j)) { acc := true })) fun _ _ => rfl) _, fun d => ?_⟩
  rw [hl, hl]
  exact h.failed d

theorem kept_accSlots (s : State) (chan k : Nat) : Kept s (s.accSlots chan k) := 
  (Kept.refl s).each (f := fun s j => s.putSlot (stKey chan (k + j)) { acc := true }) (fun _ _ => .of_calm rfl) _

theorem kept_stripeOpened {s : State} (chan : Nat) (slc bg : Bool) {o : Option (Nat × Nat × Nat) × State} (h : Kept s o.2) :
    Kept s (stripeOpened chan slc bg o) := by
  obtain ⟨_ | x, u⟩ := o
  · exact h
  · exact h.calm rfl

theorem alike_stripeOpened (chan : Nat) (slc bg : Bool) {o p : Option (Nat × Nat × Nat) × State} (h : Agree o p) :
    Alike (stripeOpened chan slc bg o) (stripeOpened chan slc bg p) := by
  obtain ⟨x, u⟩ := o
  obtain ⟨y, v⟩ := p
  obtain ⟨rfl, h⟩ := h
  obtain _ | x := x
  · exact h
  · obtain ⟨y, rfl⟩ := h.exists_dress
    exact alike_dress _ y

/-- A stripe opens alike in twins, and what else it changes is kept. -/
theorem openStripe_twin {s t : State} (h : Twin s t) (chan die : Nat) (slc bg : Bool) :
    Option.Rel Alike (s.openStripe chan die slc bg) (t.openStripe chan die slc bg) ∧ ∀ u ∈ s.openStripe chan die slc bg, Kept s u := by
  have hf : t.findSlots chan (pageSlots t) = s.findSlots chan (pageSlots s) := by obtain ⟨x, rfl⟩ := h.alike.exists_dress; rfl
  have hd : parityDies t chan die = parityDies s chan die := by
    have hi := h.inService
    unfold parityDies
    simp only [hi]
    obtain ⟨x, rfl⟩ := h.alike.exists_dress
    rfl
  rw [openStripe_eq, openStripe_eq, hf, hd]
  cases s.findSlots chan (pageSlots s) with
  | none => exact ⟨.none, fun u hu => nomatch hu⟩
  | some k =>
    obtain ⟨ha, hk⟩ := agree_foldl_parityPick slc (h.accSlots chan k) (parityDies s chan die)
    refine ⟨.some (alike_stripeOpened chan slc bg ha), fun u hu => ?_⟩
    obtain rfl := Option.some.inj hu
    exact kept_stripeOpened _ _ _ ((kept_accSlots s chan k).trans hk)

/-- A codeword joins the stripe of a channel, if one is open and takes it. -/
def State.stripeJoins (s : State) (chan : Nat) (a : BitVec 48) (slc bg : Bool) : Option (Nat × State) :=
  match sget chan s.media.stripes with
  | none => some (0, s)
  | some t =>
    if t.members.contains (diePage a) then some (t.parity.toNat, s)
    else if t.closed then none
    else if t.slc != slc || t.bg != bg || t.members.any (fun m => (Pa.of m).die == (Pa.of a).die) || (Pa.of t.parity).die == (Pa.of a).die then none
    else
      let t := { t with members := t.members ++ [diePage a], running := t.running + 1 }
      let t := { t with closed := decide (maxMembers s ≤ t.members.length) }
      some (t.parity.toNat, { s with media := { s.media with stripes := sput chan t s.media.stripes } })

theorem joinStripe_eq (s : State) (chan : Nat) (a : BitVec 48) (slc bg : Bool) : s.joinStripe chan a slc bg =
    (match sget chan s.media.stripes with | some _ => some s | none => s.openStripe chan (Pa.of a).die slc bg).bind fun u => u.stripeJoins chan a slc bg := by
  unfold State.joinStripe
  dsimp only
  cases hs : sget chan s.media.stripes with
  | some y =>
    unfold State.stripeJoins
    simp only [hs, Option.bind_some]
  | none =>
    dsimp only
    cases s.openStripe chan (Pa.of a).die slc bg <;> rfl

theorem stripeJoins_alike {s t : State} (h : Alike s t) (chan : Nat) (a : BitVec 48) (slc bg : Bool) :
    Option.Rel Agree (s.stripeJoins chan a slc bg) (t.stripeJoins chan a slc bg) ∧ ∀ u ∈ s.stripeJoins chan a slc bg, Kept s u.2 := by
  obtain ⟨x, rfl⟩ := h.exists_dress
  unfold State.stripeJoins
  rw [show (s.dress x).media.stripes = s.media.stripes from rfl]
  cases sget chan s.media.stripes with
  | none => exact ⟨.some ⟨rfl, h⟩, fun u hu => by obtain rfl := Option.some.inj hu; exact .refl s⟩
  | some y =>
    dsimp only
    split
    · exact ⟨.some ⟨rfl, h⟩, fun u hu => by obtain rfl := Option.some.inj hu; exact .refl s⟩
    · split
      · exact ⟨.none, fun u hu => nomatch hu⟩
      · split
        · exact ⟨.none, fun u hu => nomatch hu⟩
        · refine ⟨.some ⟨rfl, alike_dress _ x⟩, fun u hu => ?_⟩
          obtain rfl := Option.some.inj hu
          exact .of_calm rfl

theorem joinStripe_twin {s t : State} (h : Twin s t) (chan : Nat) (a : BitVec 48) (slc bg : Bool) :
    Option.Rel Agree (s.joinStripe chan a slc bg) (t.joinStripe chan a slc bg) ∧ ∀ u ∈ s.joinStripe chan a slc bg, Kept s u.2 := by
  rw [joinStripe_eq, joinStripe_eq]
  have hs : sget chan t.media.stripes = sget chan s.media.stripes := by obtain ⟨x, rfl⟩ := h.alike.exists_dress; rfl
  rw [hs]
  cases sget chan s.media.stripes with
  | some y => exact stripeJoins_alike h.alike ..
  | none =>
    dsimp only
    obtain ⟨hr, hk⟩ := openStripe_twin h chan (Pa.of a).die slc bg
    generalize s.openStripe chan (Pa.of a).die slc bg = o at hr hk
    generalize t.openStripe chan (Pa.of a).die slc bg = p at hr
    cases hr with
    | none => exact ⟨.none, fun u hu => nomatch hu⟩
    | some huv =>
      obtain ⟨hr, hj⟩ := stripeJoins_alike huv chan a slc bg
      exact ⟨hr, fun w hw => (hk _ rfl).trans (hj w hw)⟩

end Sys2Proof.Machine
end

section
/-! SUPPORT. The load of an NPG from the pool, the staging memory and the accumulator (R515). -/
namespace Sys2Proof.Machine

/-- The accumulator that a source joins takes its codeword, if it names one. -/
def State.npgJoined (s : State) (r : NandReq) (slc : Bool) (x : Src) : Option (Nat × State) := match x.join with
  | none => some (0, s)
  | some c => s.joinStripe c r.addr slc (r.kind != 0)

/-- The codeword `k` of an NPG. -/
def npgWord (s : State) (r : NandReq) (x : Src) (first k : Nat) (data : Block) (oob self : Nat) : Latched :=
  let p := Pa.of r.addr
  { pos := first + k, page := p.page, payload := mkPayload data oob self (parPrev s p.die p.block p.page (first + k)), join := x.join }

def State.loadPool (s : State) (r : NandReq) (slc : Bool) (x : Src) : Option (Except Nat (List Latched × State)) :=
  match s.buf x.handle with
  | none => some (.error stDenied)
  | some bf => if s.poisoned 8 x.handle then some (.error stBusError) else match s.npgJoined r slc x with
    | none => none
    | some (self, t) => match bufMerged s x.handle bf with
      | none => some (.error stUncorrectable)
      | some (data, o) => some (.ok ([{ npgWord t r x ((Pa.of r.addr).pos s) 0 data o.word self with buf := some x.handle }], t))

/-- A staging slot of a source. -/
def stagedSlot (s : State) (x : Src) (k : Nat) : Option Slot := sget (stKey x.chan (x.slot + k)) s.media.slots

/-- The status of a staging source that cannot be loaded. -/
def stagingStatus (s : State) (x : Src) (n : Nat) : Option Nat :=
  if (List.range n).any (fun k => match stagedSlot s x k with | some y => y.spec | none => false) then some stSpeculative
  else if (List.range n).any (fun k => match stagedSlot s x k with | some y => y.data.isNone | none => true) then some stDenied
  else if (List.range n).any (fun k => s.poisoned 1 (stKey x.chan (x.slot + k))) then some stBusError
  else none

def State.loadStaging (s : State) (r : NandReq) (slc : Bool) (x : Src) : Option (Except Nat (List Latched × State)) :=
  match stagingStatus s x (Pa.of r.addr).count with
  | some e => some (.error e)
  | none => (s.npgJoined r slc x).map fun j =>
    .ok ((List.range (Pa.of r.addr).count).filterMap fun k => ((stagedSlot s x k).bind (·.data)).map fun d =>
        npgWord j.2 r x ((Pa.of r.addr).pos s) k (Payload.data d) (if r.kind = 0 then Payload.oob20 d else j.2.movedOob d) j.1,
      j.2.each (List.range (Pa.of r.addr).count) fun s k => s.freeSlot (stKey x.chan (x.slot + k)))

def State.loadParity (s : State) (r : NandReq) : Option (Except Nat (List Latched × State)) :=
  match sget (Pa.of r.addr).channel s.media.stripes with
  | none => some (.error stDenied)
  | some t =>
    if diePage r.addr ≠ diePage t.parity then some (.error stAddress)
    else some (.ok ((List.range (Pa.of r.addr).count).map fun k =>
      { pos := (Pa.of r.addr).pos s + k, page := (Pa.of r.addr).page, payload := parityPayload s t ((Pa.of r.addr).pos s + k) }, s))

theorem npgLoad_pool {r : NandReq} {b : Word64} {x : Src} (h : Src.of b (Pa.of r.addr).count = some x) (hx : x.space = 1) (s : State) (slc : Bool) :
    s.npgLoad r slc b = s.loadPool r slc x := by
  unfold State.npgLoad
  dsimp only
  rw [h]
  dsimp only
  rw [hx]
  rfl

theorem npgLoad_staging {r : NandReq} {b : Word64} {x : Src} (h : Src.of b (Pa.of r.addr).count = some x) (hx : x.space = 2) (s : State) (slc : Bool) :
    s.npgLoad r slc b = s.loadStaging r slc x := by
  unfold State.npgLoad
  dsimp only
  rw [h]
  dsimp only
  split
  · next e => exact absurd (hx.symm.trans e) (by decide)
  · unfold State.loadStaging
    split
    · next h1 =>
      have e : stagingStatus s x (Pa.of r.addr).count = some stSpeculative := if_pos h1
      rw [e]
    · next h1 =>
      split
      · next h2 =>
        have e : stagingStatus s x (Pa.of r.addr).count = some stDenied := (if_neg h1).trans (if_pos h2)
        rw [e]
      · next h2 =>
        split
        · next h3 =>
          have e : stagingStatus s x (Pa.of r.addr).count = some stBusError := (if_neg h1).trans ((if_neg h2).trans (if_pos h3))
          rw [e]
        · next h3 =>
          have e : stagingStatus s x (Pa.of r.addr).count = none := (if_neg h1).trans ((if_neg h2).trans (if_neg h3))
          rw [e]
          obtain ⟨space, handle, chan, slot, join⟩ := x
          unfold State.npgJoined
          cases join with
          | none => rfl
          | some c =>
            dsimp only
            cases s.joinStripe c r.addr slc (r.kind != 0) <;> rfl
  · next e => exact absurd hx e

theorem npgLoad_parity {r : NandReq} {b : Word64} {x : Src} (h : Src.of b (Pa.of r.addr).count = some x) (h1 : x.space ≠ 1) (h2 : x.space ≠ 2) (s : State) (slc : Bool) :
    s.npgLoad r slc b = s.loadParity r := by
  unfold State.npgLoad
  dsimp only
  rw [h]
  dsimp only
  split
  · next e => exact absurd e h1
  · next e => exact absurd e h2
  · rfl

theorem calm_freeSlot (s : State) (k : Nat) : (s.freeSlot k).calm = s.calm := by
  unfold State.freeSlot
  split
  · rfl
  · split
    · rfl
    · split <;> rfl

/-- What a load gives, without its state. -/
def loaded (o : Option (Except Nat (List Latched × State))) : Option (Except Nat (List Latched)) := o.map (·.map Prod.fst)

/-- A load's status fits its record, and what it changes is kept from the frame. -/
def LoadOk (s : State) (o : Option (Except Nat (List Latched × State))) : Prop := ∀ e ∈ o, match e with
  | .error st => st < 65536
  | .ok (_, t) => Kept s t

theorem npgJoined_twin {s t : State} (h : Twin s t) (r : NandReq) (slc : Bool) (x : Src) :
    Option.Rel Agree (s.npgJoined r slc x) (t.npgJoined r slc x) ∧ ∀ u ∈ s.npgJoined r slc x, Kept s u.2 := by
  unfold State.npgJoined
  cases x.join with
  | none => exact ⟨.some ⟨rfl, h.alike⟩, fun u hu => by obtain rfl := Option.some.inj hu; exact .refl s⟩
  | some c => exact joinStripe_twin h ..

theorem loadPool_twin {s t : State} (h : Twin s t) (r : NandReq) (slc : Bool) (x : Src) :
    loaded (t.loadPool r slc x) = loaded (s.loadPool r slc x) ∧ LoadOk s (s.loadPool r slc x) := by
  obtain ⟨hr, hk⟩ := npgJoined_twin h r slc x
  obtain ⟨y, hy⟩ := h.alike.exists_dress
  have hbuf : t.buf x.handle = s.buf x.handle := by rw [hy]; rfl
  have hp : t.poisoned 8 x.handle = s.poisoned 8 x.handle := by rw [hy]; rfl
  have hm (bf : Buf) : bufMerged t x.handle bf = bufMerged s x.handle bf := by rw [hy]; rfl
  have hpos : (Pa.of r.addr).pos t = (Pa.of r.addr).pos s := by rw [hy]; rfl
  unfold State.loadPool
  rw [hbuf, hp, hpos]
  cases s.buf x.handle with
  | none => exact ⟨rfl, fun e he => by obtain rfl := Option.some.inj he; exact (by decide : stDenied < 65536)⟩
  | some bf =>
    dsimp only
    rw [hm]
    split
    · exact ⟨rfl, fun e he => by obtain rfl := Option.some.inj he; exact (by decide : stBusError < 65536)⟩
    · generalize s.npgJoined r slc x = o at hr hk
      generalize t.npgJoined r slc x = p at hr
      cases hr with
      | none => exact ⟨rfl, fun e he => nomatch he⟩
      | some huv =>
        rename_i u v
        obtain ⟨n, u⟩ := u
        obtain ⟨m, v⟩ := v
        obtain ⟨rfl, huv⟩ := huv
        dsimp only
        cases bufMerged s x.handle bf with
        | none => exact ⟨rfl, fun e he => by obtain rfl := Option.some.inj he; exact (by decide : stUncorrectable < 65536)⟩
        | some q =>
          refine ⟨?_, fun e he => by obtain rfl := Option.some.inj he; exact hk _ rfl⟩
          obtain ⟨z, rfl⟩ := huv.exists_dress
          rfl

theorem loadStaging_twin {s t : State} (h : Twin s t) (r : NandReq) (slc : Bool) (x : Src) :
    loaded (t.loadStaging r slc x) = loaded (s.loadStaging r slc x) ∧ LoadOk s (s.loadStaging r slc x) := by
  obtain ⟨hr, hk⟩ := npgJoined_twin h r slc x
  obtain ⟨y, hy⟩ := h.alike.exists_dress
  have hst (n : Nat) : stagingStatus t x n = stagingStatus s x n := by rw [hy]; rfl
  have hsl : stagedSlot t x = stagedSlot s x := by rw [hy]; rfl
  have hpos : (Pa.of r.addr).pos t = (Pa.of r.addr).pos s := by rw [hy]; rfl
  unfold State.loadStaging
  rw [hst, hpos, hsl]
  have hlt : ∀ e ∈ stagingStatus s x (Pa.of r.addr).count, e < 65536 := by
    unfold stagingStatus
    intro e he
    split at he
    · obtain rfl := Option.some.inj he; decide
    · split at he
      · obtain rfl := Option.some.inj he; decide
      · split at he
        · obtain rfl := Option.some.inj he; decide
        · cases he
  cases hs : stagingStatus s x (Pa.of r.addr).count with
  | some e => exact ⟨rfl, fun e' he => by obtain rfl := Option.some.inj he; exact hlt _ hs⟩
  | none =>
    dsimp only
    generalize s.npgJoined r slc x = o at hr hk
    generalize t.npgJoined r slc x = p at hr
    cases hr with
    | none => exact ⟨rfl, fun e he => nomatch he⟩
    | some huv =>
      rename_i u v
      obtain ⟨n, u⟩ := u
      obtain ⟨m, v⟩ := v
      obtain ⟨rfl, huv⟩ := huv
      refine ⟨?_, fun e he => ?_⟩
      · obtain ⟨z, rfl⟩ := huv.exists_dress
        rfl
      · obtain rfl := Option.some.inj he
        exact (hk _ rfl).each (fun w k => .of_calm (calm_freeSlot ..)) _

theorem loadParity_twin {s t : State} (h : Twin s t) (r : NandReq) : loaded (t.loadParity r) = loaded (s.loadParity r) ∧ LoadOk s (s.loadParity r) := by
  obtain ⟨y, rfl⟩ := h.alike.exists_dress
  unfold State.loadParity
  rw [show (s.dress y).media.stripes = s.media.stripes from rfl]
  cases sget (Pa.of r.addr).channel s.media.stripes with
  | none => exact ⟨rfl, fun e he => by obtain rfl := Option.some.inj he; exact (by decide : stDenied < 65536)⟩
  | some w =>
    dsimp only
    split
    · exact ⟨rfl, fun e he => by obtain rfl := Option.some.inj he; exact (by decide : stAddress < 65536)⟩
    · exact ⟨rfl, fun e he => by obtain rfl := Option.some.inj he; exact .refl s⟩

theorem npgLoad_twin {s t : State} (h : Twin s t) (r : NandReq) (slc : Bool) (b : Word64) :
    loaded (t.npgLoad r slc b) = loaded (s.npgLoad r slc b) ∧ LoadOk s (s.npgLoad r slc b) := by
  cases hx : Src.of b (Pa.of r.addr).count with
  | none =>
    have he (u : State) : u.npgLoad r slc b = some (.error stAddress) := by
      unfold State.npgLoad
      dsimp only
      rw [hx]
    rw [he, he]
    exact ⟨rfl, fun e he => by obtain rfl := Option.some.inj he; exact (by decide : stAddress < 65536)⟩
  | some x =>
    by_cases h1 : x.space = 1
    · rw [npgLoad_pool hx h1, npgLoad_pool hx h1]
      exact loadPool_twin h r slc x
    · by_cases h2 : x.space = 2
      · rw [npgLoad_staging hx h2, npgLoad_staging hx h2]
        exact loadStaging_twin h r slc x
      · rw [npgLoad_parity hx h1 h2, npgLoad_parity hx h1 h2]
        exact loadParity_twin h r

end Sys2Proof.Machine
end

section
/-! SUPPORT. An NPG into the unit of its LUN: its status, its codewords, or the start of the program (R515). -/
namespace Sys2Proof.Machine

/-- The end of a request of a context is the end of its tag. -/
theorem reqDone_of_ctx {i : CtxId} (hi : i.valid = true) {r : NandReq} {tag : Nat} (hc : r.ctx = some (i.key, tag)) (hs : r.spec = false) (s : State) (st a b : Nat) :
    ∃ op, s.reqDone r st a b = s.tagDone i tag r.crec op st a b := by
  unfold State.reqDone
  extract_lets op
  clear_value op
  rw [hc]
  dsimp only
  rw [hs, CtxId.ofKey_key hi]
  exact ⟨op, rfl⟩

theorem reqDone_ended {i : CtxId} (hi : i.valid = true) {r : NandReq} {tag : Nat} (hc : r.ctx = some (i.key, tag)) (hs : r.spec = false) {s : State} {d : BitVec 5} {pc : Nat}
    (ht : (s.ctx i).Took d tag pc) (htag : tag < 16) {st : Nat} (hst : st < 65536) (a b : Nat) : Ended (s.reqDone r st a b) i d tag pc r.crec st := by
  obtain ⟨op, h⟩ := reqDone_of_ctx hi hc hs s st a b
  rw [h]
  exact tagDone_ended ht htag r.crec op hst a b

/-- A LUN whose unit waits for its next NPG serves nothing. -/
theorem lunNext_of_waiting {s : State} {die : Nat} {u : Unit_} (hu : (s.lun die).unit = some u) (hq : (s.lun die).queue = []) (fuel : Nat) : s.lunNext die fuel = s := by
  cases fuel with
  | zero => rfl
  | succ n =>
    rw [State.lunNext]
    dsimp only
    rw [hu, hq]
    rfl

/-- Service goes on after an NPG that was loaded; one that waits for the accumulator closes the stripe that cannot take it (R274). -/
def State.npgServed (s : State) (die fuel : Nat) (r : NandReq) (b : Word64) : Option State → State
  | some t => t.lunNext die fuel
  | none => match Src.of b (Pa.of r.addr).count with
    | some x => (match x.join with | some c => s.stripeBlocks c | none => s)
    | none => s

theorem npgServed_some (s : State) (die fuel : Nat) (r : NandReq) (b : Word64) (t : State) : s.npgServed die fuel r b (some t) = t.lunNext die fuel := rfl

/-- The only request of a LUN is an NPG of its unit. -/
theorem lunNext_of_npg {s : State} {die : Nat} {u : Unit_} {r : NandReq} {slc last : Bool} {b : Word64} (hu : (s.lun die).unit = some u) (hq : (s.lun die).queue = [r])
    (hop : r.op = .npg slc last b) (fuel : Nat) : s.lunNext die (fuel + 1) =
      s.npgServed die fuel r b ((s.setLun die { s.lun die with queue := [] }).loadNpg die u r slc last b) := by
  rw [State.lunNext]
  dsimp only
  rw [hu, hq]
  dsimp only
  rw [List.find?_cons_of_pos (by rw [hop])]
  dsimp only
  rw [hop, List.erase_cons_head]
  rfl

theorem loadNpg_error {s : State} {r : NandReq} {slc : Bool} {b : Word64} {e : Nat} (h : s.npgLoad r slc b = some (.error e)) (die : Nat) (u : Unit_) (last : Bool) :
    s.loadNpg die u r slc last b = some (s.reqDone r e 0 0) := by
  unfold State.loadNpg
  rw [h]

theorem loadNpg_ok {s z : State} {r : NandReq} {slc : Bool} {b : Word64} {y : List Latched} (h : s.npgLoad r slc b = some (.ok (y, z))) (die : Nat) (u : Unit_) :
    ∃ v : Unit_, v.loaded = u.loaded ++ y ∧
      s.loadNpg die u r slc false b = some (((z.accumulateAll y).setLun die { (z.accumulateAll y).lun die with unit := some v }).reqDone r stOk 0 0) ∧
      s.loadNpg die u r slc true b = some ((z.accumulateAll y).startProgram die { v with ctx := r.ctx, crec := r.crec }) := by
  unfold State.loadNpg
  rw [h]
  exact ⟨{ u with loaded := u.loaded ++ y, parity := _ }, rfl, rfl, rfl⟩

theorem calm_accumulateAll (s : State) (l : List Latched) : (s.accumulateAll l).calm = s.calm := by
  unfold State.accumulateAll
  refine calm_each (fun t x => ?_) s l
  cases x.join with
  | none => rfl
  | some c =>
    dsimp only
    unfold State.accumulate
    split <;> rfl

theorem lun_startProgram (s : State) (die : Nat) (u : Unit_) : (s.startProgram die u).lun die =
    { s.lun die with run := .program u, unit := none, suspends := 0, suspended := false, suspBy := none, since := s.ttu.elapsed } := lun_setLun_same ..

/-- A context that took its tag is kept so, with the tag in use. -/
theorem Kept.took {s t : State} (h : Kept s t) {i : CtxId} {d : BitVec 5} {tag pc : Nat} (ht : (s.ctx i).Took d tag pc) :
    (t.ctx i).Took d tag pc ∧ (t.ctx i).tags = (s.ctx i).tags := by
  obtain ⟨e, he⟩ := h.ctx i ht.1
  rw [he]
  exact ⟨ht.congr rfl rfl rfl, rfl⟩

theorem Kept.lun {s t : State} (h : Kept s t) (die : Nat) : t.lun die = s.lun die := by
  unfold State.lun
  rw [show t.media.luns = s.media.luns from congrArg Ticks.luns h.ticks]

/-- The LUN of a request as it serves the request alone. -/
def State.unqueued (s : State) (r : NandReq) : State :=
  (s.queued r).setLun (Pa.of r.addr).die { (s.queued r).lun (Pa.of r.addr).die with queue := [] }

theorem lun_setLun_ne {d e : Nat} (h : e ≠ d) (s : State) (l : Lun) : (s.setLun d l).lun e = s.lun e := sgetD_sputD_ne h ..

theorem lun_unqueued (s : State) {r : NandReq} (hq : (s.lun (Pa.of r.addr).die).queue = []) (d : Nat) : (s.unqueued r).lun d = s.lun d := by
  unfold State.unqueued State.queued
  by_cases hd : d = (Pa.of r.addr).die
  · rw [hd, lun_setLun_same, lun_setLun_same]
    dsimp only
    rw [← hq]
  · rw [lun_setLun_ne hd, lun_setLun_ne hd]

theorem Twin.symm {s t : State} (h : Twin s t) : Twin t s := ⟨h.alike.symm, fun d => (h.failed d).symm⟩

/-- A state that differs from another in contexts alone is its twin, and so it is once it serves a request. -/
theorem twin_unqueued {s u : State} (h : u = { s with zyn := { s.zyn with ctxs := u.zyn.ctxs } }) {r : NandReq} (hq : (u.lun (Pa.of r.addr).die).queue = []) :
    Twin s (u.unqueued r) := by
  refine ⟨?_, fun d => ?_⟩
  · rw [h]
    rfl
  · rw [lun_unqueued u hq, h]
    rfl

section
variable {s u : State} (hu : u = { s with zyn := { s.zyn with ctxs := u.zyn.ctxs } }) {r : NandReq} {slc last : Bool} {b : Word64} {w : Unit_}
  (hpad : padBurst u (Pa.of r.addr).die = false) (hunit : (u.lun (Pa.of r.addr).die).unit = some w) (hq : (u.lun (Pa.of r.addr).die).queue = [])
  (hop : r.op = .npg slc last b)

include hpad hunit hq hop in
theorem enqueue_npg : u.enqueue r = (u.queued r).npgServed (Pa.of r.addr).die 1 r b ((u.unqueued r).loadNpg (Pa.of r.addr).die w r slc last b) := by
  rw [enqueue_eq_lunNext hpad hq]
  have hl := lun_queued u r
  exact lunNext_of_npg (by rw [hl]; exact hunit) (by rw [hl, hq]; rfl) hop 1

include hu hq in
/-- What an NPG loads, and the state it leaves: the LUNs and the context are as they were, but for events. -/
theorem npgLoad_unqueued {y : List Latched} {z : State} (h : s.npgLoad r slc b = some (.ok (y, z))) :
    ∃ v, (u.unqueued r).npgLoad r slc b = some (.ok (y, v)) ∧ Kept (u.unqueued r) (v.accumulateAll y) := by
  have hw := twin_unqueued hu hq
  obtain ⟨hl, -⟩ := npgLoad_twin hw r slc b
  obtain ⟨-, hok⟩ := npgLoad_twin hw.symm r slc b
  rw [h] at hl
  generalize (u.unqueued r).npgLoad r slc b = o at hl hok
  obtain _ | _ | ⟨x, v⟩ := o
  · cases hl
  · injection hl with hl; cases hl
  · obtain rfl : x = y := by injection hl with hl; injection hl
    exact ⟨v, rfl, (hok _ rfl).calm (calm_accumulateAll ..)⟩

variable {i : CtxId} (hi : i.valid = true) {tag : Nat} (hc : r.ctx = some (i.key, tag)) (hs : r.spec = false) {d : BitVec 5} {pc : Nat}
  (ht : (u.ctx i).Took d tag pc) (htag : tag < 16)
include hu hpad hunit hq hop hi hc hs ht htag

/-- An NPG that cannot be loaded ends with its status. -/
theorem enqueue_npg_error {e : Nat} (h : s.npgLoad r slc b = some (.error e)) : Ended (u.enqueue r) i d tag pc r.crec e := by
  obtain ⟨hl, hok⟩ := npgLoad_twin (twin_unqueued hu hq) r slc b
  rw [h] at hl hok
  have hload : (u.unqueued r).npgLoad r slc b = some (.error e) := by
    generalize (u.unqueued r).npgLoad r slc b = o at hl
    obtain _ | _ | x := o
    · cases hl
    · obtain rfl : _ = e := by injection hl with hl; injection hl
      rfl
    · injection hl with hl; cases hl
  rw [enqueue_npg hpad hunit hq hop, loadNpg_error hload, npgServed_some]
  have hd := (reqDone_offZyn (u.unqueued r) r e 0 0).lun (Pa.of r.addr).die
  rw [lun_unqueued u hq] at hd
  rw [lunNext_of_waiting (u := w) (by rw [hd]; exact hunit) (by rw [hd]; exact hq)]
  exact reqDone_ended hi hc hs (s := u.unqueued r) ht htag (hok _ rfl) 0 0

/-- An NPG that is not the last of its unit ends once it is loaded. -/
theorem enqueue_npg_more {y : List Latched} {z : State} (hl : last = false) (h : s.npgLoad r slc b = some (.ok (y, z))) :
    Ended (u.enqueue r) i d tag pc r.crec 0 ∧ ∃ v, ((u.enqueue r).lun (Pa.of r.addr).die).unit = some v ∧ v.loaded = w.loaded ++ y := by
  obtain ⟨x, hx, hk⟩ := npgLoad_unqueued hu hq h
  obtain ⟨v, hv, hload, -⟩ := loadNpg_ok hx (Pa.of r.addr).die w
  subst hl
  rw [enqueue_npg hpad hunit hq hop, hload, npgServed_some]
  generalize x.accumulateAll y = x at hk
  have hlun : x.lun (Pa.of r.addr).die = u.lun (Pa.of r.addr).die := (hk.lun _).trans (lun_unqueued u hq _)
  have htook := (hk.took (s := u.unqueued r) ht).1
  generalize hm : x.setLun _ _ = m
  have hml : m.lun (Pa.of r.addr).die = { x.lun (Pa.of r.addr).die with unit := some v } := by rw [← hm, lun_setLun_same]
  have hmt : (m.ctx i).Took d tag pc := by rw [← hm]; exact htook
  have hd := (reqDone_offZyn m r stOk 0 0).lun (Pa.of r.addr).die
  rw [lunNext_of_waiting (u := v) (by rw [hd, hml]) (by rw [hd, hml, hlun]; exact hq)]
  exact ⟨reqDone_ended hi hc hs hmt htag (by decide) 0 0, v, by rw [hd, hml], hv⟩

omit hi hc hs htag in
/-- The last NPG of a unit starts its program. -/
theorem enqueue_npg_last {y : List Latched} {z : State} (hl : last = true) (hf : (u.lun (Pa.of r.addr).die).failed = false)
    (h : s.npgLoad r slc b = some (.ok (y, z))) :
    ((u.enqueue r).ctx i).Took d tag pc ∧ ((u.enqueue r).ctx i).tags = (u.ctx i).tags ∧
    ∃ v, ((u.enqueue r).lun (Pa.of r.addr).die).run = .program v ∧ v.loaded = w.loaded ++ y ∧ ((u.enqueue r).lun (Pa.of r.addr).die).unit = none := by
  obtain ⟨x, hx, hk⟩ := npgLoad_unqueued hu hq h
  obtain ⟨v, hv, -, hload⟩ := loadNpg_ok hx (Pa.of r.addr).die w
  subst hl
  rw [enqueue_npg hpad hunit hq hop, hload, npgServed_some]
  generalize x.accumulateAll y = x at hk
  have hlun : x.lun (Pa.of r.addr).die = u.lun (Pa.of r.addr).die := (hk.lun _).trans (lun_unqueued u hq _)
  obtain ⟨htook, htags⟩ := hk.took (s := u.unqueued r) ht
  have hml := lun_startProgram x (Pa.of r.addr).die { v with ctx := r.ctx, crec := r.crec }
  generalize hm : x.startProgram _ _ = m at hml
  have hmc : m.ctx i = x.ctx i := by rw [← hm]; rfl
  have hmq : (m.lun (Pa.of r.addr).die).queue = [] := (congrArg Lun.queue hml).trans ((congrArg Lun.queue hlun).trans hq)
  have hmf : (m.lun (Pa.of r.addr).die).failed = false := (congrArg Lun.failed hml).trans ((congrArg Lun.failed hlun).trans hf)
  have hmu : (m.lun (Pa.of r.addr).die).unit = none := congrArg Lun.unit hml
  rw [lunNext_of_quiet hmu hmf (nextRead_of_empty _ _ hmq), hmc]
  exact ⟨htook, htags, _, congrArg Lun.run hml, hv, hmu⟩

end

end Sys2Proof.Machine
end

section
/-! SUPPORT. NRD, NPG, NER, NSUS and NRES (R131, R132, R515): their common traps, and what each does with its tag. -/
namespace Sys2Proof.Machine

theorem exec_nrd (i : CtxId) (d a : BitVec 5) (soft : BitVec 2) (set kind : BitVec 4) (crec : BitVec 16) (s : State) :
    exec (.nrd i d a soft set kind crec) s = execNrd i d a soft set kind crec s := rfl
theorem exec_npg (i : CtxId) (d a b : BitVec 5) (kind : BitVec 4) (qlc last : Bool) (crec : BitVec 16) (s : State) :
    exec (.npg i d a b kind qlc last crec) s = execNpg i d a b kind qlc last crec s := rfl
theorem exec_ner (i : CtxId) (d a : BitVec 5) (kind : BitVec 4) (crec : BitVec 16) (s : State) : exec (.ner i d a kind crec) s = execNer i d a kind crec s := rfl
theorem exec_nsus (i : CtxId) (d a : BitVec 5) (w : SusWord) (s : State) : exec (.nsus i d a w) s = execNsus i d a w s := rfl
theorem exec_nres (i : CtxId) (d a : BitVec 5) (w : SusWord) (s : State) : exec (.nres i d a w) s = execNres i d a w s := rfl

theorem Gives.imp {s : State} {x : Instr} {P Q : State → Prop} (h : Gives s x P) (hpq : ∀ t, P t → Q t) : Gives s x Q := by
  obtain ⟨t, ht, hp⟩ := h
  exact ⟨t, ht, hpq t hp⟩

/-! ### Common traps (R129, R131) -/

/-- The physical address that operand a of a NAND operation gives. -/
def Ctx.nandPa (c : Ctx) (a : BitVec 5) : Pa := Pa.of ((c.reg a).extractLsb' 0 48)

/-- The LUN that a suspend or a resume names: its target and LUN count alone. -/
def susDie (s : State) (i : CtxId) (a : BitVec 5) : Nat := i.eng * 32 + ((s.ctx i).nandPa a).die % 32

/-- The operations of the NAND. -/
def nandOps (i : CtxId) (d a b : BitVec 5) (kind set : BitVec 4) (soft : BitVec 2) (qlc last : Bool) (crec : BitVec 16) : List Instr :=
  [.nrd i d a soft set kind crec, .npg i d a b kind qlc last crec, .ner i d a kind crec, .nsus i d a ⟨kind, crec⟩, .nres i d a ⟨kind, crec⟩]

/-- An operation that traps at an address above 48 bits, and at an undefined kind. -/
def Guarded (i : CtxId) (a : BitVec 5) (kind : BitVec 4) (k : Ctx → Nat → State → State) : Prop := ∀ c t u,
  (paOperand (c.reg a) = none → k c t u = u.trap i cIllegal c.pc (c.reg a)) ∧
  (∀ p, paOperand (c.reg a) = some p → 8 ≤ kind.toNat → k c t u = u.trap i cIllegal c.pc)

theorem exec_nandOp {i : CtxId} {d a b : BitVec 5} {kind set : BitVec 4} {soft : BitVec 2} {qlc last : Bool} {crec : BitVec 16} {x : Instr}
    (hx : x ∈ nandOps i d a b kind set soft qlc last crec) (s : State) : ∃ k, exec x s = s.tagged i pSeq d crec k ∧ Guarded i a kind k := by
  simp only [nandOps, List.mem_cons, List.not_mem_nil, or_false] at hx
  obtain rfl | rfl | rfl | rfl | rfl := hx
  · rw [exec_nrd]
    refine ⟨_, rfl, fun c t u => ⟨fun h => by rw [h], fun p h hk => ?_⟩⟩
    rw [h]
    exact if_pos hk
  · rw [exec_npg]
    refine ⟨_, rfl, fun c t u => ⟨fun h => by rw [h], fun p h hk => ?_⟩⟩
    rw [h]
    exact if_pos (by rw [decide_eq_true hk]; rfl)
  · rw [exec_ner]
    refine ⟨_, rfl, fun c t u => ⟨fun h => by rw [h], fun p h hk => ?_⟩⟩
    rw [h]
    exact if_pos hk
  · rw [exec_nsus]
    refine ⟨_, rfl, fun c t u => ⟨fun h => by rw [h], fun p h hk => ?_⟩⟩
    rw [h]
    exact if_pos hk
  · rw [exec_nres]
    refine ⟨_, rfl, fun c t u => ⟨fun h => by rw [h], fun p h hk => ?_⟩⟩
    rw [h]
    exact if_pos hk

theorem paOperand_none {w : Word64} (h : 2 ^ 48 ≤ w.toNat) : paOperand w = none := if_neg (Nat.not_lt.2 h)

theorem paOperand_some {w : Word64} (h : w.toNat < 2 ^ 48) : paOperand w = some (w.extractLsb' 0 48) := by
  unfold paOperand
  rw [if_pos h]
  congr 1

theorem pSeq_of_seq {i : CtxId} (hcls : i.cls = .seq) : pSeq i.cls = true := by rw [hcls]; rfl

section
variable {s : State} {i : CtxId} (hcls : i.cls = .seq) (hp : PlainTrap s i)
include hcls hp

/-- A trap of a tagged operation that has not taken its tag. -/
theorem trapped_past {cause : Nat} (hlt : cause < 256) (addr : Word64) :
    Trapped s ((s.setCtx i ((s.ctx i).past 2 1)).trap i cause (s.ctx i).pc addr) i cause (s.ctx i).pc addr :=
  trapped_of_plain hp hcls rfl (by rw [ctx_setCtx_same]; exact sameTask_past _) hlt _ _

/-- A trap of a tagged operation that has taken its tag. -/
theorem trapped_tagTaken (d : BitVec 5) (tag : Nat) {cause : Nat} (hlt : cause < 256) (addr : Word64) :
    Trapped s ((s.tagTaken i d tag).trap i cause (s.ctx i).pc addr) i cause (s.ctx i).pc addr :=
  trapped_of_plain hp hcls rfl (sameTask_tagTaken ..) hlt _ _
end

section
variable {s : State} {i : CtxId} (hi : Issues s i 2) (hcls : i.cls = .seq)
include hi hcls

section
variable {d a b : BitVec 5} {kind set : BitVec 4} {soft : BitVec 2} {qlc last : Bool} {crec : BitVec 16} {x : Instr}
  (hx : x ∈ nandOps i d a b kind set soft qlc last crec) (hp : PlainTrap s i)
include hx hp

theorem nandOp_traps_badRecord (hc : crecOk crec = false) : Traps s i x 0x07 (s.ctx i).pc (BitVec.ofNat 64 crec.toNat) := by
  obtain ⟨k, hk, -⟩ := exec_nandOp hx s
  exact ⟨_, hk.trans (tagged_of_badRecord hi (pSeq_of_seq hcls) d crec k hc), trapped_past hcls hp (by decide) _⟩

theorem nandOp_traps_noTag (hc : crecOk crec = true) (ht : (s.ctx i).freeTag = none) : Traps s i x 0x09 (s.ctx i).pc 0 := by
  obtain ⟨k, hk, -⟩ := exec_nandOp hx s
  exact ⟨_, hk.trans (tagged_of_noTag hi (pSeq_of_seq hcls) d crec k hc ht), trapped_past hcls hp (by decide) _⟩

variable (hc : crecOk crec = true) {tag : Nat} (ht : (s.ctx i).freeTag = some tag)
include hc ht

theorem nandOp_traps_address (ha : 2 ^ 48 ≤ ((s.ctx i).reg a).toNat) : Traps s i x 0x04 (s.ctx i).pc ((s.ctx i).reg a) := by
  obtain ⟨k, hk, hg⟩ := exec_nandOp hx s
  refine ⟨_, hk.trans (tagged_of_tag hi (pSeq_of_seq hcls) d crec k hc ht), ?_⟩
  rw [(hg _ _ _).1 (paOperand_none ha)]
  exact trapped_tagTaken hcls hp d tag (by decide) _

theorem nandOp_traps_kind (ha : ((s.ctx i).reg a).toNat < 2 ^ 48) (hkind : 8 ≤ kind.toNat) : Traps s i x 0x04 (s.ctx i).pc 0 := by
  obtain ⟨k, hk, hg⟩ := exec_nandOp hx s
  refine ⟨_, hk.trans (tagged_of_tag hi (pSeq_of_seq hcls) d crec k hc ht), ?_⟩
  rw [(hg _ _ _).2 _ (paOperand_some ha) hkind]
  exact trapped_tagTaken hcls hp d tag (by decide) _

end

/-! ### The operations of a legal address and kind -/

variable {a d : BitVec 5} {kind : BitVec 4} {crec : BitVec 16} (hc : crecOk crec = true) {tag : Nat} (ht : (s.ctx i).freeTag = some tag)
  (ha : ((s.ctx i).reg a).toNat < 2 ^ 48) (hkind : kind.toNat < 8)
include hc ht ha hkind

theorem exec_nrd_next (soft : BitVec 2) (set : BitVec 4) : exec (.nrd i d a soft set kind crec) s = .next (
    let addr : BitVec 48 := ((s.ctx i).reg a).extractLsb' 0 48
    let p := (s.ctx i).nandPa a
    let k := effKind (s.ctx i) kind
    let u := s.tagTaken i d tag
    let bad := uprogBad s i.eng (readSlot s p soft.toNat)
    let v := u.when bad (·.seqEvt F.SEQ_EVT.UPROG_ERR i.eng)
    if bad || !readAddrOk v i.eng p then v.tagDone i tag crec opRead stAddress 0 0
    else v.enqueue { op := .read soft.toNat set.toNat false, kind := k, addr := addr, ctx := some (i.key, tag), crec := crec,
                     cmd := (s.ctx i).cmd, cls := if k = 0 then 1 else 4 }) := by
  rw [exec_nrd]
  unfold execNrd
  rw [tagged_of_tag hi (pSeq_of_seq hcls) d crec _ hc ht, paOperand_some ha]
  dsimp only
  rw [if_neg (Nat.not_le.2 hkind)]
  rfl

omit hkind in
/-- A source that cannot be decoded traps (R515). -/
theorem npg_traps_source (hp : PlainTrap s i) {b : BitVec 5} (qlc last : Bool) (hsrc : (Src.of ((s.ctx i).reg b) ((s.ctx i).nandPa a).count).isNone = true) :
    Traps s i (.npg i d a b kind qlc last crec) 0x04 (s.ctx i).pc 0 := by
  refine ⟨(s.tagTaken i d tag).trap i cIllegal (s.ctx i).pc, ?_, trapped_tagTaken hcls hp d tag (by decide) _⟩
  rw [exec_npg]
  unfold execNpg
  rw [tagged_of_tag hi (pSeq_of_seq hcls) d crec _ hc ht, paOperand_some ha]
  dsimp only
  have hnone : (Src.of ((s.ctx i).reg b) (Pa.of (((s.ctx i).reg a).extractLsb' 0 48)).count).isNone = true := hsrc
  rw [if_pos (by rw [hnone, Bool.or_true])]

theorem exec_npg_next {b : BitVec 5} (qlc last : Bool) (hsrc : (Src.of ((s.ctx i).reg b) ((s.ctx i).nandPa a).count).isSome = true) :
    exec (.npg i d a b kind qlc last crec) s = .next (
      let addr : BitVec 48 := ((s.ctx i).reg a).extractLsb' 0 48
      let p := (s.ctx i).nandPa a
      let k := effKind (s.ctx i) kind
      let u := s.tagTaken i d tag
      let fin (st : Nat) (s : State) : State := s.tagDone i tag crec opNpg st 0 0
      let bad := uprogBad s i.eng (if qlc then 4 else 3)
      let v := u.when bad (·.seqEvt F.SEQ_EVT.UPROG_ERR i.eng)
      if k = 3 || k = 5 then fin stDenied v
      else if bad || !paOk v i.eng p true || v.blockSt p.die p.block != 1 || v.blockSlc p.die p.block == qlc ||
          (!qlc && decide (geoPpb v / 4 ≤ p.page)) then fin stAddress v
      else if (v.lun p.die).failed then fin (v.draw.1 % 14) v.draw.2
      else
        let r : NandReq := { op := .npg (!qlc) last ((s.ctx i).reg b), kind := k, addr := addr, ctx := some (i.key, tag), crec := crec,
                             cmd := (s.ctx i).cmd, cls := if k = 0 then 3 else 5 }
        if unitOpen v p.die then v.enqueue r else v.envelope r) := by
  rw [exec_npg]
  unfold execNpg
  rw [tagged_of_tag hi (pSeq_of_seq hcls) d crec _ hc ht, paOperand_some ha]
  dsimp only
  have hnone : (Src.of ((s.ctx i).reg b) (Pa.of (((s.ctx i).reg a).extractLsb' 0 48)).count).isNone = false := Option.isNone_eq_false_iff.2 hsrc
  rw [if_neg (by rw [hnone, decide_eq_false (Nat.not_le.2 hkind)]; decide)]
  rfl

theorem exec_ner_next : exec (.ner i d a kind crec) s = .next (
    let addr : BitVec 48 := ((s.ctx i).reg a).extractLsb' 0 48
    let p := (s.ctx i).nandPa a
    let u := s.tagTaken i d tag
    let fin (st : Nat) (s : State) : State := s.tagDone i tag crec opNer st 0 0
    let bad := uprogBad s i.eng 5
    let v := u.when bad (·.seqEvt F.SEQ_EVT.UPROG_ERR i.eng)
    if bad || !paOk v i.eng p false || v.blockSt p.die p.block == 3 then fin stAddress v
    else if v.blockSt p.die p.block != 2 || blkValid (v.blockW0 p.die p.block) != 0 then fin stDenied v
    else if v.jnl.openSlots.contains (p.die * 2 ^ 15 + p.block) then fin stDenied v.seal
    else if v.blockW1 p.die p.block / 256 % 2 = 1 then fin stDenied (v.retire p.die p.block)
    else if (v.lun p.die).failed then fin (v.draw.1 % 14) v.draw.2
    else v.envelope { op := .erase, kind := effKind (s.ctx i) kind, addr := addr, ctx := some (i.key, tag), crec := crec, cmd := (s.ctx i).cmd, cls := 6 }) := by
  rw [exec_ner]
  unfold execNer
  rw [tagged_of_tag hi (pSeq_of_seq hcls) d crec _ hc ht, paOperand_some ha]
  dsimp only
  rw [if_neg (Nat.not_le.2 hkind)]
  rfl

theorem exec_nsus_next : exec (.nsus i d a ⟨kind, crec⟩) s = .next (
    let die := susDie s i a
    let l := s.lun die
    let u := s.tagTaken i d tag
    let fin (st a : Nat) (s : State) : State := s.tagDone i tag crec opNsus st a 0
    if !s.populated die then fin stAddress 0 u
    else if !l.suspendable then fin stNotSuspended 0 u
    else if suspendLimit s die l.run ≤ l.suspends then fin stSuspendLimit l.suspends u
    else
      let v := (u.setLun die { l with suspended := true, suspBy := some i.key, suspends := l.suspends + 1, served := 0, since := s.ttu.elapsed }).modCtx i fun c =>
        { c with susp := die :: c.susp }
      fin stOk (l.suspends + 1) ((v.count (F.SEQ_CNT_SUSP.COUNT.ix i.eng)).serve die)) := by
  rw [exec_nsus]
  unfold execNsus
  rw [tagged_of_tag hi (pSeq_of_seq hcls) d crec _ hc ht, paOperand_some ha]
  dsimp only
  rw [if_neg (Nat.not_le.2 hkind)]
  rfl

theorem exec_nres_next : exec (.nres i d a ⟨kind, crec⟩) s = .next (
    let die := susDie s i a
    let l := s.lun die
    let u := s.tagTaken i d tag
    let fin (st : Nat) (s : State) : State := s.tagDone i tag crec opNres st 0 0
    if !s.populated die then fin stAddress u
    else if l.suspended && l.suspBy.isSome then
      fin stOk ((u.setLun die { l with suspended := false, suspBy := none, since := s.ttu.elapsed }).modCtx i fun c => { c with susp := c.susp.filter (· != die) })
    else fin stNotSuspended u) := by
  rw [exec_nres]
  unfold execNres
  rw [tagged_of_tag hi (pSeq_of_seq hcls) d crec _ hc ht, paOperand_some ha]
  dsimp only
  rw [if_neg (Nat.not_le.2 hkind)]
  rfl

end

end Sys2Proof.Machine
end

section
/-! SUPPORT. The outcomes of NRD, NPG and NER (R131, R515). -/
namespace Sys2Proof.Machine

/-- The read of an NRD. -/
def State.nrdReq (s : State) (i : CtxId) (a : BitVec 5) (soft : BitVec 2) (set kind : BitVec 4) (crec : BitVec 16) (tag : Nat) : NandReq :=
  { op := .read soft.toNat set.toNat false, kind := effKind (s.ctx i) kind, addr := ((s.ctx i).reg a).extractLsb' 0 48, ctx := some (i.key, tag), crec := crec,
    cmd := (s.ctx i).cmd, cls := if effKind (s.ctx i) kind = 0 then 1 else 4 }

theorem nrdReq_cls (s : State) (i : CtxId) (a : BitVec 5) (soft : BitVec 2) (set kind : BitVec 4) (crec : BitVec 16) (tag : Nat) :
    (s.nrdReq i a soft set kind crec tag).cls = 1 ∨ (s.nrdReq i a soft set kind crec tag).cls = 4 := by
  unfold State.nrdReq
  dsimp only
  split
  · exact .inl rfl
  · exact .inr rfl

theorem recessAfter_dress (s : State) (x : Dress) (n k : Nat) : recessAfter (s.dress x) n k = recessAfter s n k := by
  induction k generalizing n with
  | zero => rfl
  | succ k ih =>
    unfold recessAfter
    rw [ih]
    rfl

theorem recessBefore_dress (s : State) (x : Dress) (n k : Nat) : recessBefore (s.dress x) n k = recessBefore s n k := by
  induction k generalizing n with
  | zero => simp only [recessBefore]
  | succ k ih =>
    unfold recessBefore
    cases n with
    | zero => rfl
    | succ m =>
      dsimp only
      rw [ih]
      rfl

theorem guardOpen_dress (s : State) (x : Dress) : guardOpen (s.dress x) = guardOpen s := by
  unfold guardOpen
  dsimp only
  rw [recessAfter_dress, recessBefore_dress]
  rfl

theorem kindAllowed_dress (s : State) (x : Dress) (die kind : Nat) : kindAllowed (s.dress x) die kind = kindAllowed s die kind := by
  unfold kindAllowed recessOpen
  rw [guardOpen_dress]
  rfl

theorem nrdReq_pa (s : State) (i : CtxId) (a : BitVec 5) (soft : BitVec 2) (set kind : BitVec 4) (crec : BitVec 16) (tag : Nat) :
    Pa.of (s.nrdReq i a soft set kind crec tag).addr = (s.ctx i).nandPa a := rfl

/-- The Period check of a read does not read contexts or queues. -/
theorem readAllowed_queued (s : State) (i : CtxId) (d : BitVec 5) (tag : Nat) (r : NandReq) : readAllowed ((s.tagTaken i d tag).queued r) r = readAllowed s r := by
  have hl := congrArg Lun.unverified (lun_queued (s.tagTaken i d tag) r)
  have hv : verifyRead ((s.tagTaken i d tag).queued r) r = verifyRead s r := by
    unfold verifyRead
    dsimp only
    rw [hl]
    rfl
  have hk : kindAllowed ((s.tagTaken i d tag).queued r) (Pa.of r.addr).die r.kind = kindAllowed s (Pa.of r.addr).die r.kind := by
    obtain ⟨x, hx⟩ := Alike.exists_dress (s := s) (t := (s.tagTaken i d tag).queued r) rfl
    rw [hx, kindAllowed_dress]
  unfold readAllowed
  rw [hv, hk]

/-- The program request of an NPG. -/
def State.npgReq (s : State) (i : CtxId) (a b : BitVec 5) (kind : BitVec 4) (qlc last : Bool) (crec : BitVec 16) (tag : Nat) : NandReq :=
  { op := .npg (!qlc) last ((s.ctx i).reg b), kind := effKind (s.ctx i) kind, addr := ((s.ctx i).reg a).extractLsb' 0 48, ctx := some (i.key, tag), crec := crec,
    cmd := (s.ctx i).cmd, cls := if effKind (s.ctx i) kind = 0 then 3 else 5 }

/-- The erase of a NER. -/
def State.nerReq (s : State) (i : CtxId) (a : BitVec 5) (kind : BitVec 4) (crec : BitVec 16) (tag : Nat) : NandReq :=
  { op := .erase, kind := effKind (s.ctx i) kind, addr := ((s.ctx i).reg a).extractLsb' 0 48, ctx := some (i.key, tag), crec := crec, cmd := (s.ctx i).cmd, cls := 6 }

theorem npgReq_pa (s : State) (i : CtxId) (a b : BitVec 5) (kind : BitVec 4) (qlc last : Bool) (crec : BitVec 16) (tag : Nat) :
    Pa.of (s.npgReq i a b kind qlc last crec tag).addr = (s.ctx i).nandPa a := rfl

/-- The microprogram, the address, the block and its cell mode suit a program. -/
def NpgOk (s : State) (i : CtxId) (p : Pa) (qlc : Bool) : Prop :=
  uprogBad s i.eng (if qlc then 4 else 3) = false ∧ paOk s i.eng p true = true ∧ s.blockSt p.die p.block = 1 ∧ s.blockSlc p.die p.block ≠ qlc ∧
    (qlc = false → p.page < geoPpb s / 4)

/-- The check of NPG (R131, R515). -/
def npgBlocked (s : State) (i : CtxId) (p : Pa) (qlc : Bool) : Bool :=
  uprogBad s i.eng (if qlc then 4 else 3) || !paOk s i.eng p true || s.blockSt p.die p.block != 1 || s.blockSlc p.die p.block == qlc ||
    (!qlc && decide (geoPpb s / 4 ≤ p.page))

theorem npgBlocked_eq_false_iff (s : State) (i : CtxId) (p : Pa) (qlc : Bool) : npgBlocked s i p qlc = false ↔ NpgOk s i p qlc := by
  unfold npgBlocked NpgOk
  cases qlc <;> simp [and_assoc]

theorem npgBlocked_of_ok {s : State} {i : CtxId} {p : Pa} {qlc : Bool} (h : NpgOk s i p qlc) : npgBlocked s i p qlc = false := (npgBlocked_eq_false_iff ..).2 h

theorem npgBlocked_of_not_ok {s : State} {i : CtxId} {p : Pa} {qlc : Bool} (h : ¬ NpgOk s i p qlc) : npgBlocked s i p qlc = true :=
  Bool.eq_true_of_not_eq_false fun e => h ((npgBlocked_eq_false_iff ..).1 e)

/-- An operation that has taken its tag is under way. -/
def Busy (t : State) (i : CtxId) (d : BitVec 5) (tag pc : Nat) : Prop := (t.ctx i).Took d tag pc ∧ (t.ctx i).tags.getLsbD tag = true

theorem Busy.of_zyn {t u : State} {i : CtxId} {d : BitVec 5} {tag pc : Nat} (h : Busy t i d tag pc) (hz : u.zyn = t.zyn) : Busy u i d tag pc := by
  unfold Busy
  rw [ctx_of_zyn hz]
  exact h

theorem when_false (s : State) (f : State → State) : s.when false f = s := rfl
theorem readAddrOk_tagTaken (s : State) (i : CtxId) (d : BitVec 5) (tag e : Nat) (p : Pa) : readAddrOk (s.tagTaken i d tag) e p = readAddrOk s e p := rfl
theorem paOk_tagTaken (s : State) (i : CtxId) (d : BitVec 5) (tag e : Nat) (p : Pa) (r : Bool) : paOk (s.tagTaken i d tag) e p r = paOk s e p r := rfl
theorem blockSt_tagTaken (s : State) (i : CtxId) (d : BitVec 5) (tag die b : Nat) : (s.tagTaken i d tag).blockSt die b = s.blockSt die b := rfl
theorem blockSlc_tagTaken (s : State) (i : CtxId) (d : BitVec 5) (tag die b : Nat) : (s.tagTaken i d tag).blockSlc die b = s.blockSlc die b := rfl
theorem geoPpb_tagTaken (s : State) (i : CtxId) (d : BitVec 5) (tag : Nat) : geoPpb (s.tagTaken i d tag) = geoPpb s := rfl
theorem padBurst_tagTaken (s : State) (i : CtxId) (d : BitVec 5) (tag die : Nat) : padBurst (s.tagTaken i d tag) die = padBurst s die := rfl
theorem findSlots_tagTaken (s : State) (i : CtxId) (d : BitVec 5) (tag c n : Nat) : (s.tagTaken i d tag).findSlots c n = s.findSlots c n := rfl
theorem lun_tagTaken (s : State) (i : CtxId) (d : BitVec 5) (tag die : Nat) : (s.tagTaken i d tag).lun die = s.lun die := rfl

theorem zyn_when_seqEvt (s : State) (c : Bool) (f : Field) (n : Nat) : (s.when c (·.seqEvt f n)).zyn = s.zyn := by cases c <;> rfl

/-- The free status of an operation on a failed LUN fits a record. -/
theorem drawn_lt (n : Nat) : n % 14 < 65536 := (Nat.mod_lt n (by decide)).trans (by decide)

theorem envelope_zyn (s : State) (r : NandReq) : (s.envelope r).zyn = s.zyn := rfl
theorem envelope_envQ (s : State) (r : NandReq) : (s.envelope r).media.envQ = s.media.envQ ++ [r] := rfl

section
variable {s : State} {i : CtxId} (hi : Issues s i 2) {tag : Nat} (ht : (s.ctx i).freeTag = some tag) (d : BitVec 5)
include hi ht

theorem busy_tagTaken : Busy (s.tagTaken i d tag) i d tag ((s.ctx i).pc + 2) := ⟨took_tagTaken hi d tag, tags_tagTaken s i d (freeTag_lt ht)⟩

/-- An operation that has done nothing but take its tag, and report its microprogram, ends with a status. -/
theorem ended_of_zyn {t : State} (hz : t.zyn = (s.tagTaken i d tag).zyn) (crec : BitVec 16) (op : Nat) {st : Nat} (hst : st < 65536) (x y : Nat) :
    Ended (t.tagDone i tag crec op st x y) i d tag ((s.ctx i).pc + 2) crec st :=
  tagDone_ended (ctx_of_zyn hz i ▸ took_tagTaken hi d tag) (freeTag_lt ht) crec op hst x y

end

section
variable {s : State} {i : CtxId} (hi : Issues s i 2) (hcls : i.cls = .seq) {a d : BitVec 5} {kind : BitVec 4} {crec : BitVec 16} (hc : crecOk crec = true)
  {tag : Nat} (ht : (s.ctx i).freeTag = some tag) (ha : ((s.ctx i).reg a).toNat < 2 ^ 48) (hkind : kind.toNat < 8)
include hi hcls hc ht ha hkind

/-! ### NRD -/

section
variable (soft : BitVec 2) (set : BitVec 4)

theorem nrd_ends_of_address (h : ¬ (uprogBad s i.eng (readSlot s ((s.ctx i).nandPa a) soft.toNat) = false ∧
    readAddrOk s i.eng ((s.ctx i).nandPa a) = true)) :
    Gives s (.nrd i d a soft set kind crec) fun t => Ended t i d tag ((s.ctx i).pc + 2) crec 2 := by
  refine ⟨_, exec_nrd_next hi hcls hc ht ha hkind soft set, ?_⟩
  dsimp only
  cases hb : uprogBad s i.eng (readSlot s ((s.ctx i).nandPa a) soft.toNat) with
  | true => exact ended_of_zyn hi ht d (t := State.when _ _ _) (zyn_when_seqEvt ..) crec opRead (by decide) 0 0
  | false =>
    have ho : readAddrOk s i.eng ((s.ctx i).nandPa a) = false := Bool.eq_false_iff.2 fun e => h ⟨hb, e⟩
    rw [when_false, readAddrOk_tagTaken, ho]
    exact ended_of_zyn hi ht d rfl crec opRead (by decide) 0 0

variable (hb : uprogBad s i.eng (readSlot s ((s.ctx i).nandPa a) soft.toNat) = false)
  (ho : readAddrOk s i.eng ((s.ctx i).nandPa a) = true)
include hb ho

theorem exec_nrd_ok : exec (.nrd i d a soft set kind crec) s = .next ((s.tagTaken i d tag).enqueue (s.nrdReq i a soft set kind crec tag)) := by
  rw [exec_nrd_next hi hcls hc ht ha hkind soft set]
  dsimp only
  rw [hb, when_false, readAddrOk_tagTaken, ho]
  rfl

/-- A read of an idle LUN starts, with its slots. -/
theorem nrd_starts {q : Nat} (hpad : padBurst s ((s.ctx i).nandPa a).die = false) (hu : (s.lun ((s.ctx i).nandPa a).die).unit = none)
    (hq : (s.lun ((s.ctx i).nandPa a).die).queue = []) (hf : (s.lun ((s.ctx i).nandPa a).die).failed = false) (hr : (s.lun ((s.ctx i).nandPa a).die).run = .none)
    (hslots : s.findSlots ((s.ctx i).nandPa a).channel ((s.ctx i).nandPa a).count = some q) (hal : readAllowed s (s.nrdReq i a soft set kind crec tag) = true) :
    Gives s (.nrd i d a soft set kind crec) fun t => Busy t i d tag ((s.ctx i).pc + 2) ∧
      (t.lun ((s.ctx i).nandPa a).die).run = .read { s.nrdReq i a soft set kind crec tag with slot := some (stKey ((s.ctx i).nandPa a).channel q) } ∧
      (t.lun ((s.ctx i).nandPa a).die).queue = [] := by
  refine ⟨_, exec_nrd_ok hi hcls hc ht ha hkind soft set hb ho, ?_⟩
  have h := enqueue_runs (s := s.tagTaken i d tag) (r := s.nrdReq i a soft set kind crec tag)
  simp only [nrdReq_pa, lun_tagTaken, padBurst_tagTaken, findSlots_tagTaken, readAllowed_queued] at h
  obtain ⟨h1, h2, h3⟩ := h hpad hu hq (nrdReq_cls ..) hf hr hal rfl rfl hslots
  exact ⟨(busy_tagTaken hi ht d).of_zyn h3, h1, h2⟩

/-- A read of a failed LUN goes to the decoder. -/
theorem nrd_decodes {q : Nat} (hpad : padBurst s ((s.ctx i).nandPa a).die = false) (hu : (s.lun ((s.ctx i).nandPa a).die).unit = none)
    (hq : (s.lun ((s.ctx i).nandPa a).die).queue = []) (hf : (s.lun ((s.ctx i).nandPa a).die).failed = true)
    (hslots : s.findSlots ((s.ctx i).nandPa a).channel ((s.ctx i).nandPa a).count = some q) :
    Gives s (.nrd i d a soft set kind crec) fun t => Busy t i d tag ((s.ctx i).pc + 2) ∧
      t.media.decoding = s.media.decoding ++ [{ req := { s.nrdReq i a soft set kind crec tag with slot := some (stKey ((s.ctx i).nandPa a).channel q) } }] := by
  refine ⟨_, exec_nrd_ok hi hcls hc ht ha hkind soft set hb ho, ?_⟩
  have h := enqueue_decodes (s := s.tagTaken i d tag) (r := s.nrdReq i a soft set kind crec tag)
  simp only [nrdReq_pa, lun_tagTaken, padBurst_tagTaken, findSlots_tagTaken] at h
  obtain ⟨h1, h2⟩ := h hpad hu hq hf rfl rfl hslots
  exact ⟨(busy_tagTaken hi ht d).of_zyn h2, h1⟩

/-- A read whose Period check fails ends. -/
theorem nrd_refused (hpad : padBurst s ((s.ctx i).nandPa a).die = false) (hu : (s.lun ((s.ctx i).nandPa a).die).unit = none)
    (hq : (s.lun ((s.ctx i).nandPa a).die).queue = []) (hf : (s.lun ((s.ctx i).nandPa a).die).failed = false) (hr : (s.lun ((s.ctx i).nandPa a).die).run = .none)
    (hal : readAllowed s (s.nrdReq i a soft set kind crec tag) = false) :
    Gives s (.nrd i d a soft set kind crec) fun t => Ended t i d tag ((s.ctx i).pc + 2) crec 1 := by
  refine ⟨_, exec_nrd_ok hi hcls hc ht ha hkind soft set hb ho, ?_⟩
  have h := enqueue_refused (s := s.tagTaken i d tag) (r := s.nrdReq i a soft set kind crec tag)
  simp only [nrdReq_pa, lun_tagTaken, padBurst_tagTaken, readAllowed_queued] at h
  obtain ⟨u, hz, hu⟩ := h hpad hu hq (nrdReq_cls ..) hf hr hal
  rw [hu]
  exact reqDone_ended hi.1 (r := s.nrdReq i a soft set kind crec tag) rfl rfl (ctx_of_zyn hz i ▸ took_tagTaken hi d tag) (freeTag_lt ht) (by decide) 0 0

/-- A read waits behind the one that its LUN runs. -/
theorem nrd_waits {o : NandReq} (hu : (s.lun ((s.ctx i).nandPa a).die).unit = none) (hf : (s.lun ((s.ctx i).nandPa a).die).failed = false)
    (hr : (s.lun ((s.ctx i).nandPa a).die).run = .read o) :
    Gives s (.nrd i d a soft set kind crec) fun t => Busy t i d tag ((s.ctx i).pc + 2) ∧
      (t.lun ((s.ctx i).nandPa a).die).queue = (s.lun ((s.ctx i).nandPa a).die).queue ++ [s.nrdReq i a soft set kind crec tag] ∧
      (t.lun ((s.ctx i).nandPa a).die).run = (s.lun ((s.ctx i).nandPa a).die).run := by
  refine ⟨_, exec_nrd_ok hi hcls hc ht ha hkind soft set hb ho, ?_⟩
  have h := enqueue_waits (s := s.tagTaken i d tag) (r := s.nrdReq i a soft set kind crec tag) (o := o)
  have hl := lun_queued (s.tagTaken i d tag) (s.nrdReq i a soft set kind crec tag)
  simp only [nrdReq_pa, lun_tagTaken] at h hl
  rw [h hu hf hr]
  exact ⟨busy_tagTaken hi ht d, by rw [hl], by rw [hl]⟩

end

/-! ### NPG -/

section
variable {b : BitVec 5} (qlc last : Bool) (hsrc : (Src.of ((s.ctx i).reg b) ((s.ctx i).nandPa a).count).isSome = true)
include hsrc

/-- Kinds 3 and 5 program nothing. -/
theorem npg_ends_of_kind (hk : effKind (s.ctx i) kind = 3 ∨ effKind (s.ctx i) kind = 5) :
    Gives s (.npg i d a b kind qlc last crec) fun t => Ended t i d tag ((s.ctx i).pc + 2) crec 12 := by
  refine ⟨_, exec_npg_next hi hcls hc ht ha hkind qlc last hsrc, ?_⟩
  dsimp only
  rw [if_pos (by simpa using hk)]
  exact ended_of_zyn hi ht d (zyn_when_seqEvt ..) crec opNpg (by decide) 0 0

variable (h3 : effKind (s.ctx i) kind ≠ 3) (h5 : effKind (s.ctx i) kind ≠ 5)
include h3 h5

theorem npg_ends_of_address (h : ¬ NpgOk s i ((s.ctx i).nandPa a) qlc) :
    Gives s (.npg i d a b kind qlc last crec) fun t => Ended t i d tag ((s.ctx i).pc + 2) crec 2 := by
  refine ⟨_, exec_npg_next hi hcls hc ht ha hkind qlc last hsrc, ?_⟩
  dsimp only
  rw [if_neg (by simp [h3, h5])]
  have hg := npgBlocked_of_not_ok h
  unfold npgBlocked at hg
  cases hb : uprogBad s i.eng (if qlc then 4 else 3) with
  | true => exact ended_of_zyn hi ht d (t := State.when _ _ _) (zyn_when_seqEvt ..) crec opNpg (by decide) 0 0
  | false =>
    rw [hb] at hg
    rw [when_false, paOk_tagTaken, blockSt_tagTaken, blockSlc_tagTaken, geoPpb_tagTaken, if_pos hg]
    exact ended_of_zyn hi ht d rfl crec opNpg (by decide) 0 0

variable (hok : NpgOk s i ((s.ctx i).nandPa a) qlc)
include hok

theorem exec_npg_ok : exec (.npg i d a b kind qlc last crec) s = .next (
    let u := s.tagTaken i d tag
    if (s.lun ((s.ctx i).nandPa a).die).failed then u.draw.2.tagDone i tag crec opNpg (u.draw.1 % 14) 0 0
    else if unitOpen s ((s.ctx i).nandPa a).die then u.enqueue (s.npgReq i a b kind qlc last crec tag)
    else u.envelope (s.npgReq i a b kind qlc last crec tag)) := by
  have hg := npgBlocked_of_ok hok
  have hb := hok.1
  unfold npgBlocked at hg
  rw [exec_npg_next hi hcls hc ht ha hkind qlc last hsrc]
  dsimp only
  rw [hb] at hg
  rw [if_neg (by simp [h3, h5]), hb, when_false, paOk_tagTaken, blockSt_tagTaken, blockSlc_tagTaken, geoPpb_tagTaken, hg]
  rfl

/-- On a failed LUN an NPG ends with some status. -/
theorem npg_fails (hf : (s.lun ((s.ctx i).nandPa a).die).failed = true) :
    Gives s (.npg i d a b kind qlc last crec) fun t => ∃ st, Ended t i d tag ((s.ctx i).pc + 2) crec st := by
  refine ⟨_, exec_npg_ok hi hcls hc ht ha hkind qlc last hsrc h3 h5 hok, ?_⟩
  dsimp only
  rw [hf, if_pos rfl]
  exact ⟨_, ended_of_zyn hi ht d (t := (s.tagTaken i d tag).draw.2) rfl crec opNpg (drawn_lt _) 0 0⟩

variable (hf : (s.lun ((s.ctx i).nandPa a).die).failed = false)
include hf

/-- The first NPG of a unit asks the Envelope for admission. -/
theorem npg_asks (ho : unitOpen s ((s.ctx i).nandPa a).die = false) :
    Gives s (.npg i d a b kind qlc last crec) fun t => Busy t i d tag ((s.ctx i).pc + 2) ∧ t.media.envQ = s.media.envQ ++ [s.npgReq i a b kind qlc last crec tag] := by
  refine ⟨_, exec_npg_ok hi hcls hc ht ha hkind qlc last hsrc h3 h5 hok, ?_⟩
  dsimp only
  rw [hf, ho]
  exact ⟨(busy_tagTaken hi ht d).of_zyn (envelope_zyn ..), envelope_envQ ..⟩

variable (ho : unitOpen s ((s.ctx i).nandPa a).die = true) (hpad : padBurst s ((s.ctx i).nandPa a).die = false) {w : Unit_}
  (hu : (s.lun ((s.ctx i).nandPa a).die).unit = some w) (hq : (s.lun ((s.ctx i).nandPa a).die).queue = [])
include ho

theorem exec_npg_into_unit : exec (.npg i d a b kind qlc last crec) s = .next ((s.tagTaken i d tag).enqueue (s.npgReq i a b kind qlc last crec tag)) := by
  rw [exec_npg_ok hi hcls hc ht ha hkind qlc last hsrc h3 h5 hok, hf, ho]
  rfl

include hpad hu hq

/-- A next NPG that cannot be loaded ends with its status. -/
theorem npg_load_fails {e : Nat} (h : s.npgLoad (s.npgReq i a b kind qlc last crec tag) (!qlc) ((s.ctx i).reg b) = some (.error e)) :
    Gives s (.npg i d a b kind qlc last crec) fun t => Ended t i d tag ((s.ctx i).pc + 2) crec e := by
  refine ⟨_, exec_npg_into_unit hi hcls hc ht ha hkind qlc last hsrc h3 h5 hok hf ho, ?_⟩
  have g := enqueue_npg_error (u := s.tagTaken i d tag) (tagTaken_frame s i d tag) (r := s.npgReq i a b kind qlc last crec tag) (w := w) (last := last)
    (slc := !qlc) (b := (s.ctx i).reg b) (i := i) (tag := tag) (d := d) (pc := (s.ctx i).pc + 2) (e := e)
  simp only [npgReq_pa, lun_tagTaken, padBurst_tagTaken] at g
  exact g hpad hu hq rfl hi.1 rfl rfl (took_tagTaken hi d tag) (freeTag_lt ht) h

/-- A next NPG of a unit loads its codewords and ends. -/
theorem npg_loads {y : List Latched} {z : State} (hl : last = false)
    (h : s.npgLoad (s.npgReq i a b kind qlc last crec tag) (!qlc) ((s.ctx i).reg b) = some (.ok (y, z))) :
    Gives s (.npg i d a b kind qlc last crec) fun t => Ended t i d tag ((s.ctx i).pc + 2) crec 0 ∧
      ∃ v, (t.lun ((s.ctx i).nandPa a).die).unit = some v ∧ v.loaded = w.loaded ++ y := by
  refine ⟨_, exec_npg_into_unit hi hcls hc ht ha hkind qlc last hsrc h3 h5 hok hf ho, ?_⟩
  have g := enqueue_npg_more (u := s.tagTaken i d tag) (tagTaken_frame s i d tag) (r := s.npgReq i a b kind qlc last crec tag) (w := w) (last := last)
    (slc := !qlc) (b := (s.ctx i).reg b) (i := i) (tag := tag) (d := d) (pc := (s.ctx i).pc + 2) (y := y) (z := z)
  simp only [npgReq_pa, lun_tagTaken, padBurst_tagTaken] at g
  exact g hpad hu hq rfl hi.1 rfl rfl (took_tagTaken hi d tag) (freeTag_lt ht) hl h

/-- The last NPG of a unit loads its codewords and starts the program. -/
theorem npg_programs {y : List Latched} {z : State} (hl : last = true)
    (h : s.npgLoad (s.npgReq i a b kind qlc last crec tag) (!qlc) ((s.ctx i).reg b) = some (.ok (y, z))) :
    Gives s (.npg i d a b kind qlc last crec) fun t => Busy t i d tag ((s.ctx i).pc + 2) ∧
      ∃ v, (t.lun ((s.ctx i).nandPa a).die).run = .program v ∧ v.loaded = w.loaded ++ y ∧ (t.lun ((s.ctx i).nandPa a).die).unit = none := by
  refine ⟨_, exec_npg_into_unit hi hcls hc ht ha hkind qlc last hsrc h3 h5 hok hf ho, ?_⟩
  have g := enqueue_npg_last (u := s.tagTaken i d tag) (tagTaken_frame s i d tag) (r := s.npgReq i a b kind qlc last crec tag) (w := w) (last := last)
    (slc := !qlc) (b := (s.ctx i).reg b) (i := i) (d := d) (tag := tag) (pc := (s.ctx i).pc + 2) (y := y) (z := z)
  simp only [npgReq_pa, lun_tagTaken, padBurst_tagTaken] at g
  obtain ⟨h1, h2, h3⟩ := g hpad hu hq rfl (took_tagTaken hi d tag) hl hf h
  exact ⟨⟨h1, by rw [h2]; exact (busy_tagTaken hi ht d).2⟩, h3⟩

end

/-! ### NER -/

/-- The microprogram and the address suit an erase, and the block is not retired. -/
def NerOk (s : State) (i : CtxId) (p : Pa) : Prop := uprogBad s i.eng 5 = false ∧ paOk s i.eng p false = true ∧ s.blockSt p.die p.block ≠ 3

theorem ner_ends_of_address (h : ¬ NerOk s i ((s.ctx i).nandPa a)) : Gives s (.ner i d a kind crec) fun t => Ended t i d tag ((s.ctx i).pc + 2) crec 2 := by
  refine ⟨_, exec_ner_next hi hcls hc ht ha hkind, ?_⟩
  dsimp only
  cases hb : uprogBad s i.eng 5 with
  | true => exact ended_of_zyn hi ht d (t := State.when _ _ _) (zyn_when_seqEvt ..) crec opNer (by decide) 0 0
  | false =>
    rw [when_false, paOk_tagTaken, blockSt_tagTaken, if_pos]
    · exact ended_of_zyn hi ht d rfl crec opNer (by decide) 0 0
    · by_contra hn
      refine h ⟨hb, ?_⟩
      simpa using hn

section
variable (hok : NerOk s i ((s.ctx i).nandPa a))
include hok

theorem exec_ner_ok : exec (.ner i d a kind crec) s = .next (
    let p := (s.ctx i).nandPa a
    let u := s.tagTaken i d tag
    let fin (st : Nat) (s : State) : State := s.tagDone i tag crec opNer st 0 0
    if s.blockSt p.die p.block != 2 || blkValid (s.blockW0 p.die p.block) != 0 then fin stDenied u
    else if s.jnl.openSlots.contains (p.die * 2 ^ 15 + p.block) then fin stDenied u.seal
    else if s.blockW1 p.die p.block / 256 % 2 = 1 then fin stDenied (u.retire p.die p.block)
    else if (s.lun p.die).failed then fin (u.draw.1 % 14) u.draw.2
    else u.envelope (s.nerReq i a kind crec tag)) := by
  obtain ⟨hb, hp, hst⟩ := hok
  rw [exec_ner_next hi hcls hc ht ha hkind]
  dsimp only
  rw [hb, when_false, paOk_tagTaken, blockSt_tagTaken, hp, if_neg (by simpa using hst)]
  rfl

/-- A block that is not closed, or still holds valid pages, is not erased. -/
theorem ner_denied (h : ¬ (s.blockSt ((s.ctx i).nandPa a).die ((s.ctx i).nandPa a).block = 2 ∧
    blkValid (s.blockW0 ((s.ctx i).nandPa a).die ((s.ctx i).nandPa a).block) = 0)) :
    Gives s (.ner i d a kind crec) fun t => Ended t i d tag ((s.ctx i).pc + 2) crec 12 := by
  refine ⟨_, exec_ner_ok hi hcls hc ht ha hkind hok, ?_⟩
  dsimp only
  rw [if_pos]
  · exact ended_of_zyn hi ht d rfl crec opNer (by decide) 0 0
  · by_contra hn
    exact h (by simpa using hn)

variable (h2 : s.blockSt ((s.ctx i).nandPa a).die ((s.ctx i).nandPa a).block = 2)
  (hv : blkValid (s.blockW0 ((s.ctx i).nandPa a).die ((s.ctx i).nandPa a).block) = 0)
  (hn : ¬ ((s.ctx i).nandPa a).die * 2 ^ 15 + ((s.ctx i).nandPa a).block ∈ s.jnl.openSlots)
  (hbad : ¬ s.blockW1 ((s.ctx i).nandPa a).die ((s.ctx i).nandPa a).block / 256 % 2 = 1)
include h2 hv hn hbad

theorem exec_ner_free : exec (.ner i d a kind crec) s = .next (
    let u := s.tagTaken i d tag
    if (s.lun ((s.ctx i).nandPa a).die).failed then u.draw.2.tagDone i tag crec opNer (u.draw.1 % 14) 0 0
    else u.envelope (s.nerReq i a kind crec tag)) := by
  rw [exec_ner_ok hi hcls hc ht ha hkind hok]
  dsimp only
  rw [if_neg (by simp [h2, hv]), if_neg (by simpa using hn), if_neg hbad]

/-- On a failed LUN an erase ends with some status. -/
theorem ner_fails (hf : (s.lun ((s.ctx i).nandPa a).die).failed = true) :
    Gives s (.ner i d a kind crec) fun t => ∃ st, Ended t i d tag ((s.ctx i).pc + 2) crec st := by
  refine ⟨_, exec_ner_free hi hcls hc ht ha hkind hok h2 hv hn hbad, ?_⟩
  dsimp only
  rw [hf, if_pos rfl]
  exact ⟨_, ended_of_zyn hi ht d (t := (s.tagTaken i d tag).draw.2) rfl crec opNer (drawn_lt _) 0 0⟩

/-- An erase asks the Envelope for admission. -/
theorem ner_asks (hf : (s.lun ((s.ctx i).nandPa a).die).failed = false) :
    Gives s (.ner i d a kind crec) fun t => Busy t i d tag ((s.ctx i).pc + 2) ∧ t.media.envQ = s.media.envQ ++ [s.nerReq i a kind crec tag] := by
  refine ⟨_, exec_ner_free hi hcls hc ht ha hkind hok h2 hv hn hbad, ?_⟩
  dsimp only
  rw [hf]
  exact ⟨(busy_tagTaken hi ht d).of_zyn (envelope_zyn ..), envelope_envQ ..⟩

end

end

end Sys2Proof.Machine
end

section
/-! SUPPORT. The outcomes of NSUS and NRES (R132). -/
namespace Sys2Proof.Machine

theorem run_of_suspendable {l : Lun} (h : l.suspendable = true) : l.run ≠ .none := by
  intro e
  simp [Lun.suspendable, e] at h

section
variable {s : State} {i : CtxId} (hi : Issues s i 2) (hcls : i.cls = .seq) {a d : BitVec 5} {kind : BitVec 4} {crec : BitVec 16} (hc : crecOk crec = true)
  {tag : Nat} (ht : (s.ctx i).freeTag = some tag) (ha : ((s.ctx i).reg a).toNat < 2 ^ 48) (hkind : kind.toNat < 8)
include hi hcls hc ht ha hkind

theorem susp_ends_of_address (h : s.populated (susDie s i a) = false) :
    Gives s (.nsus i d a ⟨kind, crec⟩) (Ended · i d tag ((s.ctx i).pc + 2) crec 2) ∧ Gives s (.nres i d a ⟨kind, crec⟩) (Ended · i d tag ((s.ctx i).pc + 2) crec 2) := by
  refine ⟨⟨_, exec_nsus_next hi hcls hc ht ha hkind, ?_⟩, ⟨_, exec_nres_next hi hcls hc ht ha hkind, ?_⟩⟩
  · dsimp only
    rw [h]
    exact ended_of_zyn hi ht d rfl crec opNsus (by decide) 0 0
  · dsimp only
    rw [h]
    exact ended_of_zyn hi ht d rfl crec opNres (by decide) 0 0

variable (hp : s.populated (susDie s i a) = true)
include hp

theorem nsus_ends_of_idle (h : (s.lun (susDie s i a)).suspendable = false) : Gives s (.nsus i d a ⟨kind, crec⟩) (Ended · i d tag ((s.ctx i).pc + 2) crec 9) := by
  refine ⟨_, exec_nsus_next hi hcls hc ht ha hkind, ?_⟩
  dsimp only
  rw [hp, h]
  exact ended_of_zyn hi ht d rfl crec opNsus (by decide) 0 0

theorem nsus_ends_of_limit (h : (s.lun (susDie s i a)).suspendable = true)
    (hl : suspendLimit s (susDie s i a) (s.lun (susDie s i a)).run ≤ (s.lun (susDie s i a)).suspends) :
    Gives s (.nsus i d a ⟨kind, crec⟩) (Ended · i d tag ((s.ctx i).pc + 2) crec 8) := by
  refine ⟨_, exec_nsus_next hi hcls hc ht ha hkind, ?_⟩
  dsimp only
  rw [hp, h, if_pos hl]
  exact ended_of_zyn hi ht d rfl crec opNsus (by decide) _ 0

theorem nres_ends_of_running (h : (s.lun (susDie s i a)).suspended = false ∨ (s.lun (susDie s i a)).suspBy = none) :
    Gives s (.nres i d a ⟨kind, crec⟩) (Ended · i d tag ((s.ctx i).pc + 2) crec 9) := by
  refine ⟨_, exec_nres_next hi hcls hc ht ha hkind, ?_⟩
  have hg : ((s.lun (susDie s i a)).suspended && (s.lun (susDie s i a)).suspBy.isSome) = false := by
    obtain h | h := h <;> simp [h]
  dsimp only
  rw [hp, hg]
  exact ended_of_zyn hi ht d rfl crec opNres (by decide) 0 0

/-- An operation that NSUS suspended resumes. -/
theorem nres_resumes (h1 : (s.lun (susDie s i a)).suspended = true) (h2 : (s.lun (susDie s i a)).suspBy.isSome = true) :
    Gives s (.nres i d a ⟨kind, crec⟩) fun t => Ended t i d tag ((s.ctx i).pc + 2) crec 0 ∧ (t.lun (susDie s i a)).suspended = false ∧
      (t.lun (susDie s i a)).run = (s.lun (susDie s i a)).run := by
  refine ⟨_, exec_nres_next hi hcls hc ht ha hkind, ?_⟩
  dsimp only
  rw [hp, h1, h2, Bool.not_true, if_neg Bool.false_ne_true, Bool.and_self, if_pos rfl]
  generalize hu : State.setLun _ _ _ = u
  have hl : u.lun (susDie s i a) = { s.lun (susDie s i a) with suspended := false, suspBy := none, since := s.ttu.elapsed } := by rw [← hu, lun_setLun_same]
  have hk : (u.ctx i).Took d tag ((s.ctx i).pc + 2) := by rw [← hu]; exact took_tagTaken hi d tag
  generalize hv : u.modCtx i _ = v
  have hvl (e : Nat) : v.lun e = u.lun e := by rw [← hv]; rfl
  have hvk : (v.ctx i).Took d tag ((s.ctx i).pc + 2) := by
    rw [← hv]
    exact took_modCtx hk _ _ (fun _ => rfl) (fun _ => rfl) (fun _ => rfl)
  have hd := (tagDone_offZyn v i tag crec opNres stOk 0 0).lun (susDie s i a)
  rw [hvl, hl] at hd
  rw [hd]
  exact ⟨tagDone_ended hvk (freeTag_lt ht) crec opNres (by decide) 0 0, rfl, rfl⟩

/-- A running program or erase is suspended, and the suspend is counted (R264). -/
theorem nsus_suspends (h : (s.lun (susDie s i a)).suspendable = true)
    (hl : (s.lun (susDie s i a)).suspends < suspendLimit s (susDie s i a) (s.lun (susDie s i a)).run) (hu : (s.lun (susDie s i a)).unit = none) :
    Gives s (.nsus i d a ⟨kind, crec⟩) fun t => Ended t i d tag ((s.ctx i).pc + 2) crec 0 ∧ (t.lun (susDie s i a)).suspended = true ∧
      (t.lun (susDie s i a)).suspends = (s.lun (susDie s i a)).suspends + 1 ∧ (t.lun (susDie s i a)).run = (s.lun (susDie s i a)).run ∧
      t.fld (F.SEQ_CNT_SUSP.COUNT.ix i.eng) = min (s.fld (F.SEQ_CNT_SUSP.COUNT.ix i.eng) + 1) 0xFFFFFFFF := by
  refine ⟨_, exec_nsus_next hi hcls hc ht ha hkind, ?_⟩
  dsimp only
  rw [hp, h, Bool.not_true, if_neg Bool.false_ne_true, if_neg Bool.false_ne_true, if_neg (Nat.not_le.2 hl)]
  generalize hx : State.setLun _ _ _ = u
  have hlun : u.lun (susDie s i a) =
      { s.lun (susDie s i a) with suspended := true, suspBy := some i.key, suspends := (s.lun (susDie s i a)).suspends + 1, served := 0, since := s.ttu.elapsed } := by
    rw [← hx, lun_setLun_same]
  have hk : (u.ctx i).Took d tag ((s.ctx i).pc + 2) := by rw [← hx]; exact took_tagTaken hi d tag
  have hf (f : Field) : u.fld f = s.fld f := by rw [← hx]; rfl
  generalize hv : u.modCtx i _ = v
  have hvk : (v.ctx i).Took d tag ((s.ctx i).pc + 2) := by
    rw [← hv]
    exact took_modCtx hk _ _ (fun _ => rfl) (fun _ => rfl) (fun _ => rfl)
  have hvl (e : Nat) : v.lun e = u.lun e := by rw [← hv]; rfl
  have hvf (f : Field) : v.fld f = s.fld f := by rw [← hf, ← hv]; rfl
  generalize hw : v.count _ = w
  have hwl : w.lun (susDie s i a) = u.lun (susDie s i a) := by rw [← hvl, ← hw]; rfl
  have hwk : (w.ctx i).Took d tag ((s.ctx i).pc + 2) := by rw [← hw]; exact hvk
  have hwf : w.fld (F.SEQ_CNT_SUSP.COUNT.ix i.eng) = min (s.fld (F.SEQ_CNT_SUSP.COUNT.ix i.eng) + 1) 0xFFFFFFFF := by
    rw [← hw, ← hvf]
    exact fld_setFld_self v (by simp [Field.ix, F.SEQ_CNT_SUSP.COUNT]) (by simp only [Field.ix, F.SEQ_CNT_SUSP.COUNT]; omega)
  have hst := serve_stands (s := w) (die := susDie s i a) (by rw [hwl, hlun]; exact hu) (by rw [hwl, hlun]; exact run_of_suspendable (l := s.lun (susDie s i a)) h) hwk
  generalize w.serve (susDie s i a) = z at hst
  obtain ⟨⟨-, h2, h3, h4, -⟩, hr, hvar, htook⟩ := hst
  have hd := tagDone_offZyn z i tag crec opNsus stOk ((s.lun (susDie s i a)).suspends + 1) 0
  rw [hwl, hlun] at h2 h3 h4
  refine ⟨tagDone_ended htook (freeTag_lt ht) crec opNsus (by decide) _ 0, ?_, ?_, ?_, ?_⟩
  · rw [hd.lun]; exact h3
  · rw [hd.lun]; exact h4
  · rw [hd.lun]; exact h2
  · rw [hd.fld, ← hwf]
    exact fld_congr (by unfold State.reg; rw [hr, hvar])

end

/-! ### Outcomes as the obligation words them -/

theorem Ended.parts {t : State} {i : CtxId} {d : BitVec 5} {tag pc : Nat} {crec : BitVec 16} {st : Nat} (h : Ended t i d tag pc crec st) :
    ((t.ctx i).reg d = BitVec.ofNat 64 tag ∧ (t.ctx i).pc = pc) ∧ (t.ctx i).tags.getLsbD tag = false ∧ (t.ctx i).events.getLsbD tag = true ∧
      (crec ≠ 0xFFFF → t.scratchN i.part crec.toNat 2 = st) := by
  obtain ⟨⟨-, hreg, hpc⟩, h⟩ := h
  exact ⟨⟨hreg, hpc⟩, h⟩

theorem Busy.parts {t : State} {i : CtxId} {d : BitVec 5} {tag pc : Nat} (h : Busy t i d tag pc) :
    ((t.ctx i).reg d = BitVec.ofNat 64 tag ∧ (t.ctx i).pc = pc) ∧ (t.ctx i).tags.getLsbD tag = true := by
  obtain ⟨⟨-, hreg, hpc⟩, h⟩ := h
  exact ⟨⟨hreg, hpc⟩, h⟩

end Sys2Proof.Machine

open Sys2Proof Sys2Proof.Machine in
/-- Settles O53: the operations share their traps and the tag they take; what an NPG loads is computed from neither contexts nor LUNs, and a block taken for the
parity of a stripe keeps the LUNs and the issuing context. -/
theorem zynNandOperations : Obligations.ZynNandOperations := by
  unfold Obligations.ZynNandOperations
  intro s i d a b kind set soft qlc last crec hi hcls c addr nrd npg ner nsus nres all traps k p l w0
  refine ⟨fun hc x hx hp => nandOp_traps_badRecord hi hcls hx hp hc, fun hc ht x hx hp => nandOp_traps_noTag hi hcls hx hp hc ht, ?_⟩
  intro tag hc ht took busy ended ends
  have fin {x : Instr} {st : Nat} (h : Gives s x fun t => Ended t i d tag (c.pc + 2) crec st) : ends x st := h.imp fun _ => Ended.parts
  refine ⟨fun ha x hx hp => nandOp_traps_address hi hcls hx hp hc ht ha, fun ha hk x hx hp => nandOp_traps_kind hi hcls hx hp hc ht ha hk, ?_⟩
  intro ha hk
  refine ⟨⟨?_, ?_, ?_, ?_⟩, ?_, ?_, ?_, ?_⟩
  · exact fun hok => fin (nrd_ends_of_address hi hcls hc ht ha hk soft set hok)
  · rintro q ⟨hb, ho⟩ hpad hu hq hslots
    refine ⟨fun hf hr hal => ?_, fun hf => ?_⟩
    · refine (nrd_starts hi hcls hc ht ha hk soft set hb ho hpad hu hq hf hr hslots hal).imp fun t h => ?_
      exact ⟨h.1.parts, h.2⟩
    · refine (nrd_decodes hi hcls hc ht ha hk soft set hb ho hpad hu hq hf hslots).imp fun t h => ?_
      exact ⟨h.1.parts, h.2⟩
  · rintro ⟨hb, ho⟩ hpad hu hq hf hr hal
    exact fin (nrd_refused hi hcls hc ht ha hk soft set hb ho hpad hu hq hf hr hal)
  · rintro o ⟨hb, ho⟩ hf hu hr
    refine (nrd_waits hi hcls hc ht ha hk soft set hb ho hu hf hr).imp fun t h => ?_
    exact ⟨h.1.parts, h.2⟩
  · exact fun hsrc hp => npg_traps_source hi hcls hc ht ha hp qlc last hsrc
  · intro hsrc ok
    refine ⟨fun hkind => fin (npg_ends_of_kind hi hcls hc ht ha hk qlc last hsrc hkind), fun h3 h5 => ⟨?_, ?_, ?_, ?_⟩⟩
    · exact fun hok => fin (npg_ends_of_address hi hcls hc ht ha hk qlc last hsrc h3 h5 hok)
    · intro hok hf
      refine (npg_fails hi hcls hc ht ha hk qlc last hsrc h3 h5 hok hf).imp fun t h => ?_
      obtain ⟨st, h⟩ := h
      exact ⟨h.parts.1, h.parts.2.2.1⟩
    · intro hok hf ho
      refine (npg_asks hi hcls hc ht ha hk qlc last hsrc h3 h5 hok hf ho).imp fun t h => ?_
      exact ⟨h.1.parts, _, h.2, rfl, rfl, rfl, rfl⟩
    · intro u hok hf ho hpad hu hq r
      refine ⟨fun e h => fin (npg_load_fails hi hcls hc ht ha hk qlc last hsrc h3 h5 hok hf ho hpad hu hq h), fun y z h => ⟨fun hl => ?_, fun hl => ?_⟩⟩
      · refine (npg_loads hi hcls hc ht ha hk qlc last hsrc h3 h5 hok hf ho hpad hu hq hl h).imp fun t g => ?_
        exact ⟨g.1.parts, g.2⟩
      · refine (npg_programs hi hcls hc ht ha hk qlc last hsrc h3 h5 hok hf ho hpad hu hq hl h).imp fun t g => ?_
        exact ⟨g.1.parts, g.2⟩
  · intro ok free named bad
    refine ⟨fun hok => fin (ner_ends_of_address hi hcls hc ht ha hk hok), fun hok hf => fin (ner_denied hi hcls hc ht ha hk hok hf), fun hok _ _ =>
      ⟨_, exec_ner_ok hi hcls hc ht ha hk hok⟩, fun hok hf hn hb hfail => ?_, fun hok hf hn hb hfail => ?_⟩
    · refine (ner_fails hi hcls hc ht ha hk hok hf.1 hf.2 hn hb hfail).imp fun t h => ?_
      obtain ⟨st, h⟩ := h
      exact ⟨h.parts.1, h.parts.2.2.1⟩
    · refine (ner_asks hi hcls hc ht ha hk hok hf.1 hf.2 hn hb hfail).imp fun t h => ?_
      exact ⟨h.1.parts, _, h.2, rfl, rfl, rfl, rfl⟩
  · intro e y n
    refine ⟨fun hp => ?_, fun hp => ⟨?_, ?_, ?_, ?_, ?_⟩⟩
    · obtain ⟨h1, h2⟩ := susp_ends_of_address hi hcls hc ht ha hk hp
      exact ⟨fin h1, fin h2⟩
    · exact fun h => fin (nsus_ends_of_idle hi hcls hc ht ha hk hp h)
    · exact fun h hl => fin (nsus_ends_of_limit hi hcls hc ht ha hk hp h hl)
    · intro h hl hu
      refine (nsus_suspends hi hcls hc ht ha hk hp h hl hu).imp fun t g => ?_
      exact ⟨g.1.parts, g.2⟩
    · intro h1 h2
      refine (nres_resumes hi hcls hc ht ha hk hp h1 h2).imp fun t g => ?_
      exact ⟨g.1.parts, g.2⟩
    · exact fun h => fin (nres_ends_of_running hi hcls hc ht ha hk hp h)
end
